-- ==== Sys2Proof/Word.lean ====
section
/-! DEFINITION. The widths of R6: bytes, 16-bit halves, the 18-bit device word, dwords and qwords. -/

namespace Sys2Proof

/-- A data byte. -/
abbrev Byte := BitVec 8

/-- Sixteen data bits: the data of one device word (R6). -/
abbrev Half := BitVec 16

/-- The native word of R6: data in bits 15 to 0, parity of the low byte in bit 16, of the high byte in bit 17 (R460). -/
abbrev Word18 := BitVec 18

/-- A 32-bit register value (R6). -/
abbrev DWord := BitVec 32

/-- A 64-bit value (R6). -/
abbrev QWord := BitVec 64

end Sys2Proof
end

