-- ==== Sys2Proof/Machine/Bits.lean ====
section
/-! DEFINITION. Bit fields of registers (R8), parity of a word (R460), byte order of dwords, and lists kept in
rising order of a key. -/

namespace Sys2Proof.Machine

/-- The field `[lo + n - 1 : lo]` of a value, as a number. -/
def fieldNat {w : Nat} (x : BitVec w) (lo n : Nat) : Nat := (x.toNat / 2 ^ lo) % 2 ^ n

/-- One bit of a value. -/
def bitOf {w : Nat} (x : BitVec w) (i : Nat) : Bool := x.getLsbD i

/-- A dword that holds a number in the field `[lo + n - 1 : lo]` and zero elsewhere. -/
def putField (v lo n : Nat) : DWord := BitVec.ofNat 32 ((v % 2 ^ n) * 2 ^ lo)

/-- A dword with one bit set when `b` holds. -/
def putBit (b : Bool) (i : Nat) : DWord := if b then BitVec.ofNat 32 (2 ^ i) else 0

/-- `old` with the field `[lo + n - 1 : lo]` taken from `new`. -/
def setField (old new : DWord) (lo n : Nat) : DWord :=
  let m : DWord := BitVec.ofNat 32 ((2 ^ n - 1) * 2 ^ lo)
  (old &&& ~~~m) ||| (new &&& m)

/-- A dword with bit `i` set wherever `f i` holds, for `i` below `n`. -/
def bitsOf (n : Nat) (f : Nat → Bool) : DWord :=
  (List.range n).foldl (fun acc i => acc ||| putBit (f i) i) 0

/-- The low half of a dword. -/
def loHalf (x : DWord) : Half := x.setWidth 16

/-- The high half of a dword. -/
def hiHalf (x : DWord) : Half := (x >>> 16).setWidth 16

/-- A dword from its high and low halves. -/
def ofHalves (hi lo : Half) : DWord := (hi.setWidth 32) <<< 16 ||| lo.setWidth 32

/-- The low dword of a qword. -/
def loDWord (x : QWord) : DWord := x.setWidth 32

/-- The high dword of a qword. -/
def hiDWord (x : QWord) : DWord := (x >>> 32).setWidth 32

/-- A qword from its high and low dwords. -/
def ofDWords (hi lo : DWord) : QWord := (hi.setWidth 64) <<< 32 ||| lo.setWidth 64

/-- The four bytes of a dword, lowest first (little-endian). -/
def bytesOfDWord (x : DWord) : List Byte :=
  [x.setWidth 8, (x >>> 8).setWidth 8, (x >>> 16).setWidth 8, (x >>> 24).setWidth 8]

/-- A dword from four bytes, lowest first; missing bytes are zero. -/
def dwordOfBytes (bs : List Byte) : DWord :=
  bs.foldr (fun b acc => (acc <<< 8) ||| b.setWidth 32) 0

/-- The odd parity bit of a byte: set when the byte holds an even number of ones (R460). -/
def parityBit (b : Byte) : Bool :=
  ((List.range 8).foldl (fun acc i => if b.getLsbD i then !acc else acc) true)

/-- The low byte of a half. -/
def lowByte (d : Half) : Byte := d.setWidth 8

/-- The high byte of a half. -/
def highByte (d : Half) : Byte := (d >>> 8).setWidth 8

/-- A half from its high and low bytes. -/
def halfOfBytes (hi lo : Byte) : Half := (hi.setWidth 16) <<< 8 ||| lo.setWidth 16

/-- Value of a key in an association list kept in rising key order. -/
def assocGet {α : Type} (l : List (Nat × α)) (k : Nat) : Option α :=
  match l with
  | [] => none
  | (k', v) :: t => if k' = k then some v else assocGet t k

/-- The list with key `k` absent. -/
def assocErase {α : Type} (l : List (Nat × α)) (k : Nat) : List (Nat × α) :=
  match l with
  | [] => []
  | (k', v) :: t => if k' = k then t else (k', v) :: assocErase t k

/-- The list with key `k` at value `v`, in its place of the rising order. -/
def assocPut {α : Type} (l : List (Nat × α)) (k : Nat) (v : α) : List (Nat × α) :=
  match l with
  | [] => [(k, v)]
  | (k', v') :: t =>
    if k < k' then (k, v) :: (k', v') :: t
    else if k = k' then (k, v) :: t
    else (k', v') :: assocPut t k v

/-- The rising list of numbers with `k` in it. -/
def setInsert (l : List Nat) (k : Nat) : List Nat :=
  match l with
  | [] => [k]
  | a :: t => if k < a then k :: a :: t else if k = a then a :: t else a :: setInsert t k

/-- The rising list of numbers without `k`. -/
def setErase (l : List Nat) (k : Nat) : List Nat :=
  match l with
  | [] => []
  | a :: t => if a = k then t else a :: setErase t k

end Sys2Proof.Machine
end

