-- ==== Sys2Proof/Machine/Ids.lean ====
section
/-! DEFINITION. Names of the things the manual numbers: host links, functions, requesters (Table 5.1), modes
(Table 3.1), completion statuses (Table 8.9). -/

namespace Sys2Proof.Machine

/-- The two host links. -/
inductive Link where
  | a
  | b
deriving DecidableEq, Repr

/-- HLA is 0 and HLB is 1. -/
def Link.idx : Link → Fin 2
  | .a => 0
  | .b => 1

/-- The link of a HOME bit. -/
def Link.ofBool : Bool → Link
  | false => .a
  | true => .b

/-- The other link. -/
def Link.other : Link → Link
  | .a => .b
  | .b => .a

/-- The functions that own rings: the two managers, the bridge host and the fifteen Buoys; `buoy i` is Buoy `i + 1`. -/
inductive Func where
  | mfA
  | mfB
  | bridge
  | buoy (i : Fin 15)
deriving DecidableEq, Repr

/-- Position of a function in the tables of the state. -/
def Func.idx : Func → Fin 18
  | .mfA => 0
  | .mfB => 1
  | .bridge => 2
  | .buoy i => ⟨i.val + 3, by omega⟩

/-- Every function, in the order of its code. -/
def Func.all : List Func :=
  [.mfA, .mfB, .bridge] ++ (List.finRange 15).map Func.buoy

/-- The code of Table 5.1 of a function. -/
def Func.code : Func → Nat
  | .mfA => 0x00
  | .mfB => 0x01
  | .bridge => 0x02
  | .buoy i => 0x21 + i.val

/-- The function a code of Table 5.1 names, if it names one. -/
def Func.ofCode (c : Nat) : Option Func :=
  if c = 0 then some .mfA
  else if c = 1 then some .mfB
  else if c = 2 then some .bridge
  else if h : 0x21 ≤ c ∧ c ≤ 0x2F then some (.buoy ⟨c - 0x21, by omega⟩)
  else none

/-- Whether a function is a Buoy. -/
def Func.isBuoy : Func → Bool
  | .buoy _ => true
  | _ => false

/-- The Manager function of a link. -/
def Func.manager : Link → Func
  | .a => .mfA
  | .b => .mfB

/-- The requesters of Table 5.1. -/
inductive Requester where
  | mfA
  | mfB
  | bridge
  | smbus
  | jtag
  | bootRom
  | keeper (k : Fin 12)
  | buoy (i : Fin 15)
deriving DecidableEq, Repr

/-- The code of Table 5.1 (R117). -/
def Requester.code : Requester → Nat
  | .mfA => 0x00
  | .mfB => 0x01
  | .bridge => 0x02
  | .smbus => 0x03
  | .jtag => 0x04
  | .bootRom => 0x05
  | .keeper k => 0x10 + k.val
  | .buoy i => 0x21 + i.val

/-- Position of a requester in the tables of the state. -/
def Requester.idx : Requester → Fin 33
  | .mfA => 0
  | .mfB => 1
  | .bridge => 2
  | .smbus => 3
  | .jtag => 4
  | .bootRom => 5
  | .keeper k => ⟨k.val + 6, by omega⟩
  | .buoy i => ⟨i.val + 18, by omega⟩

/-- The requester a function is. -/
def Func.requester : Func → Requester
  | .mfA => .mfA
  | .mfB => .mfB
  | .bridge => .bridge
  | .buoy i => .buoy i

/-- The function a requester is, if it is one. -/
def Requester.func : Requester → Option Func
  | .mfA => some .mfA
  | .mfB => some .mfB
  | .bridge => some .bridge
  | .buoy i => some (.buoy i)
  | _ => none

/-- The twelve top-level modes (R74). -/
inductive Mode where
  | dark
  | wick
  | kindle
  | standby
  | lit
  | bridge
  | night
  | shed
  | safe
  | relight
  | update
  | service
deriving DecidableEq, Repr

/-- The code of a mode in TOP_MODE (Table 3.1). -/
def Mode.code : Mode → Nat
  | .dark => 0
  | .wick => 1
  | .kindle => 2
  | .standby => 3
  | .lit => 4
  | .bridge => 5
  | .night => 6
  | .shed => 7
  | .safe => 8
  | .relight => 9
  | .update => 10
  | .service => 11

/-- Completion status codes (Table 8.9). -/
inductive Status where
  | success
  | short
  | stall
  | babble
  | xactError
  | splitError
  | missed
  | gone
  | malformed
  | poisoned
  | duplicate
  | keeperLost
  | watchExpired
  | doubleWindow
  | bandwidthRefused
  | notOwner
  | frozenMissed
  | dmaError
  | ringUnbound
deriving DecidableEq, Repr

/-- The code of a completion status (Table 8.9). -/
def Status.code : Status → Nat
  | .success => 0x01
  | .short => 0x02
  | .stall => 0x03
  | .babble => 0x04
  | .xactError => 0x05
  | .splitError => 0x06
  | .missed => 0x07
  | .gone => 0x08
  | .malformed => 0x09
  | .poisoned => 0x0A
  | .duplicate => 0x0B
  | .keeperLost => 0x0C
  | .watchExpired => 0x0D
  | .doubleWindow => 0x0E
  | .bandwidthRefused => 0x0F
  | .notOwner => 0x10
  | .frozenMissed => 0x11
  | .dmaError => 0x12
  | .ringUnbound => 0x13

/-- A count-and-acknowledge register (R121). -/
structure CntAck where
  cnt : BitVec 16 := 0
  ack : BitVec 16 := 0
deriving DecidableEq, Repr

/-- One occurrence: CNT rises unless it would equal ACK (R121). -/
def CntAck.bump (c : CntAck) : CntAck :=
  if c.cnt + 1 = c.ack then c else { c with cnt := c.cnt + 1 }

/-- The level behind the register's event: CNT differs from ACK (R121). -/
def CntAck.level (c : CntAck) : Bool := c.cnt ≠ c.ack

/-- The register as read: CNT in the high half, ACK in the low half (R121). -/
def CntAck.view (c : CntAck) : DWord := ofHalves c.cnt c.ack

/-- A write of the ACK field (R121). -/
def CntAck.writeAck (c : CntAck) (v : DWord) : CntAck := { c with ack := loHalf v }

end Sys2Proof.Machine
end

