-- ==== Sys2Proof/Machine/Env.lean ====
section
/-! DEFINITION. What the outside world supplies with a command: the path of a register access, answers of USB devices,
host reads, PD partners, the flash and the board.
Choices: log 1, 16, 24, 61. -/

namespace Sys2Proof.Machine

/-- The path of a register access; the requester code of Table 5.1 follows from it (R117, R157). -/
inductive Path where
  /-- Manager BAR0 of a link. -/
  | mgr (l : Link)
  /-- Manager MSI-X BAR of a link (R160). -/
  | mgrMsix (l : Link)
  /-- The Manager function's configuration space (R158, R164, R165). -/
  | mgrCfg (l : Link)
  /-- A Buoy slot's BAR0 on a link, its MSI-X table included (Table 6.4). -/
  | slot (l : Link) (i : Fin 15)
  /-- A Buoy slot's configuration space. -/
  | slotCfg (l : Link) (i : Fin 15)
  /-- The Holding Store window of a link's Manager function, BAR2 (R154). -/
  | bar2 (l : Link)
  | ibp
  | smbus
  | jtag
  | bootRom
  | keeper (k : Fin 12)
deriving DecidableEq, Repr

/-- USB speeds of a device. -/
inductive Speed where
  | high
  | full
  | low
deriving DecidableEq, Repr

/-- The code of a speed in views. -/
def Speed.code : Speed → Nat
  | .high => 0
  | .full => 1
  | .low => 2

/-- The sequenced rails of R66. -/
inductive Rail where
  | core
  | io
  | phy
deriving DecidableEq, Repr

/-- The code of a rail in SUP_RESET_CAUSE RAIL (Table 3.21). -/
def Rail.code : Rail → Nat
  | .core => 0
  | .io => 1
  | .phy => 2

/-- What the boot ROM reads of one image slot (R87, R88): the 512 bytes of its header (Table 15.12), and the verdict that the SHA-256
of its public key equals the fuse slot it names. A flash that cannot be read gives `readable = false`. -/
structure ImageHeader where
  readable : Bool := false
  bytes : List Byte := []
  keyHashMatch : Bool := false
deriving DecidableEq, Repr

/-- What a valid JESD216 SFDP table lists of the flash (R87, R535): the quad fast-read command, the first listed of 1-1-4 and 1-4-4,
whether its address too goes on four lines, its dummy cycles, and the 4 KiB erase type where there is one. -/
structure Sfdp where
  quad : Byte
  fourLineAddress : Bool
  dummy : Nat
  erase : Option Byte
deriving DecidableEq, Repr

/-- What the boot ROM reads of the flash: the SFDP table where it finds a valid one, and the header of slot A and of slot B. -/
structure FlashRead where
  sfdp : Option Sfdp := none
  a : ImageHeader := {}
  b : ImageHeader := {}
deriving DecidableEq, Repr

/-- What the boot ROM reads of the flash up to slot A: the SFDP table where it finds a valid one, and slot A's header. -/
structure FlashStart where
  sfdp : Option Sfdp := none
  a : ImageHeader := {}
deriving DecidableEq, Repr

/-- The whole reading, slot B's header last. -/
def FlashStart.andSlotB (x : FlashStart) (b : ImageHeader) : FlashRead := { sfdp := x.sfdp, a := x.a, b := b }

/-- The data of a host's register write: one dword, or the two of an 8-byte write (R123). -/
structure WriteData where
  lo : DWord
  hi : Option DWord := none
deriving DecidableEq, Repr

/-- The dwords that a host's read asks for (R123): how many, from a byte offset on. -/
structure ReadSpan where
  off : Nat
  n : Nat := 1
deriving DecidableEq, Repr

/-- A fairway, and how many nanoseconds after the tick it is served (R269). -/
structure ServeTime where
  fa : Fin 4
  ns : Nat
deriving DecidableEq, Repr

/-- A register command on the SMBus (R53, R537): the target address on the bus, and the offset it names. -/
structure SmbTarget where
  adr : BitVec 7
  off : Nat
deriving DecidableEq, Repr

/-- A link that enters L1 (R164), and whether its HLx_CLKREQ_N is wired. -/
structure L1Entry where
  link : Link
  clkreq : Bool
deriving DecidableEq, Repr

/-- How the boot ROM reads images from the flash (R51, R87, Table 19.12). -/
inductive SpiRead where
  /-- Command 0x03 on one line at 12.5 MHz. -/
  | single
  /-- The quad fast read that SFDP lists, at up to 50 MHz. -/
  | quad (command : Byte) (fourLineAddress : Bool) (dummy : Nat)
deriving DecidableEq, Repr

/-- The read method of a flash under STRAP2 (Table 2.7, R87): without a valid SFDP table the one of STRAP2 = 1. -/
def SpiRead.of (strap2 : Bool) (sfdp : Option Sfdp) : SpiRead :=
  match strap2, sfdp with
  | false, some x => .quad x.quad x.fourLineAddress x.dummy
  | _, _ => .single

/-- SPI_CLK of a read method, in kHz (Table 19.11). -/
def SpiRead.clock (x : SpiRead) : Nat :=
  match x with
  | .single => 12500
  | .quad _ _ _ => 50000

/-- One of the three samples of the strap balls (R49, R111): STRAP0 to STRAP3, TESTEN and the level of SMB_ADR, 0 for VSS, 1 for
open and 2 for VAON. -/
structure StrapSample where
  strap : BitVec 4
  testen : Bool
  adr : Fin 3
deriving DecidableEq, Repr

/-- What is latched of three samples in their order (R111): the majority of each two-level ball; of SMB_ADR the level that two or
three share, else the centre sample's. -/
def StrapSample.latch (x y z : StrapSample) : StrapSample :=
  { strap := (x.strap &&& y.strap) ||| (x.strap &&& z.strap) ||| (y.strap &&& z.strap)
    testen := (x.testen && y.testen) || (x.testen && z.testen) || (y.testen && z.testen)
    adr := if x.adr = z.adr then x.adr else y.adr }

/-- One completion item of a ring-entry read (R163, R197, R207). -/
inductive FetchItem where
  | entry (dwords : Vector DWord 8)
  /-- A poisoned completion carried its bytes; `same` says that it is the one that carried the entry before. -/
  | poisoned (same : Bool)
  /-- The read failed: UR, CA or a completion timeout (1, 2 or 3). -/
  | failed (kind : Nat)
deriving DecidableEq, Repr

/-- How a USB transaction ended (R234 to R237). -/
inductive UsbEnd where
  /-- Data arrived from the device with its toggle: the bytes, whether DATA1 (in an isochronous split, whether MDATA: more follows), and
  the words of them, by number, that failed parity between the receive FIFO and memory (R240). -/
  | data (bytes : List Byte) (toggle : Bool) (bad : List Nat)
  /-- The device acknowledged an OUT, a SETUP or a PING, or an OUT without handshake has been sent. -/
  | ack
  | nyet
  | nak
  | stall
  /-- A transaction error: SUB 1 to 4 of XACT_ERROR (Table 8.9) is the value plus one. -/
  | error (kind : Fin 4)
  /-- A split error: SUB 1 to 3 of SPLIT_ERROR is the value plus one. -/
  | splitErr (kind : Fin 3)
deriving DecidableEq, Repr

/-- What a device answers during DEV_ADDRESS (R281). -/
inductive AddressAnswer where
  /-- The device answered: bMaxPacketSize0. -/
  | ok (maxp : Nat)
  /-- An exchange ended with an error: in SET_ADDRESS where `late`, else in GET_DESCRIPTOR. -/
  | stall (late : Bool)
  | error (late : Bool)
  | splitErr (late : Bool)
  /-- A packet too long, or, where `atTick`, a device still transmitting at the end of a microframe (R235). -/
  | babble (late atTick : Bool)
  /-- The exchange goes on: the command's next occurrence brings its end. -/
  | pending
deriving DecidableEq, Repr

/-- A device's answer to an LPM transaction (R300). -/
inductive LpmAnswer where
  | ack
  | nyet
  | stall
  | error
deriving DecidableEq, Repr

/-- What a device read of host memory other than a ring entry was for (R163). -/
inductive ReadFor where
  /-- OUT data of the current transfer of a ring. -/
  | outData (f : Func) (ring : Fin 65)
  /-- A LINK list of the current transfer of a ring. -/
  | linkList (f : Func) (ring : Fin 65)
  /-- The oldest Logbook map dword of a Buoy. -/
  | logMap (b : Fin 15)
  /-- The closing read of a Buoy's Logbook (R491, R492). -/
  | logBarrier (b : Fin 15)
deriving DecidableEq, Repr

/-- How such a read ended. -/
inductive ReadEnd where
  /-- The bytes, and the words of them, by number, that failed parity in the device on their way to their use (R28, R240). -/
  | data (bytes : List Byte) (bad : List Nat)
  | poisoned
  | failed (kind : Nat)
deriving DecidableEq, Repr

/-- How a keeper DMA request ended (R450): the bytes of a read, each with whether its completion was poisoned, and for a failed read
what arrived before: 0 to 2 for a completion timeout, Unsupported Request and Completer Abort. -/
inductive DmaEnd where
  | done (bytes : List (Byte × Bool))
  | failed (kind : Fin 3) (arrived : List (Option (Byte × Bool)))
deriving DecidableEq, Repr

/-- What a CC engine sees on its CC lines (R309, R316, R317). -/
inductive CcSeen where
  /-- Rd on one line; the other shows Ra or is open. -/
  | sink (orient ra : Bool)
  /-- Rp on one line: 1, 2 or 3 for Default, 1.5 A or 3.0 A. -/
  | source (orient : Bool) (rp : Nat)
  /-- Ra on both lines or Rd on both lines. -/
  | accessory
  /-- Rp on both lines. -/
  | rpBoth
  /-- Ra on one line and nothing on the other. -/
  | raOnly
deriving DecidableEq, Repr

/-- Errors a link detects (R161). -/
inductive LinkError where
  | receiver
  | badTlp
  | badDllp
  | replayRollover
  | replayTimeout
  | advisory
  | dataLinkProtocol
  | poisonedTlp
  | completionTimeout
  | completerAbort
  | unexpectedCompletion
  | receiverOverflow
  | malformedTlp
  | unsupportedRequest
deriving DecidableEq, Repr

/-- An error as a link finds it, with the header of the TLP in error where there is one. -/
structure LinkErrorSeen where
  kind : LinkError
  header : Vector DWord 4
deriving DecidableEq, Repr

/-- An error that R161 counts as correctable. -/
def LinkError.correctable (e : LinkError) : Bool :=
  match e with
  | .receiver | .badTlp | .badDllp | .replayRollover | .replayTimeout | .advisory => true
  | _ => false

/-- An error of a received TLP, whose header AER records. -/
def LinkError.carriesTlp (e : LinkError) : Bool :=
  match e with
  | .poisonedTlp | .completerAbort | .unexpectedCompletion | .malformedTlp | .unsupportedRequest => true
  | _ => false

/-- The bit of an error in the AER status registers, as PCI Express lays them out (PRESUMED, log 61). -/
def LinkError.bit (e : LinkError) : Nat :=
  match e with
  | .receiver => 0
  | .badTlp => 6
  | .badDllp => 7
  | .replayRollover => 8
  | .replayTimeout => 12
  | .advisory => 13
  | .dataLinkProtocol => 4
  | .poisonedTlp => 12
  | .completionTimeout => 14
  | .completerAbort => 15
  | .unexpectedCompletion => 16
  | .receiverOverflow => 17
  | .malformedTlp => 18
  | .unsupportedRequest => 20

/-- Payload and header fields of an IBP request (Table 13.7). -/
structure IbpMsg where
  seq : BitVec 16
  flags : BitVec 8
  a0 : DWord
  a1 : DWord
  payload : List Byte
deriving DecidableEq, Repr

/-- What the world supplies at a Beacon tick: measurements of the frame that closes (R94, R361, R365), the PTM time of each
link at the tick (R273). -/
structure TickEnv where
  vmon : Option DWord := none
  meas : List (Fin 17 × DWord) := []
  secMeas : List (Fin 4 × DWord) := []
  ptmTime : QWord := 0
deriving DecidableEq, Repr

/-- Where a bit flips of itself (R28, R141, R272, R416, R419, R461, R469). -/
inductive UpsetAt where
  /-- Bit 0 to 17 of a stored word. -/
  | store (w : Fin 0x100000) (bit : Fin 18)
  /-- Bit 0 to 8 of a byte of a spare row. -/
  | spare (e : Fin 8) (byte : Fin 8) (bit : Fin 9)
  /-- Bit 0 to 8 of a byte held in the merge buffer for a row. -/
  | merge (row : Nat) (byte : Fin 8) (bit : Fin 9)
  /-- Bit 0 to 7 of a byte of a sealed-class register at an offset, or that byte's parity bit. -/
  | sealedByte (off : Nat) (byte : Fin 4) (bit : Fin 9)
  /-- Word `w` of the words that hold a Lamp record (R461), wherever they lie: bit 0 to 17. -/
  | lamp (fa : Fin 4) (i : Nat) (w : Fin 0x100000) (bit : Fin 18)
  /-- A word that holds dwords 0 to 4 (false) or 5 and 6 (true) of a work item. -/
  | item (i : Nat) (head : Bool) (w : Fin 0x100000) (bit : Fin 18)
  /-- A word that holds a counter. -/
  | counter (c : Nat) (w : Fin 0x100000) (bit : Fin 18)
  /-- A word of a keeper's instruction cache. -/
  | icache (k : Fin 12) (addr : Nat)
deriving DecidableEq, Repr

end Sys2Proof.Machine
end

