-- ==== Sys2Proof/Syntax.lean ====
section
/-! DEFINITION. The commands of the KV-16: one constructor per row of the opcode table, with what the sender or the
outside world supplies. Everything else a command needs it finds in the state. Rows with operands stand first, in the order of the
table, and rows without operands last (Lean compiles only so many constructors that hold data). -/

namespace Sys2Proof

open Machine

/-- A command. -/
inductive Instr where
  /-- VIN_HIGH_CHANGE (R65). -/
  | vinHighChange (high : Bool)
  /-- STRAP_SAMPLE (R49). -/
  | strapSample (x : StrapSample) (y : StrapSample) (z : StrapSample)
  /-- POWER_GOOD_RISE (R66). -/
  | powerGoodRise (r : Rail)
  /-- POWER_GOOD_FALL (R67). -/
  | powerGoodFall (r : Rail)
  /-- CRYSTAL_STABLE (R96). -/
  | crystalStable (cal : BitVec 4) (calPu : Bool) (ha : FlashStart) (hb : ImageHeader)
  /-- WICK_VIN_FILTER_EXPIRY (R73). -/
  | wickVinFilterExpiry (ha : FlashStart) (hb : ImageHeader)
  /-- IMAGE_BODY_FETCHED (R88). -/
  | imageBodyFetched (body : List Byte)
  /-- SIGNATURE_CHECK_DONE (R88). -/
  | signatureCheckDone (ok : Bool)
  /-- BOOT_READY (R455). -/
  | bootReady (p : Path)
  /-- REQUEST_STANDBY (R81). -/
  | requestStandby (p : Path)
  /-- REQUEST_LIT (R81). -/
  | requestLit (p : Path)
  /-- REQUEST_BRIDGE (R81). -/
  | requestBridge (p : Path)
  /-- REQUEST_NIGHT (R550). -/
  | requestNight (p : Path)
  /-- REQUEST_SAFE (R82). -/
  | requestSafe (p : Path)
  /-- REQUEST_RELIGHT (R81). -/
  | requestRelight (p : Path)
  /-- REQUEST_UPDATE (R81). -/
  | requestUpdate (p : Path)
  /-- MODE_TRANSITION_DONE (R75). -/
  | modeTransitionDone (ha : FlashStart) (hb : ImageHeader)
  /-- HEARTBEAT (R82). -/
  | heartbeat (k : Fin 12) (v : DWord)
  /-- SHED_REQ_N_CHANGE (R55). -/
  | shedReqNChange (high : Bool)
  /-- NIGHT_REQ_N_CHANGE (R550). -/
  | nightReqNChange (high : Bool)
  /-- UPD_CHUNK (R91). -/
  | updChunk (p : Path) (v : DWord)
  /-- UPD_FINAL (R91). -/
  | updFinal (p : Path) (v : DWord)
  /-- UPD_ABANDON (R91). -/
  | updAbandon (p : Path) (v : DWord)
  /-- UPD_CHUNK_PROGRAMMED (R91). -/
  | updChunkProgrammed (flashOk : Bool) (h : ImageHeader) (sigOk : Bool)
  /-- PERST_ASSERT (R104). -/
  | perstAssert (l : Link)
  /-- PERST_DEASSERT (R104). -/
  | perstDeassert (l : Link)
  /-- LINK_UP (R151). -/
  | linkUp (l : Link) (speed : Fin 3) (width : Bool)
  /-- LINK_DOWN (R152). -/
  | linkDown (l : Link) (l2 : Bool)
  /-- REFCLK_LOSS (R98). -/
  | refclkLoss (l : Link)
  /-- FUNCTION_LEVEL_RESET (R105). -/
  | functionLevelReset (p : Path)
  /-- VF_ENABLE_CLEAR (R158). -/
  | vfEnableClear (l : Link)
  /-- FAIRWAY_RESET (R106). -/
  | fairwayReset (p : Path) (n : Fin 4)
  /-- FAIRWAY_RESET_END (R106). -/
  | fairwayResetEnd (n : Fin 4) (pass : Bool)
  /-- PORT_RESET (R107). -/
  | portReset (p : Path) (n : Fin 16)
  /-- PORT_RESET_END (R107). -/
  | portResetEnd (n : Fin 16) (pass : Bool) (mooring : Bool)
  /-- REGISTER_WRITE (R125). -/
  | registerWrite (p : Path) (off : Nat) (v : WriteData)
  /-- SHADOW_LOW_READ (R127). -/
  | shadowLowRead (p : Path) (x : ReadSpan)
  /-- SHADOW_HIGH_READ (R127). -/
  | shadowHighRead (p : Path) (off : Nat)
  /-- STAGED_LOW_WRITE (R129). -/
  | stagedLowWrite (p : Path) (off : Nat) (v : DWord)
  /-- KEEPER_LOW_WORD_WRITE (R124). -/
  | keeperLowWordWrite (k : Fin 12) (off : Nat) (w : Half) (bad : Bool)
  /-- KEEPER_HIGH_WORD_WRITE (R124). -/
  | keeperHighWordWrite (k : Fin 12) (off : Nat) (w : Half) (bad : Bool)
  /-- TOP_FIT_WRITE (R61). -/
  | topFitWrite (p : Path) (v : DWord)
  /-- TOP_LG_OUT_WRITE (R57). -/
  | topLgOutWrite (p : Path) (v : DWord)
  /-- SEAL_SET_WRITE (R133). -/
  | sealSetWrite (p : Path) (v : DWord)
  /-- KEY_HOLE_WRITE (R137). -/
  | keyHoleWrite (p : Path) (v : DWord)
  /-- KEYHOLE_EXPIRY (R137). -/
  | keyholeExpiry (r : Requester)
  /-- DAY_COMMIT_CAPTURE (R142). -/
  | dayCommitCapture (p : Path) (v : DWord)
  /-- DAY_COMMIT_LOAD (R142). -/
  | dayCommitLoad (p : Path) (v : DWord)
  /-- BEACON_TICK (R253). -/
  | beaconTick (env : TickEnv)
  /-- WATCH_EXPIRY (R414). -/
  | watchExpiry (k : Fin 12)
  /-- MODERATION_EXPIRY (R219). -/
  | moderationExpiry (f : Func) (n : Fin 4)
  /-- PTM_REQUEST (R273). -/
  | ptmRequest (l : Link)
  /-- PTM_CAPTURE_REQUEST (R273). -/
  | ptmCaptureRequest (p : Path) (v : DWord)
  /-- LIGHT_LIST_WALK (R257). -/
  | lightListWalk (t : ServeTime)
  /-- BULK_CIRCUIT_VISIT (R268). -/
  | bulkCircuitVisit (t : ServeTime)
  /-- DOORBELL_PRODUCER (R192). -/
  | doorbellProducer (p : Path) (v : DWord)
  /-- DOORBELL_CONSUMER (R193). -/
  | doorbellConsumer (p : Path) (v : DWord)
  /-- PUSH_WINDOW_WRITE (R202). -/
  | pushWindowWrite (p : Path) (w : Fin 32) (v : DWord)
  /-- PUSH (R203). -/
  | pushDoorbell (p : Path) (v : DWord)
  /-- RING_OPEN (R189). -/
  | ringOpen (p : Path) (r : Fin 65) (v : DWord)
  /-- EVENT_RING_CFG_WRITE (R189). -/
  | eventRingCfgWrite (p : Path) (n : Fin 4) (v : DWord)
  /-- RING_FETCH_COMPLETE (R197). -/
  | ringFetchComplete (f : Func) (r : Fin 65) (items : List FetchItem)
  /-- NOOP (R213). -/
  | noop (f : Func)
  /-- REBIND (R215). -/
  | rebind (f : Func)
  /-- REBIND_DRAINED (R215). -/
  | rebindDrained (f : Func) (r : Fin 65)
  /-- BUOY_HOME (R170). -/
  | buoyHome (f : Func)
  /-- PORT_ASSIGN (R172). -/
  | portAssign (f : Func)
  /-- KEEPER_GRANT (R173). -/
  | keeperGrant (f : Func)
  /-- LAMP_ADMIT (R262). -/
  | lampAdmit (f : Func)
  /-- LAMP_REMOVE (R265). -/
  | lampRemove (f : Func)
  /-- BEACON_SAMPLE (R266). -/
  | beaconSample (f : Func) (ns : Nat)
  /-- DEV_ADDRESS (R281). -/
  | devAddress (f : Func) (ans : AddressAnswer)
  /-- DEV_HUB (R284). -/
  | devHub (f : Func)
  /-- EP_CONFIG (R285). -/
  | epConfig (f : Func)
  /-- DEV_RELEASE (R287). -/
  | devRelease (f : Func)
  /-- PORT_CTL_STATUS (R279). -/
  | portCtlStatus (f : Func)
  /-- PORT_CTL_RESET (R280). -/
  | portCtlReset (f : Func)
  /-- BUS_RESET_SE0_END (R280). -/
  | busResetSe0End (n : Fin 16) (speed : Option Speed)
  /-- RESET_RECOVERY_END (R280). -/
  | resetRecoveryEnd (n : Fin 16)
  /-- PORT_CTL_SUSPEND (R297). -/
  | portCtlSuspend (f : Func)
  /-- SUSPEND_WAIT_END (R297). -/
  | suspendWaitEnd (n : Fin 16)
  /-- PORT_CTL_RESUME (R297). -/
  | portCtlResume (f : Func)
  /-- RESUME_SIGNAL_END (R297). -/
  | resumeSignalEnd (n : Fin 16)
  /-- PORT_CTL_DISABLE (R279). -/
  | portCtlDisable (f : Func)
  /-- PORT_CTL_L1 (R300). -/
  | portCtlL1 (f : Func) (ans : LpmAnswer)
  /-- L1_EXIT (R300). -/
  | l1Exit (n : Fin 16)
  /-- PULLUP_SEEN (R277). -/
  | pullupSeen (n : Fin 16) (low : Bool)
  /-- ATTACH_DEBOUNCE_END (R277). -/
  | attachDebounceEnd (n : Fin 16)
  /-- ROOT_DISCONNECT (R288). -/
  | rootDisconnect (n : Fin 16)
  /-- PORT_REMOTE_WAKE (R298). -/
  | portRemoteWake (n : Fin 16)
  /-- PORT_FAIL (R302). -/
  | portFail (n : Fin 16) (cause : Nat)
  /-- FAIRWAY_FAIL (R303). -/
  | fairwayFail (fa : Fin 4) (cause : Nat)
  /-- TRANSFER_START (R232). -/
  | transferStart (f : Func) (r : Fin 65)
  /-- TRANSACTION_END (R234). -/
  | transactionEnd (f : Func) (r : Fin 65) (e : UsbEnd)
  /-- NOOP_DESCRIPTOR (R230). -/
  | noopDescriptor (f : Func) (r : Fin 65)
  /-- WORK_POST (R230). -/
  | workPost (f : Func) (r : Fin 65)
  /-- TND_COUNTER_LOAD (R421). -/
  | tndCounterLoad (f : Func)
  /-- TND_COUNTER_DEC (R421). -/
  | tndCounterDec (f : Func)
  /-- TND_COUNTER_FREE (R421). -/
  | tndCounterFree (f : Func)
  /-- TND_COUNTER_READ (R421). -/
  | tndCounterRead (f : Func)
  /-- TND_POST (R421). -/
  | tndPost (f : Func)
  /-- TND_CANCEL (R421). -/
  | tndCancel (f : Func)
  /-- KEEPER_POST (R422). -/
  | keeperPost (k : Fin 12) (v : DWord)
  /-- KEEPER_DECREMENT (R422). -/
  | keeperDecrement (k : Fin 12) (v : DWord)
  /-- KEEPER_FENCE (R416). -/
  | keeperFence (k : Fin 12) (pipe : Bool)
  /-- KPR_REVIVE (R418). -/
  | kprRevive (p : Path) (v : DWord)
  /-- REVIVE_SELF_TEST (R418). -/
  | reviveSelfTest (pass : Bool)
  /-- ADD (R433). -/
  | kprAdd (k : Fin 12)
  /-- SUB (R433). -/
  | kprSub (k : Fin 12)
  /-- AND (R433). -/
  | kprAnd (k : Fin 12)
  /-- OR (R433). -/
  | kprOr (k : Fin 12)
  /-- XOR (R433). -/
  | kprXor (k : Fin 12)
  /-- SLL (R433). -/
  | kprSll (k : Fin 12)
  /-- SRL (R433). -/
  | kprSrl (k : Fin 12)
  /-- SRA (R433). -/
  | kprSra (k : Fin 12)
  /-- MUL (R433). -/
  | kprMul (k : Fin 12)
  /-- MULHU (R433). -/
  | kprMulhu (k : Fin 12)
  /-- SLTU (R433). -/
  | kprSltu (k : Fin 12)
  /-- SLT (R433). -/
  | kprSlt (k : Fin 12)
  /-- ADDI (R433). -/
  | kprAddi (k : Fin 12)
  /-- ANDI (R433). -/
  | kprAndi (k : Fin 12)
  /-- ORI (R433). -/
  | kprOri (k : Fin 12)
  /-- XORI (R433). -/
  | kprXori (k : Fin 12)
  /-- SLLI (R433). -/
  | kprSlli (k : Fin 12)
  /-- SRLI (R433). -/
  | kprSrli (k : Fin 12)
  /-- SRAI (R433). -/
  | kprSrai (k : Fin 12)
  /-- MOVI (R433). -/
  | kprMovi (k : Fin 12)
  /-- SLTUI (R433). -/
  | kprSltui (k : Fin 12)
  /-- SLTI (R433). -/
  | kprSlti (k : Fin 12)
  /-- LD (R433). -/
  | kprLd (k : Fin 12)
  /-- ST (R444). -/
  | kprSt (k : Fin 12)
  /-- POST (R443). -/
  | kprPost (k : Fin 12)
  /-- BEQ (R433). -/
  | kprBeq (k : Fin 12)
  /-- BNE (R433). -/
  | kprBne (k : Fin 12)
  /-- BLTU (R433). -/
  | kprBltu (k : Fin 12)
  /-- BGEU (R433). -/
  | kprBgeu (k : Fin 12)
  /-- BLT (R433). -/
  | kprBlt (k : Fin 12)
  /-- BGE (R433). -/
  | kprBge (k : Fin 12)
  /-- JMP (R433). -/
  | kprJmp (k : Fin 12)
  /-- JR (R433). -/
  | kprJr (k : Fin 12)
  /-- CALLW (R436). -/
  | kprCallw (k : Fin 12)
  /-- CALLWR (R436). -/
  | kprCallwr (k : Fin 12)
  /-- BACKW (R436). -/
  | kprBackw (k : Fin 12)
  /-- MOVFS (R429). -/
  | kprMovfs (k : Fin 12)
  /-- MOVTS (R429). -/
  | kprMovts (k : Fin 12)
  /-- WGET (R437). -/
  | kprWget (k : Fin 12)
  /-- WPUT (R437). -/
  | kprWput (k : Fin 12)
  /-- RESUME (R437). -/
  | kprResume (k : Fin 12)
  /-- PARKW (R437). -/
  | kprParkw (k : Fin 12)
  /-- FETCHW (R437). -/
  | kprFetchw (k : Fin 12)
  /-- FENCE (R446). -/
  | kprFence (k : Fin 12)
  /-- DMA (R449). -/
  | kprDma (k : Fin 12)
  /-- DWAIT (R450). -/
  | kprDwait (k : Fin 12)
  /-- DONE (R442). -/
  | kprDone (k : Fin 12)
  /-- DMA_SLOT_COMPLETE (R450). -/
  | dmaSlotComplete (k : Fin 12) (slot : Fin 4) (e : DmaEnd)
  /-- MAILBOX_SEND (R176). -/
  | mailboxSend (p : Path) (off : Nat) (v : DWord)
  /-- MAILBOX_ACK (R177). -/
  | mailboxAck (p : Path) (off : Nat) (v : DWord)
  /-- CC_ATTACH_DETECT (R309). -/
  | ccAttachDetect (e : Fin 17) (seen : CcSeen)
  /-- CC_DEBOUNCE_EXPIRY (R309). -/
  | ccDebounceExpiry (e : Fin 17) (seen : Option CcSeen)
  /-- DRP_TOGGLE_EXPIRY (R309). -/
  | drpToggleExpiry (e : Fin 17)
  /-- ATTACHED_SRC_ENTRY (R311). -/
  | attachedSrcEntry (e : Fin 17)
  /-- CC_DETACH (R313). -/
  | ccDetach (e : Fin 17)
  /-- ERROR_RECOVERY_EXPIRY (R319). -/
  | errorRecoveryExpiry (e : Fin 17)
  /-- VCONN_OVERCURRENT (R317). -/
  | vconnOvercurrent (e : Fin 17)
  /-- PD_MESSAGE_RECEIVED (R320). -/
  | pdMessageReceived (e : Fin 17) (sop : Fin 3) (hdr : Half) (payload : List Byte)
  /-- HARD_RESET_RECEIVED (R324). -/
  | hardResetReceived (e : Fin 17)
  /-- CABLE_RESET_RECEIVED (R326). -/
  | cableResetReceived (e : Fin 17)
  /-- PD_TRANSMIT (R335). -/
  | pdTransmit (p : Path) (e : Fin 17) (v : DWord) (vbus : Nat)
  /-- PD_SEND_HARD_RESET (R335). -/
  | pdSendHardReset (p : Path) (e : Fin 17) (v : DWord)
  /-- PD_SEND_CABLE_RESET (R326). -/
  | pdSendCableReset (p : Path) (e : Fin 17) (v : DWord)
  /-- GOODCRC_TIMEOUT (R320). -/
  | goodcrcTimeout (e : Fin 17)
  /-- SINK_TX_WAIT_END (R322). -/
  | sinkTxWaitEnd (e : Fin 17)
  /-- CHUNK_TIMEOUT (R321). -/
  | chunkTimeout (e : Fin 17)
  /-- PS_HARD_RESET_EXPIRY (R324). -/
  | psHardResetExpiry (e : Fin 17)
  /-- SRC_RECOVER_EXPIRY (R324). -/
  | srcRecoverExpiry (e : Fin 17)
  /-- SINK_HARD_RESET_TIMEOUT (R325). -/
  | sinkHardResetTimeout (e : Fin 17)
  /-- EPR_KEEPALIVE_TIMEOUT (R331). -/
  | eprKeepaliveTimeout (e : Fin 17)
  /-- EPR_EXIT_LIMIT (R331). -/
  | eprExitLimit (e : Fin 17)
  /-- PPS_TIMEOUT (R332). -/
  | ppsTimeout (e : Fin 17)
  /-- HOLDING_PS_RDY (R336). -/
  | holdingPsRdy (e : Fin 17)
  /-- RX_RELEASE (R334). -/
  | rxRelease (p : Path) (e : Fin 17) (v : DWord)
  /-- CCP_CFG_WRITE (R308). -/
  | ccpCfgWrite (p : Path) (e : Fin 17) (v : DWord)
  /-- FAST_OVERCURRENT (R347). -/
  | fastOvercurrent (n : Fin 17)
  /-- SLOW_OVERCURRENT (R347). -/
  | slowOvercurrent (n : Fin 17)
  /-- OVERVOLTAGE_TRIP (R347). -/
  | overvoltageTrip (n : Fin 17)
  /-- REVERSE_CURRENT_TRIP (R347). -/
  | reverseCurrentTrip (n : Fin 17)
  /-- RETRY_GAP_EXPIRY (R349). -/
  | retryGapExpiry (n : Fin 17)
  /-- LATCH_CLEAR_NO_PARTNER (R349). -/
  | latchClearNoPartner (n : Fin 17)
  /-- SEC_TARGET_WRITE (R353). -/
  | secTargetWrite (p : Path) (q : Fin 4) (v : DWord)
  /-- SECTOR_RAMP_END (R353). -/
  | sectorRampEnd (q : Fin 4)
  /-- SECTOR_AT_LEVEL (R353). -/
  | sectorAtLevel (q : Fin 4)
  /-- SECTOR_ENABLE (R352). -/
  | sectorEnable (q : Fin 4)
  /-- SECTOR_FAULT (R354). -/
  | sectorFault (q : Fin 4) (cause : Nat)
  /-- PORT_POWER_STATUS (R360). -/
  | portPowerStatus (f : Func)
  /-- PORT_POWER_OFF (R360). -/
  | portPowerOff (f : Func)
  /-- PORT_POWER_ON (R360). -/
  | portPowerOn (f : Func)
  /-- PORT_POWER_CYCLE (R360). -/
  | portPowerCycle (f : Func)
  /-- PORT_MEASURE (R361). -/
  | portMeasure (f : Func)
  /-- LAN_CONNECT_WRITE (R369). -/
  | lanConnectWrite (p : Path) (v : DWord)
  /-- LAN_BUS_RESET (R371). -/
  | lanBusReset (high : Bool)
  /-- LAN_SETUP (R380). -/
  | lanSetup (bytes : Vector Byte 8)
  /-- LAN_IN_TOKEN (R378). -/
  | lanInToken (ep : Fin 16) (acked : Bool)
  /-- LAN_OUT_TOKEN (R378). -/
  | lanOutToken (ep : Fin 16) (toggle : Bool) (bytes : List (Byte × Bool))
  /-- LAN_PING (R378). -/
  | lanPing (ep : Fin 16)
  /-- LAN_ADDR_WRITE (R372). -/
  | lanAddrWrite (p : Path) (v : DWord)
  /-- BUFFER_ARM (R376). -/
  | bufferArm (p : Path) (i : Fin 32) (second : Bool) (v : DWord)
  /-- EP_ENABLE (R374). -/
  | epEnable (p : Path) (i : Fin 32) (v : DWord)
  /-- EP_STALL (R379). -/
  | epStall (p : Path) (i : Fin 32) (v : DWord)
  /-- LAN_LPM (R384). -/
  | lanLpm (link : Fin 16) (besl : Fin 16) (rwe : Bool)
  /-- LAN_WAKE_REQUEST (R385). -/
  | lanWakeRequest (p : Path) (v : DWord) (idle : Bool)
  /-- LAN_SOF (R386). -/
  | lanSof (frame : Fin 2048) (offset : Nat)
  /-- IBP_HELLO (R390). -/
  | ibpHello (m : IbpMsg)
  /-- IBP_REG_READ (R392). -/
  | ibpRegRead (m : IbpMsg)
  /-- IBP_REG_WRITE (R392). -/
  | ibpRegWrite (m : IbpMsg)
  /-- IBP_MEM_READ (R393). -/
  | ibpMemRead (m : IbpMsg)
  /-- IBP_MEM_WRITE (R393). -/
  | ibpMemWrite (m : IbpMsg)
  /-- IBP_DOORBELL (R394). -/
  | ibpDoorbell (m : IbpMsg)
  /-- IBP_FW_MSG (R397). -/
  | ibpFwMsg (m : IbpMsg)
  /-- FW_REPLY (R397). -/
  | fwReply (p : Path) (v : DWord)
  /-- MERGE_DRAIN (R467). -/
  | mergeDrain (row : Fin 0x40000)
  /-- SCRUB_GO (R474). -/
  | scrubGo (p : Path) (v : DWord)
  /-- SCRUB_STOP (R476). -/
  | scrubStop (p : Path) (v : DWord)
  /-- BUOY_FREEZE (R482). -/
  | buoyFreeze (f : Func)
  /-- BUOY_FROZEN (R483). -/
  | buoyFrozen (b : Fin 15)
  /-- BUOY_THAW (R485). -/
  | buoyThaw (f : Func)
  /-- BUOY_SAVE (R496). -/
  | buoySave (f : Func) (bad : Option (Fin 4512))
  /-- BUOY_RESTORE (R498). -/
  | buoyRestore (f : Func) (import_ : List FetchItem)
  /-- BUOY_REHOME (R501). -/
  | buoyRehome (f : Func)
  /-- LOG_SWAP (R491). -/
  | logSwap (f : Func)
  /-- LOG_ENABLE (R488). -/
  | logEnable (p : Path) (b : Fin 15) (v : DWord)
  /-- LOG_DISABLE (R492). -/
  | logDisable (p : Path) (b : Fin 15) (v : DWord)
  /-- SMB_REG_READ (R537). -/
  | smbRegRead (a : SmbTarget)
  /-- SMB_REG_WRITE (R537). -/
  | smbRegWrite (a : SmbTarget) (v : DWord)
  /-- ASPM_L1_ENTRY (R164). -/
  | aspmL1Entry (x : L1Entry)
  /-- MASTERING_CHANGE (R159). -/
  | masteringChange (p : Path) (busMaster : Bool) (d3 : Bool)
  /-- DATA_READ_COMPLETION (R163). -/
  | dataReadCompletion (what : ReadFor) (e : ReadEnd)
  /-- VBUS_AT_VSAFE0V (R324). -/
  | vbusAtVsafe0v (n : Fin 17)
  /-- CC_RP_CHANGE (R322). -/
  | ccRpChange (e : Fin 17) (rp : Fin 4)
  /-- STORE_BUFFER_DRAIN (R444). -/
  | storeBufferDrain (k : Fin 12)
  /-- PTM_DIALOG_COMPLETE (R273). -/
  | ptmDialogComplete (l : Link)
  /-- REFCLK_RESTORE (R98). -/
  | refclkRestore (l : Link)
  /-- SECTOR_PG_RISE (R352). -/
  | sectorPgRise (q : Fin 4)
  /-- BAR2_WRITE (R154). -/
  | bar2Write (l : Link) (addr : Nat) (bytes : List Byte)
  /-- UPSET (R461). -/
  | upset (u : UpsetAt)
  /-- TRIP_RUN_CLEAR (R349). -/
  | tripRunClear (n : Fin 17)
  /-- MOORING_FAIL (R356). -/
  | mooringFail (n : Fin 17) (cause : Nat)
  /-- SECTOR_RETRY_GAP_EXPIRY (R354). -/
  | sectorRetryGapExpiry (q : Fin 4)
  /-- LINK_ERROR_DETECTED (R161). -/
  | linkErrorDetected (l : Link) (e : LinkErrorSeen)
  /-- PPS_CURRENT_LIMIT (R350). -/
  | ppsCurrentLimit (q : Fin 4) (above : Bool)
  /-- PTM_VALID_EXPIRY (R273). -/
  | ptmValidExpiry (l : Link)
  /-- LG_INPUT_CHANGE (R56). -/
  | lgInputChange (n : Fin 16) (high : Bool)
  /-- UNDEFINED_COMMAND (R211). -/
  | undefinedCommand (f : Func)
  /-- ILLEGAL_INSTRUCTION (R433). -/
  | illegalInstruction (k : Fin 12)
  /-- IBP_BAD_MESSAGE (R389). -/
  | ibpBadMessage (type : BitVec 8) (m : IbpMsg)
  /-- VIN_RISE (R64). -/
  | vinRise
  /-- VIN_UVLO_FALL (R65). -/
  | vinUvloFall
  /-- PU_VBUS_VALID_RISE (R64). -/
  | puVbusValidRise
  /-- PU_VBUS_VALID_FALL (R73). -/
  | puVbusValidFall
  /-- VBIAS_UVLO (R102). -/
  | vbiasUvlo
  /-- POWER_ON_RESET_RELEASE (R102). -/
  | powerOnResetRelease
  /-- RAIL_SEQUENCE_START (R66). -/
  | railSequenceStart
  /-- ENABLE_DELAY_EXPIRY (R66). -/
  | enableDelayExpiry
  /-- POWER_GOOD_WINDOW_EXPIRY (R67). -/
  | powerGoodWindowExpiry
  /-- RAIL_FAULT_RETRY (R67). -/
  | railFaultRetry
  /-- POWER_DOWN_STEP (R68). -/
  | powerDownStep
  /-- CRYSTAL_START_TIMEOUT (R96). -/
  | crystalStartTimeout
  /-- CRYSTAL_STOP (R96). -/
  | crystalStop
  /-- PLL_LOCK_LOSS (R96). -/
  | pllLockLoss
  /-- RESET_N_LOW (R103). -/
  | resetNLow
  /-- RESET_N_RISE (R103). -/
  | resetNRise
  /-- WICK_OVERCURRENT (R71). -/
  | wickOvercurrent
  /-- INIT_TIMEOUT (R89). -/
  | initTimeout
  /-- HEARTBEAT_LIMIT_EXPIRY (R82). -/
  | heartbeatLimitExpiry
  /-- SHED_ENTRY_FILTER_EXPIRY (R86). -/
  | shedEntryFilterExpiry
  /-- SHED_EXIT_FILTER_EXPIRY (R86). -/
  | shedExitFilterExpiry
  /-- LANE_WAKE (R85). -/
  | laneWake
  /-- FLASH_BUSY_TIMEOUT (R535). -/
  | flashBusyTimeout
  /-- TRST (R109). -/
  | trst
  /-- CAPTURE_COMPLETE (R142). -/
  | captureComplete
  /-- EPOCH_DECREMENT (R409). -/
  | epochDecrement
  /-- DISPATCH (R411). -/
  | dispatch
  /-- SHED_STEP (R357). -/
  | shedStep
  /-- LANTERN_CONNECT (R367). -/
  | lanternConnect
  /-- LANTERN_DISCONNECT (R367). -/
  | lanternDisconnect
  /-- LAN_SUSPEND (R383). -/
  | lanSuspend
  /-- LAN_RESUME (R383). -/
  | lanResume
  /-- LAN_WAKE_END (R385). -/
  | lanWakeEnd
  /-- LAN_SOF_MISSING (R386). -/
  | lanSofMissing
  /-- SCRUB_ROW (R475). -/
  | scrubRow
  /-- SMB_CLOCK_TIMEOUT (R536). -/
  | smbClockTimeout
  /-- PU_VBUS_BAD_EXPIRY (R359). -/
  | puVbusBadExpiry
  /-- FRAME_OUT_FALL (R55). -/
  | frameOutFall
  /-- DAYMARK_REGISTER_READ (R139). -/
  | daymarkRegisterRead
deriving DecidableEq, Repr

end Sys2Proof
end

