-- ==== Sys2Proof/Config.lean ====
section
/-! DEFINITION. What the manual leaves open and the model keeps open: constants without a body, applied to the
counter `State.freeSeq`, so that nothing can be proved about the value itself (log 5). -/

namespace Sys2Proof

/-- A level the manual leaves undefined (a floating ball, R58). -/
opaque Config.freeBit : Nat → Bool

/-- TCK is driven by the board (Table 4.1). -/
opaque Config.tckDriven : Nat → Bool

/-- A 32-bit value the manual does not state. -/
opaque Config.freeDWord : Nat → BitVec 32

/-- A 16-bit value the manual does not state. -/
opaque Config.freeHalf : Nat → BitVec 16

end Sys2Proof
end

