-- ==== Sys2Proof/Machine/Blocks/Beacon.lean ====
section
/-! DEFINITION. State of the Beacon and the Light Lists (chapter 9).
Choices: log 3. -/

namespace Sys2Proof.Machine

/-- Where a Lamp stands in the microframe now open (R257, R270). -/
inductive LampRun where
  /-- Not due, or its interval has ended. -/
  | rest
  /-- Due with a transaction to issue, and not started. -/
  | due
  /-- Started, with transactions still reserved or on the bus. -/
  | running
  /-- Started, with the rest of a split Lamp's footprint in later microframes (R292). -/
  | later
deriving DecidableEq, Repr

/-- A Lamp (R255, Table 9.11). `ring` is meaningful while the Lamp is not held. -/
structure Lamp where
  held : Bool := false
  split : Bool := false
  iso : Bool := false
  pexp : Nat := 0
  phase : Nat := 0
  dev : Nat := 0
  owner : Func
  ring : Nat := 0
  ep : Nat := 0
  dirIn : Bool := false
  speed : Speed := .high
  mult : Nat := 1
  maxp : Nat := 0
  kbudget : Nat := 0
  /-- Root port of the endpoint. -/
  port : Fin 16 := 0
  /-- The translator of a split Lamp: hub handle and, for a multi-translator hub, its port (R291). -/
  tt : Nat × Nat := (0, 0)
  /-- Admitted in the microframe now open: takes effect at the next tick (Table 9.2 step 3). -/
  fresh : Bool := false
  /-- LAMP_REMOVEs wait for the next tick or for the Lamp's transaction to end (R265): the commanding functions. -/
  removing : List Func := []
  /-- The removal's tick has passed: no tokens, charges still held (R265). -/
  removed : Bool := false
  /-- The record has failed parity (R272). -/
  poisoned : Bool := false
  run : LampRun := .rest
  /-- Transactions still reserved in the interval being served (R232, R257). -/
  left : Nat := 0
deriving DecidableEq, Repr

/-- A transaction on a bus whose transfer a function-level reset has taken away (R216): it runs to its end, its data is discarded. -/
structure Orphan where
  fn : Func
  ring : Fin 65
  fa : Fin 4
  /-- The root port of a device at depth 0. -/
  root : Option (Fin 16)
deriving DecidableEq, Repr

/-- Tick rates (Table 9.1). -/
inductive BeaconRate where
  | stopped
  | microframe
  | frame
deriving DecidableEq, Repr

/-- The Beacon's registers and the Light Lists (Table 9.10); `lists[f]` holds FAf's Lamps in rising number. -/
structure Beacon where
  count : DWord := 0
  rate : BeaconRate := .stopped
  /-- No tick has come since the Beacon started: the first microframe has count 0 (R249). -/
  started : Bool := false
  lists : Vector (List (Nat × Lamp)) 4 := Vector.replicate 4 []
  /-- Words of Lamp records that a bit has flipped in, with their Lamp (log 3). -/
  struck : List ((Fin 4 × Nat) × Nat) := []
  overrun : CntAck := {}
  overrunLast : DWord := 0
  ptmLink : Link := .a
  ptmCapture : Bool := false
  ptmMode : Nat := 0
  ptmSeq : BitVec 16 := 0
  ptmCount : DWord := 0
  ptmTime : QWord := 0
  /-- A PTM dialog has completed on the link within the last 10 ms (R273). -/
  ptmValid : Vector Bool 2 := Vector.replicate 2 false
  /-- A PTM Request is out on the link. -/
  ptmAsked : Vector Bool 2 := Vector.replicate 2 false
  /-- The keeper limit's K of R260, recomputed at the tick (R267). -/
  limitK : Nat := 12
  /-- The walk of the microframe now open has run, for each fairway (R257). -/
  walked : Vector Bool 4 := Vector.replicate 4 true
  /-- FRAME_OUT is high on LG3 (R253 step 5). -/
  frameOut : Bool := false
  orphans : List Orphan := []
deriving DecidableEq, Repr

end Sys2Proof.Machine
end

