-- ==== Sys2Proof/Machine/Blocks/CcPd.lean ====
section
/-! DEFINITION. State of the seventeen CC/PD engines (chapter 11). -/

namespace Sys2Proof.Machine

/-- Type-C states (Table 11.2). -/
inductive TcState where
  | disabled
  | unattSrc
  | unattSnk
  | waitSrc
  | waitSnk
  | trySrc
  | tryWaitSnk
  | trySnk
  | tryWaitSrc
  | attSrc
  | attSnk
  | recovery
  | deadBattery
  | debugAcc
deriving DecidableEq, Repr

/-- The code of a Type-C state (Table 11.2). -/
def TcState.code : TcState → Nat
  | .disabled => 0x0
  | .unattSrc => 0x1
  | .unattSnk => 0x2
  | .waitSrc => 0x3
  | .waitSnk => 0x4
  | .trySrc => 0x5
  | .tryWaitSnk => 0x6
  | .trySnk => 0x7
  | .tryWaitSrc => 0x8
  | .attSrc => 0x9
  | .attSnk => 0xA
  | .recovery => 0xB
  | .deadBattery => 0xC
  | .debugAcc => 0xD

/-- Steps of a Hard Reset (R324, R325). -/
inductive HrPhase where
  | none
  /-- tPSHardReset runs. -/
  | psWait
  /-- Gate and VCONN are off and VBUS is being discharged. -/
  | discharge
  /-- tSrcRecover runs. -/
  | recover
  /-- A sink waits up to 1.95 s for VBUS. -/
  | sinkWait
deriving DecidableEq, Repr

/-- A message on its way out: its KIND, header without the fields of R320, payload, and where it came from. -/
structure TxMsg where
  kind : Nat
  header : Half
  payload : List Byte
  /-- Asked for by firmware through TXCTL; otherwise the engine's own. -/
  firmware : Bool
  amsStart : Bool := false
  amsEnd : Bool := false
deriving DecidableEq, Repr

/-- Stages of a transmission. -/
inductive TxStage where
  | idle
  /-- tSinkTx runs (R322). -/
  | sinkTx
  /-- A sink holds the message until it reads SinkTxOK (R322). -/
  | sinkHold
  /-- A chunk has been sent `tries` times more than once and its GoodCRC is awaited (R320, R321). -/
  | goodCrc (tries chunk : Nat)
  /-- The chunk before `next` has been acknowledged; the partner's Chunk Request is awaited (R321). -/
  | chunkWait (next : Nat)
deriving DecidableEq, Repr

/-- An item that waits for a receive slot: KIND 3, 4 or 5, with its header word (R334). -/
structure WaitItem where
  kind : Nat
  header : Half
deriving DecidableEq, Repr

/-- One CC/PD engine (Table 11.10). -/
structure Engine where
  cfg : DWord := 0x01000000
  state : TcState := .disabled
  partner : Nat := 0
  rpSeen : Nat := 0
  orient : Bool := false
  source : Bool := false
  dfp : Bool := false
  vconnOn : Bool := false
  vconnOc : Bool := false
  epr : Bool := false
  pdSeen : Bool := false
  txng : Bool := false
  /-- The debounce of an AttachWait or Try state has been met (R310). -/
  debounced : Bool := false
  /-- The preference taken at the last entry to an Unattached state is Try.SNK (R309). -/
  preferSnk : Bool := false
  /-- The partner on the CC lines has been an attach already: it raises no second wake (R85). -/
  known : Bool := false
  /-- The CC line that does not carry the connection shows Ra (R317). -/
  ra : Bool := false
  kind : Nat := 0
  volt : Nat := 0
  curr : Nat := 0
  /-- The pending contract: kind, 20 mV units, 10 mA units (R330). -/
  pend : Option (Nat × Nat × Nat) := none
  /-- The Request that made the pending contract. -/
  pendReq : List DWord := []
  /-- Capabilities last sent (R330), and the Request last received or sent, not yet answered. -/
  caps : List DWord := []
  request : Option (List DWord) := none
  /-- Request that made the present contract (R336). -/
  held : List DWord := []
  /-- A PR_Swap (true) or DR_Swap (false) received and not yet answered. -/
  swap : Option Bool := none
  /-- A PR_Swap (true) or DR_Swap (false) that firmware has sent and that awaits its answer. -/
  asked : Option Bool := none
  /-- A swap that has been accepted and runs its steps (R306). -/
  swapping : Option Bool := none
  cable : DWord := 0
  chg : CntAck := {}
  msgBase : Nat := 0
  rxEn : Bool := false
  rxCtr : Nat := 0
  txEn : Bool := false
  txCtr : Nat := 0
  rxSeq : BitVec 16 := 0
  rxAck : BitVec 16 := 0
  waiting : List WaitItem := []
  txctl : DWord := 0
  txSeq : BitVec 16 := 0
  txResult : Nat := 0
  tx : Option TxMsg := none
  txStage : TxStage := .idle
  /-- MessageID counters and the last IDs accepted, for SOP, SOP' and SOP''. -/
  msgId : Vector (BitVec 3) 3 := Vector.replicate 3 0
  lastId : Vector (Option (BitVec 3)) 3 := Vector.replicate 3 none
  /-- The revision of the partner's first message: 1 for 2.0, 2 for 3.x (R320). -/
  rev : Option Nat := none
  /-- A chunked message being assembled: KIND, header, size and the bytes so far (R321). -/
  chunkRx : Option (Nat × Half × Nat × List Byte) := none
  hr : HrPhase := .none
  /-- The 0.5 s limit after EPR mode ended is running (R331). -/
  eprExit : Bool := false
  /-- The holding responder's 30 ms to PS_RDY is running (R336). -/
  holdReady : Bool := false
deriving DecidableEq, Repr

/-- Chapter 11's state; engine 16 is PU's. -/
structure CcPd where
  e : Vector Engine 17 := (Vector.replicate 17 {}).set 16 { state := .deadBattery }
deriving DecidableEq, Repr

end Sys2Proof.Machine
end

