-- ==== Sys2Proof/Machine/Blocks/Events.lean ====
section
/-! DEFINITION. State of event routing (chapter 18). -/

namespace Sys2Proof.Machine

/-- The default route byte of a source (Table 18.1, R509): 0x26 for the port's owner, 0x8E for urgent sources, 0x0E
otherwise. -/
def defaultRoute (e : Nat) : Nat :=
  if e < 160 then
    match e % 10 with
    | 0 => 0x26
    | 1 => 0x26
    | 2 => 0x26
    | 3 => 0x8E
    | 7 => 0x8E
    | 8 => 0x8E
    | _ => 0x0E
  else if e = 164 ∨ e = 165 then 0x8E
  else if 182 ≤ e ∧ e < 206 then (if (e - 182) % 6 = 0 then 0x8E else 0x0E)
  else if 206 ≤ e ∧ e < 222 then (if (e - 206) % 4 ≤ 1 then 0x8E else 0x0E)
  else if 222 ≤ e ∧ e < 258 then (if (e - 222) % 3 = 0 then 0x8E else 0x0E)
  else if e = 265 ∨ e = 266 ∨ e = 270 ∨ e = 278 ∨ e = 286 ∨ e = 289 ∨ e = 290 ∨ e = 293 ∨ e = 294 ∨ e = 296 then 0x8E
  else 0x0E

/-- EVT_ROUTEm at reset (Table 18.6). -/
def defaultRouteReg (m : Nat) : DWord :=
  BitVec.ofNat 32 (defaultRoute (4 * m) + 0x100 * defaultRoute (4 * m + 1) + 0x10000 * defaultRoute (4 * m + 2)
    + 0x1000000 * defaultRoute (4 * m + 3))

/-- Chapter 18's state. -/
structure Events where
  route : Vector DWord 75 := Vector.ofFn (fun i => defaultRouteReg i.val)
  mask : Vector DWord 10 := Vector.replicate 10 0
  undelivered : CntAck := {}
  undeliveredLast : DWord := 0
  /-- Sources whose level was 1 when last looked at, rising. -/
  high : List Nat := []
  /-- Rises and falls of each source in the interval now open (R511). -/
  edges : List (Nat × (Nat × Nat)) := []
  /-- Restatements due at the next closing tick: source and function (R513). -/
  restate : List (Nat × Func) := []
deriving DecidableEq, Repr

end Sys2Proof.Machine
end

