-- ==== Sys2Proof/Machine/Blocks/Rings.lean ====
section
/-! DEFINITION. State of the rings of a function (chapter 7) and of the transfers on them (chapter 8). -/

namespace Sys2Proof.Machine

/-- The eight dwords of a ring entry. -/
abbrev Entry := Vector DWord 8

/-- How a held copy of an entry came (R197, R199, R204). -/
inductive CopyKind where
  | memory
  | speculative
  | pushed
deriving DecidableEq, Repr

/-- A held copy of a ring entry at an absolute index; no entry when its fetch returned poisoned data (R207). -/
structure Staged where
  index : BitVec 16
  entry : Option Entry
  kind : CopyKind
deriving DecidableEq, Repr

/-- A parked REBIND (R215): its command's tag and index, the drain mark and the new binding, with the attach instance that its handle
had when it parked, which a state image keeps (Table 17.2); `lost` says that a restore has left it nothing to bind (R499). -/
structure Rebind where
  tag : BitVec 16
  index : BitVec 16
  mark : BitVec 16
  newBind : DWord
  inst : Nat := 0
  lost : Bool := false
deriving DecidableEq, Repr

/-- An endpoint record (R285) with its data toggles (R233). -/
structure EpRec where
  xtype : Nat
  mult : Nat
  maxp : Nat
  intf : Nat := 0
  /-- The next toggle of the endpoint and direction: true for DATA1. -/
  toggle : Bool := false
  /-- A high-speed OUT answered NYET: PING comes next (R233). -/
  ping : Bool := false
deriving DecidableEq, Repr

/-- What a transaction on a bus needs of its device, kept while it runs should the device leave (R241): whether it lies behind a
translator, its root port where it stands at depth 0, whether it is of high speed, and its endpoint record. -/
structure Seat where
  split : Bool := false
  root : Option (Fin 16) := none
  high : Bool := false
  ep : EpRec := { xtype := 0, mult := 0, maxp := 0 }
deriving DecidableEq, Repr

/-- The stage of a started transfer. -/
inductive Stage where
  /-- A LINK list is being read (R229). -/
  | lists
  | setup
  | data
  | status
deriving DecidableEq, Repr

/-- A started transfer (R222, R232): its entries, the buffers of its byte stream, and its progress. -/
structure Transfer where
  first : BitVec 16
  entries : List Entry
  stage : Stage
  /-- Buffers of the data stage in order: address and length. -/
  bufs : List (QWord × Nat)
  moved : Nat := 0
  /-- Errors absorbed by retries (R234). -/
  errs : Nat := 0
  /-- Consecutive errors of the transaction in hand. -/
  consec : Nat := 0
  psn : Bool := false
  /-- A short packet has ended the data stage. -/
  shortSeen : Bool := false
  /-- A zero-length packet still ends the transfer (R232). -/
  zlp : Bool := false
  /-- A transaction of this transfer is on the bus. -/
  onBus : Bool := false
  /-- What the transaction on the bus needs of its device. -/
  seat : Seat := {}
  /-- A start-split has gone out, and its complete-split is due (R291). -/
  split : Bool := false
  /-- Data of the next OUT packet, once read from host memory, with whether a word of it failed parity (R240). -/
  outData : Option (List Byte × Bool) := none
  /-- A read of its data or of its LINK list is out (R229, R232). -/
  asked : Bool := false
  /-- Entries whose buffers have not joined `bufs` yet: the first of them is a LINK whose list is being read (R229). -/
  todo : List Entry := []
  /-- The port's owner has changed since the start: the transfer ends NOT_OWNER (R242). -/
  disowned : Bool := false
  /-- The device has left since the start, with its SUB: the transfer ends GONE (R241). -/
  goneSub : Option Nat := none
  /-- Copies of its entries that had been pushed (R204), which a state image keeps. -/
  pushed : List (BitVec 16 × Entry) := []
  /-- The stage in which a transfer restored from a state image goes on (R483). -/
  resume : Option Stage := none
deriving DecidableEq, Repr

/-- A parked transfer as a state image holds it (R483, Table 17.2): its entries are fetched again before it goes on. -/
structure Parked where
  first : BitVec 16
  count : Nat
  moved : Nat
  stage : Stage
  errs : Nat
deriving DecidableEq, Repr

/-- The completion of an isochronous entry consumed without a bus interval (R218, R238, R239), awaiting its event. -/
structure Unserved where
  index : BitVec 16
  status : Status
  sub : Nat
  frame : BitVec 16
  user : DWord
  /-- Entries of the transfer: more than one only in a malformed one. -/
  count : Nat := 1
deriving DecidableEq, Repr

/-- A Command Ring or transfer ring (Table 7.8). -/
structure Ring where
  baseLo : DWord := 0
  baseHi : DWord := 0
  opened : Bool := false
  size : Nat := 0
  swell : Bool := false
  evt : Nat := 0
  pi : BitVec 16 := 0
  ci : BitVec 16 := 0
  /-- RNG_r_BIND without PENDING. -/
  bind : DWord := 0
  /-- Attach instance recorded with the binding (R214). -/
  bindInst : Nat := 0
  /-- The bound device has left, with the SUB of R241. -/
  gone : Option Nat := none
  rebind : Option Rebind := none
  /-- Entries before this index are an old owner's for a port that has moved (R20, R172). -/
  lostTo : Option (BitVec 16) := none
  staged : List Staged := []
  /-- A fetch failed or its CYCLE did not match: nothing is read until the next accepted doorbell (R163, R200). -/
  waitDoorbell : Bool := false
  /-- The next index a Swell ring reads speculatively (R199); none until a doorbell is accepted. -/
  spec : Option (BitVec 16) := none
  cur : Option Transfer := none
  /-- A restored transfer that has not gone on yet (R483, R498). -/
  parked : Option Parked := none
  /-- FROZEN_MISSED and other unserved completions awaiting thaw or mastering. -/
  unserved : List Unserved := []
deriving DecidableEq, Repr

/-- An event entry before its CYCLE bit is given: dwords 0 to 7 with bit 0 of dword 7 zero, and whether its data is
poisoned. -/
structure EventEntry where
  dwords : Entry
deriving DecidableEq, Repr

/-- An Event Ring (Table 7.9, R217 to R219). -/
structure EventRing where
  baseLo : DWord := 0
  baseHi : DWord := 0
  opened : Bool := false
  size : Nat := 0
  /-- MOD_INTERVAL and MOD_COUNT as written. -/
  modInterval : Nat := 0
  modCount : Nat := 0
  /-- MOD_INTERVAL and MOD_COUNT in force since the last Beacon tick (R219). -/
  actInterval : Nat := 0
  actCount : Nat := 0
  ep : BitVec 16 := 0
  hci : BitVec 16 := 0
  armed : Bool := false
  full : Bool := false
  /-- Events produced and not yet written, oldest first (R159, R218). -/
  held : List EventEntry := []
  /-- An interrupt message due and not yet sent because the function cannot master (R159). -/
  heldMsg : Bool := false
  /-- The interval had passed at a tick with the ring armed, and no message has gone since. -/
  tickDue : Bool := false
  /-- Events written since the last message. -/
  sinceMsg : Nat := 0
  /-- Beacon ticks since the last message, or since the tick that opened the microframe of opening. -/
  ticksMsg : Nat := 0
deriving DecidableEq, Repr

/-- A command that has started and waits to complete (R209): its tag, index and type, and its entry. -/
structure CmdRef where
  tag : BitVec 16
  index : BitVec 16
  entry : Entry
deriving DecidableEq, Repr

/-- One function's rings (R187). `rings[0]` is the Command Ring. -/
structure FuncState where
  rings : Vector Ring 65 := Vector.replicate 65 {}
  evts : Vector EventRing 4 := Vector.replicate 4 {}
  /-- Tags of the last 32 completed commands with their status, newest first (R210). -/
  tags : List (BitVec 16 × Nat) := []
  /-- Tags of parked REBINDs. -/
  parkedTags : List (BitVec 16) := []
  /-- The command in progress (R209). -/
  cmd : Option CmdRef := none
  push : Vector DWord 32 := Vector.replicate 32 0
  /-- Data of transactions that ended while the function could not master, oldest first (R159): address, bytes, and whether poisoned. -/
  heldData : List (QWord × List Byte × Bool) := []
  fault : CntAck := {}
  faultLast : DWord := 0
deriving DecidableEq, Repr

/-- Chapters 7 and 8: every function's rings. -/
structure Rings where
  fn : Vector FuncState 18 := Vector.replicate 18 {}
deriving DecidableEq, Repr

end Sys2Proof.Machine
end

