-- ==== Sys2Proof/Machine/Blocks/Fairway.lean ====
section
/-! DEFINITION. State of the fairways, root ports and the device tree (chapter 10). -/

namespace Sys2Proof.Machine

/-- Root-port states (Table 10.1). -/
inductive PortState where
  | off
  | disconnected
  | debounce
  | attached
  | resetting
  | enabled
  | suspended
  | resuming
  | l1
  | disabled
  | failed
deriving DecidableEq, Repr

/-- The code of a root-port state (Table 10.1). -/
def PortState.code : PortState → Nat
  | .off => 0x0
  | .disconnected => 0x1
  | .debounce => 0x2
  | .attached => 0x3
  | .resetting => 0x4
  | .enabled => 0x5
  | .suspended => 0x6
  | .resuming => 0x7
  | .l1 => 0x8
  | .disabled => 0x9
  | .failed => 0xA

/-- What a port is timing for a PORT_CTL command or for itself. -/
inductive PortWait where
  | none
  /-- 50 ms of SE0 (R280). -/
  | se0
  /-- 10 ms reset recovery (R280). -/
  | recovery
  /-- Start-of-frame stops at the next tick (R297). -/
  | suspendTick
  /-- 3 ms for the device to suspend (R297). -/
  | suspendWait
  /-- Resume signalling (R297, R298, R300). -/
  | resume
deriving DecidableEq, Repr

/-- One root port (R277, Table 10.9). -/
structure Port where
  state : PortState := .off
  /-- The speed that the last reset found (R280); none before one and after one that found none. -/
  speed : Option Speed := none
  /-- A device pull-up is seen. -/
  conn : Bool := false
  /-- The pull-up is on D- (low speed). -/
  connLow : Bool := false
  disCause : Nat := 0
  /-- SUSPENDED by a mode, or a RESUMING port that ends so if the mode has no start-of-frame (R299). -/
  suspMode : Bool := false
  chg : CntAck := {}
  lpmResp : Nat := 0
  lpmRwe : Bool := false
  lpmBesl : Nat := 0
  wait : PortWait := .none
  /-- The functions whose PORT_CTL is in progress on this port: more than one only where its owner has changed meanwhile. -/
  cmd : List Func := []
  /-- PHY, control state or Mooring failure: TOP_HEALTH PORT_FAILED (R302, R356). -/
  failed : Bool := false
deriving DecidableEq, Repr

/-- An addressed device (R281, Table 10.8). `eps` is keyed by 2 * endpoint + (1 for IN). -/
structure DevRec where
  hub : Bool := false
  mtt : Bool := false
  speed : Speed := .high
  think : Nat := 0
  hubPorts : Nat := 0
  depth : Nat := 0
  inst : Nat := 0
  port : Fin 16 := 0
  parent : Nat := 0
  route : Nat := 0
  ttHub : Nat := 0
  ttPort : Nat := 0
  eps : List (Nat × EpRec) := []
deriving DecidableEq, Repr

/-- A DEV_ADDRESS in progress on a fairway (R281, R282): its function, the record it will create, and the address it has taken. -/
structure Addressing where
  fn : Func
  dev : DevRec
  addr : Nat
deriving DecidableEq, Repr

/-- One fairway (Table 10.7): devices and attach instances by USB address. -/
structure Fairway where
  failed : Bool := false
  failCause : Nat := 0
  resetting : Bool := false
  xerr : CntAck := {}
  split : CntAck := {}
  babble : CntAck := {}
  devs : List (Nat × DevRec) := []
  insts : List (Nat × Nat) := []
  /-- The ring the Bulk Circuit served last: function code and ring number (R268). -/
  cursor : Nat × Nat := (0, 0)
  /-- The DEV_ADDRESS that holds address 0 (R282). -/
  addressing : Option Addressing := none
deriving DecidableEq, Repr

/-- Chapter 10's state. -/
structure Fairways where
  fwy : Vector Fairway 4 := Vector.replicate 4 {}
  port : Vector Port 16 := Vector.replicate 16 {}
  /-- Owner of each downstream port (R17). -/
  owner : Vector Func 16 := Vector.replicate 16 .mfA
deriving DecidableEq, Repr

end Sys2Proof.Machine
end

