-- ==== Sys2Proof/Machine/Blocks/Keeper.lean ====
section
/-! DEFINITION. State of the keeper cores (chapter 15). -/

namespace Sys2Proof.Machine

/-- A DMA slot (R448): words 0 to 5, and what word 6 reports. -/
structure DmaSlot where
  words : Vector Half 6 := Vector.replicate 6 0
  /-- Words that a DMA read has landed poisoned (R28, R450). -/
  bad : Vector Bool 6 := Vector.replicate 6 false
  busy : Bool := false
  /-- The request has gone to its link (R175, R449). -/
  issued : Bool := false
  sub : Nat := 0
  status : Nat := 0
deriving DecidableEq, Repr

/-- One register window: twelve registers and LINK (R435). -/
structure Window where
  w : Vector Half 12 := Vector.replicate 12 0
  link : BitVec 24 := 0
deriving DecidableEq, Repr

/-- What a keeper is running (Table 15.15 STATE, R441, R455). -/
inductive KRun where
  | idle
  /-- A work item. -/
  | item (i : Nat)
  /-- The init program of KINDLE (1) or RELIGHT (2), or the Wick segment (3). -/
  | program (kind : Nat)
  /-- The boot ROM. -/
  | bootRom
  /-- A program halted by a trap (R441). -/
  | halted (kind : Nat)
  /-- An item has ended and the keeper waits for its DMA slots to go idle (R440). -/
  | settling
deriving DecidableEq, Repr

/-- One instruction-cache line: its first word address and eight words, each with whether it failed parity (R426). -/
structure CacheLine where
  base : Nat
  words : List (Half × Bool)
deriving DecidableEq, Repr

/-- One keeper. -/
structure Keeper where
  fenced : Bool := false
  run : KRun := .idle
  pc : BitVec 24 := 0
  g : Vector Half 8 := Vector.replicate 8 0
  h : Vector Half 4 := Vector.replicate 4 0
  win : Vector Window 8 := Vector.replicate 8 {}
  trapWin : Vector Half 12 := Vector.replicate 12 0
  seg : Vector Half 4 := Vector.replicate 4 0
  trapped : Bool := false
  active : Fin 8 := 0
  held : Nat := 1
  parked : Half := 0
  trapCause : Half := 0
  trapPc : BitVec 24 := 0
  trapAddr : BitVec 24 := 0
  tvec : BitVec 24 := 0
  /-- The running item's OWNER code and TAG (0xFF and 0 outside an item). -/
  itemOwner : Nat := 0xFF
  itemTag : DWord := 0
  /-- Captured COUNT_HI and CYC_HI (R429). -/
  countHi : Option Half := none
  cycHi : Option Half := none
  /-- Stores not yet visible, oldest first, at most four: word address and data (R444). -/
  storeBuf : List (Nat × Half) := []
  dma : Vector DmaSlot 4 := Vector.replicate 4 {}
  icache : List CacheLine := []
  trap : CntAck := {}
  trapLast : DWord := 0
  trapLastPc : DWord := 0
  dmaFault : CntAck := {}
  dmaLast : DWord := 0
deriving DecidableEq, Repr

/-- Chapter 15's state. -/
structure Keepers where
  k : Vector Keeper 12 := Vector.replicate 12 {}
  bootReady : Bool := false
  bootKind : Nat := 0
  imageSeq : DWord := 0
  imageSvn : Nat := 0
  imageKeySlot : Nat := 0
  wickRunning : Bool := false
deriving DecidableEq, Repr

end Sys2Proof.Machine
end

