-- ==== Sys2Proof/Machine/Blocks/Lantern.lean ====
section
/-! DEFINITION. State of the Lantern and of the IBP engine (chapter 13). -/

namespace Sys2Proof.Machine

/-- Lantern connection states (Table 13.2). -/
inductive LanState where
  | off
  | waiting
  | powered
  | default
  | addressed
  | suspended
  | l1
deriving DecidableEq, Repr

/-- The code of a connection state (Table 13.2). -/
def LanState.code : LanState → Nat
  | .off => 0x0
  | .waiting => 0x1
  | .powered => 0x2
  | .default => 0x3
  | .addressed => 0x4
  | .suspended => 0x5
  | .l1 => 0x6

/-- One buffer of an endpoint direction (R376, Table 13.13). -/
structure LanBuf where
  armed : Bool := false
  zlp : Bool := false
  done : Bool := false
  short : Bool := false
  abort : Bool := false
  poison : Bool := false
  /-- LEN as armed: the capacity for OUT, the bytes to send for IN. -/
  len : Nat := 0
  /-- Bytes of handshaken packets. -/
  count : Nat := 0
  /-- Hardware has started to use the buffer. -/
  used : Bool := false
  /-- The zero-length packet that ends the transfer has not gone yet. -/
  zlpDue : Bool := false
deriving DecidableEq, Repr

/-- One endpoint direction, numbered `2 e + d` (R373). -/
structure LanEp where
  en : Bool := false
  dbl : Bool := false
  halted : Bool := false
  ctrEn : Bool := false
  ctr : Nat := 0
  base : Nat := 0
  size : Nat := 0
  toggle : Bool := false
  next : Bool := false
  doneSeq : BitVec 16 := 0
  buf0 : LanBuf := {}
  buf1 : LanBuf := {}
deriving DecidableEq, Repr

/-- What EP0's status stage will do once acknowledged (R372, R379, R385). -/
inductive LanRequest where
  | none
  | clearHalt (i : Fin 32)
  /-- SET_FEATURE(ENDPOINT_HALT), which only the engine answers. -/
  | setHalt (i : Fin 32)
  | setConfig (c : Nat)
  | setInterface
  | wakeOn
  | wakeOff
  | setAddress (a : Nat)
deriving DecidableEq, Repr

/-- The IBP engine (R387 to R397, Table 13.14). -/
structure Ibp where
  lastSeq : BitVec 16 := 0
  devSeq : BitVec 16 := 1
  /-- The last response sent, its bytes and its header's dword 0 (R389). -/
  last : List Byte := []
  err : CntAck := {}
  errLast : DWord := 0
  fwBox : Nat := 0
  inSeq : BitVec 16 := 0
  inAck : BitVec 16 := 0
  fwCtrEn : Bool := false
  fwCtr : Nat := 0
  outSeq : BitVec 16 := 0
  outLen : Nat := 0
  /-- BUSY: a reply waits for the bus (R397). -/
  outBusy : Bool := false
  /-- NP of the bridge host's Event Rings (R396). -/
  np : Vector (BitVec 16) 4 := Vector.replicate 4 0
  /-- Notifications that wait for resume (R396). -/
  waiting : List (Fin 4) := []
  /-- EP0 data the engine has ready for the host, and the configuration in force (Table 13.6). -/
  ep0 : List Byte := []
  config : Nat := 0
  /-- The engine stalls EP0 until the next SETUP. -/
  ep0Stall : Bool := false
deriving DecidableEq, Repr

/-- Chapter 13's state. -/
structure Lantern where
  en : Bool := false
  fsOnly : Bool := false
  state : LanState := .off
  /-- State before SUSPENDED, to which resume returns (R383). -/
  before : LanState := .default
  pullup : Bool := false
  high : Bool := false
  rweHost : Bool := false
  addr : Nat := 0
  /-- LAN_ADDR: an address awaits its status stage. -/
  addrPend : Option Nat := none
  addrReg : Nat := 0
  reset : CntAck := {}
  sofValid : Bool := false
  sofFrame : Nat := 0
  sofUframe : Nat := 0
  sofStamp : DWord := 0
  /-- The start-of-frame expected next, as frame number times 8 plus microframe (R386). -/
  sofNext : Nat := 0
  sofErr : CntAck := {}
  lpmEn : Bool := true
  beslMin : Nat := 2
  /-- EN and BESL_MIN as sampled at the last bus reset (R384). -/
  lpmEnTaken : Bool := true
  beslTaken : Nat := 2
  lpmResp : Nat := 0
  lpmRwe : Bool := false
  lpmBesl : Nat := 0
  wakeReq : Bool := false
  setupLo : DWord := 0
  setupHi : DWord := 0
  setup : CntAck := {}
  setupCtrEn : Bool := false
  setupCtr : Nat := 0
  fault : CntAck := {}
  faultLast : DWord := 0
  /-- The request whose status stage is awaited. -/
  request : LanRequest := .none
  ep : Vector LanEp 32 := Vector.ofFn (fun i => if i.val < 2 then { en := true } else {})
  /-- The four dedicated buffers, each with its bytes from byte 0 on; a missing byte reads zero. -/
  ded : Vector (List Byte) 4 := Vector.replicate 4 []
  /-- The PU partner's Source_Capabilities showed USB Suspend Supported = 0 in its first PDO (R368). -/
  noSuspend : Bool := false
  ibp : Ibp := {}
deriving DecidableEq, Repr

end Sys2Proof.Machine
end

