-- ==== Sys2Proof/Machine/Blocks/Links.lean ====
section
/-! DEFINITION. State of the host links, the functions presented on them, the Buoys, the host DMA windows and the
mailboxes (chapter 6).
Choices: log 61. -/

namespace Sys2Proof.Machine

/-- Fields of a Manager function's configuration space that the device only keeps and shows (R150, R153, R161): its layout beyond
Table 6.2 and the reset values are PCI Express's (PRESUMED, log 61). -/
structure PfConfig where
  /-- Command without Memory Space Enable and Bus Master Enable. -/
  command : Half := 0
  bar : Vector DWord 6 := Vector.replicate 6 0
  /-- PME_En. -/
  pmeEn : Bool := false
  /-- Device Control: Max Payload Size, Max Read Request Size and error reporting; Device Status. -/
  devCtl : Half := 0x2000
  devStatus : Half := 0
  /-- Device Control 2 without LTR Mechanism Enable: Completion Timeout Value and Disable. -/
  devCtl2 : Half := 0
  /-- Link Control without ASPM L1 Entry Enabled, and Link Control 2. -/
  lnkCtl : Half := 0
  lnkCtl2 : Half := 3
  /-- AER: uncorrectable status, mask and severity, correctable status and mask, the first error pointer and the header log. -/
  uncStatus : DWord := 0
  uncMask : DWord := 0
  uncSeverity : DWord := 0x00462030
  corStatus : DWord := 0
  corMask : DWord := 0x00002000
  firstError : Nat := 0
  header : Vector DWord 4 := Vector.replicate 4 0
  /-- SR-IOV: VF MSE, ARI Capable Hierarchy, System Page Size and the VF BARs. -/
  vfMse : Bool := false
  ariHierarchy : Bool := false
  pageSize : DWord := 1
  vfBar : Vector DWord 2 := Vector.replicate 2 0
  /-- Maximum snoop and no-snoop latencies of the LTR capability, and the controls of L1 PM Substates. -/
  ltrMax : DWord := 0
  l1ss1 : DWord := 0
  l1ss2 : DWord := 0
deriving DecidableEq, Repr

/-- One host link (R151 to R165, Table 6.12). -/
structure LinkState where
  up : Bool := false
  /-- Trained rate: 1, 2 or 3 for 2.5, 5.0 or 8.0 GT/s; 0 when down. -/
  speed : Nat := 0
  width : Nat := 0
  /-- ASPM or PCI-PM L1 entered, and as its L1.2 substate (R164). -/
  l1 : Bool := false
  l12 : Bool := false
  /-- L2 entered (STANDBY and NIGHT, R164). -/
  l2 : Bool := false
  /-- PERST_N is low after its filter. -/
  perst : Bool := true
  /-- The PF's SR-IOV VF Enable (R158). -/
  vfEnable : Bool := false
  numVFs : Nat := 0
  /-- Link Control enables ASPM L1 (R164). -/
  aspmEnable : Bool := false
  /-- The PTM capability enables the requester (R165). -/
  ptmEnable : Bool := false
  /-- Device Control 2 enables the LTR mechanism (R150, as PCI Express defines it). -/
  ltrEnable : Bool := false
  /-- LTR tolerance last reported, in microseconds; 0 before any (R164). -/
  ltr : Nat := 0
  /-- HLx_WAKE_N is driven low (R85). -/
  wakeDrive : Bool := false
  errCor : CntAck := {}
  errUnc : CntAck := {}
  rxPoison : CntAck := {}
  dmaFault : CntAck := {}
  faultLast : DWord := 0
  faultAddr : QWord := 0
  /-- The rest of the Manager function's configuration space. -/
  cfg : PfConfig := {}
deriving DecidableEq, Repr

/-- Configuration of one slot or Manager function: mastering and power state (R159), the MSI-X table and PBA (R160). -/
structure MsixTable where
  /-- Memory Space Enable of a Manager function (R151); the slots follow VF MSE. -/
  memory : Bool := false
  /-- Bus Master Enable. -/
  busMaster : Bool := false
  /-- The rest of a slot's Command, Device Control and Device Status (PRESUMED, log 61). -/
  command : Half := 0
  devCtl : Half := 0
  devStatus : Half := 0
  /-- The function is in D3hot. -/
  d3hot : Bool := false
  enable : Bool := false
  functionMask : Bool := false
  addr : Vector QWord 4 := Vector.replicate 4 0
  data : Vector DWord 4 := Vector.replicate 4 0
  /-- Vector Control; bit 0 masks the vector and is set at reset, as PCI Express defines. -/
  control : Vector DWord 4 := Vector.replicate 4 1
  pending : BitVec 4 := 0
deriving DecidableEq, Repr

/-- One HLK_WINn (R174, Table 6.13). -/
structure DmaWindow where
  baseLo : DWord := 0
  baseHi : DWord := 0
  size : DWord := 0
  ctl : DWord := 0
deriving DecidableEq, Repr

/-- One Buoy's assignment (R168): the link that holds it, and its keeper grants. -/
structure BuoyState where
  home : Option Link := none
  grant : BitVec 12 := 0
deriving DecidableEq, Repr

/-- One direction of a mailbox (R176, Table 6.9): the sender's OUT registers and the receiver's IN registers. -/
structure MboxDir where
  out : Vector DWord 16 := Vector.replicate 16 0
  outSeq : DWord := 0
  result : Nat := 0
  accepted : BitVec 16 := 0
  acked : BitVec 16 := 0
  inn : Vector DWord 16 := Vector.replicate 16 0
  inSeq : BitVec 16 := 0
  inLen : Nat := 0
deriving DecidableEq, Repr

/-- A Buoy's mailbox: tenant to manager and manager to tenant. -/
structure Mailbox where
  toMgr : MboxDir := {}
  toTenant : MboxDir := {}
deriving DecidableEq, Repr

/-- A PORT_ASSIGN or a release under BUOY_HOME that waits (R171, R172): the old owners' rings with entries not yet completed, the
ports that each function gained and lost, the Buoys whose release goes on then, and whether its command was forgotten by a reset
of its issuer. -/
structure AssignWait where
  rings : List (Func × Fin 65)
  moves : List (Func × DWord × DWord)
  release : List (Fin 15) := []
  quiet : Bool := false
deriving DecidableEq, Repr

/-- Chapter 6's state. `msix` holds HLA's Manager function and slots 1 to 15, then HLB's. -/
structure Links where
  link : Vector LinkState 2 := Vector.replicate 2 {}
  msix : Vector MsixTable 32 := Vector.replicate 32 {}
  win : Vector DmaWindow 32 := Vector.replicate 32 {}
  buoy : Vector BuoyState 15 := Vector.replicate 15 {}
  mbox : Vector Mailbox 15 := Vector.replicate 15 {}
  /-- The cross-link mailbox, MF-A to MF-B and MF-B to MF-A (R180). -/
  xAtoB : MboxDir := {}
  xBtoA : MboxDir := {}
  /-- The PORT_ASSIGN in progress (R172). -/
  assign : Option AssignWait := none
deriving DecidableEq, Repr

end Sys2Proof.Machine
end

