-- ==== Sys2Proof/Machine/Blocks/Migration.lean ====
section
/-! DEFINITION. State of freezing, saving and re-homing a Buoy, and of the Logbook (chapter 17). The image slots
themselves are words of the Holding Store (R493). -/

namespace Sys2Proof.Machine

/-- Phases of a Buoy (R481). -/
inductive Phase where
  | running
  | freezing
  | frozen
deriving DecidableEq, Repr

/-- One Buoy's migration state. -/
structure BuoyMig where
  phase : Phase := .running
  /-- The first tick of the freeze has passed: Lamps issue no token (R482). -/
  ticked : Bool := false
  /-- Count of the microframe opened by the first tick of the freeze. -/
  tickCount : DWord := 0
  /-- The function whose BUOY_FREEZE waits (R483). -/
  cmd : Option Func := none
  /-- A message to the tenant was accepted since the freeze began; its event waits for the thaw (R178, R485). -/
  mboxHeld : Bool := false
  restored : Bool := false
  foreign : Bool := false
  rehomed : Bool := false
deriving DecidableEq, Repr

/-- One Buoy's Logbook (R488 to R492, Table 17.7). -/
structure Logbook where
  en : Bool := false
  logging : Bool := false
  /-- The active map is B. -/
  mapB : Bool := false
  fault : Bool := false
  rangeLo : DWord := 0
  rangeHi : DWord := 0
  pages : DWord := 0
  mapALo : DWord := 0
  mapAHi : DWord := 0
  mapBLo : DWord := 0
  mapBHi : DWord := 0
  miss : CntAck := {}
  /-- Map dwords to read and write back: whether map B, and the page (R490), oldest first. -/
  dirty : List (Bool × Nat) := []
  /-- The function whose LOG_SWAP waits for the closing read (R491). -/
  swapCmd : Option Func := none
  /-- EN was written 0 and the closing read is awaited (R492). -/
  ending : Bool := false
deriving DecidableEq, Repr

/-- Chapter 17's state. -/
structure Migration where
  mig : Vector BuoyMig 15 := Vector.replicate 15 {}
  log : Vector Logbook 15 := Vector.replicate 15 {}
  origin : DWord := 0
deriving DecidableEq, Repr

end Sys2Proof.Machine
end

