-- ==== Sys2Proof/Machine/Blocks/Output.lean ====
section
/-! DEFINITION. What the device sends to the outside world, recorded in order in the state's outbox (log 4).
Choices: log 4. -/

namespace Sys2Proof.Machine

/-- One thing sent. -/
inductive Output where
  /-- A posted write to a function's host memory, poisoned or not (R28, R159). -/
  | hostWrite (f : Func) (addr : QWord) (bytes : List Byte) (poisoned : Bool)
  /-- An MSI-X message: address and data of the vector's table entry (R160). -/
  | msix (f : Func) (vector : Nat) (addr : QWord) (data : DWord)
  /-- An LTR message: the tolerance in microseconds, snoop and no-snoop (R164). -/
  | ltr (l : Link) (us : Nat)
  | pmPme (l : Link)
  | ptmRequest (l : Link)
  /-- The answer to a request that is not served (R123, R150, R151, R154): Unsupported Request, and Configuration Request Retry
  Status. -/
  | unsupported (p : Path)
  | configRetry (p : Path)
  /-- A poisoned completion of a host's read (R28, R154, R272). -/
  | poisonedCompletion (p : Path) (off : Nat)
  /-- The flash's SFDP table is read, and a run of the flash is fetched by a method (R87, Table 19.12). -/
  | sfdpRead
  | flashFetch (m : SpiRead) (addr len : Nat)
  /-- A run of the flash is erased with a command, 4 KiB at a time, and programmed (Table 19.12). -/
  | flashErase (command : Byte) (addr len : Nat)
  | flashProgram (addr len : Nat)
  /-- A keeper DMA read in a function's host memory (R449); its writes are host writes. -/
  | dmaRead (f : Func) (addr : QWord) (len : Nat)
  /-- A read of a run of a transfer's buffers, or of a LINK list, in a function's host memory (R229, R232). -/
  | dataRead (f : Func) (addr : QWord) (len : Nat)
  /-- A Logbook map dword written back to host memory (R490). -/
  | logWrite (b : Func) (addr : QWord) (value : DWord)
  /-- The answer to a register read that a command carries. -/
  | readData (p : Path) (off : Nat) (v : DWord)
  /-- The answer to an SMBus REG_READ: its count and value, or no acknowledge (R537). -/
  | smbData (v : Option DWord)
  | smbNoAck
  /-- An IBP message on EP1 IN (R388). -/
  | ibp (bytes : List Byte)
  /-- A PD message: KIND, header and payload (R320). -/
  | pd (e : Fin 17) (kind : Nat) (header : Half) (payload : List Byte)
  | pdGoodCrc (e : Fin 17) (kind : Nat) (id : BitVec 3)
  | pdHardReset (e : Fin 17)
  | pdCableReset (e : Fin 17)
  /-- A handshake of the Lantern, and a data packet with its toggle (Table 13.4). -/
  | lanAck (ep : Fin 16)
  | lanNak (ep : Fin 16)
  | lanNyet (ep : Fin 16)
  | lanStall (ep : Fin 16)
  | lanData (ep : Fin 16) (toggle : Bool) (bytes : List Byte)
  /-- A USB transaction put on a fairway: function, ring, and the token's bytes for OUT and SETUP. -/
  | usbIn (f : Func) (ring : Nat)
  | usbOut (f : Func) (ring : Nat) (setup : Bool) (toggle : Bool) (bytes : List Byte)
  | usbPing (f : Func) (ring : Nat)
  /-- The handshake that accepts, or repeats the acceptance of, an IN packet (R233, R235). -/
  | usbAck (f : Func) (ring : Nat)
  /-- The transaction that follows goes to a translator as a start-split; a complete-split asks it for the answer (R291). -/
  | startSplit (f : Func) (ring : Nat)
  | completeSplit (f : Func) (ring : Nat)
  /-- Start-of-frame with its frame number on a root port, or a keep-alive (Table 9.3). -/
  | sof (n : Fin 16) (frame : Nat)
  | keepAlive (n : Fin 16)
  /-- A setup or control exchange the device makes by itself: a hub or device request it sends (R281). -/
  | usbControl (fa : Fin 4) (addr : Nat) (bytes : List Byte)
  /-- An LPM transaction on a root port (R300). -/
  | usbLpm (n : Fin 16) (besl : Nat) (rwe : Bool)
deriving DecidableEq, Repr

end Sys2Proof.Machine
end

