-- ==== Sys2Proof/Machine/Blocks/Pins.lean ====
section
/-! DEFINITION. State of the straps, the Lane GPIO and TOP_FIT (chapter 2), and of the clocks and resets (chapter 4).
Choices: log 7, 19. -/

namespace Sys2Proof.Machine

/-- Chapter 2's state. -/
structure Pins where
  strap : BitVec 4 := 0
  testen : Bool := false
  smbAdr : Nat := 0
  fit : DWord := 0x03F0FFFF
  lgMode0 : DWord := 0
  lgMode1 : DWord := 0
  lgOut : DWord := 0
  /-- Filtered levels that the board drives on the LG balls. -/
  lgIn : DWord := 0
  lgPull : DWord := 0x0000FFFF
  lgKeep : DWord := 0
  puGateIn : Bool := false
  /-- Bias resistors missing, found at the calibration on leaving DARK (R59, R114). -/
  biasMissing : BitVec 4 := 0
  biasPuMissing : Bool := false
deriving DecidableEq, Repr

/-- Chapter 4's state. -/
structure Clocks where
  xtalOk : Bool := false
  pllLock : Bool := false
  refclkOk : Vector Bool 2 := Vector.replicate 2 false
  ssc : DWord := 1
  edge : DWord := 1
  lgFilt : DWord := 0
  /-- Fairway resets asked for or in progress (CLK_RST_REQ FWY), and those that have started. -/
  fwyAsked : BitVec 4 := 0
  fwyOn : BitVec 4 := 0
  /-- Port resets in progress (CLK_RST_REQ PORT). -/
  portOn : BitVec 16 := 0
  /-- TRST_N has reset the JTAG TAP controller. -/
  tapReset : Bool := true
deriving DecidableEq, Repr

end Sys2Proof.Machine
end

