-- ==== Sys2Proof/Machine/Blocks/Power.lean ====
section
/-! DEFINITION. State of the Moorings and sectors (chapter 12). -/

namespace Sys2Proof.Machine

/-- One power path: P0 to P15, or PU (R347, Table 12.5). -/
structure Mooring where
  env : DWord := 0
  policy : DWord := 0x00130909
  /-- Pn_GATE, or PU_GATE_OUT for PU. -/
  gate : Bool := false
  latched : Bool := false
  gap : Bool := false
  shed : Bool := false
  offCmd : Bool := false
  oc : Bool := false
  ppsCl : Bool := false
  vbad : Bool := false
  /-- PU's own failure; a port's is in its root port. -/
  failed : Bool := false
  /-- VSNS is below vSafe0V. -/
  vsafe0v : Bool := true
  meas : DWord := 0
  trip : CntAck := {}
  tripKind : Nat := 0
  run : Nat := 0
  tripCount : BitVec 16 := 0
  failCause : Nat := 0
  /-- The functions whose PORT_POWER OFF or CYCLE waits for vSafe0V, oldest first, and whether ON follows (R360). -/
  cmd : List (Func × Bool) := []
deriving DecidableEq, Repr

/-- One sector (R352 to R354, Table 12.6). -/
structure Sector where
  env : DWord := 0
  cfg : DWord := 0x000A3009
  target : Nat := 500
  en : Bool := false
  pg : Bool := false
  moving : Bool := false
  atLevel : Bool := false
  gap : Bool := false
  latched : Bool := false
  oc : Bool := false
  ppsCl : Bool := false
  refuse : Nat := 0
  level : Nat := 0
  meas : DWord := 0
  faultCause : Nat := 0
  run : Nat := 0
  faultCount : BitVec 16 := 0
deriving DecidableEq, Repr

/-- Chapter 12's state; path 16 is PU. -/
structure Power where
  path : Vector Mooring 17 := Vector.replicate 17 {}
  sec : Vector Sector 4 := Vector.replicate 4 {}
  cfg : DWord := 4
  /-- A SHED_STEP interval is running (R357). -/
  shedTimer : Bool := false
  /-- The sink current limit set on PU_ISNS in WICK, in mA; 0 while PU_GATE_IN is off (R71). -/
  sinkLimit : Nat := 0
deriving DecidableEq, Repr

end Sys2Proof.Machine
end

