-- ==== Sys2Proof/Machine/Blocks/Regs.lean ====
section
/-! DEFINITION. State of the register file's shared mechanisms (chapter 5): the shadow and staged dwords of each
requester, the keepers' staged words, seals, the Keyhole, refused-write records and the Daymark. -/

namespace Sys2Proof.Machine

/-- The states of a Keyhole (Table 5.5). -/
inductive KeyState where
  | armed
  | half
  | opened
deriving DecidableEq, Repr

/-- One requester's Keyhole: its state and the Beacon ticks since HALF or OPEN was last entered (R137). -/
structure Keyhole where
  state : KeyState := .armed
  ticks : Nat := 0
deriving DecidableEq, Repr

/-- A shadow slot in use (R127): the BAR0 offset of the value's low dword, and the captured 16-bit words not yet read, each
with its place 1 to 3 in the value. -/
structure Shadow where
  value : Nat
  words : List (Nat × Half)
deriving DecidableEq, Repr

/-- What the register file keeps for one requester (R127, R129, R124). -/
structure ReqState where
  slot : Option Shadow := none
  /-- The staged low dwords of 64-bit control values: each low dword's offset and the value (R129). -/
  staged : List (Nat × DWord) := []
  /-- A keeper's staged low word: the register's offset and the word (R124). -/
  stagedWord : Option (Nat × Half) := none
deriving DecidableEq, Repr

/-- A Daymark pass in progress (R139): the next covered register, the CRC register, whether a sealed-class write has been
accepted since it began, the first register that failed parity, and whether its result may be compared or captured. -/
structure DayPass where
  next : Nat := 0
  crc : DWord := 0xFFFFFFFF
  disturbed : Bool := false
  parityAt : Option Nat := none
  /-- Began after the last LOAD, so it may be compared (R142). -/
  comparable : Bool := true
  /-- Began after the waiting CAPTURE's write (R142). -/
  captures : Bool := false
deriving DecidableEq, Repr

/-- The Daymark (R139 to R144, Table 5.8). -/
structure Daymark where
  refIn : DWord := 0
  ref : DWord := 0
  last : DWord := 0
  mismatchCnt : Nat := 0
  capturing : Bool := false
  parity : Bool := false
  stale : Bool := true
  mismatch : Bool := false
  parityAt : DWord := 0
  pass : Option DayPass := none
deriving DecidableEq, Repr

/-- Chapter 5's state. `parityBad` lists byte `i` of the sealed register at offset `o` as `o + i` when its stored parity
fails (R141). -/
structure RegFile where
  req : Vector ReqState 33 := Vector.replicate 33 {}
  sealSet : BitVec 6 := 0
  refuse : CntAck := {}
  refuseLast : DWord := 0
  keyA : Keyhole := {}
  keyB : Keyhole := {}
  keyBridge : Keyhole := {}
  keyRom : Keyhole := {}
  keyFault : CntAck := {}
  keyFaultLast : DWord := 0
  day : Daymark := {}
  parityBad : List Nat := []
deriving DecidableEq, Repr

end Sys2Proof.Machine
end

