-- ==== Sys2Proof/Machine/Blocks/Store.lean ====
section
/-! DEFINITION. State of the Holding Store (chapter 16): the bytes and their parity, the merge buffer, the Lamp
Changer with its spare rows, and the scrubber.
Choices: log 3. -/

namespace Sys2Proof.Machine

/-- One entry of HST_CHG with its spare row (R470, Table 16.5); the spare holds eight bytes and, for each, whether
its parity bit is wrong. -/
structure ChangerEntry where
  valid : Bool := false
  spent : Bool := false
  source : Nat := 0
  row : Nat := 0
  bytes : List (Byte × Bool) := []
deriving DecidableEq, Repr

/-- One byte held in a merge-buffer entry (R466): its place in the row, its data, whether its stored parity is wrong,
and whether the entry's own parity has failed for it (R469). -/
structure MergeByte where
  pos : Nat
  data : Byte
  bad : Bool
  upset : Bool := false
deriving DecidableEq, Repr

/-- One merge-buffer entry: a row and the bytes written to it, in rising place (R466). -/
structure MergeEntry where
  row : Nat
  held : List MergeByte
deriving DecidableEq, Repr

/-- The scrubber's registers and progress (Table 16.6). -/
structure Scrubber where
  start : Nat := 0
  last : Nat := 0x3FFFF
  pace : Nat := 3
  /-- PACE taken at the GO (R475). -/
  activePace : Nat := 3
  busy : Bool := false
  done : Bool := false
  stopping : Bool := false
  result : Nat := 0
  at_ : Nat := 0
  /-- The next row to read while `busy`. -/
  next : Nat := 0
  /-- END taken at the GO. -/
  stopRow : Nat := 0
  rows : Nat := 0
  retired : Nat := 0
  unretired : Nat := 0
  faultRows : Nat := 0
  poisonWords : Nat := 0
  first : Option Nat := none
deriving DecidableEq, Repr

/-- The Holding Store. `cells` lists the bytes that differ from zero, byte `2w` and `2w + 1` being the low and high byte
of word `w`, in rising order; `wrong` lists the bytes whose stored parity bit is not the odd parity of R460. -/
structure HoldingStore where
  cells : List Host.Cell := []
  wrong : List Nat := []
  /-- Merge-buffer entries, oldest first, at most four (R466). -/
  merge : List MergeEntry := []
  changer : Vector ChangerEntry 8 := Vector.replicate 8 {}
  fault : CntAck := {}
  faultLast : DWord := 0
  unretired : CntAck := {}
  poison : CntAck := {}
  scrub : Scrubber := {}
deriving DecidableEq, Repr

end Sys2Proof.Machine
end

