-- ==== Sys2Proof/Machine/Blocks/Supply.lean ====
section
/-! DEFINITION. State of the supply, the rail sequence, the mode controller, the boot and UPDATE (chapter 3).
Choices: log 19. -/

namespace Sys2Proof.Machine

/-- Where the device stands between DARK and a running mode (R66, R68, R102, R49). -/
inductive RailStage where
  /-- The always-on power-on reset is held. -/
  | held
  /-- The reset has released; the straps are sampled in 64 µs. -/
  | strapWait
  /-- The straps are sampled; EN_CORE has not risen. -/
  | ready
  /-- A rail's enable is high and its power-good is awaited. -/
  | waitPg (r : Rail)
  /-- A power-good has been seen; the 0.5 ms delay to the next enable runs. -/
  | delay (r : Rail)
  /-- PG_PHY has been seen; the crystal is starting. -/
  | crystal
  /-- The internal reset has released. -/
  | up
  /-- Entry to DARK: EN_PHY has fallen, EN_IO falls next. -/
  | downIo
  /-- Entry to DARK: EN_IO has fallen, EN_CORE falls next. -/
  | downCore
deriving DecidableEq, Repr

/-- What the boot ROM is loading an image for. -/
inductive BootFor where
  | kindle
  | relight
  | wick
deriving DecidableEq, Repr

/-- Stage of the boot ROM (R88, R89, Table 3.8). -/
inductive BootStage where
  | idle
  /-- The body of a slot (0 for A) is being fetched. -/
  | fetching (slot : Fin 2)
  /-- The signature of a slot is being checked. -/
  | checking (slot : Fin 2)
  /-- The firmware of a slot runs its init program; the 50 ms limit runs. -/
  | running (slot : Fin 2)
  /-- The first Daymark pass is awaited. -/
  | committing
  /-- No slot was accepted. -/
  | failed
deriving DecidableEq, Repr

/-- The boot's progress and SUP_BOOT_STATUS. -/
structure Boot where
  purpose : BootFor := .kindle
  stage : BootStage := .idle
  header : Vector ImageHeader 2 := Vector.replicate 2 {}
  tried : Vector Bool 2 := Vector.replicate 2 false
  result : Vector Nat 2 := Vector.replicate 2 0
  booted : Nat := 0
  fault : Bool := false
  /-- A word of the body read back as poisoned (R88 check 6). -/
  bodyPoison : Bool := false
  /-- How images are read, and the command that erases 4 KiB (R51, R87, Table 19.12). -/
  read : SpiRead := .single
  erase : Byte := 0x20
deriving DecidableEq, Repr

/-- UPDATE's progress (R91, SUP_UPD_STATUS). -/
structure Update where
  ctl : DWord := 0
  lastSeq : BitVec 16 := 0
  result : Nat := 0
  done : Bool := false
  busy : Bool := false
  /-- KiB accepted of the slot so far. -/
  kib : Nat := 0
  /-- KiB of the chunk being programmed, and whether it is the last. -/
  len : Nat := 0
  final : Bool := false
deriving DecidableEq, Repr

/-- The measured supply and the rail sequence. -/
structure Supply where
  vinValid : Bool := false
  vinHigh : Bool := false
  puValid : Bool := false
  /-- VBIAS is above its UVLO. -/
  vbias : Bool := false
  stage : RailStage := .held
  enCore : Bool := false
  enIo : Bool := false
  enPhy : Bool := false
  pgCore : Bool := false
  pgIo : Bool := false
  pgPhy : Bool := false
  /-- 100 ms have not passed since the rail fault or the loss of VIN that led to DARK (R67, R77). -/
  retry : Bool := false
  /-- Three rail faults hold the device in DARK (R67). -/
  stuck : Bool := false
  /-- A WICK_OC hold (R77). -/
  wickHold : Bool := false
  /-- RESET_N is low after its filter. -/
  resetLow : Bool := false
  cause : Nat := 1
  rail : Nat := 0
  tries : Nat := 0
  vmon : DWord := 0
  /-- KEY_REVOKED and MIN_SVN as programmed in SERVICE. -/
  fuse : DWord := 0
  /-- VIN is being timed toward the end of WICK (R73). -/
  wickVin : Bool := false
deriving DecidableEq, Repr

/-- The mode controller (R74 to R86). -/
structure Modes where
  mode : Mode := .dark
  /-- The mode being entered while a transition is in progress. -/
  going : Option Mode := none
  prev : Nat := 0
  ret : Mode := .dark
  /-- RETURN_MODE as read, zero before any has been recorded. -/
  retSet : Bool := false
  /-- The base mode of R76. -/
  base : Mode := .lit
  req : Nat := 0
  reason : Nat := 0
  refused : Bool := false
  /-- An accepted request awaits the closing tick (R79). -/
  reqHeld : Bool := false
  /-- That request was written by keeper firmware (R82). -/
  reqFw : Bool := false
  /-- That request is one of LIT or BRIDGE made in STANDBY while VIN_SAG read 1: it leads to SHED (R86). -/
  reqShed : Bool := false
  /-- The register's NIGHT request stands (R550). -/
  nightReg : Bool := false
  /-- LG1 has been high since a wake or a register write last withdrew its NIGHT request (R85, R550). -/
  lgArmed : Bool := true
  /-- A code that R550 carries out from the return mode once NIGHT has ended. -/
  after : Option Mode := none
  /-- The return mode whose place UPDATE took in SHED (R76). -/
  under : Mode := .lit
  /-- A SAFE cause awaits the closing tick. -/
  safeHeld : Option Nat := none
  /-- A wake from NIGHT awaits the closing tick. -/
  wakeHeld : Bool := false
  /-- VIN is below the SHED threshold after the entry filter, or SHED_REQ_N was low, and the exit filter has not run since (R86). -/
  sag : Bool := false
  /-- The fairways stop at the next tick (R83 step 3). -/
  halting : Bool := false
  /-- The transition in progress has stopped the fairways. -/
  halted : Bool := false
  safeCause : Nat := 0
  /-- Heartbeats: written in the frame now open, and frames closed without one. -/
  beat : Bool := false
  missed : Nat := 0
  heartbeat : BitVec 16 := 0
  shedCfg : DWord := 0x00937000
  wakeCfg : DWord := 0x0007FFFF
  wakeSrc : DWord := 0
  safeCfg : DWord := 8
deriving DecidableEq, Repr

end Sys2Proof.Machine
end

