-- ==== Sys2Proof/Machine/Blocks/Tender.lean ====
section
/-! DEFINITION. State of the Tender (chapter 14).
Choices: log 3. -/

namespace Sys2Proof.Machine

/-- States of a work item (Table 14.1). -/
inductive ItemState where
  | waiting
  | ready
  | running
deriving DecidableEq, Repr

/-- A live work item: descriptor dwords 0 to 5 and what the device fills in (R403, R404). A FREE item is not listed. -/
structure Item where
  dwords : Vector DWord 6
  owner : Func
  state : ItemState
  replayed : Bool := false
  keeper : Option (Fin 12) := none
  dispatched : BitVec 16 := 0
  /-- The full count at the last dispatch, for the watch (R414). -/
  dispatchedAt : DWord := 0
  /-- Parity of dwords 0 to 4, and of dwords 5 and 6, has failed (R419). -/
  badBody : Bool := false
  badHead : Bool := false
deriving DecidableEq, Repr

/-- States of a counter that is in use (R406). -/
inductive CounterState where
  | counting
  | zero
  | poisoned
deriving DecidableEq, Repr

/-- A dependence counter in use (R406). An UNUSED counter is not listed. -/
structure Counter where
  state : CounterState
  owner : Func
  value : Nat
  epochEn : Bool := false
  epochExp : Nat := 0
  link : Option Nat := none
  /-- The last tags applied, newest first, at most 8 (R407). -/
  window : List DWord := []
deriving DecidableEq, Repr

/-- A keeper's posting and decrement registers (R422). -/
structure KeeperPost where
  post : Vector DWord 6 := Vector.replicate 6 0
  result : DWord := 0
  decTag : DWord := 0
deriving DecidableEq, Repr

/-- Chapter 14's state. -/
structure Tender where
  items : List (Nat × Item) := []
  counters : List (Nat × Counter) := []
  /-- Ready lists P0 to P3, head first (R411). -/
  ready : Vector (List Nat) 4 := Vector.replicate 4 []
  /-- Keepers in the order in which they became idle, longest idle first (R411). -/
  idle : List (Fin 12) := List.finRange 12
  watch : CntAck := {}
  lost : CntAck := {}
  replay : CntAck := {}
  dup : CntAck := {}
  fault : CntAck := {}
  faultLast : DWord := 0
  mbx : Vector DWord 16 := Vector.replicate 16 0
  kpost : Vector KeeperPost 12 := Vector.replicate 12 {}
  /-- Words of items and counters that a bit has flipped in, with the item or the counter (log 3). -/
  struckItem : List (Nat × Nat) := []
  struckCtr : List (Nat × Nat) := []
  revivePending : Bool := false
  reviveKeeper : Nat := 0
  fenceLast : DWord := 0
  /-- The microframe whose epoch decrements have been applied (R409); the model's own. -/
  epochAt : Option DWord := none
deriving DecidableEq, Repr

end Sys2Proof.Machine
end

