-- ==== Sys2Proof/Machine/State.lean ====
section
/-! DEFINITION. The state of the KV-16 as plain data: one field per block of the manual, the queue of waiting commands,
the outbox and the counter of free values; and the state right after reset.
Choices: log 2. -/

namespace Sys2Proof.Machine

/-- The machine. -/
structure State where
  /-- Chapter 3: the supply and the rail sequence. -/
  sup : Supply := {}
  /-- Chapter 3: the mode controller. -/
  md : Modes := {}
  /-- Chapter 3: the boot. -/
  boot : Boot := {}
  /-- Chapter 3: UPDATE. -/
  upd : Update := {}
  /-- Chapter 2. -/
  pins : Pins := {}
  /-- Chapter 4. -/
  clk : Clocks := {}
  /-- Chapter 5. -/
  reg : RegFile := {}
  /-- Chapter 6. -/
  lnk : Links := {}
  /-- Chapters 7 and 8. -/
  rng : Rings := {}
  /-- Chapter 9. -/
  bcn : Beacon := {}
  /-- Chapter 10. -/
  fwy : Fairways := {}
  /-- Chapter 11. -/
  ccp : CcPd := {}
  /-- Chapter 12. -/
  pwr : Power := {}
  /-- Chapter 13. -/
  lan : Lantern := {}
  /-- Chapter 14. -/
  tnd : Tender := {}
  /-- Chapter 15. -/
  kpr : Keepers := {}
  /-- Chapter 16. -/
  hst : HoldingStore := {}
  /-- Chapter 17. -/
  mig : Migration := {}
  /-- Chapter 18. -/
  evt : Events := {}
  /-- Chapter 19: a transfer of the management port has begun and not ended (R536). -/
  smbBusy : Bool := false
  /-- What the device has sent, oldest first (the model's own, log 4). -/
  out : List Output := []
  /-- Index of the next free value (the model's own, log 5). -/
  freeSeq : Nat := 0
  /-- Commands that wait, first in, first out. -/
  pending : List Instr := []
deriving DecidableEq, Repr

/-- Faults of a step. The manual gives every command of this block an outcome, so there is none. -/
inductive Fault where
deriving DecidableEq, Repr

/-- Why a command has no meaning. -/
inductive Refusal where
  /-- Raised by `exec`'s arm of a command that has no meaning yet: safe, since nothing can be proved of it. -/
  | notModelled (mnemonic : String)
deriving DecidableEq, Repr

/-- The machine right after reset: in DARK with no supply, every register at its reset value (logs 2 and 3). -/
def State.reset : State := {}

end Sys2Proof.Machine
end

