-- ==== Sys2Proof/Machine/Store.lean ====
section
/-! DEFINITION. The Holding Store's operations (chapter 16): reading a row with the Lamp Changer's repair, writing
bytes through the merge buffer, draining, and the scrubber. Every function here is about the store alone.
Choices: log 3, 57. -/

namespace Sys2Proof.Machine

/-- Rows of the array (R459). -/
def storeRows : Nat := 0x40000

/-- Words of the array (R459). -/
def storeWords : Nat := 0x100000

/-- The byte an address holds; an unlisted byte reads zero (log 3). -/
def cellGet (m : List Host.Cell) (a : Nat) : Byte :=
  match assocGet m a with
  | some v => v
  | none => 0

/-- The bytes after a write of one of them; zero is not listed, so that equal contents are equal lists. -/
def cellSet (m : List Host.Cell) (a : Nat) (v : Byte) : List Host.Cell :=
  if v = 0 then assocErase m a else assocPut m a v

/-- The keys of a list rise strictly. -/
def keysRise : List Nat → Bool
  | [] => true
  | [_] => true
  | a :: b :: t => decide (a < b) && keysRise (b :: t)

/-- The canonical form of the bytes: addresses rise strictly and no listed byte is zero. -/
def cellsWf (m : List Host.Cell) : Bool :=
  keysRise (m.map Prod.fst) && m.all (fun c => decide (c.2 ≠ 0))

/-- The canonical form of the whole store: bytes and wrong-parity places. -/
def HoldingStore.wf (h : HoldingStore) : Bool := cellsWf h.cells && keysRise h.wrong

/-- The name the model's laws use for the canonical form of the addressed memory. -/
abbrev Memory.wf (h : HoldingStore) : Bool := h.wf

/-- One byte of a row with the state of its parity. -/
abbrev RowByte := Byte × Bool

/-- Byte `i` of an array row, with whether its parity is wrong. -/
def HoldingStore.arrayByte (h : HoldingStore) (row i : Nat) : RowByte :=
  (cellGet h.cells (8 * row + i), h.wrong.contains (8 * row + i))

/-- The array with one byte and its parity replaced. -/
def HoldingStore.setArrayByte (h : HoldingStore) (row i : Nat) (b : RowByte) : HoldingStore :=
  { h with
    cells := cellSet h.cells (8 * row + i) b.1
    wrong := if b.2 then setInsert h.wrong (8 * row + i) else setErase h.wrong (8 * row + i) }

/-- The Changer entry that serves a row: a valid entry that is not spent, or the last spent one, which keeps it (R470, R472). -/
def HoldingStore.entryOf (h : HoldingStore) (row : Nat) : Option (Fin 8) :=
  match (List.finRange 8).find? (fun e => h.changer[e].valid && !h.changer[e].spent && h.changer[e].row == row) with
  | some e => some e
  | none => (List.finRange 8).reverse.find? (fun e => h.changer[e].valid && h.changer[e].row == row)

/-- The eight bytes of a row as stored, through the Lamp Changer (R470). -/
def HoldingStore.storedRow (h : HoldingStore) (row : Nat) : List RowByte :=
  match h.entryOf row with
  | some e => h.changer[e].bytes
  | none => (List.range 8).map (h.arrayByte row)

/-- The array with the eight bytes of a row replaced. -/
def HoldingStore.setArrayRow (h : HoldingStore) (row : Nat) (bs : List RowByte) : HoldingStore :=
  (List.range 8).foldl (fun h i => h.setArrayByte row i (bs.getD i (0, false))) h

/-- A row replaced where it is stored, array or spare (R470). -/
def HoldingStore.putRow (h : HoldingStore) (row : Nat) (bs : List RowByte) : HoldingStore :=
  match h.entryOf row with
  | some e => { h with changer := h.changer.set e { h.changer[e] with bytes := bs } }
  | none => h.setArrayRow row bs

/-- Bytes `2k` and `2k + 1` of a row: word `k`, low byte first. -/
def wordAt (bs : List RowByte) (k : Nat) : RowByte × RowByte :=
  (bs.getD (2 * k) (0, false), bs.getD (2 * k + 1) (0, false))

/-- A word with exactly one failing byte (R460). -/
def wordFaulted (w : RowByte × RowByte) : Bool := w.1.2 != w.2.2

/-- A word with both bytes failing (R460). -/
def wordMarked (w : RowByte × RowByte) : Bool := w.1.2 && w.2.2

/-- A word any agent treats as poisoned (R461). -/
def wordPoisoned (w : RowByte × RowByte) : Bool := w.1.2 || w.2.2

/-- A row holds at least one FAULTED word: a row fault (R464). -/
def rowFaulted (bs : List RowByte) : Bool := (List.range 4).any (fun k => wordFaulted (wordAt bs k))

/-- The MARKED words of a row. -/
def rowMarked (bs : List RowByte) : Nat := (List.range 4).countP (fun k => wordMarked (wordAt bs k))

/-- A row with each word that has a failing byte MARKED, its data kept (R461, R470). -/
def markRow (bs : List RowByte) : List RowByte :=
  (List.range 8).map (fun i =>
    let w := wordAt bs (i / 2)
    let b := bs.getD i (0, false)
    (b.1, if wordPoisoned w then true else b.2))

/-- The lowest-numbered free Changer entry (R470). -/
def HoldingStore.freeEntry (h : HoldingStore) : Option (Fin 8) :=
  (List.finRange 8).find? (fun e => !h.changer[e].valid)

/-- Entries in use, spent ones included. -/
def HoldingStore.used (h : HoldingStore) : Nat := (List.finRange 8).countP (fun e => h.changer[e].valid)

/-- No entry is free (R471). -/
def HoldingStore.full (h : HoldingStore) : Bool := h.freeEntry.isNone

/-- HST_FAULT_LAST of a fault (Table 16.5). -/
def faultRecord (retired spare : Bool) (source row : Nat) : DWord :=
  putBit retired 31 ||| putBit spare 30 ||| putField source 24 6 ||| putField row 0 18

/-- What a row fault found by `source` does (R470, R471, R472). -/
def HoldingStore.retire (h : HoldingStore) (source row : Nat) (bs : List RowByte) : HoldingStore :=
  let old := h.entryOf row
  let spare := old.isSome
  let h1 : HoldingStore :=
    match old with
    | some e => { h with changer := h.changer.set e { h.changer[e] with spent := true } }
    | none => h
  match h1.freeEntry with
  | some e =>
    { h1 with
      changer := h1.changer.set e { valid := true, spent := false, source := source, row := row, bytes := markRow bs }
      fault := h1.fault.bump
      faultLast := faultRecord true spare source row }
  | none =>
    let h2 := h1.putRow row (markRow bs)
    { h2 with
      fault := h2.fault.bump
      faultLast := faultRecord false spare source row
      unretired := h2.unretired.bump }

/-- The merge-buffer entry of a row. -/
def HoldingStore.mergeOf (h : HoldingStore) (row : Nat) : Option MergeEntry := h.merge.find? (fun e => e.row == row)

/-- A row's bytes with those of its merge-buffer entry in their place (R468). -/
def overlay (bs : List RowByte) (held : List MergeByte) : List RowByte :=
  (List.range 8).map (fun i =>
    match held.find? (fun b => b.pos == i) with
    | some b => (b.data, b.bad || b.upset)
    | none => bs.getD i (0, false))

/-- One row as an agent reads it (R464, R468, R470): the eight bytes delivered, and the store after the Lamp Changer has
acted on a fault. -/
def HoldingStore.readRow (h : HoldingStore) (source row : Nat) : List RowByte × HoldingStore :=
  let raw := h.storedRow row
  let seen :=
    match h.mergeOf row with
    | some e => overlay raw e.held
    | none => raw
  (seen, if rowFaulted raw then h.retire source row raw else h)

/-- One access that delivers a run of words from one row: the words, and the store with the poison count raised when at
least one of them is poisoned (R465). -/
def HoldingStore.accessRow (h : HoldingStore) (source row k0 n : Nat) : List (RowByte × RowByte) × HoldingStore :=
  let (bs, h1) := h.readRow source row
  let ws := (List.range n).map (fun i => wordAt bs (k0 + i))
  (ws, if ws.any wordPoisoned then { h1 with poison := h1.poison.bump } else h1)

/-- The data of a delivered word. -/
def wordData (w : RowByte × RowByte) : Half := halfOfBytes w.2.1 w.1.1

/-- The 18-bit word as stored: data, then each byte's parity bit (R460). -/
def wordRaw (w : RowByte × RowByte) : Word18 :=
  (wordData w).setWidth 18
    ||| (if parityBit w.1.1 != w.1.2 then (0x10000 : Word18) else 0)
    ||| (if parityBit w.2.1 != w.2.2 then (0x20000 : Word18) else 0)

/-- One word read by an agent: its data, whether it is poisoned, and the store after. -/
def HoldingStore.readWord (h : HoldingStore) (source w : Nat) : Half × Bool × HoldingStore :=
  let (ws, h1) := h.accessRow source (w / 4) (w % 4) 1
  match ws with
  | x :: _ => (wordData x, wordPoisoned x, h1)
  | [] => (0, true, h1)

/-- A run of words read by an agent, one access to each row (R464); `fuel` bounds the rows. -/
def HoldingStore.readRun (h : HoldingStore) (source w n : Nat) : Nat → List (Half × Bool) × HoldingStore
  | 0 => ([], h)
  | fuel + 1 =>
    if n = 0 then ([], h)
    else
      let k := min n (4 - w % 4)
      let r := h.accessRow source (w / 4) (w % 4) k
      let rest := r.2.readRun source (w + k) (n - k) fuel
      (r.1.map (fun x => (wordData x, wordPoisoned x)) ++ rest.1, rest.2)

/-- `n` words read by an agent from word `w` on: data with poison, and the store after. -/
def HoldingStore.readWords (h : HoldingStore) (source w n : Nat) : List (Half × Bool) × HoldingStore :=
  h.readRun source w n (n + 1)

/-- `n` bytes read by an agent from byte address `a` on (byte `2w` is the low byte of word `w`). -/
def HoldingStore.readBytes (h : HoldingStore) (source a n : Nat) : List (Byte × Bool) × HoldingStore :=
  let w0 := a / 2
  let w1 := (a + n + 1) / 2
  let r := h.readWords source w0 (w1 - w0)
  let flat := r.1.flatMap (fun x => [(lowByte x.1, x.2), (highByte x.1, x.2)])
  ((flat.drop (a % 2)).take n, r.2)

/-- The row a drained merge-buffer entry leaves: held bytes over the stored ones, every word with a failing byte MARKED
(R461, R467, R469). -/
def drainRow (raw : List RowByte) (held : List MergeByte) : List RowByte := markRow (overlay raw held)

/-- A merge-buffer entry's mask covers the row (R467). -/
def MergeEntry.covers (e : MergeEntry) : Bool :=
  (List.range 8).all (fun i => e.held.any (fun b => b.pos == i))

/-- A drain keeps a byte of a poisoned word from the stored row: an access that delivers poison (R465, Table 16.2). -/
def keepsPoison (raw : List RowByte) (held : List MergeByte) : Bool :=
  (List.range 8).any (fun i => wordPoisoned (wordAt raw (i / 2)) && !held.any (fun b => b.pos == i))

/-- An entry whose mask does not cover its row drains: the row is read first, which can find a row fault and can deliver poison
(R464, R465). -/
def HoldingStore.drainPart (h : HoldingStore) (e : MergeEntry) : HoldingStore :=
  let h1 := (h.readRow 0x1A e.row).2
  let h2 : HoldingStore := if keepsPoison (h.storedRow e.row) e.held then { h1 with poison := h1.poison.bump } else h1
  h2.putRow e.row (drainRow (h2.storedRow e.row) e.held)

/-- One entry drains (R467): a full mask writes without a read, any other mask reads the row first. -/
def HoldingStore.drain (h : HoldingStore) (e : MergeEntry) : HoldingStore :=
  let h0 : HoldingStore := { h with merge := h.merge.filter (fun x => x.row != e.row) }
  let h1 : HoldingStore :=
    if e.held.any (fun b => b.upset) then
      { h0 with fault := h0.fault.bump, faultLast := faultRecord false false 0x1A e.row }
    else h0
  if e.covers then h1.putRow e.row (drainRow [] e.held) else h1.drainPart e

/-- Every entry drains, oldest first (R467, entry to SAFE, UPDATE or RELIGHT). -/
def HoldingStore.drainAll (h : HoldingStore) : HoldingStore := h.merge.foldl (fun h e => h.drain e) h

/-- One byte put into a list of held bytes, replacing an earlier one at its place. -/
def holdByte (held : List MergeByte) (b : MergeByte) : List MergeByte :=
  match held with
  | [] => [b]
  | x :: t => if b.pos < x.pos then b :: x :: t else if b.pos = x.pos then b :: t else x :: holdByte t b

/-- A write of some bytes of one row (R466, R467): a whole row goes to the array and discards the row's entry; anything
narrower merges into the row's entry, or takes a free entry, or drains the oldest for one. -/
def HoldingStore.writeRow (h : HoldingStore) (row : Nat) (bs : List MergeByte) : HoldingStore :=
  let whole : MergeEntry := { row := row, held := bs.foldl holdByte [] }
  if whole.covers then
    let h1 : HoldingStore := { h with merge := h.merge.filter (fun x => x.row != row) }
    h1.putRow row (drainRow [] whole.held)
  else
    match h.mergeOf row with
    | some e =>
      let e' : MergeEntry := { e with held := bs.foldl holdByte e.held }
      let h1 : HoldingStore := { h with merge := h.merge.map (fun x => if x.row == row then e' else x) }
      if e'.covers then h1.drain e' else h1
    | none =>
      let h1 : HoldingStore :=
        if h.merge.length < 4 then h
        else
          match h.merge with
          | e :: _ => h.drain e
          | [] => h
      { h1 with merge := h1.merge ++ [whole] }

/-- The bytes of a run, grouped by row and written row after row; `fuel` bounds the rows. -/
def HoldingStore.writeRun (h : HoldingStore) (a : Nat) (bs : List (Byte × Bool)) : Nat → HoldingStore
  | 0 => h
  | fuel + 1 =>
    if bs.isEmpty then h
    else
      let k := 8 - a % 8
      let here := bs.take k
      let held := (here.zipIdx).map (fun x => ({ pos := a % 8 + x.2, data := x.1.1, bad := x.1.2 } : MergeByte))
      (h.writeRow (a / 8) held).writeRun (a + k) (bs.drop k) fuel

/-- Bytes written by an agent from byte address `a` on; the flag of a byte says that the agent holds it as poisoned,
which leaves its word MARKED (R461). -/
def HoldingStore.writeBytes (h : HoldingStore) (a : Nat) (bs : List (Byte × Bool)) : HoldingStore :=
  h.writeRun a bs (bs.length + 1)

/-- Words written by an agent from word `w` on, each with its poison (R461). -/
def HoldingStore.writeWords (h : HoldingStore) (w : Nat) (ws : List (Half × Bool)) : HoldingStore :=
  h.writeBytes (2 * w) (ws.flatMap (fun x => [(lowByte x.1, x.2), (highByte x.1, x.2)]))

/-- A bank's words cleared to zero words (R463), in the spares that hold its rows too, and its merge-buffer entries
superseded. -/
def HoldingStore.clearBank (h : HoldingStore) (bank : Nat) : HoldingStore :=
  let lo := bank * 0x80000
  let inside (a : Nat) : Bool := decide (lo ≤ a) && decide (a < lo + 0x80000)
  { h with
    cells := h.cells.filter (fun c => !inside c.1)
    wrong := h.wrong.filter (fun a => !inside a)
    merge := h.merge.filter (fun e => !inside (8 * e.row))
    changer := h.changer.map (fun e => if e.valid && inside (8 * e.row) then { e with bytes := List.replicate 8 (0, false) } else e) }

/-- The Lamp Changer cleared, at every exit from DARK (R473). -/
def HoldingStore.clearChanger (h : HoldingStore) : HoldingStore := { h with changer := Vector.replicate 8 {} }

/-- A bit of a word in the array flips (R461): a data bit changes the byte and its parity fails or passes again, a parity
bit changes only the parity. -/
def HoldingStore.flipArray (h : HoldingStore) (w bit : Nat) : HoldingStore :=
  let i := if bit < 8 ∨ bit = 16 then 2 * w else 2 * w + 1
  let b := h.arrayByte (i / 8) (i % 8)
  let data : Byte := if bit < 16 then b.1 ^^^ BitVec.ofNat 8 (2 ^ (bit % 8)) else b.1
  h.setArrayByte (i / 8) (i % 8) (data, !b.2)

/-- A bit of a spare row's byte flips; `bit` 8 is its parity bit. -/
def HoldingStore.flipSpare (h : HoldingStore) (e : Fin 8) (i bit : Nat) : HoldingStore :=
  let x := h.changer[e]
  let b := x.bytes.getD i (0, false)
  let data : Byte := if bit < 8 then b.1 ^^^ BitVec.ofNat 8 (2 ^ bit) else b.1
  { h with changer := h.changer.set e { x with bytes := x.bytes.set i (data, !b.2) } }

/-- A bit of a word flips where the word is stored, in the array or in the spare that holds its row. -/
def HoldingStore.flipStored (h : HoldingStore) (w bit : Nat) : HoldingStore :=
  match h.entryOf (w / 4) with
  | some e => h.flipSpare e (2 * (w % 4) + (if bit < 8 ∨ bit = 16 then 0 else 1)) (if bit < 16 then bit % 8 else 8)
  | none => h.flipArray w bit

/-- A bit of a merge-buffer entry's byte flips (R469). -/
def HoldingStore.flipMerge (h : HoldingStore) (row i bit : Nat) : HoldingStore :=
  let flip (b : MergeByte) : MergeByte :=
    if b.pos = i then
      { b with data := if bit < 8 then b.data ^^^ BitVec.ofNat 8 (2 ^ bit) else b.data, upset := !b.upset }
    else b
  { h with merge := h.merge.map (fun e => if e.row = row then { e with held := e.held.map flip } else e) }

/-- The region of Table 16.1: first word and size. -/
def regionOf (r : Nat) : Nat × Nat :=
  match r with
  | 0 => (0x000000, 262144)
  | 1 => (0x040000, 262144)
  | 2 => (0x080000, 65536)
  | 3 => (0x090000, 131072)
  | 4 => (0x0B0000, 32768)
  | 5 => (0x0B8000, 131072)
  | 6 => (0x0D8000, 131072)
  | _ => (0, 0)

/-- A run of words lies inside region `r` (R462). -/
def inRegion (r w n : Nat) : Bool :=
  decide ((regionOf r).1 ≤ w) && decide (w + n ≤ (regionOf r).1 + (regionOf r).2)

/-- A scrub of the rows START to END begins, or ends at once on a bad range or in WICK (R474). -/
def Scrubber.go (c : Scrubber) (wick : Bool) : Scrubber :=
  let c0 : Scrubber :=
    { c with done := false, stopping := false, rows := 0, retired := 0, unretired := 0, faultRows := 0,
             poisonWords := 0, first := none }
  if c.start > c.last then { c0 with result := 2, done := true }
  else if wick then { c0 with result := 4, done := true }
  else { c0 with busy := true, result := 0, activePace := c.pace, next := c.start, stopRow := c.last }

/-- The scrubber reads its next row (R475, R476): through the Changer's mapping and past the merge buffer, with the
repairs of R470 and R471, and ends at the last row or when stopped. -/
def HoldingStore.scrubRow (h : HoldingStore) : HoldingStore :=
  let c := h.scrub
  if !c.busy then h
  else
    let raw := h.storedRow c.next
    let faulted := rowFaulted raw
    let h1 := if faulted then h.retire 0x1B c.next raw else h
    let retired := faulted && bitOf h1.faultLast 31
    let marked := rowMarked (h1.storedRow c.next)
    let lastRow := decide (c.next ≥ c.stopRow)
    let ends := lastRow || c.stopping
    let c1 : Scrubber :=
      { c with
        at_ := c.next
        next := c.next + 1
        rows := c.rows + 1
        faultRows := if faulted then min (c.faultRows + 1) 0xFFFF else c.faultRows
        retired := if retired then c.retired + 1 else c.retired
        unretired := if faulted && !retired then min (c.unretired + 1) 0xFF else c.unretired
        poisonWords := c.poisonWords + marked
        first := if c.first.isNone && (faulted || decide (0 < marked)) then some c.next else c.first
        busy := !ends
        stopping := c.stopping && !ends
        done := ends
        result := if lastRow then 1 else if c.stopping then 3 else 0 }
    { h1 with scrub := c1 }

end Sys2Proof.Machine
end

