-- ==== Sys2Proof/Machine/Ops.lean ====
section
/-! DEFINITION. Named operations on the whole state that several families share: updates of one element of a block, the
outbox, free values, and what a mode keeps alive (Table 3.4).
Choices: log 3, 4, 5, 58, 61. -/

namespace Sys2Proof.Machine

/-- One more thing sent. -/
def State.emit (s : State) (o : Output) : State := { s with out := s.out ++ [o] }

/-- Several things sent, in order. -/
def State.emitAll (s : State) (os : List Output) : State := { s with out := s.out ++ os }

/-- The next free value of a dword, and the state that has used it (log 5). -/
def State.freeDWord (s : State) : DWord × State := (Config.freeDWord s.freeSeq, { s with freeSeq := s.freeSeq + 1 })

/-- The next free value of a half (log 5). -/
def State.freeHalf (s : State) : Half × State := (Config.freeHalf s.freeSeq, { s with freeSeq := s.freeSeq + 1 })

/-- The next free level (log 5). -/
def State.freeBit (s : State) : Bool × State := (Config.freeBit s.freeSeq, { s with freeSeq := s.freeSeq + 1 })

/-- Four free dwords: the header of a TLP that only its sender has named (log 5, log 61). -/
def State.freeHeader (s : State) : Vector DWord 4 × State :=
  (Vector.ofFn (fun i : Fin 4 => Config.freeDWord (s.freeSeq + i.val)), { s with freeSeq := s.freeSeq + 4 })

/-- A function's rings. -/
def State.fn (s : State) (f : Func) : FuncState := s.rng.fn[f.idx]

/-- A function's rings changed. -/
def State.modFn (s : State) (f : Func) (g : FuncState → FuncState) : State :=
  { s with rng := { s.rng with fn := s.rng.fn.set f.idx (g (s.fn f)) } }

/-- One ring of a function. -/
def State.ring (s : State) (f : Func) (r : Fin 65) : Ring := (s.fn f).rings[r]

/-- One ring of a function changed. -/
def State.modRing (s : State) (f : Func) (r : Fin 65) (g : Ring → Ring) : State :=
  s.modFn f (fun x => { x with rings := x.rings.set r (g x.rings[r]) })

/-- One Event Ring of a function. -/
def State.evRing (s : State) (f : Func) (n : Fin 4) : EventRing := (s.fn f).evts[n]

/-- One Event Ring of a function changed. -/
def State.modEvRing (s : State) (f : Func) (n : Fin 4) (g : EventRing → EventRing) : State :=
  s.modFn f (fun x => { x with evts := x.evts.set n (g x.evts[n]) })

/-- A host link. -/
def State.link (s : State) (l : Link) : LinkState := s.lnk.link[l.idx]

/-- A host link changed. -/
def State.modLink (s : State) (l : Link) (g : LinkState → LinkState) : State :=
  { s with lnk := { s.lnk with link := s.lnk.link.set l.idx (g (s.link l)) } }

/-- A bit set in a dword. -/
def raiseBit (x : DWord) (bit : Nat) : DWord := x ||| BitVec.ofNat 32 (2 ^ bit)

/-- An error recorded in the PF's configuration space, as PCI Express defines (R153, R161): the AER status bit and Device Status, and
of the first uncorrectable error that no mask holds its pointer and the header of its TLP. -/
def PfConfig.note (c : PfConfig) (e : LinkError) (header : Vector DWord 4) : PfConfig :=
  if e.correctable then { c with corStatus := raiseBit c.corStatus e.bit, devStatus := c.devStatus ||| 1 }
  else
    let first : Bool := !bitOf c.uncStatus c.firstError && !bitOf c.uncMask e.bit
    { c with
      uncStatus := raiseBit c.uncStatus e.bit
      firstError := if first then e.bit else c.firstError
      header := if first && e.carriesTlp then header else c.header
      devStatus := c.devStatus ||| (if bitOf c.uncSeverity e.bit then 4 else 2) ||| (if e = .unsupportedRequest then 8 else 0) }

/-- An error detected by a link, counted and recorded (R161, R162). -/
def LinkState.noteError (x : LinkState) (e : LinkError) (header : Vector DWord 4) : LinkState :=
  { x with
    errCor := if e.correctable then x.errCor.bump else x.errCor
    errUnc := if e.correctable then x.errUnc else x.errUnc.bump
    rxPoison := if e = .poisonedTlp then x.rxPoison.bump else x.rxPoison
    cfg := x.cfg.note e header }

/-- An error that the device itself finds on a link; its TLP's header is free. -/
def State.linkError (s : State) (l : Link) (e : LinkError) : State :=
  let h := s.freeHeader
  h.2.modLink l (fun x => x.noteError e h.1)

/-- One slot's configuration, or a Manager function's, changed. -/
def State.modMsix (s : State) (i : Fin 32) (g : MsixTable → MsixTable) : State :=
  { s with lnk := { s.lnk with msix := s.lnk.msix.set i (g s.lnk.msix[i]) } }

/-- A bit flips in a word that holds a record, whose block reads it at once (log 3): whether the word is poisoned, and the state in which
the Lamp Changer has met the fault (R29, R461, R470). -/
def State.strike (s : State) (source : Nat) (w : Fin 0x100000) (bit : Fin 18) : Bool × State :=
  let x := (s.hst.flipStored w.val bit.val).readWord source w.val
  (x.2.1, { s with hst := x.2.2 })

/-- The words of a record written anew: they are SOUND again (R461). -/
def State.rewrite (s : State) (ws : List Nat) : State :=
  { s with hst := ws.foldl (fun h w => h.writeWords w [(0, false)]) s.hst }

/-- A Buoy's assignment. -/
def State.buoy (s : State) (b : Fin 15) : BuoyState := s.lnk.buoy[b]

/-- A Buoy's assignment changed. -/
def State.modBuoy (s : State) (b : Fin 15) (g : BuoyState → BuoyState) : State :=
  { s with lnk := { s.lnk with buoy := s.lnk.buoy.set b (g (s.buoy b)) } }

/-- A Buoy's migration state. -/
def State.migr (s : State) (b : Fin 15) : BuoyMig := s.mig.mig[b]

/-- A Buoy's migration state changed. -/
def State.modMigr (s : State) (b : Fin 15) (g : BuoyMig → BuoyMig) : State :=
  { s with mig := { s.mig with mig := s.mig.mig.set b (g (s.migr b)) } }

/-- A Buoy's Logbook. -/
def State.log (s : State) (b : Fin 15) : Logbook := s.mig.log[b]

/-- A Buoy's Logbook changed. -/
def State.modLog (s : State) (b : Fin 15) (g : Logbook → Logbook) : State :=
  { s with mig := { s.mig with log := s.mig.log.set b (g (s.log b)) } }

/-- A root port. -/
def State.port (s : State) (n : Fin 16) : Port := s.fwy.port[n]

/-- A root port changed. -/
def State.modPort (s : State) (n : Fin 16) (g : Port → Port) : State :=
  { s with fwy := { s.fwy with port := s.fwy.port.set n (g (s.port n)) } }

/-- A fairway. -/
def State.fairway (s : State) (f : Fin 4) : Fairway := s.fwy.fwy[f]

/-- A fairway changed. -/
def State.modFairway (s : State) (f : Fin 4) (g : Fairway → Fairway) : State :=
  { s with fwy := { s.fwy with fwy := s.fwy.fwy.set f (g (s.fairway f)) } }

/-- The fairway of a port: ports 4f to 4f + 3 are FAf's. -/
def fairwayOf (n : Fin 16) : Fin 4 := ⟨n.val / 4, by omega⟩

/-- The four ports of a fairway, and of a sector's quad. -/
def portsOf (f : Fin 4) : List (Fin 16) :=
  (List.finRange 4).map (fun i => ⟨4 * f.val + i.val, by omega⟩)

/-- A CC/PD engine. -/
def State.eng (s : State) (e : Fin 17) : Engine := s.ccp.e[e]

/-- A CC/PD engine changed. -/
def State.modEng (s : State) (e : Fin 17) (g : Engine → Engine) : State :=
  { s with ccp := { s.ccp with e := s.ccp.e.set e (g (s.eng e)) } }

/-- A power path. -/
def State.moor (s : State) (n : Fin 17) : Mooring := s.pwr.path[n]

/-- A power path changed. -/
def State.modMoor (s : State) (n : Fin 17) (g : Mooring → Mooring) : State :=
  { s with pwr := { s.pwr with path := s.pwr.path.set n (g (s.moor n)) } }

/-- A sector. -/
def State.sector (s : State) (i : Fin 4) : Sector := s.pwr.sec[i]

/-- A sector changed. -/
def State.modSector (s : State) (i : Fin 4) (g : Sector → Sector) : State :=
  { s with pwr := { s.pwr with sec := s.pwr.sec.set i (g (s.sector i)) } }

/-- The path or engine of a port, and PU's. -/
def pathOf (n : Fin 16) : Fin 17 := ⟨n.val, by omega⟩

/-- PU's path and engine. -/
def pu : Fin 17 := 16

/-- The port of a path, where it is one. -/
def portOfPath (n : Fin 17) : Option (Fin 16) := if h : n.val < 16 then some ⟨n.val, h⟩ else none

/-- A keeper. -/
def State.keeper (s : State) (k : Fin 12) : Keeper := s.kpr.k[k]

/-- A keeper changed. -/
def State.modKeeper (s : State) (k : Fin 12) (g : Keeper → Keeper) : State :=
  { s with kpr := { s.kpr with k := s.kpr.k.set k (g (s.keeper k)) } }

/-- A requester's record in the register file. -/
def State.reqState (s : State) (r : Requester) : ReqState := s.reg.req[r.idx]

/-- A requester's record changed. -/
def State.modReq (s : State) (r : Requester) (g : ReqState → ReqState) : State :=
  { s with reg := { s.reg with req := s.reg.req.set r.idx (g (s.reqState r)) } }

/-- The current mode. -/
def State.mode (s : State) : Mode := s.md.mode

/-- STRAP0 sampled 1: MF-B is the primary manager (R51). -/
def State.strap0 (s : State) : Bool := bitOf s.pins.strap 0

/-- STRAP1 sampled 1: the bridge strap (R51). -/
def State.strap1 (s : State) : Bool := bitOf s.pins.strap 1

/-- STRAP2 sampled 1: SFDP is skipped and images are fetched with command 0x03 (R51). -/
def State.strap2 (s : State) : Bool := bitOf s.pins.strap 2

/-- The 7-bit address of the management port, by the sampled level of SMB_ADR (R53): 0x58, 0x59 or 0x5A. -/
def State.smbAddress (s : State) : BitVec 7 := 0x58 + BitVec.ofNat 7 s.pins.smbAdr

/-- SERVICE is selected (R52). -/
def State.serviceSel (s : State) : Bool := bitOf s.pins.strap 3 && s.pins.testen

/-- The link of the primary manager (R51). -/
def State.primaryLink (s : State) : Link := Link.ofBool s.strap0

/-- The Manager function that is primary by STRAP0. -/
def State.primaryMf (s : State) : Func := Func.manager s.primaryLink

/-- The Manager function that is secondary by STRAP0. -/
def State.secondaryMf (s : State) : Func := Func.manager s.primaryLink.other

/-- The function that acts as primary manager: the bridge host where STRAP1 is 1 (R22, R23). -/
def State.primary (s : State) : Func := if s.strap1 then .bridge else s.primaryMf

/-- A requester acts as the primary manager (R22, R23, R392). -/
def State.isPrimary (s : State) (r : Requester) : Bool := decide (r = s.primary.requester)

/-- The mode whose entries of Table 3.4 apply: the return mode while in SHED. -/
def State.effMode (s : State) : Mode := if s.mode = .shed then s.md.ret else s.mode

/-- A mode, with the return mode that SHED would have, keeps the fairways running (Table 3.4). -/
def State.runsIn (s : State) (m : Mode) : Bool :=
  m = .lit || m = .bridge || (m = .shed && (s.md.ret = .lit || s.md.ret = .bridge))

/-- Fairways issue tokens: Table 3.4 shows them running, and no transition has stopped them (R79, R83). -/
def State.fairwaysRun (s : State) : Bool := s.runsIn s.mode && !s.md.halted

/-- Start-of-frame goes out or is being restarted by a transition (R299). -/
def State.busesWake (s : State) : Bool :=
  s.fairwaysRun ||
    match s.md.going with
    | none => false
    | some m => s.runsIn m

/-- Table 3.4 shows the Tender on. -/
def State.tenderMode (s : State) : Bool :=
  match s.effMode with
  | .standby | .lit | .bridge | .night => true
  | _ => false

/-- The Tender dispatches (Table 3.4); an entry to SAFE or UPDATE stops it first (R83, R84). -/
def State.tenderOn (s : State) : Bool :=
  s.tenderMode && decide (s.md.going ≠ some .safe) && decide (s.md.going ≠ some .update)

/-- An element of TOP_FIT is fitted: bit number as Table 2.11 gives it. -/
def State.fitBit (s : State) (i : Nat) : Bool := bitOf s.pins.fit i

/-- Port n is fitted. -/
def State.portFit (s : State) (n : Fin 16) : Bool := s.fitBit n.val

/-- Sector n is fitted. -/
def State.secFit (s : State) (n : Fin 4) : Bool := s.fitBit (20 + n.val)

/-- A host link is fitted. -/
def State.linkFit (s : State) (l : Link) : Bool := s.fitBit (24 + l.idx.val)

/-- WICK is the mode: only Holding Store bank 0 holds data (R70). -/
def State.wick (s : State) : Bool := s.mode = .wick

/-- A seal group is sealed (R133): 0 ENVELOPE, 1 FIT, 2 CLOCK, 3 SUPPLY, 4 HOSTDMA, 5 EVENT. -/
def State.isSealed (s : State) (g : Nat) : Bool := bitOf s.reg.sealSet g

/-- The owner of a port as a function: the primary manager's code stands for the bridge host where STRAP1 is 1 (R17, R23). -/
def State.portOwner (s : State) (n : Fin 16) : Func :=
  let o := s.fwy.owner[n]
  if s.strap1 ∧ o = s.primaryMf then .bridge else o

end Sys2Proof.Machine
end

