-- ==== Sys2Proof/Machine/ViewTop.lean ====
section
/-! DEFINITION. Register values of chapters 1 to 5 as read: TOP, SUP, CLK, DAY, KEY and SEAL.
Choices: log 7, 31, 58. -/

namespace Sys2Proof.Machine

/-- TOP_HEALTH (Table 1.6, R35): fenced keepers, failed fairways, failed ports. -/
def State.topHealth (s : State) : DWord :=
  bitsOf 16 (fun n => if h : n < 16 then (s.port ⟨n, h⟩).failed else false)
    ||| bitsOf 32 (fun i => if h : 16 ≤ i ∧ i < 20 then (s.fairway ⟨i - 16, by omega⟩).failed else false)
    ||| bitsOf 32 (fun i => if h : 20 ≤ i ∧ i < 32 then (s.keeper ⟨i - 20, by omega⟩).fenced else false)

/-- TOP_STRAP (Table 2.10). -/
def State.topStrap (s : State) : DWord :=
  s.pins.strap.setWidth 32 ||| putField s.pins.smbAdr 8 2 ||| putBit s.pins.testen 11 ||| putBit s.serviceSel 12

/-- The mode code of a Lane GPIO ball (R54). -/
def State.lgMode (s : State) (n : Nat) : Nat :=
  if n < 8 then fieldNat s.pins.lgMode0 (4 * n) 4 else fieldNat s.pins.lgMode1 (4 * (n - 8)) 4

/-- LG3 in its FRAME_OUT function and LG4 in its SAFE_OUT function: their output levels (Table 2.8). -/
def State.lgAlt (s : State) (n : Nat) : Bool :=
  if n = 3 then s.bcn.frameOut else if n = 4 then s.mode = .safe else false

/-- The filtered level of a Lane GPIO ball (Table 2.13): what an output drives, and what the board drives otherwise. -/
def State.lgLevel (s : State) (n : Nat) : Bool :=
  let ext := bitOf s.pins.lgIn n
  let o := bitOf s.pins.lgOut n
  match s.lgMode n with
  | 1 => o
  | 2 => o && ext
  | 3 => if n = 3 ∨ n = 4 then s.lgAlt n else ext
  | _ => ext

/-- TOP_LG_IN. -/
def State.topLgIn (s : State) : DWord := bitsOf 16 s.lgLevel

/-- LG1 is NIGHT_REQ_N and low (Table 3.13). -/
def State.nightReq (s : State) : Bool := s.lgMode 1 = 3 && !s.lgLevel 1

/-- LG2 is SHED_REQ_N and low (Table 3.13). -/
def State.shedReq (s : State) : Bool := s.lgMode 2 = 3 && !s.lgLevel 2

/-- SUP_STATUS VIN_SAG (Table 3.13). -/
def State.vinSag (s : State) : Bool := s.md.sag || s.shedReq

/-- VBIAS is taken from PU_VBUS (R64). -/
def State.vbiasOnPu (s : State) : Bool := !s.sup.vinValid && s.sup.puValid

/-- NIGHT is requested by the register or by LG1 (R550). -/
def State.nightWanted (s : State) : Bool := s.md.nightReg || (s.nightReq && s.md.lgArmed)

/-- A level that leads out of the current mode at the closing tick stands (Table 3.5). -/
def State.levelHeld (s : State) : Bool :=
  match s.mode with
  | .lit | .bridge => s.vinSag || s.nightWanted
  | .night => s.vinSag || !s.nightWanted
  | .shed => !s.vinSag
  | _ => false

/-- SUP_MODE_STATUS PENDING: a transition in progress, or a held trigger that awaits one (Table 3.12). -/
def State.modePending (s : State) : Bool :=
  s.md.going.isSome || s.md.reqHeld || s.md.safeHeld.isSome || s.md.wakeHeld || s.levelHeld

/-- SUP_MODE_STATUS (Table 3.12). -/
def State.supModeStatus (s : State) : DWord :=
  putField (if s.md.retSet then s.md.ret.code else 0) 28 4 ||| putField s.md.prev 24 4 ||| putField s.md.reason 8 8
    ||| putBit s.md.refused 1 ||| putBit s.modePending 0

/-- SUP_STATUS (Table 3.13). -/
def State.supStatus (s : State) : DWord :=
  putBit s.sup.pgPhy 15 ||| putBit s.sup.pgIo 14 ||| putBit s.sup.pgCore 13 ||| putBit s.nightReq 7
    ||| putBit s.shedReq 6 ||| putBit s.sup.vinHigh 5 ||| putBit s.vinSag 4 ||| putBit s.sup.vinValid 3
    ||| putBit s.sup.puValid 2 ||| putBit s.vbiasOnPu 1

/-- SUP_BOOT_STATUS (Table 3.20). -/
def State.supBootStatus (s : State) : DWord :=
  putField s.boot.result[1] 16 8 ||| putField s.boot.result[0] 8 8 ||| putField s.boot.booted 2 2 ||| putBit s.boot.fault 0

/-- SUP_RESET_CAUSE (Table 3.21). -/
def State.supResetCause (s : State) : DWord :=
  putField s.sup.tries 10 2 ||| putField s.sup.rail 8 2 ||| putField s.sup.cause 0 4

/-- SUP_UPD_STATUS (Table 3.22). -/
def State.supUpdStatus (s : State) : DWord :=
  putField s.upd.lastSeq.toNat 16 16 ||| putField s.upd.result 8 8 ||| putBit s.upd.done 1 ||| putBit s.upd.busy 0

/-- A host link is held in reset: PERST_N low, the bridge strap, or not fitted (R51, R61, R104). -/
def State.linkInReset (s : State) (l : Link) : Bool := (s.link l).perst || s.strap1 || !s.linkFit l

/-- A revive self-test waits to run, or runs, on a keeper, whose domain runs for it though it is fenced (R99, R418). -/
def State.revives (s : State) (k : Nat) : Bool := s.tnd.revivePending && s.tnd.reviveKeeper == k

/-- A keeper's domain but for its mode (Table 4.1): it is stopped while the keeper is fenced. -/
def State.keeperClocked (s : State) (k : Fin 12) : Bool := !(s.keeper k).fenced || s.revives k.val

/-- A flash access is in progress (Table 4.1, CD52). -/
def State.flashBusy (s : State) : Bool :=
  s.upd.busy ||
    match s.boot.stage with
    | .fetching _ => true
    | _ => false

/-- A clock domain runs (R99, Table 4.1). In SERVICE the test monitor starts and stops the domains, and the manual does not say which run:
every domain but CD56 then reads as running (DESIGN CHOICE, log 58). CD56 runs while VDD_IO is there and the board drives TCK, a free level
(log 7). CD16 stops in L1 too (R384). -/
def State.cdRuns (s : State) (i : Nat) : Bool :=
  let m := s.mode
  if i = 56 then s.sup.pgIo && Config.tckDriven s.freeSeq
  else if m = .service then decide (i < 60)
  else if h : i < 16 then
    let p := s.port ⟨i, h⟩
    (m = .lit || m = .bridge || m = .shed) && s.portFit ⟨i, h⟩ && p.conn && p.state ≠ .suspended
  else if i = 16 then m ≠ .dark && s.lan.pullup && s.lan.state ≠ .suspended && s.lan.state ≠ .l1
  else if h : i < 33 then m ≠ .dark && m ≠ .wick && m ≠ .kindle && s.portFit ⟨i - 17, by omega⟩
  else if i = 33 then m ≠ .dark
  else if i = 34 ∨ i = 35 then
    let l := Link.ofBool (i = 35)
    m ≠ .dark && m ≠ .wick && m ≠ .bridge && !s.linkInReset l && !(s.link l).l2 && !((s.link l).l1 && (s.link l).l12)
  else if i = 36 then m ≠ .dark && m ≠ .wick && !s.strap1
  else if i = 37 then m ≠ .dark && m ≠ .wick
  else if i = 38 then m ≠ .dark && m ≠ .wick && m ≠ .kindle && m ≠ .safe && m ≠ .relight && m ≠ .update
  else if i = 39 then m ≠ .dark && m ≠ .safe && (s.keeperClocked 0 || decide ((s.keeper 0).run = .bootRom))
  else if h : i < 51 then
    (m = .lit || m = .bridge || m = .night || m = .shed) && s.keeperClocked ⟨i - 39, by omega⟩
  else if i = 51 then m ≠ .dark
  else if i = 52 then m ≠ .dark && s.flashBusy
  else if i = 53 then m ≠ .dark && m ≠ .wick
  else if i = 54 ∨ i = 55 then s.sup.vbias
  else if i = 57 then m ≠ .dark
  else if i = 58 then m ≠ .dark && m ≠ .wick
  else if i = 59 then m ≠ .dark && m ≠ .wick && !s.strap1
  else false

/-- CLK_RST_REQ (Table 4.8). -/
def State.clkRstReq (s : State) : DWord :=
  putField s.clk.fwyAsked.toNat 16 4 ||| s.clk.portOn.setWidth 32

/-- CLK_STATUS (Table 4.10). -/
def State.clkStatus (s : State) : DWord :=
  putBit s.clk.refclkOk[1] 5 ||| putBit s.clk.refclkOk[0] 4 ||| putBit s.clk.pllLock 1 ||| putBit s.clk.xtalOk 0

/-- A Keyhole's state as read. -/
def KeyState.code : KeyState → Nat
  | .armed => 0
  | .half => 1
  | .opened => 2

/-- The Keyhole of a requester, where it has one (R137). -/
def State.keyhole (s : State) (r : Requester) : Option Keyhole :=
  match r with
  | .mfA => some s.reg.keyA
  | .mfB => some s.reg.keyB
  | .bridge => some s.reg.keyBridge
  | .bootRom => some s.reg.keyRom
  | _ => none

/-- DAY_STATUS (Table 5.8). -/
def State.dayStatus (s : State) : DWord :=
  let d := s.reg.day
  putField d.mismatchCnt 8 8 ||| putBit d.capturing 3 ||| putBit d.parity 2 ||| putBit d.stale 1 ||| putBit d.mismatch 0

/-- The sealed-class registers in rising BAR0 offset (R131, R139). -/
def sealedOffsets : List Nat :=
  [0x00010, 0x00020, 0x00024, 0x00034]
    ++ [0x01010, 0x01014, 0x0101C]
    ++ [0x02008, 0x02010, 0x02014]
    ++ (List.range 128).map (fun i => 0x10400 + 4 * i)
    ++ (List.range 17).flatMap (fun n => [0x70000 + 0x40 * n, 0x70004 + 0x40 * n])
    ++ (List.range 4).flatMap (fun n => [0x70800 + 0x40 * n, 0x70804 + 0x40 * n])
    ++ [0x70C00]
    ++ (List.range 10).map (fun i => 0xE0080 + 4 * i)
    ++ (List.range 75).map (fun i => 0xE0100 + 4 * i)

/-- The value of a register of the TOP, SUP, CLK, DAY, KEY and SEAL blocks, offsets below 0x1_0000; an unlisted offset
reads zero (R130). -/
def State.viewTop (s : State) (r : Requester) (off : Nat) : DWord :=
  match off with
  | 0x00000 => 0x4B10B100
  | 0x00004 => 0x0C0F2410
  | 0x00008 => s.topHealth
  | 0x0000C => s.topStrap
  | 0x00010 => s.pins.fit
  | 0x00020 => s.pins.lgMode0
  | 0x00024 => s.pins.lgMode1
  | 0x00028 => s.pins.lgOut
  | 0x0002C => s.topLgIn
  | 0x00030 => s.pins.lgPull
  | 0x00034 => s.pins.lgKeep
  | 0x00040 => BitVec.ofNat 32 s.mode.code
  | 0x01000 => BitVec.ofNat 32 s.md.req
  | 0x01004 => s.supModeStatus
  | 0x01008 => s.supStatus
  | 0x0100C => s.sup.vmon
  | 0x01010 => s.md.shedCfg
  | 0x01014 => s.md.wakeCfg
  | 0x01018 => s.md.wakeSrc
  | 0x0101C => s.md.safeCfg
  | 0x01020 => s.md.heartbeat.setWidth 32
  | 0x01024 => BitVec.ofNat 32 s.md.safeCause
  | 0x01028 => s.supBootStatus
  | 0x0102C => s.supResetCause
  | 0x01030 => s.sup.fuse
  | 0x01034 => s.upd.ctl
  | 0x01038 => s.supUpdStatus
  | 0x02000 => bitsOf 32 s.cdRuns
  | 0x02004 => bitsOf 28 (fun i => s.cdRuns (32 + i))
  | 0x02008 => s.clk.ssc
  | 0x0200C => s.clkRstReq
  | 0x02010 => s.clk.edge
  | 0x02014 => s.clk.lgFilt
  | 0x02018 => s.clkStatus
  | 0x03000 => 0
  | 0x03004 => s.reg.day.refIn
  | 0x03008 => s.reg.day.ref
  | 0x0300C => s.reg.day.last
  | 0x03010 => s.dayStatus
  | 0x03014 => s.reg.day.parityAt
  | 0x03018 => BitVec.ofNat 32 sealedOffsets.length
  | 0x04000 => 0
  | 0x04004 =>
    match s.keyhole r with
    | some k => BitVec.ofNat 32 k.state.code
    | none => 0
  | 0x04008 => s.reg.keyFault.view
  | 0x0400C => s.reg.keyFaultLast
  | 0x05000 => s.reg.sealSet.setWidth 32
  | 0x05004 => s.reg.refuse.view
  | 0x05008 => s.reg.refuseLast
  | _ => 0

end Sys2Proof.Machine
end

