-- ==== Sys2Proof/Machine/ViewLink.lean ====
section
/-! DEFINITION. Register values of chapters 6 and 7 as read: HLK, BUY, the mailboxes, the MSI-X tables and RNG. -/

namespace Sys2Proof.Machine

/-- The link's power state as read (Table 6.12). -/
def State.linkPstate (s : State) (l : Link) : Nat :=
  let x := s.link l
  if !x.up then (if x.l2 && !x.perst then 2 else 3) else if x.l2 then 2 else if x.l1 then 1 else 0

/-- HLK_x_STATUS (Table 6.12). -/
def State.linkStatus (s : State) (l : Link) : DWord :=
  let x := s.link l
  putField (if x.up then x.speed else 0) 12 4 ||| putField (if x.up then x.width else 0) 8 4
    ||| putField (s.linkPstate l) 4 2 ||| putBit x.perst 1 ||| putBit x.up 0

/-- A Buoy is frozen (R481). -/
def State.frozen (s : State) (b : Fin 15) : Bool := (s.migr b).phase = .frozen

/-- Slot states (R157): 0 VACANT, 1 PRESENT, 2 AWAY. -/
def State.slotState (s : State) (l : Link) (b : Fin 15) : Nat :=
  match (s.buoy b).home with
  | none => 0
  | some h => if h = l then 1 else 2

/-- A Buoy is FREEZING or FROZEN (R481, R484). -/
def State.held (s : State) (b : Fin 15) : Bool := (s.migr b).phase ≠ .running

/-- BUY_SLOT (Table 6.14); FROZEN reads 1 in FREEZING too (R481). -/
def State.buySlot (s : State) (l : Link) (b : Fin 15) : DWord :=
  putBit (s.held b) 2 ||| putField (s.slotState l b) 0 2

/-- BUY_STATEk (Table 6.15). -/
def State.buyState (s : State) (b : Fin 15) : DWord :=
  let x := s.buoy b
  putField x.grant.toNat 16 12 ||| putBit (x.home = some .b) 4 ||| putBit (s.held b) 2 ||| putBit x.home.isSome 0

/-- BUY_OWNERm (Table 6.15): the recorded owner codes of four ports. -/
def State.buyOwner (s : State) (m : Nat) : DWord :=
  (List.range 4).foldl (fun acc i =>
    acc ||| putField (if h : 4 * m + i < 16 then (s.fwy.owner[4 * m + i]).code else 0) (8 * i) 8) 0

/-- One side of a mailbox: what it sends and what it receives (Table 6.9). -/
def mboxView (snd rcv : MboxDir) (off : Nat) : DWord :=
  if h : off < 0x40 then snd.out[off / 4]'(by omega)
  else if off = 0x40 then snd.outSeq
  else if off = 0x44 then ofHalves snd.accepted snd.acked
  else if off = 0x48 then putField snd.result 0 4
  else if h : 0x80 ≤ off ∧ off < 0xC0 then rcv.inn[(off - 0x80) / 4]'(by omega)
  else if off = 0xC0 then putField rcv.inSeq.toNat 16 16 ||| putField rcv.inLen 0 5
  else if off = 0xC4 then rcv.acked.setWidth 32
  else 0

/-- The MSI-X table and PBA of a slot (R160): table at 0, PBA at `pba`. -/
def msixView (t : MsixTable) (off : Nat) : DWord :=
  if h : off < 0x40 then
    let i : Fin 4 := ⟨off / 16, by omega⟩
    match off % 16 with
    | 0 => loDWord t.addr[i]
    | 4 => hiDWord t.addr[i]
    | 8 => t.data[i]
    | 12 => t.control[i]
    | _ => 0
  else 0

/-- RNG_r_CFG (Table 7.8). -/
def ringCfgView (r : Ring) : DWord :=
  putBit r.opened 31 ||| putField r.size 24 4 ||| putBit r.swell 16 ||| putField r.evt 8 2

/-- RNG_EVTn_CFG (Table 7.9). -/
def evCfgView (r : EventRing) : DWord :=
  putBit r.opened 31 ||| putField r.size 24 4 ||| putField r.modInterval 8 8 ||| putField r.modCount 0 8

/-- The RNG registers of one function (Tables 7.7 to 7.10), the Push Window reading zero (R202); `last` is its highest ring. -/
def ringsView (x : FuncState) (last off : Nat) : DWord :=
  if h : 0x2000 ≤ off ∧ off < 0x2820 then
    let n : Fin 65 := ⟨(off - 0x2000) / 0x20, by omega⟩
    let r := x.rings[n]
    if last < n.val then 0
    else
      match (off - 0x2000) % 0x20 with
      | 0x00 => r.baseLo
      | 0x04 => r.baseHi
      | 0x08 => ringCfgView r
      | 0x0C => ofHalves r.pi r.ci
      | 0x10 => if n = 0 then 0 else r.bind ||| putBit r.rebind.isSome 0
      | _ => 0
  else if h : 0x2A00 ≤ off ∧ off < 0x2A80 then
    let n : Fin 4 := ⟨(off - 0x2A00) / 0x20, by omega⟩
    let r := x.evts[n]
    match (off - 0x2A00) % 0x20 with
    | 0x00 => r.baseLo
    | 0x04 => r.baseHi
    | 0x08 => evCfgView r
    | 0x0C => ofHalves r.ep r.hci
    | 0x10 => putBit r.armed 1 ||| putBit r.full 0
    | _ => 0
  else if off = 0x2B00 then x.fault.view
  else if off = 0x2B04 then x.faultLast
  else 0

/-- The highest ring of a function (R187): 32 for a Buoy and 64 for the managers and the bridge host. -/
def lastRing (f : Func) : Nat := if f.isBuoy then 32 else 64

/-- Registers of one link (Table 6.12). -/
def State.viewLinkRegs (s : State) (l : Link) (off : Nat) : DWord :=
  let x := s.link l
  match off with
  | 0x00 => s.linkStatus l
  | 0x04 => x.errCor.view
  | 0x08 => x.errUnc.view
  | 0x0C => x.rxPoison.view
  | 0x10 => x.dmaFault.view
  | 0x14 => x.faultLast
  | 0x18 => loDWord x.faultAddr
  | 0x1C => hiDWord x.faultAddr
  | _ => 0

/-- The HLK block (Tables 6.11 to 6.13), manager BAR0 0x1_0000. -/
def State.viewHlk (s : State) (off : Nat) : DWord :=
  if off = 0x10000 then putBit s.strap0 0
  else if 0x10100 ≤ off ∧ off < 0x10120 then s.viewLinkRegs .a (off - 0x10100)
  else if 0x10200 ≤ off ∧ off < 0x10220 then s.viewLinkRegs .b (off - 0x10200)
  else if h : 0x10400 ≤ off ∧ off < 0x10600 then
    let w := s.lnk.win[(off - 0x10400) / 16]'(by omega)
    match (off - 0x10400) % 16 with
    | 0 => w.baseLo
    | 4 => w.baseHi
    | 8 => w.size
    | _ => w.ctl
  else 0

/-- The cross-link mailbox as a requester sees it (R155, R180). -/
def State.viewXmbx (s : State) (r : Requester) (off : Nat) : DWord :=
  match r with
  | .mfA => mboxView s.lnk.xAtoB s.lnk.xBtoA off
  | .mfB => mboxView s.lnk.xBtoA s.lnk.xAtoB off
  | _ => 0

/-- BUY_MIGk (Table 17.8). -/
def State.buyMig (s : State) (b : Fin 15) : DWord :=
  let m := s.migr b
  let x := s.fn (.buoy b)
  let held := (x.evts.toList.map (fun e => e.held.length)).sum
  let pushed := (x.rings.toList.map (fun r => r.staged.countP (fun e => decide (e.kind = .pushed)))).sum
  let missed := (x.rings.toList.map (fun r => r.unserved.countP (fun u => decide (u.status = .frozenMissed)))).sum
  putField (match m.phase with
    | .running => 0
    | .freezing => 1
    | .frozen => 2) 30 2
    ||| putField (min held 0xFF) 16 8 ||| putField (min pushed 0xFF) 8 8 ||| putField (min missed 0xFF) 0 8

/-- The BUY block (Tables 6.15 and 17.8, R179, R180), manager BAR0 0xC_0000. -/
def State.viewBuy (s : State) (r : Requester) (off : Nat) : DWord :=
  if h : 0xC0004 ≤ off ∧ off < 0xC0040 then s.buyState ⟨(off - 0xC0004) / 4, by omega⟩
  else if 0xC0040 ≤ off ∧ off < 0xC0050 then s.buyOwner ((off - 0xC0040) / 4)
  else if h : 0xC8000 ≤ off ∧ off < 0xC8F00 then
    let m := s.lnk.mbox[(off - 0xC8000) / 0x100]'(by omega)
    mboxView m.toTenant m.toMgr ((off - 0xC8000) % 0x100)
  else if 0xC9000 ≤ off ∧ off < 0xC9100 then s.viewXmbx r (off - 0xC9000)
  else if off = 0xCA000 then s.mig.origin
  else if h : 0xCA004 ≤ off ∧ off < 0xCA040 then s.buyMig ⟨(off - 0xCA004) / 4, by omega⟩
  else 0

/-- The LOG block (Table 17.7), manager BAR0 0xD_0000. -/
def State.viewLog (s : State) (off : Nat) : DWord :=
  if h : 0xD0040 ≤ off ∧ off < 0xD0400 then
    let x := s.log ⟨(off - 0xD0040) / 0x40, by omega⟩
    match (off - 0xD0040) % 0x40 with
    | 0x00 => putBit x.en 31
    | 0x04 => putBit x.logging 31 ||| putBit x.mapB 30 ||| putBit x.fault 29
    | 0x08 => x.rangeLo
    | 0x0C => x.rangeHi
    | 0x10 => x.pages
    | 0x18 => x.mapALo
    | 0x1C => x.mapAHi
    | 0x20 => x.mapBLo
    | 0x24 => x.mapBHi
    | 0x28 => x.miss.view
    | _ => 0
  else 0

/-- The index of a function's MSI-X table: HLA's Manager function and slots 1 to 15, then HLB's (R160). -/
def msixIdx (l : Link) (slot : Nat) (h : slot < 16) : Fin 32 := ⟨16 * l.idx.val + slot, by have := l.idx.isLt; omega⟩

/-- The MSI-X table in force for a function: none for the bridge host and for a Buoy held on no link (R160). -/
def State.msixOf (s : State) (f : Func) : Option (Fin 32) :=
  match f with
  | .mfA => some (msixIdx .a 0 (by omega))
  | .mfB => some (msixIdx .b 0 (by omega))
  | .bridge => none
  | .buoy b =>
    match (s.buoy b).home with
    | some l => some (msixIdx l (b.val + 1) (by omega))
    | none => none

end Sys2Proof.Machine
end

