-- ==== Sys2Proof/Machine/ViewPower.lean ====
section
/-! DEFINITION. Quantities and register values of chapters 11 and 12 as read: the CCP, MOR and SEC registers, the power
permission of R310 and R345, limits and budgets.
Choices: log 8. -/

namespace Sys2Proof.Machine

/-- CCP_e_STATUS (Table 11.10). -/
def ccpStatus (x : Engine) : DWord :=
  putField x.state.code 28 4 ||| putField x.partner 24 3 ||| putField x.rpSeen 22 2 ||| putBit x.orient 21
    ||| putBit x.source 20 ||| putBit x.dfp 19 ||| putBit x.vconnOn 18 ||| putBit x.vconnOc 17 ||| putBit x.epr 16
    ||| putBit x.pdSeen 15 ||| putBit (decide (2 ≤ x.kind)) 14 ||| putBit x.txng 13

/-- CCP_e_CONTRACT (Table 11.10). -/
def ccpContract (x : Engine) : DWord := putField x.kind 29 3 ||| putField x.volt 16 12 ||| putField x.curr 0 10

/-- The CCP registers of one engine (Table 11.10). -/
def engineView (x : Engine) (off : Nat) : DWord :=
  match off with
  | 0x00 => x.cfg
  | 0x04 => ccpStatus x
  | 0x08 => ccpContract x
  | 0x0C => x.cable
  | 0x10 => x.chg.view
  | 0x14 => BitVec.ofNat 32 x.msgBase
  | 0x18 => putBit x.rxEn 31 ||| putField x.rxCtr 16 11 ||| putBit x.txEn 15 ||| putField x.txCtr 0 11
  | 0x1C => ofHalves x.rxSeq x.rxAck
  | 0x20 => x.txctl
  | 0x24 => putField x.txSeq.toNat 16 16 ||| putField x.txResult 12 4 ||| putBit x.tx.isSome 0
  | _ => 0

/-- The RP field of CCP_e_CFG: 1 Default USB, 2 1.5 A, 3 3.0 A. -/
def Engine.rp (x : Engine) : Nat := fieldNat x.cfg 24 2

/-- The current that an Rp code advertises, in 10 mA units (R311). -/
def rpCurrent (rp : Nat) : Nat := if rp = 3 then 300 else if rp = 2 then 150 else 50

/-- VMAX and IMAX of MOR_n_ENV in 100 mV and 50 mA units (R342). -/
def Mooring.vmax (m : Mooring) : Nat := fieldNat m.env 16 9

/-- IMAX of MOR_n_ENV in 50 mA units. -/
def Mooring.imax (m : Mooring) : Nat := fieldNat m.env 0 7

/-- PRIO of MOR_n_POLICY. -/
def Mooring.prio (m : Mooring) : Nat := fieldNat m.policy 28 3

/-- RETAIN of MOR_n_POLICY. -/
def Mooring.retain (m : Mooring) : Bool := bitOf m.policy 24

/-- RETRIES of MOR_n_POLICY. -/
def Mooring.retries (m : Mooring) : Nat := fieldNat m.policy 16 3

/-- VMAX, BUDGET and ILIM of SEC_s_ENV in 100 mV, 0.5 W and 50 mA units (R342). -/
def Sector.vmax (x : Sector) : Nat := fieldNat x.env 23 9

/-- BUDGET of SEC_s_ENV in 0.5 W units. -/
def Sector.budget (x : Sector) : Nat := fieldNat x.env 12 11

/-- GANG of SEC_s_CFG. -/
def Sector.gang (x : Sector) : Bool := bitOf x.cfg 31

/-- RETRIES of SEC_s_CFG. -/
def Sector.retries (x : Sector) : Nat := fieldNat x.cfg 12 3

/-- The sector of a port. -/
def sectorOf (n : Fin 16) : Fin 4 := fairwayOf n

/-- The sector is in fault, retry gap or latch (R354). -/
def Sector.faulted (x : Sector) : Bool := x.gap || x.latched

/-- The sector stands at vSafe5V (R353). -/
def Sector.atSafe5 (x : Sector) : Bool := x.en && x.target = 500 && !x.moving && x.atLevel

/-- A port's committed power in units of 20 mV times 10 mA (R343): the larger of its recorded and its pending contract. -/
def Engine.committed (x : Engine) : Nat :=
  let p :=
    match x.pend with
    | some (_, v, c) => v * c
    | none => 0
  max (x.volt * x.curr) p

/-- COMMIT of a sector in 0.5 W units, rounded up (R343, log 8). -/
def State.commit (s : State) (q : Fin 4) : Nat :=
  let fine := ((portsOf q).map (fun n => if (s.moor (pathOf n)).gate then (s.eng (pathOf n)).committed else 0)).sum
  (fine + 2499) / 2500

/-- HEADROOM of a sector (R343). -/
def State.headroom (s : State) (q : Fin 4) : Nat := (s.sector q).budget - s.commit q

/-- OVERBUDGET of a sector (R343). -/
def State.overbudget (s : State) (q : Fin 4) : Bool := decide ((s.sector q).budget < s.commit q)

/-- SHED permits downstream power as its return mode does, less the shed ports (Table 3.4, which bounds R310 by R74): none where it is
STANDBY or UPDATE, and the retained ports where it is NIGHT. -/
def State.shedPower (s : State) (retain : Bool) : Bool :=
  match s.md.ret with
  | .lit | .bridge => true
  | .night => retain
  | _ => false

/-- The conditions of R310 and R345 that do not name the sector's state. -/
def State.permitBase (s : State) (n : Fin 16) : Bool :=
  let m := s.moor (pathOf n)
  let q := sectorOf n
  let modeOk :=
    match s.mode with
    | .lit | .bridge => true
    | .shed => s.shedPower m.retain
    | .night => m.retain
    | _ => false
  s.portFit n && s.isSealed 0 && !(s.port n).failed && modeOk && !m.shed && decide (50 ≤ m.vmax) && !m.latched && !m.gap
    && !m.offCmd && !(s.sector q).faulted
    && decide (500 * rpCurrent (s.eng (pathOf n)).rp ≤ s.headroom q * 5000)

/-- The port is permitted power (R310): MOR_n_STATUS PERMIT of a port. -/
def State.permitted (s : State) (n : Fin 16) : Bool :=
  s.permitBase n && (s.sector (sectorOf n)).en && (s.sector (sectorOf n)).atSafe5

/-- PU may source (R310, R314, R358, R399) but for its engine's state. -/
def State.puPermitted (s : State) : Bool :=
  let m := s.moor pu
  decide (50 ≤ m.vmax) && s.isSealed 0 && s.sup.vinValid && !m.shed && !m.latched && !m.gap && !m.failed
    && (match s.mode with
        | .standby | .lit | .bridge => true
        | .shed => s.md.ret ≠ .night || m.retain
        | .night => m.retain
        | _ => false)

/-- PERMIT of a path. -/
def State.permit (s : State) (p : Fin 17) : Bool :=
  match portOfPath p with
  | some n => s.permitted n
  | none => s.puPermitted

/-- WAITING of a path (R345): its engine holds ATTACHWAIT_SRC, its debounce met, for want of PERMIT. -/
def State.powerWaiting (s : State) (p : Fin 17) : Bool :=
  (s.eng p).state = .waitSrc && (s.eng p).debounced && !s.permit p

/-- DSCH of a port (R341): off in DARK without VBIAS (Table 2.5). -/
def State.dsch (s : State) (p : Fin 17) : Bool :=
  match portOfPath p with
  | none => false
  | some n =>
    let st := (s.eng p).state
    !(s.moor p).gate && (s.mode ≠ .dark || s.sup.vbias) && st ≠ .waitSnk && st ≠ .tryWaitSnk && st ≠ .attSnk && !((s.port n).failed && (s.moor p).failCause = 3)

/-- MOR_n_STATUS (Table 12.5). -/
def State.morStatus (s : State) (p : Fin 17) : DWord :=
  let m := s.moor p
  let failed :=
    match portOfPath p with
    | some n => (s.port n).failed
    | none => m.failed
  putBit m.gate 31 ||| putBit (s.dsch p) 30 ||| putBit (s.permit p) 29 ||| putBit (s.powerWaiting p) 28
    ||| putBit m.latched 27 ||| putBit m.gap 26 ||| putBit m.shed 25 ||| putBit m.offCmd 24 ||| putBit m.oc 23
    ||| putBit failed 22 ||| putBit m.ppsCl 21 ||| putBit (p = pu && s.pins.puGateIn) 20 ||| putBit m.vbad 19

/-- The present ramp level of a sector (R353): a free value between the ends of a ramp in progress. -/
def State.rampLevel (s : State) (q : Fin 4) : Nat :=
  let x := s.sector q
  if x.moving then
    let lo := min x.level x.target
    let hi := max x.level x.target
    lo + (Config.freeHalf s.freeSeq).toNat % (hi - lo + 1)
  else x.level

/-- V_ref of a path in 10 mV units (R346). -/
def State.vref (s : State) (p : Fin 17) : Nat :=
  let x := s.eng p
  let pv :=
    match x.pend with
    | some (_, v, _) => 2 * v
    | none => 0
  let sec :=
    match portOfPath p with
    | some n => max (s.sector (sectorOf n)).target (s.rampLevel (sectorOf n))
    | none => 0
  max 500 (max (2 * x.volt) (max pv sec))

/-- OV_TH of a path in 10 mV units (R346). -/
def State.ovTh (s : State) (p : Fin 17) : Nat := (11 * s.vref p + 9) / 10

/-- ILIM of a path in 10 mA units (R346): 1.25 times the operating current, rounded up to 50 mA, at most IMAX. -/
def State.ilim (s : State) (p : Fin 17) : Nat :=
  let x := s.eng p
  if x.kind = 0 then 0
  else
    let up := 5 * ((5 * x.curr + 19) / 20)
    min up (5 * (s.moor p).imax)

/-- MOR_n_LIMITS (Table 12.5). -/
def State.morLimits (s : State) (p : Fin 17) : DWord := putField (s.ovTh p) 16 13 ||| putField (s.ilim p) 0 10

/-- The registers of one path (Table 12.5). -/
def State.viewMoor (s : State) (p : Fin 17) (off : Nat) : DWord :=
  let m := s.moor p
  match off with
  | 0x00 => m.env
  | 0x04 => m.policy
  | 0x08 => s.morStatus p
  | 0x0C => s.morLimits p
  | 0x10 => m.meas
  | 0x14 => m.trip.view
  | 0x18 => putField m.tripKind 28 4 ||| putField m.run 24 3 ||| putField m.tripCount.toNat 0 16
  | 0x1C => putField m.failCause 0 4
  | _ => 0

/-- The registers of one sector (Table 12.6). -/
def State.viewSector (s : State) (q : Fin 4) (off : Nat) : DWord :=
  let x := s.sector q
  match off with
  | 0x00 => x.env
  | 0x04 => x.cfg
  | 0x08 => putField x.target 0 13
  | 0x0C =>
    putBit x.en 31 ||| putBit x.pg 30 ||| putBit x.moving 29 ||| putBit x.atLevel 28 ||| putBit x.faulted 27
      ||| putBit x.gap 26 ||| putBit x.latched 25 ||| putBit x.oc 24 ||| putBit (s.overbudget q) 23 ||| putBit x.ppsCl 22
      ||| putField x.refuse 16 4 ||| putField (if x.en then s.rampLevel q else 0) 0 13
  | 0x10 => x.meas
  | 0x14 => putField (s.commit q) 16 16 ||| putField (s.headroom q) 0 16
  | 0x18 => putField x.faultCause 28 4 ||| putField x.run 24 3 ||| putField x.faultCount.toNat 0 16
  | _ => 0

/-- The MOR and SEC registers, manager BAR0 0x7_0000. -/
def State.viewPower (s : State) (off : Nat) : DWord :=
  if h : 0x70000 ≤ off ∧ off < 0x70440 then s.viewMoor ⟨(off - 0x70000) / 0x40, by omega⟩ ((off - 0x70000) % 0x40)
  else if h : 0x70800 ≤ off ∧ off < 0x70900 then s.viewSector ⟨(off - 0x70800) / 0x40, by omega⟩ ((off - 0x70800) % 0x40)
  else if off = 0x70C00 then s.pwr.cfg
  else 0

/-- The CCP registers, manager BAR0 0x6_0000. -/
def State.viewCcp (s : State) (off : Nat) : DWord :=
  if h : 0x60000 ≤ off ∧ off < 0x61100 then engineView (s.eng ⟨(off - 0x60000) / 0x100, by omega⟩) ((off - 0x60000) % 0x100)
  else 0

end Sys2Proof.Machine
end

