-- ==== Sys2Proof/Machine/ViewBus.lean ====
section
/-! DEFINITION. Register values of chapter 10 as read: FWY, the device view and PRT.
Choices: log 9. -/

namespace Sys2Proof.Machine

/-- The handle of a device: 0x80 times the fairway plus the USB address (R276). -/
def handleOf (fa : Fin 4) (addr : Nat) : Nat := 0x80 * fa.val + addr

/-- The fairway of a handle. -/
def handleFa (h : Nat) : Fin 4 := ⟨(h / 0x80) % 4, by omega⟩

/-- The USB address of a handle. -/
def handleAddr (h : Nat) : Nat := h % 0x80

/-- The device a handle names (R276). -/
def State.dev (s : State) (h : Nat) : Option DevRec :=
  if 0x200 ≤ h ∨ handleAddr h = 0 then none else assocGet (s.fairway (handleFa h)).devs (handleAddr h)

/-- The attach instance of a handle (R283). -/
def State.devInst (s : State) (h : Nat) : Nat := (assocGet (s.fairway (handleFa h)).insts (handleAddr h)).getD 0

/-- A device record written. -/
def State.putDev (s : State) (h : Nat) (d : DevRec) : State :=
  s.modFairway (handleFa h) (fun x => { x with devs := assocPut x.devs (handleAddr h) d })

/-- A device record removed. -/
def State.dropDev (s : State) (h : Nat) : State :=
  s.modFairway (handleFa h) (fun x => { x with devs := assocErase x.devs (handleAddr h) })

/-- Key of an endpoint record: twice the endpoint number, plus one for IN; control endpoint 0 is 0. -/
def epKey (ep : Nat) (dirIn : Bool) : Nat := if ep = 0 then 0 else 2 * ep + (if dirIn then 1 else 0)

/-- An endpoint record of a device. -/
def DevRec.ep (d : DevRec) (ep : Nat) (dirIn : Bool) : Option EpRec := assocGet d.eps (epKey ep dirIn)

/-- Addresses in use on a fairway: those of its devices, and the one that a DEV_ADDRESS in progress has taken (R281). -/
def Fairway.addrs (x : Fairway) : List Nat := x.devs.map Prod.fst ++ (x.addressing.map Addressing.addr).toList

/-- Free addresses of a fairway (Table 10.7). -/
def Fairway.free (x : Fairway) : Nat := 127 - x.addrs.length

/-- The handles of the devices on a root port. -/
def State.devsOnPort (s : State) (n : Fin 16) : List Nat :=
  let fa := fairwayOf n
  ((s.fairway fa).devs.filter (fun x => decide (x.2.port = n))).map (fun x => handleOf fa x.1)

/-- The device at depth 0 of a root port. -/
def State.rootDev (s : State) (n : Fin 16) : Option Nat :=
  (s.devsOnPort n).find? (fun h =>
    match s.dev h with
    | some d => d.depth == 0
    | none => false)

/-- OC of a port (R296): its own flag, or the sector's shared flag in ganged reporting. -/
def State.portOc (s : State) (n : Fin 16) : Bool :=
  if (s.sector (sectorOf n)).gang then (s.sector (sectorOf n)).oc else (s.moor (pathOf n)).oc

/-- PWR of a port (R296). -/
def State.portPwr (s : State) (n : Fin 16) : Bool :=
  (s.moor (pathOf n)).gate && !((s.sector (sectorOf n)).gang && (s.sector (sectorOf n)).oc)

/-- EN of a port (Table 10.9). -/
def Port.enabled (p : Port) : Bool :=
  match p.state with
  | .enabled | .suspended | .resuming | .l1 => true
  | _ => false

/-- PRT_n_STATUS (Table 10.9). -/
def State.prtStatus (s : State) (n : Fin 16) : DWord :=
  let p := s.port n
  let sp :=
    match p.speed with
    | some v => v.code
    | none => 3
  putField p.state.code 28 4 ||| putField sp 26 2 ||| putField (s.devsOnPort n).length 16 8 ||| putField p.disCause 12 4
    ||| putBit (p.state = .l1) 8 ||| putBit (p.suspMode && decide (p.state = .suspended)) 7 ||| putBit (s.eng (pathOf n)).dfp 6 ||| putBit (s.portPwr n) 5
    ||| putBit (s.portOc n) 4 ||| putBit (p.state = .resetting) 3 ||| putBit (p.state = .suspended) 2
    ||| putBit p.enabled 1 ||| putBit p.conn 0

/-- The PRT registers of a port (Table 10.9). -/
def State.viewPort (s : State) (n : Fin 16) (off : Nat) : DWord :=
  let p := s.port n
  match off with
  | 0x000 => s.prtStatus n
  | 0x004 => p.chg.view
  | 0x008 =>
    match s.rootDev n with
    | some h => putField (s.devInst h) 16 8 ||| putField h 0 12
    | none => 0
  | 0x00C => putField p.lpmResp 20 4 ||| putBit p.lpmRwe 8 ||| putField p.lpmBesl 0 4
  | _ => 0

/-- FWY_f_STATUS (Table 10.7). -/
def State.fwyStatus (s : State) (f : Fin 4) : DWord :=
  let x := s.fairway f
  putBit x.failed 31 ||| putBit x.resetting 30 ||| putBit x.addressing.isSome 29 ||| putField x.failCause 24 4 ||| putField x.free 0 8

/-- The FWY registers of a fairway (Table 10.7). -/
def State.viewFairway (s : State) (f : Fin 4) (off : Nat) : DWord :=
  let x := s.fairway f
  match off with
  | 0x00 => s.fwyStatus f
  | 0x04 => x.xerr.view
  | 0x08 => x.split.view
  | 0x0C => x.babble.view
  | 0x10 => bitsOf 32 (fun b => x.addrs.contains b)
  | 0x14 => bitsOf 32 (fun b => x.addrs.contains (32 + b))
  | 0x18 => bitsOf 32 (fun b => x.addrs.contains (64 + b))
  | 0x1C => bitsOf 32 (fun b => x.addrs.contains (96 + b))
  | _ => 0

/-- The device view of a handle (Table 10.8). -/
def State.viewDev (s : State) (h off : Nat) : DWord :=
  match s.dev h with
  | none => 0
  | some d =>
    match off with
    | 0x0 =>
      putBit true 31 ||| putBit d.hub 30 ||| putBit d.mtt 29 ||| putField d.speed.code 26 2 ||| putField d.think 24 2
        ||| putField d.hubPorts 20 4 ||| putField d.depth 17 3 ||| putField (s.devInst h) 8 8 ||| putField d.port.val 0 4
    | 0x4 => putField d.parent 20 12 ||| putField d.route 0 20
    | 0x8 => putField d.ttHub 20 12 ||| putField d.ttPort 16 4
    | 0xC =>
      bitsOf 16 (fun e => (d.ep e false).isSome)
        ||| bitsOf 32 (fun e => decide (16 < e) && (d.ep (e - 16) true).isSome)
    | _ => 0

/-- The FWY, device and PRT registers, manager BAR0 0x4_0000 and 0x5_0000. -/
def State.viewBus (s : State) (off : Nat) : DWord :=
  if h : 0x40000 ≤ off ∧ off < 0x40400 then s.viewFairway ⟨(off - 0x40000) / 0x100, by omega⟩ ((off - 0x40000) % 0x100)
  else if 0x41000 ≤ off ∧ off < 0x43000 then s.viewDev ((off - 0x41000) / 0x10) ((off - 0x41000) % 0x10)
  else if h : 0x50000 ≤ off ∧ off < 0x60000 then s.viewPort ⟨(off - 0x50000) / 0x1000, by omega⟩ ((off - 0x50000) % 0x1000)
  else 0

end Sys2Proof.Machine
end

