-- ==== Sys2Proof/Machine/ViewBeacon.lean ====
section
/-! DEFINITION. Light List arithmetic (R259, R260, R292, R294) and register values of chapter 9 as read.
Choices: log 10. -/

namespace Sys2Proof.Machine

/-- Bus time of one transaction in 10 ns units (Table 9.5). -/
def busTime (sp : Speed) (iso : Bool) (bytes : Nat) : Nat :=
  match sp, iso with
  | .high, true => 64 + 2 * bytes
  | .high, false => 92 + 2 * bytes
  | .full, true => 728 + 78 * bytes
  | .full, false => 912 + 78 * bytes
  | .low, _ => 6408 + 623 * bytes

/-- Bytes of chunk `i` of a split isochronous packet (R292). -/
def chunkBytes (maxp i : Nat) : Nat := min 188 (maxp - 188 * i)

/-- Chunks of a split isochronous packet (R292). -/
def chunkCount (maxp : Nat) : Nat := (maxp + 187) / 188

/-- A Lamp's footprint: microframe offsets from the due one with the charge in 10 ns units (R259, Table 10.5, log 10). -/
def Lamp.footprint (x : Lamp) : List (Nat × Nat) :=
  let h (b : Nat) := busTime .high x.iso b
  if !x.split then [(0, x.mult * busTime x.speed x.iso x.maxp)]
  else if !x.iso then
    if x.dirIn then [(0, h 0), (2, h x.maxp), (3, h x.maxp), (4, h x.maxp)]
    else [(0, h x.maxp), (2, h 0), (3, h 0), (4, h 0)]
  else
    let k := chunkCount x.maxp
    if x.dirIn then
      (0, h 0) :: ((List.range k).map (fun i => (2 + i, h (chunkBytes x.maxp i))) ++ [(k + 2, h (chunkBytes x.maxp (k - 1)))])
    else (List.range k).map (fun i => (i, h (chunkBytes x.maxp i)))

/-- The Lamp's largest charge in one microframe (Table 9.11 BUS_TIME). -/
def Lamp.charge (x : Lamp) : Nat := x.footprint.foldl (fun a p => max a p.2) 0

/-- The Lamp is due in microframe `m` (R255). -/
def Lamp.dueAt (x : Lamp) (m : Nat) : Bool := m % 2 ^ x.pexp == x.phase

/-- Microframes since the Lamp was last due, in microframe `m`. -/
def Lamp.offsetAt (x : Lamp) (m : Nat) : Nat := (m + 4096 - x.phase) % 2 ^ x.pexp

/-- The last offset of the Lamp's footprint. -/
def Lamp.lastOffset (x : Lamp) : Nat := x.footprint.foldl (fun a p => max a p.1) 0

/-- The Lamp's charge in microframe `m` of the pattern. -/
def Lamp.busAt (x : Lamp) (m : Nat) : Nat :=
  ((x.footprint.filter (fun p => x.dueAt (m + 4096 - p.1))).map Prod.snd).sum

/-- Bus load of Lamps in microframe `m` (R260). -/
def busLoad (ls : List Lamp) (m : Nat) : Nat := (ls.map (fun x => x.busAt m)).sum

/-- Keeper load of Lamps in microframe `m` (R260). -/
def keeperLoad (ls : List Lamp) (m : Nat) : Nat := ((ls.filter (fun x => x.dueAt m)).map Lamp.kbudget).sum

/-- Microframes after which the pattern of some Lamps repeats: a divisor of 4,096. -/
def patternLen (ls : List Lamp) : Nat := 2 ^ (ls.foldl (fun a x => max a x.pexp) 0)

/-- The largest value of a load over the pattern. -/
def worstOver (ls : List Lamp) (f : Nat → Nat) : Nat := (List.range (patternLen ls)).foldl (fun a m => max a (f m)) 0

/-- Lamps of a fairway. -/
def State.lamps (s : State) (f : Fin 4) : List (Nat × Lamp) := s.bcn.lists[f]

/-- Lamps of every fairway. -/
def State.allLamps (s : State) : List Lamp := (s.bcn.lists.toList.flatMap id).map Prod.snd

/-- Keepers not fenced: K of R260. -/
def State.keepersUp (s : State) : Nat := (List.finRange 12).countP (fun k => !(s.keeper k).fenced)

/-- Worst keeper load over the pattern (BCN_KLOAD PEAK). -/
def State.keeperPeak (s : State) : Nat := worstOver s.allLamps (keeperLoad s.allLamps)

/-- The keeper limit in force (R260, R267). -/
def State.keeperLimit (s : State) : Nat := 22500 * s.bcn.limitK

/-- BCN_STATUS OVERCOMMIT (R267). -/
def State.overcommit (s : State) : Bool := decide (s.keeperLimit < s.keeperPeak)

/-- BCN_STATUS LAMP_POISON (R272). -/
def State.lampPoison (s : State) : Bool := s.allLamps.any Lamp.poisoned

/-- A root port receives start-of-frame (R254): it is enabled and no suspend has stopped it (R297), or its reset recovers (R280). -/
def State.portSofs (s : State) (n : Fin 16) : Bool :=
  s.fairwaysRun && !(s.fairway (fairwayOf n)).failed && !(s.fairway (fairwayOf n)).resetting &&
    match (s.port n).state, (s.port n).wait with
    | .enabled, w => decide (w ≠ .suspendWait)
    | .resetting, w => decide (w = .recovery)
    | _, _ => false

/-- FAf sends start-of-frame on a port (BCN_STATUS SOF_ON). -/
def State.sofOn (s : State) (f : Fin 4) : Bool := (portsOf f).any (fun n => s.portSofs n)

/-- BCN_STATUS (Table 9.10). -/
def State.bcnStatus (s : State) : DWord :=
  putField (match s.bcn.rate with
    | .stopped => 0
    | .microframe => 1
    | .frame => 2) 8 2
    ||| bitsOf 8 (fun i => if h : 4 ≤ i ∧ i < 8 then s.sofOn ⟨i - 4, by omega⟩ else false)
    ||| putBit s.lampPoison 1 ||| putBit s.overcommit 0

/-- The Lamp view of one Lamp (Table 9.11). -/
def lampView (x : Lamp) (off : Nat) : DWord :=
  match off with
  | 0x0 =>
    putBit true 31 ||| putBit x.held 30 ||| putBit x.split 29 ||| putBit x.iso 28 ||| putField x.pexp 24 4
      ||| putField x.phase 12 12 ||| putField x.dev 0 12
  | 0x4 =>
    putField x.owner.code 24 8 ||| putField (if x.held then 0 else x.ring) 16 8 ||| putField x.ep 12 4
      ||| putBit x.dirIn 11 ||| putField x.speed.code 9 2 ||| putField x.mult 7 2
  | 0x8 => putField x.maxp 16 11 ||| putField x.charge 0 16
  | 0xC => putField x.kbudget 0 16
  | _ => 0

/-- The BCN registers and Lamp views, manager BAR0 0x3_0000. -/
def State.viewBeacon (s : State) (off : Nat) : DWord :=
  if off = 0x30000 then s.bcn.count
  else if off = 0x30004 then putField (s.bcn.count.toNat % 8) 16 3 ||| putField ((s.bcn.count.toNat / 8) % 2048) 0 11
  else if off = 0x30008 then s.bcnStatus
  else if h : 0x30010 ≤ off ∧ off < 0x30020 then
    let f : Fin 4 := ⟨(off - 0x30010) / 4, by omega⟩
    let ls := (s.lamps f).map Prod.snd
    putField (worstOver ls (busLoad ls)) 16 16 ||| putField ls.length 0 10
  else if off = 0x30020 then putField s.keepersUp 28 4 ||| putField s.keeperPeak 0 19
  else if off = 0x30024 then s.bcn.overrun.view
  else if off = 0x30028 then s.bcn.overrunLast
  else if off = 0x30040 then
    putBit (s.bcn.ptmLink = .b) 8 ||| putBit s.bcn.ptmCapture 4 ||| putField s.bcn.ptmMode 0 2
  else if off = 0x30044 then putField s.bcn.ptmSeq.toNat 16 16 ||| putBit (s.bcn.ptmValid[s.bcn.ptmLink.idx]) 0
  else if off = 0x30048 then s.bcn.ptmCount
  else if off = 0x30050 then loDWord s.bcn.ptmTime
  else if off = 0x30054 then hiDWord s.bcn.ptmTime
  else if h : 0x31000 ≤ off ∧ off < 0x39000 then
    match assocGet (s.lamps ⟨(off - 0x31000) / 0x2000, by omega⟩) (((off - 0x31000) % 0x2000) / 0x10) with
    | some x => lampView x ((off - 0x31000) % 0x10)
    | none => 0
  else 0

end Sys2Proof.Machine
end

