-- ==== Sys2Proof/Machine/ViewTender.lean ====
section
/-! DEFINITION. Register values of chapters 14 to 16 as read: TND, KPR and HST. -/

namespace Sys2Proof.Machine

/-- FREE items (Table 14.8). -/
def State.freeItems (s : State) : Nat := 4096 - s.tnd.items.length

/-- The effective mask of an item (R412): its AFFINITY, and for a Buoy's item only granted keepers. -/
def State.effMask (s : State) (x : Item) : BitVec 12 :=
  let aff : BitVec 12 := (x.dwords[4]).setWidth 12
  match x.owner with
  | .buoy b => aff &&& (s.buoy b).grant
  | _ => aff

/-- A keeper is neither fenced nor stopped in the present mode (R411, R412). -/
def State.keeperOn (s : State) (k : Fin 12) : Bool := !(s.keeper k).fenced && s.cdRuns (39 + k.val)

/-- The item's owner is a Buoy that is FREEZING or FROZEN: the item is not dispatched (R482, R484). -/
def State.itemFrozen (s : State) (x : Item) : Bool :=
  match x.owner with
  | .buoy b => s.held b
  | _ => false

/-- TND_STATUS STARVED (R412, R484). -/
def State.starved (s : State) : Bool :=
  s.tnd.items.any (fun x =>
    decide (x.2.state = .ready) && !s.itemFrozen x.2 && (List.finRange 12).all (fun k => !(bitOf (s.effMask x.2) k.val && s.keeperOn k)))

/-- The item a keeper runs. -/
def KRun.item? : KRun → Option Nat
  | .item i => some i
  | _ => none

/-- TND_STATUS (Table 14.8). -/
def State.tndStatus (s : State) : DWord :=
  bitsOf 32 (fun i => if h : 20 ≤ i ∧ i < 32 then (s.keeper ⟨i - 20, by omega⟩).run.item?.isSome else false)
    ||| putBit s.starved 16 ||| putField s.freeItems 0 13

/-- READY items of one list (Table 14.8). -/
def State.readyCount (s : State) (p : Fin 4) : Nat := min 0xFF (s.tnd.ready[p]).length

/-- The code of a counter's state (Table 14.9). -/
def CounterState.code : CounterState → Nat
  | .counting => 1
  | .zero => 2
  | .poisoned => 3

/-- The counter view (Table 14.9). -/
def counterView (x : Counter) (off : Nat) : DWord :=
  match off with
  | 0 =>
    putField x.state.code 30 2 ||| putBit x.link.isSome 29 ||| putBit x.epochEn 28 ||| putField x.epochExp 24 4
      ||| putField x.value 12 12 ||| putField (x.link.getD 0) 0 12
  | 4 => putField x.owner.code 24 8 ||| putField x.window.length 0 4
  | _ => 0

/-- Descriptor dword 6 of an item (Table 14.1). -/
def itemHead (i : Nat) (x : Item) : DWord :=
  let st :=
    match x.state with
    | .waiting => 1
    | .ready => 2
    | .running => 3
  let k :=
    match x.keeper with
    | some k => k.val
    | none => 0xF
  putField x.owner.code 24 8 ||| putField st 20 4 ||| putBit x.replayed 19 ||| putField k 12 4 ||| putField i 0 12

/-- The TND registers of a requester (Table 14.8): the KPOST and KDEC registers are per keeper. -/
def State.viewTnd (s : State) (r : Requester) (off : Nat) : DWord :=
  if off = 0x90000 then s.tndStatus
  else if off = 0x90004 then
    putField (s.readyCount 0) 24 8 ||| putField (s.readyCount 1) 16 8 ||| putField (s.readyCount 2) 8 8
      ||| putField (s.readyCount 3) 0 8
  else if off = 0x90008 then putField (2048 - s.tnd.counters.length) 0 12
  else if off = 0x90010 then s.tnd.watch.view
  else if off = 0x90014 then s.tnd.lost.view
  else if off = 0x90018 then s.tnd.replay.view
  else if off = 0x9001C then s.tnd.dup.view
  else if off = 0x90020 then s.tnd.fault.view
  else if off = 0x90024 then s.tnd.faultLast
  else if h : 0x90100 ≤ off ∧ off < 0x90140 then s.tnd.mbx[(off - 0x90100) / 4]'(by omega)
  else if h : 0x90200 ≤ off ∧ off < 0x90218 then
    match r with
    | .keeper k => (s.tnd.kpost[k]).post[(off - 0x90200) / 4]'(by omega)
    | _ => 0
  else if off = 0x9021C then
    match r with
    | .keeper k => (s.tnd.kpost[k]).result
    | _ => 0
  else if off = 0x90220 then
    match r with
    | .keeper k => (s.tnd.kpost[k]).decTag
    | _ => 0
  else if 0x94000 ≤ off ∧ off < 0x98000 then
    match assocGet s.tnd.counters ((off - 0x94000) / 8) with
    | some c => counterView c ((off - 0x94000) % 8)
    | none => 0
  else if 0x98000 ≤ off ∧ off < 0xA0000 then
    match assocGet s.tnd.items ((off - 0x98000) / 8) with
    | some x => if (off - 0x98000) % 8 = 0 then x.dwords[5] else itemHead ((off - 0x98000) / 8) x
    | none => 0
  else 0

/-- KPR_k_STATE (Table 15.15). -/
def State.kprState (s : State) (k : Fin 12) : DWord :=
  let x := s.keeper k
  let st :=
    if x.fenced then 4
    else if !s.cdRuns (39 + k.val) then 0
    else
      match x.run with
      | .idle => 1
      | .item _ => 2
      | _ => 3
  putField st 28 4 ||| putField (x.run.item?.getD 0) 16 12 ||| putBit x.trapped 15 ||| putField x.active.val 8 3
    ||| putField x.held 4 4

/-- The per-keeper registers (Table 15.15). -/
def State.viewKeeper (s : State) (k : Fin 12) (off : Nat) : DWord :=
  let x := s.keeper k
  match off with
  | 0x00 => s.kprState k
  | 0x04 => x.trap.view
  | 0x08 => x.trapLast
  | 0x0C => x.trapLastPc
  | 0x10 => x.dmaFault.view
  | 0x14 => x.dmaLast
  | _ => 0

/-- The KPR block, manager BAR0 0xA_0000. -/
def State.viewKpr (s : State) (off : Nat) : DWord :=
  if off = 0xA0000 then putBit s.tnd.revivePending 31 ||| putField s.tnd.reviveKeeper 0 4
  else if off = 0xA0004 then s.tnd.fenceLast
  else if off = 0xA0010 then putBit s.kpr.bootReady 31 ||| putField s.kpr.bootKind 24 4
  else if off = 0xA0014 then s.kpr.imageSeq
  else if off = 0xA0018 then
    putField s.kpr.imageSvn 8 6 ||| putBit (decide ((s.keeper 0).run = .program 3)) 4 ||| putField s.kpr.imageKeySlot 0 2
  else if h : 0xA0100 ≤ off ∧ off < 0xA0280 then
    s.viewKeeper ⟨(off - 0xA0100) / 0x20, by omega⟩ ((off - 0xA0100) % 0x20)
  else 0

/-- HST_STATUS (Table 16.5). -/
def State.hstStatus (s : State) : DWord :=
  putField s.hst.used 24 4
    ||| bitsOf 32 (fun i => if h : 16 ≤ i ∧ i < 24 then (s.hst.changer[i - 16]'(by omega)).spent else false)
    ||| putBit s.hst.full 15 ||| putField s.hst.merge.length 12 3 ||| putBit s.hst.scrub.busy 0

/-- The HST block (Tables 16.5 and 16.6), manager BAR0 0xB_0000. -/
def State.viewHst (s : State) (off : Nat) : DWord :=
  let c := s.hst.scrub
  if off = 0xB0000 then s.hstStatus
  else if off = 0xB0004 then s.hst.fault.view
  else if off = 0xB0008 then s.hst.faultLast
  else if off = 0xB000C then s.hst.unretired.view
  else if off = 0xB0010 then s.hst.poison.view
  else if 0xB0040 ≤ off ∧ off < 0xB0078 then
    let r := regionOf ((off - 0xB0040) / 8)
    BitVec.ofNat 32 (if (off - 0xB0040) % 8 = 0 then r.1 else r.2)
  else if h : 0xB0080 ≤ off ∧ off < 0xB00A0 then
    let e := s.hst.changer[(off - 0xB0080) / 4]'(by omega)
    putBit e.valid 31 ||| putBit e.spent 30 ||| putField e.source 24 6 ||| putField e.row 0 18
  else if off = 0xB0100 then putField c.start 0 18
  else if off = 0xB0104 then putField c.last 0 18
  else if off = 0xB0108 then putBit c.busy 31 ||| putField c.pace 0 8
  else if off = 0xB010C then putBit c.busy 31 ||| putBit c.done 30 ||| putField c.result 24 4 ||| putField c.at_ 0 18
  else if off = 0xB0110 then putField c.rows 0 19
  else if off = 0xB0114 then putField c.retired 24 8 ||| putField c.unretired 16 8 ||| putField c.faultRows 0 16
  else if off = 0xB0118 then putField c.poisonWords 0 21
  else if off = 0xB011C then putBit c.first.isSome 31 ||| putField (c.first.getD 0) 0 18
  else 0

end Sys2Proof.Machine
end

