-- ==== Sys2Proof/Machine/ViewLantern.lean ====
section
/-! DEFINITION. Register values of chapter 13 as read: LAN and LAN_IBP. -/

namespace Sys2Proof.Machine

/-- Table 3.4 shows the Lantern alive in a mode (R367 item 2): the Wick segment, LAN_CONNECT or the bridge strap decide the
rest. In KINDLE it is alive only for the maintenance subset of R90. -/
def State.lanternAlive (s : State) : Bool :=
  match s.mode with
  | .dark | .service => false
  | .kindle => s.strap1 && s.boot.fault
  | .wick => s.kpr.wickRunning
  | _ => true

/-- The Wick terms of R368. -/
def State.wickTerms (s : State) : Bool :=
  let x := s.eng pu
  decide (2 ≤ x.rpSeen) || (decide (2 ≤ x.kind) && s.lan.noSuspend)

/-- The lowest-numbered failing condition 2 to 6 of R367, or 0. -/
def State.lanFailing (s : State) : Nat :=
  let x := s.eng pu
  if !s.lanternAlive then 2
  else if !((x.state = .attSrc || x.state = .attSnk) && !x.dfp) then 3
  else if !s.sup.puValid then 4
  else if s.pins.biasPuMissing then 5
  else if s.wick && !s.wickTerms then 6
  else 0

/-- Every condition of R367 holds. -/
def State.lanMay (s : State) : Bool := s.lan.en && s.lanFailing = 0

/-- The IBP engine runs (R387). -/
def State.ibpRuns (s : State) : Bool :=
  match s.mode with
  | .wick => true
  | .standby | .bridge | .night | .shed | .safe | .relight | .update => s.strap1
  | .kindle => s.strap1 && s.boot.fault
  | _ => false

/-- LAN_STATUS (Table 13.12). -/
def State.lanStatus (s : State) : DWord :=
  let x := s.lan
  let sp := if !x.pullup then 3 else if x.high then 0 else 1
  putField x.state.code 28 4 ||| putField sp 26 2 ||| putBit x.pullup 25 ||| putBit s.ibpRuns 24
    ||| putBit x.rweHost 23 ||| putField (if x.en then s.lanFailing else 0) 16 4 ||| putField x.addr 8 7

/-- LAN_EPi_CFG (Table 13.13). -/
def lanEpCfg (x : LanEp) : DWord :=
  putBit x.en 31 ||| putBit x.dbl 30 ||| putBit x.halted 29 ||| putBit x.ctrEn 27 ||| putField x.ctr 16 11
    ||| putField x.base 8 7 ||| putField x.size 0 7

/-- LAN_EPi_BUFk (Table 13.13). -/
def lanBufView (b : LanBuf) : DWord :=
  putBit b.armed 31 ||| putBit b.zlp 30 ||| putBit b.done 29 ||| putBit b.short 28 ||| putBit b.abort 27
    ||| putBit b.poison 26 ||| putField b.count 0 17

/-- The registers of one endpoint direction (Table 13.13). -/
def lanEpView (x : LanEp) (off : Nat) : DWord :=
  match off with
  | 0x00 => lanEpCfg x
  | 0x04 => putBit x.halted 31 ||| putBit x.toggle 30 ||| putBit x.next 29 ||| x.doneSeq.setWidth 32
  | 0x08 => lanBufView x.buf0
  | 0x0C => lanBufView x.buf1
  | _ => 0

/-- A dword of a dedicated buffer. -/
def dedDWord (bs : List Byte) (off : Nat) : DWord := dwordOfBytes ((List.range 4).map (fun i => bs.getD (off + i) 0))

/-- The code of the IBP subset in force (Table 13.10); zero while the engine does not run. -/
def State.ibpSubset (s : State) : Nat :=
  if !s.ibpRuns then 0
  else
    match s.mode with
    | .standby | .bridge | .night | .shed => 1
    | .safe | .relight => 2
    | .update => 3
    | .kindle => 4
    | .wick => 5
    | _ => 0

/-- The LAN registers, manager BAR0 0x8_0000. -/
def State.viewLan (s : State) (off : Nat) : DWord :=
  let x := s.lan
  let i := x.ibp
  if off = 0x80000 then putBit x.fsOnly 4 ||| putBit x.en 0
  else if off = 0x80004 then s.lanStatus
  else if off = 0x80008 then putBit x.addrPend.isSome 8 ||| putField x.addrReg 0 7
  else if off = 0x8000C then x.reset.view
  else if off = 0x80010 then putBit x.sofValid 31 ||| putField x.sofUframe 16 3 ||| putField x.sofFrame 0 11
  else if off = 0x80014 then if s.bcn.rate = .stopped then x.sofStamp &&& ~~~putBit true 15 else x.sofStamp
  else if off = 0x80018 then x.sofErr.view
  else if off = 0x8001C then
    putBit x.lpmEn 31 ||| putField x.beslMin 16 4 ||| putField x.lpmResp 8 4 ||| putBit x.lpmRwe 4 ||| putField x.lpmBesl 0 4
  else if off = 0x80020 then putBit x.wakeReq 0
  else if off = 0x80028 then x.setupLo
  else if off = 0x8002C then x.setupHi
  else if off = 0x80030 then x.setup.view
  else if off = 0x80034 then putBit x.setupCtrEn 31 ||| putField x.setupCtr 0 11
  else if off = 0x80038 then x.fault.view
  else if off = 0x8003C then x.faultLast
  else if h : 0x80100 ≤ off ∧ off < 0x80500 then lanEpView (x.ep[(off - 0x80100) / 0x20]'(by omega)) ((off - 0x80100) % 0x20)
  else if h : 0x81000 ≤ off ∧ off < 0x81800 then dedDWord (x.ded[(off - 0x81000) / 0x200]'(by omega)) ((off - 0x81000) % 0x200)
  else if off = 0x82000 then putField s.ibpSubset 28 4 ||| i.lastSeq.setWidth 32
  else if off = 0x82004 then i.err.view
  else if off = 0x82008 then i.errLast
  else if off = 0x8200C then BitVec.ofNat 32 i.fwBox
  else if off = 0x82010 then ofHalves i.inSeq i.inAck
  else if off = 0x82014 then putBit i.fwCtrEn 31 ||| putField i.fwCtr 0 11
  else if off = 0x82018 then putField i.outSeq.toNat 16 16 ||| putBit i.outBusy 15 ||| putField i.outLen 0 12
  else 0

end Sys2Proof.Machine
end

