-- ==== Sys2Proof/Machine/Flags.lean ====
section
/-! DEFINITION. The 300 event levels (Table 18.1), their details, routes and ALERT_N, and the bookkeeping of rises and falls
that ends every command (R511).
Choices: log 55. -/

namespace Sys2Proof.Machine

/-- Level of one of a port's ten sources (Table 18.1). -/
def State.portLevel (s : State) (n : Fin 16) (j : Nat) : Bool :=
  let p := s.port n
  let x := s.eng (pathOf n)
  let m := s.moor (pathOf n)
  s.portFit n &&
    match j with
    | 0 => p.conn
    | 1 => p.chg.level
    | 2 => p.state = .disabled && p.disCause = 1
    | 3 => p.failed
    | 4 => x.partner != 0
    | 5 => x.chg.level
    | 6 => x.vconnOc
    | 7 => m.trip.level
    | 8 => m.latched
    | _ => s.powerWaiting (pathOf n)

/-- Level of a PU source EV160 to EV169. -/
def State.puLevel (s : State) (j : Nat) : Bool :=
  let x := s.eng pu
  let m := s.moor pu
  match j with
  | 0 => x.partner != 0
  | 1 => x.chg.level
  | 2 => x.vconnOc
  | 3 => x.state = .debugAcc
  | 4 => m.trip.level
  | 5 => m.latched
  | 6 => s.powerWaiting pu
  | 7 => m.gate
  | 8 => s.pins.puGateIn
  | _ => m.vbad

/-- A Lantern endpoint direction has a completed buffer not yet re-armed. -/
def LanEp.anyDone (x : LanEp) : Bool := x.en && (x.buf0.done || x.buf1.done)

/-- Level of a Lantern source EV170 to EV181. -/
def State.lanLevel (s : State) (j : Nat) : Bool :=
  let x := s.lan
  match j with
  | 0 => x.pullup
  | 1 => x.reset.level
  | 2 => x.state = .suspended
  | 3 => x.state = .l1
  | 4 => x.setup.level
  | 5 => x.ep.toList.any LanEp.anyDone
  | 6 => x.ep.toList.any LanEp.halted
  | 7 => x.fault.level
  | 8 => x.sofErr.level
  | 9 => x.state = .waiting
  | 10 => x.ibp.err.level
  | _ => x.ibp.inSeq != x.ibp.inAck

/-- Level of a fairway source (EV182 + 6f + j). -/
def State.fwyLevel (s : State) (f : Fin 4) (j : Nat) : Bool :=
  let x := s.fairway f
  match j with
  | 0 => x.failed
  | 1 => bitOf s.clk.fwyAsked f.val
  | 2 => x.xerr.level
  | 3 => x.split.level
  | 4 => x.babble.level
  | _ => x.free = 0

/-- Level of a sector source (EV206 + 4s + j). -/
def State.secLevel (s : State) (q : Fin 4) (j : Nat) : Bool :=
  let x := s.sector q
  s.secFit q &&
    match j with
    | 0 => x.faulted
    | 1 => x.oc
    | 2 => s.overbudget q
    | _ => x.moving

/-- Level of a keeper source (EV222 + 3k + j). -/
def State.kprLevel (s : State) (k : Fin 12) (j : Nat) : Bool :=
  let x := s.keeper k
  match j with
  | 0 => x.fenced
  | 1 => x.trap.level
  | _ => x.dmaFault.level

/-- Level of a Tender or store source EV258 to EV269. -/
def State.tndLevel (s : State) (j : Nat) : Bool :=
  match j with
  | 0 => s.freeItems = 0
  | 1 => s.tnd.watch.level
  | 2 => s.tnd.lost.level
  | 3 => s.tnd.replay.level
  | 4 => s.tenderOn && s.starved
  | 5 => s.tnd.fault.level
  | 6 => s.hst.fault.level
  | 7 => s.hst.full
  | 8 => s.hst.unretired.level
  | 9 => s.hst.poison.level
  | 10 => s.hst.scrub.done
  | _ => s.hst.changer.toList.any ChangerEntry.spent

/-- The direction of the cross-link mailbox whose receiver is a link's manager. -/
def State.xmbxTo (s : State) (l : Link) : MboxDir :=
  match l with
  | .a => s.lnk.xBtoA
  | .b => s.lnk.xAtoB

/-- The live state of the host links is present (Table 3.4). -/
def State.linksLive (s : State) : Bool := s.mode ≠ .dark && s.mode ≠ .wick

/-- Level of a host-link source (EV270 + 8 per link + j). -/
def State.linkLevel (s : State) (l : Link) (j : Nat) : Bool :=
  let x := s.link l
  s.linkFit l &&
    match j with
    | 0 => s.linksLive && !x.up && !x.perst && !s.strap1
    | 1 => s.linksLive && x.perst
    | 2 => s.linksLive && !s.clk.refclkOk[l.idx]
    | 3 => x.errCor.level
    | 4 => x.errUnc.level
    | 5 => x.rxPoison.level
    | 6 => x.dmaFault.level
    | _ => (s.xmbxTo l).acked != (s.xmbxTo l).accepted

/-- Level of a supply, register or Beacon source EV286 to EV299. -/
def State.topLevel (s : State) (j : Nat) : Bool :=
  match j with
  | 0 => s.vinSag
  | 1 => s.sup.vinHigh
  | 2 => s.vbiasOnPu
  | 3 => s.mode = .safe
  | 4 => s.boot.fault
  | 5 => s.modePending
  | 6 => s.md.refused
  | 7 => s.md.wakeSrc != 0
  | 8 => s.reg.day.mismatch
  | 9 => s.reg.refuse.level
  | 10 => s.reg.keyFault.level
  | 11 => s.reg.day.stale
  | 12 => s.bcn.overrun.level
  | _ => s.overcommit || s.lampPoison

/-- The level of an event source (R507, Table 18.1). -/
def State.level (s : State) (e : Nat) : Bool :=
  if h : e < 160 then s.portLevel ⟨e / 10, by omega⟩ (e % 10)
  else if e < 170 then s.puLevel (e - 160)
  else if e < 182 then s.lanLevel (e - 170)
  else if h : e < 206 then s.fwyLevel ⟨(e - 182) / 6 % 4, by omega⟩ ((e - 182) % 6)
  else if h : e < 222 then s.secLevel ⟨(e - 206) / 4 % 4, by omega⟩ ((e - 206) % 4)
  else if h : e < 258 then s.kprLevel ⟨(e - 222) / 3 % 12, by omega⟩ ((e - 222) % 3)
  else if e < 270 then s.tndLevel (e - 258)
  else if e < 278 then s.linkLevel .a (e - 270)
  else if e < 286 then s.linkLevel .b (e - 278)
  else if e < 300 then s.topLevel (e - 286)
  else false

/-- DETAIL of a port's source (R508). -/
def State.portDetail (s : State) (n : Fin 16) (j : Nat) : DWord :=
  match j with
  | 0 => s.prtStatus n
  | 1 => (s.port n).chg.view
  | 2 => s.prtStatus n
  | 3 => s.topHealth
  | 4 => ccpStatus (s.eng (pathOf n))
  | 5 => (s.eng (pathOf n)).chg.view
  | 6 => ccpStatus (s.eng (pathOf n))
  | 7 => (s.moor (pathOf n)).trip.view
  | _ => s.morStatus (pathOf n)

/-- DETAIL of a PU source. -/
def State.puDetail (s : State) (j : Nat) : DWord :=
  match j with
  | 1 => (s.eng pu).chg.view
  | 4 => (s.moor pu).trip.view
  | 0 => ccpStatus (s.eng pu)
  | 2 => ccpStatus (s.eng pu)
  | 3 => ccpStatus (s.eng pu)
  | _ => s.morStatus pu

/-- DETAIL of a Lantern source: a bitmap of endpoint directions for EV175 and EV176. -/
def State.lanDetail (s : State) (j : Nat) : DWord :=
  let x := s.lan
  match j with
  | 1 => x.reset.view
  | 4 => x.setup.view
  | 5 => bitsOf 32 (fun i => if h : i < 32 then (x.ep[i]).anyDone else false)
  | 6 => bitsOf 32 (fun i => if h : i < 32 then (x.ep[i]).halted else false)
  | 7 => x.fault.view
  | 8 => x.sofErr.view
  | 10 => x.ibp.err.view
  | 11 => ofHalves x.ibp.inSeq x.ibp.inAck
  | _ => s.lanStatus

/-- DETAIL of a fairway source. -/
def State.fwyDetail (s : State) (f : Fin 4) (j : Nat) : DWord :=
  let x := s.fairway f
  match j with
  | 0 => s.topHealth
  | 1 => s.clkRstReq
  | 2 => x.xerr.view
  | 3 => x.split.view
  | 4 => x.babble.view
  | _ => s.fwyStatus f

/-- DETAIL of a Tender or store source. -/
def State.tndDetail (s : State) (j : Nat) : DWord :=
  match j with
  | 1 => s.tnd.watch.view
  | 2 => s.tnd.lost.view
  | 3 => s.tnd.replay.view
  | 5 => s.tnd.fault.view
  | 6 => s.hst.fault.view
  | 7 => s.hstStatus
  | 8 => s.hst.unretired.view
  | 9 => s.hst.poison.view
  | 10 => s.viewHst 0xB010C
  | 11 => s.hstStatus
  | _ => s.tndStatus

/-- DETAIL of a host-link source. -/
def State.linkDetail (s : State) (l : Link) (j : Nat) : DWord :=
  let x := s.link l
  match j with
  | 2 => s.clkStatus
  | 3 => x.errCor.view
  | 4 => x.errUnc.view
  | 5 => x.rxPoison.view
  | 6 => x.dmaFault.view
  | 7 => putField (s.xmbxTo l).inSeq.toNat 16 16 ||| putField (s.xmbxTo l).inLen 0 5
  | _ => s.linkStatus l

/-- DETAIL of a supply, register or Beacon source. -/
def State.topDetail (s : State) (j : Nat) : DWord :=
  match j with
  | 3 => BitVec.ofNat 32 s.mode.code
  | 4 => s.supBootStatus
  | 5 => s.supModeStatus
  | 6 => s.supModeStatus
  | 7 => s.md.wakeSrc
  | 8 => s.dayStatus
  | 9 => s.reg.refuse.view
  | 10 => s.reg.keyFault.view
  | 11 => s.dayStatus
  | 12 => s.bcn.overrun.view
  | 13 => s.bcnStatus
  | _ => s.supStatus

/-- The DETAIL dword of an event source (R508). -/
def State.detail (s : State) (e : Nat) : DWord :=
  if h : e < 160 then s.portDetail ⟨e / 10, by omega⟩ (e % 10)
  else if e < 170 then s.puDetail (e - 160)
  else if e < 182 then s.lanDetail (e - 170)
  else if e < 206 then s.fwyDetail ⟨(e - 182) / 6 % 4, by omega⟩ ((e - 182) % 6)
  else if e < 222 then s.viewSector ⟨(e - 206) / 4 % 4, by omega⟩ 0x0C
  else if e < 258 then
    match (e - 222) % 3 with
    | 0 => s.topHealth
    | 1 => (s.keeper ⟨(e - 222) / 3 % 12, by omega⟩).trap.view
    | _ => (s.keeper ⟨(e - 222) / 3 % 12, by omega⟩).dmaFault.view
  else if e < 270 then s.tndDetail (e - 258)
  else if e < 278 then s.linkDetail .a (e - 270)
  else if e < 286 then s.linkDetail .b (e - 278)
  else s.topDetail (e - 286)

/-- The route byte of a source (R509). -/
def State.route (s : State) (e : Nat) : Nat :=
  if h : e < 300 then fieldNat (s.evt.route[e / 4]'(by omega)) (8 * (e % 4)) 8 else 0

/-- A source is masked (R510). -/
def State.masked (s : State) (e : Nat) : Bool :=
  if h : e < 300 then bitOf (s.evt.mask[e / 32]'(by omega)) (e % 32) else true

/-- A source whose default route drives ALERT_N (R507). -/
def urgent (e : Nat) : Bool := decide (0x80 ≤ defaultRoute e)

/-- A source holds ALERT_N low (R516). -/
def State.alerting (s : State) (e : Nat) : Bool :=
  s.level e && (e == 293 || (decide (0x80 ≤ s.route e) && !s.masked e))

/-- Every source, urgent ones first, each group in rising number (R515). -/
def eventOrder : List Nat := (List.range 300).filter urgent ++ (List.range 300).filter (fun e => !urgent e)

/-- The source that EVT_FIRST names (R517). -/
def State.firstAlert (s : State) : Option Nat := if s.mode = .dark then none else eventOrder.find? s.alerting

/-- ALERT_N is driven low (R516). -/
def State.alertLow (s : State) : Bool := s.firstAlert.isSome

/-- The EVT block (Table 18.6), manager BAR0 0xE_0000. -/
def State.viewEvt (s : State) (off : Nat) : DWord :=
  if off = 0xE0000 then putBit s.alertLow 31
  else if off = 0xE0004 then
    match s.firstAlert with
    | some e => putBit true 31 ||| putField e 0 9
    | none => 0
  else if off = 0xE0008 then s.evt.undelivered.view
  else if off = 0xE000C then s.evt.undeliveredLast
  else if 0xE0040 ≤ off ∧ off < 0xE0068 then
    bitsOf 32 (fun j => s.level (32 * ((off - 0xE0040) / 4) + j))
  else if h : 0xE0080 ≤ off ∧ off < 0xE00A8 then s.evt.mask[(off - 0xE0080) / 4]'(by omega)
  else if h : 0xE0100 ≤ off ∧ off < 0xE022C then s.evt.route[(off - 0xE0100) / 4]'(by omega)
  else 0

/-- The functions a source's route names, in order (R509, R512). -/
def State.targets (s : State) (e : Nat) : List Func :=
  let owner : List Func := if h : e < 160 then [s.portOwner ⟨e / 10, by omega⟩] else []
  match (s.route e / 8) % 8 with
  | 1 => [s.primary]
  | 2 => [s.secondaryMf]
  | 3 => [s.primary, s.secondaryMf]
  | 4 => owner
  | 5 => if owner = [s.primary] then owner else owner ++ [s.primary]
  | _ => []

/-- Rises and falls of a source recorded (R511), saturating. -/
def bumpEdge (l : List (Nat × (Nat × Nat))) (e : Nat) (rise : Bool) : List (Nat × (Nat × Nat)) :=
  let old := (assocGet l e).getD (0, 0)
  assocPut l e (if rise then (min (old.1 + 1) 0xFFFF, old.2) else (old.1, min (old.2 + 1) 0xFFFF))

/-- The sources whose level is 1. -/
def State.highNow (s : State) : List Nat := (List.range 300).filter s.level

/-- Rises and falls since the levels were last looked at are recorded; not in DARK, WICK and KINDLE (R511). -/
def State.settle (s : State) : State :=
  let now := s.highNow
  if now = s.evt.high then s
  else
    let changed := (List.range 300).filter (fun e => now.contains e != s.evt.high.contains e)
    let edges :=
      match s.mode with
      | .dark | .wick | .kindle => s.evt.edges
      | _ => changed.foldl (fun l e => bumpEdge l e (now.contains e)) s.evt.edges
    { s with evt := { s.evt with high := now, edges := edges } }

end Sys2Proof.Machine
end

