-- ==== Sys2Proof/Machine/ConfigSpace.lean ====
section
/-! DEFINITION. Configuration space of the Manager functions and the slots (R150, R153, R154, R158 to R161, R164, R165): Table 6.2's
identity and capabilities, whose layout within each capability is PCI Express's.
Choices: log 61. -/

namespace Sys2Proof.Machine

/-- One BAR register as read: its address bits under a size mask, with the type bits of a low half. -/
def barView (v : DWord) (mask kind : DWord) : DWord := (v &&& mask) ||| kind

/-- The bits a PF's BAR register holds (Table 6.3): 1 MiB, 2 MiB prefetchable and 16 KiB, each of 64 bits. -/
def barMask (i : Nat) : DWord :=
  match i with
  | 0 => 0xFFF00000
  | 2 => 0xFFE00000
  | 4 => 0xFFFFC000
  | _ => 0xFFFFFFFF

/-- The type bits of a PF's BAR register. -/
def barKind (i : Nat) : DWord :=
  match i with
  | 0 => 0x4
  | 2 => 0xC
  | 4 => 0x4
  | _ => 0

/-- The MSI-X capability (R160): Table Size 3, the table and the PBA of Table 6.3 or 6.4. -/
def msixCapView (t : MsixTable) (pf : Bool) (o : Nat) : DWord :=
  match o with
  | 0 => putBit t.enable 31 ||| putBit t.functionMask 30 ||| 0x00037011
  | 4 => if pf then 0x00000004 else 0x00008000
  | 8 => if pf then 0x00002004 else 0x00009000
  | _ => 0

/-- The PCI Express capability of a PF (Table 6.1): Function Level Reset, 256 bytes of payload, x2 at 8.0 GT/s, ASPM L1, completion
timeout ranges A and B with disable, and LTR. -/
def LinkState.expressView (x : LinkState) (o : Nat) : DWord :=
  match o with
  | 0x00 => 0x00020010
  | 0x04 => 0x10008001
  | 0x08 => ofHalves x.cfg.devStatus x.cfg.devCtl
  | 0x0C => 0x00400823
  | 0x10 => ofHalves (BitVec.ofNat 16 (x.speed + 16 * x.width)) (x.cfg.lnkCtl ||| if x.aspmEnable then 2 else 0)
  | 0x24 => 0x00000813
  | 0x28 => ofHalves 0 (x.cfg.devCtl2 ||| if x.ltrEnable then 0x400 else 0)
  | 0x2C => 0x0000000E
  | 0x30 => ofHalves 0 x.cfg.lnkCtl2
  | _ => 0

/-- The AER capability of the PF (R161). -/
def PfConfig.aerView (c : PfConfig) (o : Nat) : DWord :=
  match o with
  | 0x00 => 0x14820001
  | 0x04 => c.uncStatus
  | 0x08 => c.uncMask
  | 0x0C => c.uncSeverity
  | 0x10 => c.corStatus
  | 0x14 => c.corMask
  | 0x18 => putField c.firstError 0 5
  | 0x1C => c.header[0]
  | 0x20 => c.header[1]
  | 0x24 => c.header[2]
  | 0x28 => c.header[3]
  | _ => 0

/-- The SR-IOV capability (R153, R158): 15 VFs, offset and stride 1, page sizes of 4 KiB to 64 KiB. -/
def LinkState.sriovView (x : LinkState) (o : Nat) : DWord :=
  match o with
  | 0x00 => 0x19010010
  | 0x08 => putBit x.cfg.ariHierarchy 4 ||| putBit x.cfg.vfMse 3 ||| putBit x.vfEnable 0
  | 0x0C => 0x000F000F
  | 0x10 => putField x.numVFs 0 16
  | 0x14 => 0x00010001
  | 0x18 => 0x4B170000
  | 0x1C => 0x0000001F
  | 0x20 => x.cfg.pageSize
  | 0x24 => barView x.cfg.vfBar[0] 0xFFFF0000 4
  | 0x28 => x.cfg.vfBar[1]
  | _ => 0

/-- The LTR, L1 PM Substates and PTM capabilities of the PF (R164, R165): T_POWER_ON of 40 µs and Common_Mode_Restore_Time of 10 µs. -/
def LinkState.powerView (x : LinkState) (off : Nat) : DWord :=
  match off with
  | 0x190 => 0x1A010018
  | 0x194 => x.cfg.ltrMax
  | 0x1A0 => 0x1B01001E
  | 0x1A4 => 0x00210A1F
  | 0x1A8 => x.cfg.l1ss1
  | 0x1AC => x.cfg.l1ss2
  | 0x1B0 => 0x0001001F
  | 0x1B4 => 0x00000001
  | 0x1B8 => putBit x.ptmEnable 0
  | _ => 0

/-- The PF's configuration space (Table 6.2); PME_Support reports D3cold and PMCSR No_Soft_Reset (R159). -/
def State.viewPf (s : State) (l : Link) (off : Nat) : DWord :=
  let x := s.link l
  let t := s.lnk.msix[msixIdx l 0 (by omega)]
  if off = 0x00 then 0x4B161F5B
  else if off = 0x04 then
    ofHalves 0x0010 x.cfg.command ||| putBit t.busMaster 2 ||| putBit t.memory 1
  else if off = 0x08 then 0x0C0380B1
  else if h : 0x10 ≤ off ∧ off < 0x28 then
    let i : Fin 6 := ⟨(off - 0x10) / 4, by omega⟩
    barView x.cfg.bar[i] (barMask i.val) (barKind i.val)
  else if off = 0x2C then 0x00161F5B
  else if off = 0x34 then 0x40
  else if off = 0x40 then 0x80035001
  else if off = 0x44 then putBit x.cfg.pmeEn 8 ||| putBit true 3 ||| putField (if t.d3hot then 3 else 0) 0 2
  else if 0x50 ≤ off ∧ off < 0x5C then msixCapView t true (off - 0x50)
  else if 0x70 ≤ off ∧ off < 0xAC then x.expressView (off - 0x70)
  else if 0x100 ≤ off ∧ off < 0x12C then x.cfg.aerView (off - 0x100)
  else if off = 0x148 then 0x1501000E
  else if 0x150 ≤ off ∧ off < 0x190 then x.sriovView (off - 0x150)
  else x.powerView off

/-- A slot's configuration space (Table 6.2). -/
def State.viewVf (s : State) (l : Link) (i : Fin 15) (off : Nat) : DWord :=
  let t := s.lnk.msix[msixIdx l (i.val + 1) (by omega)]
  match off with
  | 0x00 => 0x4B171F5B
  | 0x04 => ofHalves 0x0010 t.command ||| putBit t.busMaster 2
  | 0x08 => 0x0C0380B1
  | 0x2C => 0x00161F5B
  | 0x34 => 0x50
  | 0x50 => msixCapView t false 0
  | 0x54 => msixCapView t false 4
  | 0x58 => msixCapView t false 8
  | 0x70 => 0x00020010
  | 0x74 => 0x10008001
  | 0x78 => ofHalves t.devStatus t.devCtl
  | 0x7C => 0x00400823
  | 0x94 => 0x00000813
  | 0x100 => 0x0001000E
  | _ => 0

/-- Device Control as written (Table 6.1): a payload size above 256 bytes or a read request size above 512 leaves its field; the
orderings that are never used, larger tags and the reset bit hold nothing. -/
def devCtlWritten (old : Half) (v : DWord) : Half :=
  let mps := if fieldNat v 5 3 ≤ 1 then fieldNat v 5 3 else fieldNat old 5 3
  let mrrs := if fieldNat v 12 3 ≤ 2 then fieldNat v 12 3 else fieldNat old 12 3
  BitVec.ofNat 16 (fieldNat v 0 4 + 32 * mps + 4096 * mrrs)

/-- Completion Timeout Value and Disable as written: the values of ranges A and B, and 0. -/
def timeoutWritten (old : Half) (v : DWord) : Half :=
  let n := fieldNat v 0 4
  let ok := n == 0 || n == 1 || n == 2 || n == 5 || n == 6
  BitVec.ofNat 16 ((if ok then n else fieldNat old 0 4) + 16 * fieldNat v 4 1)

/-- System Page Size as written: one of the supported sizes. -/
def pageWritten (old v : DWord) : DWord :=
  if v = 1 ∨ v = 2 ∨ v = 4 ∨ v = 8 ∨ v = 16 then v else old

/-- A write to a field that the PF only keeps. -/
def PfConfig.write (c : PfConfig) (off : Nat) (v : DWord) : PfConfig :=
  if h : 0x10 ≤ off ∧ off < 0x28 then
    let i : Fin 6 := ⟨(off - 0x10) / 4, by omega⟩
    { c with bar := c.bar.set i (v &&& barMask i.val) }
  else
    match off with
    | 0x04 => { c with command := loHalf v &&& 0x0540 }
    | 0x44 => { c with pmeEn := bitOf v 8 }
    | 0x78 => { c with devCtl := devCtlWritten c.devCtl v, devStatus := c.devStatus &&& ~~~hiHalf v }
    | 0x80 => { c with lnkCtl := loHalf v &&& 0x01C8 }
    | 0x98 => { c with devCtl2 := timeoutWritten c.devCtl2 v }
    | 0xA0 => { c with lnkCtl2 := loHalf v &&& 0x000F }
    | 0x104 => { c with uncStatus := c.uncStatus &&& ~~~v }
    | 0x108 => { c with uncMask := v &&& 0x0017D010 }
    | 0x10C => { c with uncSeverity := v &&& 0x0017D010 }
    | 0x110 => { c with corStatus := c.corStatus &&& ~~~v }
    | 0x114 => { c with corMask := v &&& 0x000031C1 }
    | 0x158 => { c with vfMse := bitOf v 3, ariHierarchy := bitOf v 4 }
    | 0x170 => { c with pageSize := pageWritten c.pageSize v }
    | 0x174 => { c with vfBar := c.vfBar.set 0 (v &&& 0xFFFF0000) }
    | 0x178 => { c with vfBar := c.vfBar.set 1 v }
    | 0x194 => { c with ltrMax := v &&& 0x1FFF1FFF }
    | 0x1A8 => { c with l1ss1 := v &&& 0xE3FF000F }
    | 0x1AC => { c with l1ss2 := v &&& 0x000000FB }
    | _ => c

/-- A write to a field that a slot only keeps. -/
def MsixTable.writeKept (t : MsixTable) (off : Nat) (v : DWord) : MsixTable :=
  match off with
  | 0x04 => { t with command := loHalf v &&& 0x0540 }
  | 0x78 => { t with devCtl := devCtlWritten t.devCtl v, devStatus := t.devStatus &&& ~~~hiHalf v }
  | _ => t

end Sys2Proof.Machine
end

