-- ==== Sys2Proof/Machine/Operands.lean ====
section
/-! DEFINITION. Where a register access lands: the requester of a path, the manager BAR0 map, and the value a register read
returns.
Choices: log 16. -/

namespace Sys2Proof.Machine

/-- The requester of a path (Table 5.1, R117); none for a slot that its Buoy is not held in (R157). -/
def State.requesterOf (s : State) (p : Path) : Option Requester :=
  match p with
  | .mgr .a => some .mfA
  | .mgr .b => some .mfB
  | .mgrMsix .a => some .mfA
  | .mgrMsix .b => some .mfB
  | .mgrCfg .a => some .mfA
  | .mgrCfg .b => some .mfB
  | .slot l i => if s.slotState l i = 1 then some (.buoy i) else none
  | .slotCfg l i => if s.slotState l i = 1 then some (.buoy i) else none
  | .bar2 .a => some .mfA
  | .bar2 .b => some .mfB
  | .ibp => some .bridge
  | .smbus => some .smbus
  | .jtag => some .jtag
  | .bootRom => some .bootRom
  | .keeper k => some (.keeper k)

/-- The value of a manager BAR0 register as a requester reads it; an offset that no register occupies reads zero (R130). -/
def State.readBar0 (s : State) (r : Requester) (off : Nat) : DWord :=
  if off < 0x10000 then s.viewTop r off
  else if off < 0x20000 then s.viewHlk off
  else if off < 0x30000 then
    match r with
    | .mfA => ringsView (s.fn .mfA) 64 (off - 0x20000)
    | .mfB => ringsView (s.fn .mfB) 64 (off - 0x20000)
    | .bridge => ringsView (s.fn .bridge) 64 (off - 0x20000)
    | _ => 0
  else if off < 0x40000 then s.viewBeacon off
  else if off < 0x60000 then s.viewBus off
  else if off < 0x70000 then s.viewCcp off
  else if off < 0x80000 then s.viewPower off
  else if off < 0x90000 then s.viewLan off
  else if off < 0xA0000 then s.viewTnd r off
  else if off < 0xB0000 then s.viewKpr off
  else if off < 0xC0000 then s.viewHst off
  else if off < 0xD0000 then s.viewBuy r off
  else if off < 0xE0000 then s.viewLog off
  else s.viewEvt off

/-- The value of a Buoy BAR0 register (Table 6.4): only BUY_SLOT and the MSI-X table outside a slot that is PRESENT. -/
def State.readSlot (s : State) (l : Link) (b : Fin 15) (off : Nat) : DWord :=
  if off = 0x4000 then s.buySlot l b
  else if 0x8000 ≤ off ∧ off < 0x8040 then
    msixView (s.lnk.msix[msixIdx l (b.val + 1) (by omega)]) (off - 0x8000)
  else if off = 0x9000 then (s.lnk.msix[msixIdx l (b.val + 1) (by omega)]).pending.setWidth 32
  else if s.slotState l b ≠ 1 then 0
  else if 0x3000 ≤ off ∧ off < 0x3100 then
    mboxView (s.lnk.mbox[b]).toMgr (s.lnk.mbox[b]).toTenant (off - 0x3000)
  else ringsView (s.fn (.buoy b)) 32 off

/-- The value a single-dword read by a path returns; BAR2 is read as words (R154). -/
def State.readPath (s : State) (p : Path) (off : Nat) : DWord :=
  match p with
  | .mgr .a => s.readBar0 .mfA off
  | .mgr .b => s.readBar0 .mfB off
  | .mgrMsix l =>
    if off < 0x40 then msixView (s.lnk.msix[msixIdx l 0 (by omega)]) off
    else if off = 0x2000 then (s.lnk.msix[msixIdx l 0 (by omega)]).pending.setWidth 32
    else 0
  | .mgrCfg l => s.viewPf l off
  | .slot l i => s.readSlot l i off
  | .slotCfg l i => s.viewVf l i off
  | .bar2 _ => 0
  | .ibp => s.readBar0 .bridge off
  | .smbus => s.readBar0 .smbus off
  | .jtag => s.readBar0 .jtag off
  | .bootRom => s.readBar0 .bootRom off
  | .keeper k => s.readBar0 (.keeper k) off

end Sys2Proof.Machine
end

