-- ==== Sys2Proof/Machine/EventRing.lean ====
section
/-! DEFINITION. Producing events (R159, R196, R217 to R219, R396): writing entries, holding them, interrupt messages and
the bridge host's notifications.
Choices: log 11, 29, 33, 55. -/

namespace Sys2Proof.Machine

/-- The link on which a function is presented: none for the bridge host and for a Buoy held nowhere (R168). -/
def State.linkOf (s : State) (f : Func) : Option Link :=
  match f with
  | .mfA => some .a
  | .mfB => some .b
  | .bridge => none
  | .buoy b => (s.buoy b).home

/-- A Buoy's slot exists on a link (R158). -/
def State.slotExists (s : State) (l : Link) (b : Fin 15) : Bool :=
  (s.link l).vfEnable && decide (b.val + 1 ≤ (s.link l).numVFs)

/-- A function is presented on an up link: a Buoy only while its slot exists (R157, R158); the bridge host is present
while the bridge strap is 1 (R23). -/
def State.presented (s : State) (f : Func) : Bool :=
  match f with
  | .bridge => s.strap1
  | .mfA => (s.link .a).up
  | .mfB => (s.link .b).up
  | .buoy b =>
    match (s.buoy b).home with
    | some l => (s.link l).up && s.slotExists l b
    | none => false

/-- A function is presented with mastering allowed (R159). -/
def State.masters (s : State) (f : Func) : Bool :=
  match s.msixOf f with
  | some i => s.presented f && (s.lnk.msix[i]).busMaster && !(s.lnk.msix[i]).d3hot
  | none => false

/-- A function may issue memory requests (R159); the bridge host's memory is the Holding Store, and a logged Buoy waits for its
home manager too (R490). -/
def State.canMaster (s : State) (f : Func) : Bool :=
  match f with
  | .bridge => true
  | .buoy b =>
    s.masters f &&
      (!(s.log b).logging ||
        match (s.buoy b).home with
        | some l => s.masters (Func.manager l)
        | none => false)
  | _ => s.masters f

/-- The pages of 4 KiB that a write of `n` bytes at `a` touches. -/
def pagesOf (a n : Nat) : List Nat :=
  if n = 0 then [] else (List.range ((a + n - 1) / 4096 - a / 4096 + 1)).map (fun i => a / 4096 + i)

/-- One page noted for the active map, or counted as outside the range (R489). -/
def Logbook.note (x : Logbook) (page : Nat) : Logbook :=
  let base := (ofDWords x.rangeHi x.rangeLo).toNat / 4096
  if base ≤ page ∧ page < base + x.pages.toNat then
    let k := (x.mapB, page - base)
    if x.dirty.contains k then x else { x with dirty := x.dirty ++ [k] }
  else x

/-- A write of a Buoy noted in its Logbook (R489). -/
def Logbook.noteWrite (x : Logbook) (a n : Nat) : Logbook :=
  if !x.logging then x
  else
    let base := (ofDWords x.rangeHi x.rangeLo).toNat / 4096
    let ps := pagesOf a n
    let x1 := ps.foldl Logbook.note x
    if ps.any (fun p => !(decide (base ≤ p) && decide (p < base + x.pages.toNat))) then { x1 with miss := x1.miss.bump } else x1

/-- The Logbook of a function that is a Buoy notes a write (R489). -/
def State.logWrite (s : State) (f : Func) (a n : Nat) : State :=
  match f with
  | .buoy b => s.modLog b (fun x => x.noteWrite a n)
  | _ => s

/-- A TLP on a link brings it back from L1 to L0 (R164). -/
def State.wakeLink (s : State) (l : Link) : State := s.modLink l (fun x => { x with l1 := false, l12 := false })

/-- The tolerance in microseconds that LTR messages report in a mode (R164). -/
def Mode.tolerance (m : Mode) : Option Nat :=
  match m with
  | .lit => some 10
  | .standby | .night => some 1000
  | _ => none

/-- A link that may send LTR messages reports the mode's tolerance where it last reported another (R164). -/
def State.reportLtr (s : State) (l : Link) : State :=
  match s.mode.tolerance with
  | none => s
  | some us =>
    if (s.link l).up && (s.link l).ltrEnable && (s.link l).ltr != us then
      ((s.wakeLink l).emit (.ltr l us)).modLink l (fun x => { x with ltr := us })
    else s

/-- A TLP of a function brings its link back to L0. -/
def State.wakeFn (s : State) (f : Func) : State :=
  match s.linkOf f with
  | some l => s.wakeLink l
  | none => s

/-- A posted write of a function to its host memory, logged for a Buoy (R489). -/
def State.issueWrite (s : State) (f : Func) (addr : QWord) (bytes : List Byte) (poisoned : Bool) : State :=
  ((s.wakeFn f).emit (.hostWrite f addr bytes poisoned)).logWrite f addr.toNat bytes.length

/-- Data written to a function's host memory, or held in order while the function cannot master (R159). -/
def State.writeData (s : State) (f : Func) (addr : QWord) (bytes : List Byte) (poisoned : Bool) : State :=
  if s.canMaster f then s.issueWrite f addr bytes poisoned
  else s.modFn f (fun x => { x with heldData := x.heldData ++ [(addr, bytes, poisoned)] })

/-- The data that a function holds is written once it can master (R159). -/
def State.flushData (s : State) (f : Func) : State :=
  if s.canMaster f then
    (s.fn f).heldData.foldl (fun s x => s.issueWrite f x.1 x.2.1 x.2.2) (s.modFn f (fun x => { x with heldData := [] }))
  else s

/-- A function is a Buoy that is FROZEN: none of its events is written (Table 17.1). -/
def State.isFrozen (s : State) (f : Func) : Bool :=
  match f with
  | .buoy b => s.frozen b
  | _ => false

/-- A function is a Buoy that is FREEZING or FROZEN (R484). -/
def State.isHeld (s : State) (f : Func) : Bool :=
  match f with
  | .buoy b => s.held b
  | _ => false

/-- A count of RNG_FAULT with its record (Table 7.10). -/
def State.ringFault (s : State) (f : Func) (ring kind : Nat) (index : BitVec 16) : State :=
  s.modFn f (fun x =>
    { x with fault := x.fault.bump,
             faultLast := putField ring 24 8 ||| putField kind 20 4 ||| index.setWidth 32 })

/-- The Cycle value expected at an index of a ring of 2^size entries (R190). -/
def cycleAt (size : Nat) (i : BitVec 16) : Bool := (i.toNat / 2 ^ size) % 2 == 0

/-- Distance from one absolute index to another, modulo 65,536. -/
def idxDist (hi lo : BitVec 16) : Nat := (hi - lo).toNat

/-- The bytes of an entry, little-endian. -/
def entryBytes (e : Entry) : List Byte := e.toList.flatMap bytesOfDWord

/-- An event entry from its six dwords and common fields (Table 7.3); the Cycle bit is given when it is written. -/
def mkEvent (d0 d1 d2 d3 d4 d5 : DWord) (index : BitVec 16) (ring status kind : Nat) : EventEntry :=
  { dwords := #v[d0, d1, d2, d3, d4, d5, putField index.toNat 16 16 ||| putField ring 0 8,
                 putField status 24 8 ||| putField kind 8 8] }

/-- An Event Ring has no free slot (R218). -/
def EventRing.noRoom (r : EventRing) : Bool := decide (2 ^ r.size ≤ idxDist r.ep r.hci)

/-- FULL follows the free slots; RNG_FAULT counts each rise (R218). -/
def State.evFullUpdate (s : State) (f : Func) (n : Fin 4) : State :=
  let r := s.evRing f n
  let now := r.noRoom
  let s1 := s.modEvRing f n (fun x => { x with full := now })
  if now && !r.full then s1.ringFault f (0xE0 + n.val) 5 r.ep else s1

/-- The IBP header of a message (Table 13.7). -/
def ibpHeader (type flags : Nat) (seq : BitVec 16) (status len : Nat) (a0 a1 : DWord) : List Byte :=
  bytesOfDWord (putField type 24 8 ||| putField flags 16 8 ||| seq.setWidth 32)
    ++ bytesOfDWord (putField status 24 8 ||| putField len 0 16) ++ bytesOfDWord a0 ++ bytesOfDWord a1

/-- The IBP subset in force serves EVENT_NOTIFY (Table 13.10). -/
def State.ibpNotifies (s : State) : Bool := decide (1 ≤ s.ibpSubset) && decide (s.ibpSubset ≤ 3)

/-- EVENT_NOTIFY for an Event Ring of the bridge host (R396): copies of at most eight entries from NP on. -/
def State.sendNotify (s : State) (n : Fin 4) : State :=
  let r := s.evRing .bridge n
  let np := s.lan.ibp.np[n]
  let due := idxDist r.ep np
  let count := min 8 due
  let base := 2 * r.baseLo.toNat
  let got := (List.range count).foldl (fun (acc : List (Byte × Bool) × HoldingStore) i =>
      let slot := (np.toNat + i) % 2 ^ r.size
      let x := acc.2.readBytes 0x14 (base + 32 * slot) 32
      (acc.1 ++ x.1, x.2)) ([], s.hst)
  let poison := got.1.any (fun b => b.2)
  let flags := (if poison then 2 else 0) + (if 8 < due then 4 else 0)
  let a0 := putField r.ep.toNat 16 16 ||| putField (0xE0 + n.val) 0 8
  let bytes := ibpHeader 0xC0 flags s.lan.ibp.devSeq 0 (32 * count) a0 (putField count 0 8) ++ got.1.map Prod.fst
  let i := s.lan.ibp
  { (s.emit (.ibp bytes)) with
    hst := got.2
    lan := { s.lan with ibp := { i with devSeq := i.devSeq + 1, np := i.np.set n r.ep } } }

/-- Remote wake is allowed (R385); `idle` says that the bus has been idle for at least 5 ms. -/
def Lantern.mayWake (x : Lantern) (idle : Bool) : Bool :=
  match x.state with
  | .suspended => x.rweHost && idle
  | .l1 => x.lpmRwe
  | _ => false

/-- A notification that waits for resume, with a remote wake where one is allowed (R396): whether the bus has been idle for 5 ms is
not the device's to say here, and free. -/
def State.holdNotify (s : State) (n : Fin 4) : State :=
  let v := s.freeBit
  let x := v.2.lan
  let i := x.ibp
  let ws := if i.waiting.contains n then i.waiting else i.waiting ++ [n]
  { v.2 with lan := { x with wakeReq := x.wakeReq || x.mayWake v.1, ibp := { i with waiting := ws } } }

/-- A notification that comes due (R396): sent, or kept for resume while the bus is suspended or in L1, or dropped while the
Lantern is not connected. -/
def State.notifyDue (s : State) (n : Fin 4) : State :=
  if !s.ibpNotifies || !s.lan.pullup then s
  else
    match s.lan.state with
    | .suspended | .l1 => s.holdNotify n
    | _ => s.sendNotify n

/-- A message of an Event Ring has been sent: the ring is disarmed and its interval starts again (R219). -/
def State.disarmRing (s : State) (f : Func) (n : Fin 4) : State :=
  s.modEvRing f n (fun x => { x with armed := false, sinceMsg := 0, ticksMsg := 0, heldMsg := false, tickDue := false })

/-- The interrupt message of an Event Ring (R219, R160): sent, or left pending under a mask. Only sending disarms the ring; with
MSI-X disabled nothing is sent and the ring stays armed (log 11). -/
def State.sendMessage (s : State) (f : Func) (n : Fin 4) : State :=
  match f with
  | .bridge => (s.notifyDue n).disarmRing f n
  | _ =>
    match s.msixOf f with
    | none => s
    | some i =>
      let t := s.lnk.msix[i]
      if !t.enable then s
      else if t.functionMask || bitOf t.control[n] 0 then
        ({ s with lnk := { s.lnk with msix := s.lnk.msix.set i { t with pending := t.pending ||| BitVec.ofNat 4 (2 ^ n.val) } } } :
          State).modEvRing f n (fun x => { x with heldMsg := false })
      else (((s.wakeFn f).emit (.msix f n.val t.addr[n] t.data[n])).logWrite f t.addr[n].toNat 4).disarmRing f n

/-- An armed ring whose message is due now, and not only at a tick (R219). -/
def EventRing.dueNow (r : EventRing) : Bool :=
  r.armed && (r.actInterval == 0 || (r.actCount != 0 && decide (r.actCount ≤ r.sinceMsg)))

/-- One event written at EP (R217): to host memory, or with parity to the Holding Store for the bridge host; then the message
if one is due (R219). -/
def State.writeEvent (s : State) (f : Func) (n : Fin 4) (e : EventEntry) : State :=
  let r := s.evRing f n
  let slot := r.ep.toNat % 2 ^ r.size
  let entry : Entry := e.dwords.set 7 (e.dwords[7] ||| putBit (cycleAt r.size r.ep) 0)
  let s1 : State :=
    match f with
    | .bridge =>
      { s with hst := s.hst.writeBytes (2 * r.baseLo.toNat + 32 * slot) ((entryBytes entry).map (fun b => (b, false))) }
    | _ => s.issueWrite f (ofDWords r.baseHi r.baseLo + BitVec.ofNat 64 (32 * slot)) (entryBytes entry) false
  let s2 := s1.modEvRing f n (fun x => { x with ep := x.ep + 1, armed := true, sinceMsg := x.sinceMsg + 1 })
  let s3 := s2.evFullUpdate f n
  if (s3.evRing f n).dueNow then s3.sendMessage f n else s3

/-- Held events are written in order while slots are free and the function may write (R159, R218). -/
def State.flushHeld (s : State) (f : Func) (n : Fin 4) : Nat → State
  | 0 => s
  | fuel + 1 =>
    let r := s.evRing f n
    match r.held with
    | [] => s
    | e :: rest =>
      if r.noRoom || !s.canMaster f || s.isFrozen f then s
      else ((s.modEvRing f n (fun x => { x with held := rest })).writeEvent f n e).flushHeld f n fuel

/-- A function writes its held data, and every Event Ring of it what it can of its held events (R159, R181). -/
def State.flushFn (s : State) (f : Func) : State :=
  (List.finRange 4).foldl (fun s n => s.flushHeld f n (s.evRing f n).held.length) (s.flushData f)

/-- An event produced for an open Event Ring: written, or held in order (R159, R218, R484). -/
def State.postEvent (s : State) (f : Func) (n : Fin 4) (e : EventEntry) : State :=
  let r := s.evRing f n
  if !r.opened then s
  else if r.held.isEmpty && !r.noRoom && s.canMaster f && !s.isFrozen f then s.writeEvent f n e
  else s.modEvRing f n (fun x => { x with held := x.held ++ [e] })

/-- A function-level event on Event Ring 0 (R518); a ring that is not open gets none. -/
def State.postFnEvent (s : State) (f : Func) (kind : Nat) (d0 d1 d2 : DWord) : State :=
  s.postEvent f 0 (mkEvent d0 d1 d2 0 0 0 0 0xFF 0x01 kind)

/-- The device event entry of a source for one target (Table 18.3). -/
def State.sourceEvent (s : State) (e rises falls : Nat) : EventEntry :=
  mkEvent (putField e 16 9 ||| putBit (s.level e) 0) (putField rises 16 16 ||| putField falls 0 16) (s.bcn.count - 1)
    (s.detail e) 0 0 0 0xFF 0x01 0x03

/-- One device event entry for one target (R512): discarded and counted where the ring is not open or the function is not
presented on any link. -/
def State.deliver (s : State) (f : Func) (ring e rises falls : Nat) : State :=
  let n : Fin 4 := ⟨ring % 4, by omega⟩
  let there :=
    match f with
    | .buoy b => (s.buoy b).home.isSome
    | .bridge => s.strap1
    | _ => !s.strap1
  if there && (s.evRing f n).opened then s.postEvent f n (s.sourceEvent e rises falls)
  else
    { s with evt := { s.evt with
        undelivered := s.evt.undelivered.bump
        undeliveredLast := putField f.code 24 8 ||| putField (ring % 4) 16 2 ||| putField e 0 9 } }

/-- The entries one source produces at the closing tick (R511, R513), in the Event Ring that its route byte names: R217's Event Ring 0
gives way to R509's field RING and to worked case 4.1, whose entry lands in Event Ring 3 (DEDUCED, log 11). -/
def State.deliverSource (s : State) (e : Nat) : State :=
  let ed := (assocGet s.evt.edges e).getD (0, 0)
  let route := s.route e
  let fall := bitOf (BitVec.ofNat 8 route) 6
  let ring := (route / 2) % 4
  if s.masked e then s
  else if 0 < ed.1 ∨ (fall = true ∧ 0 < ed.2) then
    (s.targets e).foldl (fun s f => s.deliver f ring e ed.1 ed.2) s
  else if s.level e then
    ((s.targets e).filter (fun f => s.evt.restate.contains (e, f))).foldl (fun s f => s.deliver f ring e 0 0) s
  else s

/-- The device event entries of a closing tick, urgent sources first (R511, R515); none in DARK, WICK and KINDLE. -/
def State.deliverAll (s : State) : State :=
  let s1 :=
    match s.mode with
    | .dark | .wick | .kindle => s
    | _ => eventOrder.foldl (fun s e =>
        if (assocGet s.evt.edges e).isSome || s.evt.restate.any (fun x => x.1 == e) then s.deliverSource e else s) s
  { s1 with evt := { s1.evt with edges := [], restate := [] } }

/-- Restatements that fall due for a source: one for each target (R513). -/
def State.restateSource (s : State) (e : Nat) : State :=
  { s with evt := { s.evt with restate := s.evt.restate ++ (s.targets e).map (fun f => (e, f)) } }

/-- Restatements due when an Event Ring of a function opens (R513). -/
def State.restateRing (s : State) (f : Func) (n : Fin 4) : State :=
  let due := (List.range 300).filter (fun e => (s.route e / 2) % 4 == n.val && (s.targets e).contains f)
  { s with evt := { s.evt with restate := s.evt.restate ++ due.map (fun e => (e, f)) } }

end Sys2Proof.Machine
end

