-- ==== Sys2Proof/Machine/TenderOps.lean ====
section
/-! DEFINITION. The Tender's operations (chapter 14): decrements and their permission, posting, dispatch, the end of an
item, replay and fencing.
Choices: log 22, 40. -/

namespace Sys2Proof.Machine

/-- The Tender's state changed. -/
def State.modTnd (s : State) (g : Tender → Tender) : State := { s with tnd := g s.tnd }

/-- A count of TND_FAULT with its record (Table 14.8). -/
def State.tndFault (s : State) (kind ctr src : Nat) : State :=
  s.modTnd (fun t =>
    { t with fault := t.fault.bump, faultLast := putField kind 28 4 ||| putField ctr 16 11 ||| putField src 8 8 })

/-- A live item. -/
def State.item (s : State) (i : Nat) : Option Item := assocGet s.tnd.items i

/-- A live item changed. -/
def State.modItem (s : State) (i : Nat) (g : Item → Item) : State :=
  match s.item i with
  | some x => s.modTnd (fun t => { t with items := assocPut t.items i (g x) })
  | none => s

/-- A counter in use. -/
def State.ctr (s : State) (c : Nat) : Option Counter := assocGet s.tnd.counters c

/-- A counter written. -/
def State.putCtr (s : State) (c : Nat) (x : Counter) : State :=
  s.modTnd (fun t => { t with counters := assocPut t.counters c x })

/-- Fields of descriptor dword 4 (Table 14.1). -/
def Item.prio (x : Item) : Fin 4 := ⟨fieldNat x.dwords[4] 14 2, Nat.mod_lt _ (by decide)⟩

/-- EVT of a descriptor. -/
def Item.evt (x : Item) : Fin 4 := ⟨fieldNat x.dwords[4] 28 2, Nat.mod_lt _ (by decide)⟩

/-- TRIG of a descriptor, where TRIG_EN is 1. -/
def Item.trig (x : Item) : Option Nat := if bitOf x.dwords[4] 31 then some (fieldNat x.dwords[4] 16 11) else none

/-- TAG of a descriptor. -/
def Item.tag (x : Item) : DWord := x.dwords[5]

/-- An item joins the tail of its ready list (R411), the number of the item deciding among several at once. -/
def State.makeReady (s : State) (i : Nat) : State :=
  match s.item i with
  | some x =>
    let s1 := s.modItem i (fun x => { x with state := .ready })
    s1.modTnd (fun t => { t with ready := t.ready.set x.prio (t.ready[x.prio] ++ [i]) })
  | none => s

/-- A replayed item joins the head of its list (R416). -/
def State.makeReadyHead (s : State) (i : Nat) : State :=
  match s.item i with
  | some x =>
    let s1 := s.modItem i (fun x => { x with state := .ready })
    s1.modTnd (fun t => { t with ready := t.ready.set x.prio (i :: t.ready[x.prio]) })
  | none => s

/-- An item leaves the ready lists. -/
def State.unready (s : State) (i : Nat) : State :=
  s.modTnd (fun t => { t with ready := t.ready.map (fun l => l.filter (fun j => j != i)) })

/-- The counter linked to an item, if it still is, is unlinked. -/
def State.unlink (s : State) (i : Nat) : State :=
  s.modTnd (fun t =>
    { t with counters := t.counters.map (fun c => (c.1, if c.2.link = some i then { c.2 with link := none } else c.2)) })

/-- A decrement applied under R407: the OUTCOME of Table 14.5 (0 done, 2 not counting, 3 in the window) and the state. -/
def State.decrement (s : State) (c : Nat) (tag : DWord) : Nat × State :=
  match s.ctr c with
  | none => (2, s.tndFault 1 c (tag >>> 24).toNat)
  | some x =>
    if x.state ≠ .counting then (2, s.tndFault 1 c (tag >>> 24).toNat)
    else if x.window.contains tag then (3, s.modTnd (fun t => { t with dup := t.dup.bump }))
    else
      let v := x.value - 1
      let x1 : Counter :=
        { x with value := v, window := (tag :: x.window).take 8, state := if v = 0 then .zero else .counting }
      let s1 := s.putCtr c x1
      if v = 0 then
        match x.link with
        | some i =>
          match s.item i with
          | some it => if it.state = .waiting then (0, s1.makeReady i) else (0, s1)
          | none => (0, s1)
        | none => (0, s1)
      else (0, s1)

/-- A function passes every check that requires the primary manager (R22, R23). -/
def State.isPrimaryFn (s : State) (f : Func) : Bool := decide (f = s.primary)

/-- A function may decrement a counter (R408): the counter is unused, its own, or the function is the primary manager. -/
def State.mayDecrement (s : State) (f : Func) (c : Nat) : Bool :=
  match s.ctr c with
  | none => true
  | some x => decide (x.owner = f) || s.isPrimaryFn f

/-- A decrement by a function's transfer, item, keeper or command, checked under R408; the Tender applies none while it does
not run (R402). -/
def State.decrementBy (s : State) (f : Func) (c : Nat) (tag : DWord) : Nat × State :=
  if !s.tenderOn then (0, s)
  else if s.mayDecrement f c then s.decrement c tag
  else (2, s.tndFault 2 c (tag >>> 24).toNat)

/-- A decrement by a CC/PD engine, the Lantern or the IBP inbox (R408): only for counters of the managers and the bridge
host. -/
def State.decrementEngine (s : State) (c : Nat) (tag : DWord) : State :=
  if !s.tenderOn then s
  else
    match s.ctr c with
    | some x => if x.owner.isBuoy then s.tndFault 2 c (tag >>> 24).toNat else (s.decrement c tag).2
    | none => (s.decrement c tag).2

/-- A decrement by an accepted mailbox message (R408, R410): only for a counter of the receiving function. -/
def State.decrementMbx (s : State) (receiver : Func) (c : Nat) (tag : DWord) : State :=
  if !s.tenderOn then s
  else
    match s.ctr c with
    | some x => if x.owner = receiver then (s.decrement c tag).2 else s.tndFault 2 c (tag >>> 24).toNat
    | none => (s.decrement c tag).2

/-- The epoch decrements of the tick that opens microframe `n` (R409); one that finds its counter at ZERO counts in TND_FAULT
(R407). -/
def State.epochAt (s : State) (n : DWord) : State :=
  let due := s.tnd.counters.filter (fun c =>
    c.2.epochEn && decide (c.2.state ≠ .poisoned) && n.toNat % 2 ^ c.2.epochExp == 0)
  if !s.tenderOn || decide (s.tnd.epochAt = some n) then s
  else due.foldl (fun s c => (s.decrement c.1 (0xE5000000 ||| (n &&& 0xFFFF))).2) (s.modTnd (fun t => { t with epochAt := some n }))

/-- The epoch decrements of the `n` counts that a tick passes, in count order, the count now reached last (R409). -/
def State.epochsAt (s : State) : Nat → State
  | 0 => s
  | n + 1 => (s.epochAt (s.bcn.count - BitVec.ofNat 32 n)).epochsAt n

/-- The report of an item's end (R415, FORM 0x02). -/
def State.reportItem (s : State) (i : Nat) (x : Item) (status : Nat) : State :=
  let k :=
    match x.keeper with
    | some k => k.val
    | none => 0xF
  s.postEvent x.owner x.evt
    (mkEvent (putField s.bcn.count.toNat 16 16) 0 0 0 (putField 2 24 8 ||| putField i 12 12 ||| putField k 8 4) x.tag
      0 0xFF status 0x04)

/-- The item leaves the Tender: FREE, unlisted and unlinked. -/
def State.freeItem (s : State) (i : Nat) : State :=
  let s1 := (s.unready i).unlink i
  s1.modTnd (fun t => { t with items := assocErase t.items i })

/-- One decrement of an item's SUCCESS end (R413). -/
def State.itemDec (s : State) (x : Item) (en lo : Nat) : State :=
  if bitOf x.dwords[3] en then (s.decrementBy x.owner (fieldNat x.dwords[3] lo 11) x.tag).2 else s

/-- An item ends with a status (R413): decrements on SUCCESS, the counts of TND_LOST and TND_WATCH, and the report when
REPORT is 1 or, outside a mass ending, the status is not SUCCESS. -/
def State.endItem (s : State) (i : Nat) (status : Status) (mass : Bool := false) : State :=
  match s.item i with
  | none => s
  | some x =>
    let s1 := s.freeItem i
    let s2 := if status = .success then (s1.itemDec x 31 16).itemDec x 15 0 else s1
    let s3 :=
      match status with
      | .keeperLost => s2.modTnd (fun t => { t with lost := t.lost.bump })
      | .watchExpired => s2.modTnd (fun t => { t with watch := t.watch.bump })
      | _ => s2
    if bitOf x.dwords[4] 27 || (decide (status ≠ .success) && !mass) then s3.reportItem i x status.code else s3

/-- An idle DMA slot. -/
def DmaSlot.idle (d : DmaSlot) : Bool := !d.busy

/-- The keeper's stores that have not left the store buffer become visible (R440, R444). -/
def State.drainStores (s : State) (k : Fin 12) : State :=
  let x := s.keeper k
  let s1 := x.storeBuf.foldl (fun s st => { s with hst := s.hst.writeWords st.1 [(st.2, false)] }) s
  s1.modKeeper k (fun x => { x with storeBuf := [] })

/-- Every DMA request that has not been issued is discarded (R440). -/
def Keeper.dropUnissued (x : Keeper) : Keeper :=
  { x with dma := x.dma.map (fun d => if d.busy && !d.issued then { d with busy := false } else d) }

/-- The keeper is free of its item or program: it is idle once all four DMA slots are idle (R440), and its staged word is
dropped (R124). -/
def State.releaseKeeper (s : State) (k : Fin 12) : State :=
  let x := (s.keeper k).dropUnissued
  let ready := x.dma.toList.all DmaSlot.idle
  let s1 := s.modKeeper k (fun _ =>
    { x with run := if ready then .idle else .settling, itemOwner := 0xFF, itemTag := 0, countHi := none, cycHi := none })
  let s2 := s1.modReq (.keeper k) (fun r => { r with stagedWord := none })
  if ready && !x.fenced then s2.modTnd (fun t => { t with idle := t.idle.filter (fun j => j != k) ++ [k] }) else s2

/-- The item a keeper runs ends with a status, its stores drained first (R440). -/
def State.endOnKeeper (s : State) (k : Fin 12) (status : Status) (mass : Bool := false) : State :=
  match (s.keeper k).run with
  | .item i => ((s.drainStores k).endItem i status mass).releaseKeeper k
  | _ => s

/-- Every live item ends KEEPER_LOST on entry to SAFE or UPDATE (R84, R417). -/
def State.loseAllItems (s : State) : State :=
  let s1 := (List.finRange 12).foldl (fun s k => s.endOnKeeper k .keeperLost true) s
  (s1.tnd.items.map Prod.fst).foldl (fun s i => s.endItem i .keeperLost true) s1

/-- The keeper code region holds an entry address (R403). -/
def inCode (a : DWord) : Bool := inRegion 0 a.toNat 1

/-- A descriptor's dwords 0 to 5 meet R403. -/
def descriptorOk (d : Vector DWord 6) : Bool :=
  fieldNat d[0] 24 8 == 0 && inCode d[0] && fieldNat d[3] 27 4 == 0 && fieldNat d[3] 11 4 == 0
    && (bitOf d[3] 31 || fieldNat d[3] 16 11 == 0) && (bitOf d[3] 15 || fieldNat d[3] 0 11 == 0)
    && (bitOf d[4] 31 || fieldNat d[4] 16 11 == 0) && fieldNat d[4] 0 12 != 0
    && decide (0x40 ≤ fieldNat d[5] 24 8) && decide (fieldNat d[5] 24 8 ≤ 0xDF)

/-- The counters a descriptor names. -/
def descriptorCounters (d : Vector DWord 6) : List Nat :=
  (if bitOf d[4] 31 then [fieldNat d[4] 16 11] else []) ++ (if bitOf d[3] 31 then [fieldNat d[3] 16 11] else [])
    ++ (if bitOf d[3] 15 then [fieldNat d[3] 0 11] else [])

/-- The lowest FREE item number (R404). -/
def State.freeItemNo (s : State) : Option Nat :=
  (List.range 4096).find? (fun i => (assocGet s.tnd.items i).isNone)

/-- What a post answers: its status, its OUTCOME and the item number (R421, Table 14.5). -/
structure PostAnswer where
  status : Status
  outcome : Nat := 0
  item : Nat := 0
deriving DecidableEq, Repr

/-- A new item's record is written (log 3). -/
def State.putItem (s : State) (i : Nat) (x : Item) : State :=
  (s.rewrite ((s.tnd.struckItem.filter (fun p => p.1 == i)).map Prod.snd)).modTnd (fun t =>
    { t with items := assocPut t.items i x, struckItem := t.struckItem.filter (fun p => p.1 != i) })

/-- A counter's record is written anew (log 3). -/
def State.renewCtr (s : State) (c : Nat) (x : Counter) : State :=
  ((s.rewrite ((s.tnd.struckCtr.filter (fun p => p.1 == c)).map Prod.snd)).modTnd (fun t =>
    { t with struckCtr := t.struckCtr.filter (fun p => p.1 != c) })).putCtr c x

/-- A post by an owner (R421): the checks of MALFORMED and NOT_OWNER, then the outcomes, then the item. -/
def State.postItem (s : State) (owner : Func) (d : Vector DWord 6) : PostAnswer × State :=
  if !descriptorOk d then ({ status := .malformed }, s)
  else if (descriptorCounters d).any (fun c => !s.mayDecrement owner c) then ({ status := .notOwner }, s)
  else
    match s.freeItemNo with
    | none => ({ status := .success, outcome := 1 }, s)
    | some i =>
      let x : Item := { dwords := d, owner := owner, state := .waiting }
      let badTrig : Bool :=
        match x.trig with
        | none => false
        | some c =>
          match s.ctr c with
          | none => true
          | some t => decide (t.state = .poisoned) || t.link.isSome
      if badTrig then ({ status := .success, outcome := 2 }, s)
      else if s.tnd.items.any (fun y => decide (y.2.owner = owner) && decide (y.2.tag = x.tag)) then
        ({ status := .success, outcome := 3 }, s)
      else
        let s1 := s.putItem i x
        let s2 : State :=
          match x.trig with
          | none => s1.makeReady i
          | some c =>
            match s.ctr c with
            | none => s1
            | some t =>
              let s3 := s1.putCtr c { t with link := some i }
              if t.state = .zero then s3.makeReady i else s3
        ({ status := .success, item := i }, s2)

/-- The idle keepers of an item, longest idle first (R411). -/
def State.idleFor (s : State) (x : Item) : Option (Fin 12) :=
  s.tnd.idle.find? (fun k => bitOf (s.effMask x) k.val && s.keeperOn k && decide ((s.keeper k).run = .idle))

/-- The first item of the ready lists that an idle keeper may run (R411). -/
def State.nextDispatch (s : State) : Option (Nat × Fin 12) :=
  ((List.finRange 4).flatMap (fun p => s.tnd.ready[p])).findSome? (fun i =>
    match s.item i with
    | some x => if s.itemFrozen x then none else (s.idleFor x).map (fun k => (i, k))
    | none => none)

/-- The state in which a keeper starts an item (R442): nothing of the last item's trap registers stays either (log 42). -/
def Keeper.dispatched (x : Keeper) (i : Nat) (it : Item) : Keeper :=
  let d := it.dwords
  { x with
    run := .item i
    pc := BitVec.ofNat 24 d[0].toNat
    h := #v[loHalf d[1], hiHalf d[1], loHalf d[2], hiHalf d[2]]
    g := Vector.replicate 8 0
    win := Vector.replicate 8 {}
    trapWin := Vector.replicate 12 0
    seg := #v[0x00, 0x80, 0xC0, 0x04]
    trapped := false
    trapCause := 0
    trapPc := 0
    trapAddr := 0
    active := 0
    held := 1
    parked := 0
    itemOwner := it.owner.code
    itemTag := it.tag
    countHi := none
    cycHi := none
    storeBuf := []
    dma := Vector.replicate 4 {} }

/-- An item goes to a keeper (R404, R411, R442). -/
def State.startItem (s : State) (i : Nat) (k : Fin 12) : State :=
  match s.item i with
  | none => s
  | some x =>
    let s1 := (s.unready i).modItem i (fun x =>
      { x with state := .running, keeper := some k, dispatched := s.bcn.count.setWidth 16, dispatchedAt := s.bcn.count })
    let s2 := s1.modTnd (fun t => { t with idle := t.idle.filter (fun j => j != k) })
    let s3 := s2.modReq (.keeper k) (fun r => { r with stagedWord := none })
    s3.modKeeper k (fun y => y.dispatched i x)

/-- Watch expiries of the tick that opens the microframe now counted (R414): an item dispatched in microframe D with WATCH
code w ends at the first tick whose count is at least D + w + 1. -/
def State.watchDue (s : State) (x : Item) : Bool :=
  decide (x.state = .running) && decide (fieldNat x.dwords[4] 12 2 + 1 ≤ (s.bcn.count - x.dispatchedAt).toNat)

/-- The watch of a keeper's item ends, if it is due. -/
def State.watchKeeper (s : State) (k : Fin 12) : State :=
  match (s.keeper k).run with
  | .item i =>
    match s.item i with
    | some x => if s.watchDue x then s.endOnKeeper k .watchExpired else s
    | none => s
  | _ => s

/-- A keeper is fenced (R416): KPR_FENCE_LAST, and the item it ran is replayed once or ends KEEPER_LOST. -/
def State.fence (s : State) (k : Fin 12) (cause : Nat) : State :=
  if (s.keeper k).fenced then s
  else
    let run := (s.keeper k).run
    let s1 := s.modKeeper k (fun x => { x with fenced := true })
    let s2 := s1.modTnd (fun t =>
      { t with fenceLast := putField cause 28 4 ||| putField k.val 24 4 ||| putField s.bcn.count.toNat 0 16,
               idle := t.idle.filter (fun j => j != k) })
    match run with
    | .item i =>
      match s2.item i with
      | some x =>
        if bitOf x.dwords[4] 30 && !x.replayed then
          let s3 := (s2.modItem i (fun x => { x with replayed := true })).makeReadyHead i
          (s3.modTnd (fun t => { t with replay := t.replay.bump })).releaseKeeper k
        else (s2.endItem i .keeperLost).releaseKeeper k
      | none => s2
    | .program _ => s2.modKeeper k (fun x => { x with run := .idle })
    | .halted _ => s2.modKeeper k (fun x => { x with run := .idle })
    | _ => s2

end Sys2Proof.Machine
end

