-- ==== Sys2Proof/Machine/Completion.lean ====
section
/-! DEFINITION. Transfer entries and their completion (chapter 8): the binding of a ring, the checks of R205, R231 and R245,
the completion event of R246, and the end of a transfer.
Choices: log 38. -/

namespace Sys2Proof.Machine

/-- BOUND of a binding. -/
def Ring.bound (r : Ring) : Bool := bitOf r.bind 31

/-- DEV of a binding. -/
def Ring.dev (r : Ring) : Nat := fieldNat r.bind 16 12

/-- EP of a binding. -/
def Ring.ep (r : Ring) : Nat := fieldNat r.bind 8 4

/-- DIR of a binding: true for IN. -/
def Ring.dirIn (r : Ring) : Bool := bitOf r.bind 7

/-- XTYPE of a binding: 0 control, 1 isochronous, 2 bulk, 3 interrupt. -/
def Ring.xtype (r : Ring) : Nat := fieldNat r.bind 4 2

/-- The Event Ring of a ring. -/
def Ring.evtNo (r : Ring) : Fin 4 := ⟨r.evt % 4, by omega⟩

/-- The device and endpoint record that a binding names, while they stand (R214, R286): the control record is that of DIR 0. -/
def State.boundEp (s : State) (r : Ring) : Option (DevRec × EpRec) :=
  if !r.bound || r.gone.isSome || (r.ep == 0 && r.dirIn) then none
  else
    match s.dev r.dev with
    | none => none
    | some d =>
      if s.devInst r.dev ≠ r.bindInst then none
      else
        match d.ep r.ep r.dirIn with
        | some e => if e.xtype = r.xtype then some (d, e) else none
        | none => none

/-- The endpoint record of a binding changed. -/
def State.modBoundEp (s : State) (r : Ring) (g : EpRec → EpRec) : State :=
  match s.boundEp r with
  | some (d, e) => s.putDev r.dev { d with eps := assocPut d.eps (epKey r.ep r.dirIn) (g e) }
  | none => s

/-- TYPE of an entry. -/
def etype (e : Entry) : Nat := fieldNat e[7] 8 8

/-- CHAIN of a transfer entry. -/
def echain (e : Entry) : Bool := bitOf e[7] 1

/-- ZLP of a transfer entry. -/
def ezlp (e : Entry) : Bool := bitOf e[7] 2

/-- ASAP of an ISOCH entry. -/
def easap (e : Entry) : Bool := bitOf e[7] 3

/-- DIR of a DATA entry. -/
def edir (e : Entry) : Bool := bitOf e[7] 16

/-- LEN of NORMAL and DATA. -/
def elen (e : Entry) : Nat := fieldNat e[2] 0 17

/-- Buffer address of an entry. -/
def eaddr (e : Entry) : QWord := ofDWords e[1] e[0]

/-- CTR of a transfer's first entry, where CTR_EN is 1. -/
def ectr (e : Entry) : Option Nat := if bitOf e[3] 31 then some (fieldNat e[3] 0 11) else none

/-- A Holding Store byte range lies inside the Bridge rings region (R394). -/
def inBridge (addr : QWord) (n : Nat) : Bool :=
  hiDWord addr == 0 && decide (2 * 0x0B8000 ≤ addr.toNat) && decide (addr.toNat + n ≤ 2 * (0x0B8000 + 131072))

/-- Reserved bits and ranges of one transfer entry (R205 items 1 to 3, Tables 8.2 to 8.6, R394 for the bridge host). -/
def entryOk (bridge : Bool) (e : Entry) : Bool :=
  let t := etype e
  let zero (i : Fin 8) : Bool := e[i] == 0
  let common := zero 6 && fieldNat e[3] 11 20 == 0 && (bitOf e[3] 31 || fieldNat e[3] 0 11 == 0) && fieldNat e[7] 17 15 == 0
    && fieldNat e[7] 4 4 == 0 && (t == 3 || !edir e) && (t == 5 || !easap e) && (t == 1 || t == 6 || !ezlp e)
  common &&
    match t with
    | 1 => fieldNat e[2] 17 15 == 0 && decide (elen e ≤ 0x10000) && zero 5 && (!bridge || inBridge (eaddr e) (elen e))
    | 2 =>
      zero 2 && zero 5 && !(fieldNat e[0] 0 8 == 0 && fieldNat e[0] 8 8 == 5)
    | 3 => fieldNat e[2] 17 15 == 0 && decide (elen e ≤ 0x10000) && zero 5 && (!bridge || inBridge (eaddr e) (elen e))
    | 4 => zero 0 && zero 1 && zero 2 && zero 5
    | 5 =>
      fieldNat e[2] 12 20 == 0 && decide (fieldNat e[2] 0 12 ≤ 3072) && fieldNat e[5] 16 16 == 0
        && (!easap e || fieldNat e[5] 0 16 == 0) && (!bridge || inBridge (eaddr e) (fieldNat e[2] 0 12))
    | 6 =>
      fieldNat e[0] 0 4 == 0 && fieldNat e[2] 7 25 == 0 && decide (1 ≤ fieldNat e[2] 0 7) && decide (fieldNat e[2] 0 7 ≤ 64)
        && zero 5 && (!bridge || inBridge (eaddr e) (16 * fieldNat e[2] 0 7))
    | 7 => zero 0 && zero 1 && zero 2 && zero 5 && (ectr e).isNone
    | 8 => zero 0 && zero 1 && zero 2 && zero 5 && (ectr e).isSome
    | _ => false

/-- The CHAIN rules of R226, R227, R228 and R230. -/
def chainOk (e : Entry) : Bool :=
  match etype e with
  | 2 => echain e
  | 4 => !echain e
  | 5 => !echain e
  | 7 => !echain e
  | 8 => !echain e
  | _ => true

/-- wLength of a SETUP entry. -/
def wLength (e : Entry) : Nat := fieldNat e[1] 16 16

/-- The first row of a control transfer's sequence (Table 8.7). -/
def controlSeq (es : List Entry) : Bool :=
  match es with
  | [a, b] => etype a == 2 && etype b == 4 && wLength a == 0
  | a :: b :: rest =>
    etype a == 2 && etype b == 3 && decide (0 < wLength a) && (edir b == bitOf a[0] 7)
      && rest.dropLast.all (fun e => etype e == 1 || etype e == 6)
      && (match rest.getLast? with
          | some e => etype e == 4
          | none => false)
      && (rest.any (fun e => etype e == 6)
          || ((b :: rest.dropLast).map elen).sum == wLength a)
  | _ => false

/-- The sequence of a bulk or interrupt transfer. -/
def streamSeq (es : List Entry) : Bool := !es.isEmpty && es.all (fun e => etype e == 1 || etype e == 6)

/-- The sequence of one isochronous interval. -/
def isochSeq (es : List Entry) : Bool := es.length == 1 && es.all (fun e => etype e == 5)

/-- A marker transfer. -/
def markerSeq (es : List Entry) : Bool := es.length == 1 && es.all (fun e => etype e == 7 || etype e == 8)

/-- The rules of R231 for the entries of one transfer on a ring. -/
def sequenceOk (r : Ring) (es : List Entry) : Bool :=
  let ctl := !r.bound || r.xtype == 0
  let stream := !r.bound || r.xtype == 2 || r.xtype == 3
  let iso := !r.bound || r.xtype == 1
  es.all chainOk
    && (match es.getLast? with
        | some e => !echain e
        | none => false)
    && es.tail.all (fun e => e[3] == 0 && e[4] == 0)
    && es.dropLast.all (fun e => !ezlp e)
    && (es.all (fun e => !ezlp e) || (stream && streamSeq es && (!r.bound || !r.dirIn)))
    && (markerSeq es || (ctl && controlSeq es) || (stream && streamSeq es) || (iso && isochSeq es))

/-- The entries of the transfer at the head of a ring, once every one of them is covered and held (R222). A chain that leads to a
poisoned entry never closes (chapter 8's corner). -/
def gather (r : Ring) (i : BitVec 16) : Nat → Option (List Staged)
  | 0 => some []
  | fuel + 1 =>
    if i = r.pi then none
    else
      match r.staged.find? (fun x => x.index == i) with
      | none => none
      | some x =>
        match x.entry with
        | none => if i = r.ci then some [x] else none
        | some e => if echain e && decide (fuel ≠ 0) then (gather r (i + 1) fuel).map (fun l => x :: l) else some [x]

/-- The transfer at the head of a ring (R222). -/
def Ring.head (r : Ring) : Option (List Staged) := if !r.opened then none else gather r r.ci 16

/-- The first TYPE of a transfer. -/
def headType (l : List Staged) : Option Nat :=
  match l with
  | x :: _ => x.entry.map etype
  | [] => none

/-- What a completion event reports of a transfer (Table 8.8). -/
structure Done where
  first : BitVec 16
  count : Nat
  user : DWord := 0
  dirIn : Bool := false
  status : Status
  sub : Nat := 0
  bytes : Nat := 0
  errs : Nat := 0
  psn : Bool := false
  frame : BitVec 16
  /-- The counter to decrement on SUCCESS or SHORT (R244). -/
  ctr : Option Nat := none
deriving DecidableEq, Repr

/-- The completion event of a transfer (Table 8.8). -/
def transferEvent (ring : Fin 65) (r : Ring) (c : Done) : EventEntry :=
  mkEvent (BitVec.ofNat 32 c.bytes) c.user
    (putField c.frame.toNat 16 16 ||| putField (min c.errs 0xFF) 8 8 ||| putField c.count 0 8)
    (putField (if r.bound then r.dev else 0) 20 12 ||| putField r.ep 16 4 ||| putBit c.dirIn 15 ||| putBit c.psn 14
      ||| putField r.xtype 12 2 ||| putField c.sub 8 4)
    (putField c.first.toNat 16 16) 0 (c.first + BitVec.ofNat 16 (c.count - 1)) ring.val c.status.code 0x01

/-- Tag of a transfer's decrement (R244). -/
def transferTag (f : Func) (ring : Fin 65) (c : Done) : DWord :=
  putField f.code 24 8 ||| putField ring.val 16 8 ||| (c.first + BitVec.ofNat 16 (c.count - 1)).setWidth 32

/-- The fairway counts of a completion (R301, R304). -/
def State.countFairway (s : State) (r : Ring) (st : Status) : State :=
  if !r.bound then s
  else
    match st with
    | .xactError => s.modFairway (handleFa r.dev) (fun x => { x with xerr := x.xerr.bump })
    | .splitError => s.modFairway (handleFa r.dev) (fun x => { x with split := x.split.bump })
    | .babble => s.modFairway (handleFa r.dev) (fun x => { x with babble := x.babble.bump })
    | _ => s

/-- A transfer's status is decided: the fairway's counts, the decrement of R244 and the completion event, which waits its turn where
it cannot be written now (R159, R218). -/
def State.complete (s : State) (f : Func) (ring : Fin 65) (c : Done) : State :=
  let r := s.ring f ring
  let s1 := s.countFairway r c.status
  let s2 :=
    match c.status, c.ctr with
    | .success, some k => (s1.decrementBy f k (transferTag f ring c)).2
    | .short, some k => (s1.decrementBy f k (transferTag f ring c)).2
    | _, _ => s1
  s2.postEvent f r.evtNo (transferEvent ring r c)

/-- The head entries of a ring are consumed: CI advances past them and their copies go (R197). -/
def State.consume (s : State) (f : Func) (ring : Fin 65) (n : Nat) : State :=
  s.modRing f ring (fun r =>
    { r with
      ci := r.ci + BitVec.ofNat 16 n
      lostTo :=
        match r.lostTo with
        | some m => if idxDist m r.ci ≤ n then none else some m
        | none => none
      staged := r.staged.filter (fun x => decide (n ≤ idxDist x.index r.ci)) })

/-- The direction a completion event reports: the data stage's for control, IN where there is none; else the binding's. DESIGN CHOICE
(log 38): a marker and a poisoned entry of a control ring report the binding's DIR, and entries with DATA or SETUP on a ring whose BOUND
is 0 report their own direction. -/
def eventDir (r : Ring) (es : List Entry) : Bool :=
  if r.bound && r.xtype != 0 then r.dirIn
  else
    match es.find? (fun e => etype e == 3) with
    | some e => edir e
    | none => if es.any (fun e => etype e == 2) then true else r.dirIn

/-- What a completion of the head transfer reports before any transaction (R245). -/
def headDone (r : Ring) (l : List Staged) (frame : BitVec 16) (st : Status) (sub : Nat) : Done :=
  let es := l.filterMap (fun x => x.entry)
  { first := r.ci, count := l.length, user := (es.head?.map (fun e => e[4])).getD 0, dirIn := eventDir r es
    status := st, sub := sub, frame := frame, ctr := (es.head?.map ectr).getD none }

/-- The modes in which rings work, SAFE with KEEPER_LOST (R83, R208): in RELIGHT and UPDATE entries are held. -/
def State.ringsAlive (s : State) : Bool :=
  match s.mode with
  | .standby | .lit | .bridge | .night | .shed | .safe => true
  | _ => false

/-- The device of a binding stands on a port that the ring's function owns (R19). -/
def State.ownsBound (s : State) (f : Func) (r : Ring) : Bool :=
  match s.boundEp r with
  | some (d, _) => decide (s.portOwner d.port = f)
  | none => false

/-- The Lamp attached to a ring: its fairway, number and record. -/
def State.lampOf (s : State) (f : Func) (ring : Fin 65) : Option (Fin 4 × Nat × Lamp) :=
  (List.finRange 4).findSome? (fun fa =>
    ((s.lamps fa).find? (fun x => decide (x.2.owner = f) && !x.2.held && x.2.ring == ring.val)).map (fun x => (fa, x.1, x.2)))

/-- The Light List of a fairway changed. -/
def State.modLamps (s : State) (fa : Fin 4) (g : List (Nat × Lamp) → List (Nat × Lamp)) : State :=
  { s with bcn := { s.bcn with lists := s.bcn.lists.set fa (g (s.lamps fa)) } }

/-- One Lamp changed. -/
def State.modLamp (s : State) (fa : Fin 4) (i : Nat) (g : Lamp → Lamp) : State :=
  s.modLamps fa (fun l => l.map (fun x => if x.1 = i then (x.1, g x.2) else x))

/-- The Lamp attached to a ring changed. -/
def State.modLampOf (s : State) (f : Func) (ring : Fin 65) (g : Lamp → Lamp) : State :=
  match s.lampOf f ring with
  | some (fa, i, _) => s.modLamp fa i g
  | none => s

/-- LEN of an ISOCH entry lies within the bytes per interval of the ring's Lamp, where it has one (R228). -/
def State.isochLenOk (s : State) (f : Func) (ring : Fin 65) (es : List Entry) : Bool :=
  match s.lampOf f ring with
  | none => true
  | some (_, _, x) => es.all (fun e => etype e != 5 || decide (fieldNat e[2] 0 12 ≤ x.mult * x.maxp))

/-- Items 1 to 6 of R245 on the transfer at the head of a ring: its status and SUB, or none when it may start; `target` says that its
TARGET breaks R228, which is judged in a due interval only. -/
def State.judge (s : State) (f : Func) (ring : Fin 65) (l : List Staged) (target : Bool := false) : Option (Status × Nat) :=
  let r := s.ring f ring
  let es := l.filterMap (fun x => x.entry)
  let marker := markerSeq es
  if l.any (fun x => x.entry.isNone) then some (.poisoned, 1)
  else if !es.all (entryOk (decide (f = .bridge))) || !sequenceOk r es || !s.isochLenOk f ring es || target then some (.malformed, 0)
  else
    let gone := !marker && r.bound && (s.boundEp r).isNone
    if s.mode = .safe && !gone then some (.keeperLost, 0)
    else if !marker && !r.bound then some (.ringUnbound, 0)
    else if gone then some (.gone, r.gone.getD 1)
    else if !marker && (r.lostTo.isSome || !s.ownsBound f r) then some (.notOwner, 0)
    else
      match (es.head?.map ectr).getD none with
      | some c => if s.mayDecrement f c then none else some (.notOwner, 0)
      | none => none

/-- An Event Ring of a function is full (R218). -/
def State.evtFull (s : State) (f : Func) (n : Fin 4) : Bool := (s.evRing f n).noRoom

/-- A parked REBIND keeps the entry at the head from starting (R215). -/
def Ring.atMark (r : Ring) : Bool :=
  match r.rebind with
  | some b => decide (r.ci = b.mark)
  | none => false

/-- Entries of a transfer ring may be started or completed now (R208, R215, R218, R482). -/
def State.ringRuns (s : State) (f : Func) (ring : Fin 65) : Bool :=
  let r := s.ring f ring
  s.ringsAlive && decide (ring.val ≠ 0) && r.opened && r.cur.isNone && r.parked.isNone && !s.isHeld f && !s.evtFull f r.evtNo && !r.atMark

/-- Completions of entries that a frozen Buoy's lost intervals have consumed are reported once it is thawed (R239, R485). -/
def State.flushUnserved (s : State) (f : Func) (ring : Fin 65) : State :=
  let r := s.ring f ring
  if r.unserved.isEmpty || s.isHeld f then s
  else
    r.unserved.foldl (fun s u =>
        s.complete f ring { first := u.index, count := u.count, user := u.user, dirIn := r.dirIn, status := u.status, sub := u.sub,
                            frame := u.frame })
      (s.modRing f ring (fun r => { r with unserved := [] }))

/-- Every ring of a function writes its consumed entries' completions. -/
def State.flushUnservedFn (s : State) (f : Func) : State :=
  (List.finRange 65).foldl (fun s i => if (s.ring f i).unserved.isEmpty then s else s.flushUnserved f i) s

/-- A started transfer ends with a status: its completion, and the ring is free for its next transfer. -/
def State.endTransfer (s : State) (f : Func) (ring : Fin 65) (st : Status) (sub : Nat) : State :=
  let r := s.ring f ring
  match r.cur with
  | none => s
  | some t =>
    let st' := match st with
      | .success => if t.psn then .poisoned else st
      | .short => if t.psn then .poisoned else st
      | _ => st
    let sub' := match st, t.psn with
      | .success, true => 2
      | .short, true => 2
      | _, _ => sub
    let s1 := s.modRing f ring (fun r => { r with cur := none })
    s1.complete f ring
      { first := t.first, count := t.entries.length, user := (t.entries.head?.map (fun e => e[4])).getD 0
        dirIn := eventDir r t.entries, status := st', sub := sub', bytes := t.moved, errs := t.errs, psn := t.psn
        frame := s.bcn.count.setWidth 16, ctr := (t.entries.head?.map ectr).getD none }

/-- The transfer at the head of a ring completes without starting. -/
def State.completeHead (s : State) (f : Func) (ring : Fin 65) (l : List Staged) (st : Status) (sub : Nat) : State :=
  let r := s.ring f ring
  (s.consume f ring l.length).complete f ring (headDone r l (s.bcn.count.setWidth 16) st sub)

/-- All function and ring pairs whose binding names a handle. -/
def State.ringsOn (s : State) (h : Nat) : List (Func × Fin 65) :=
  Func.all.flatMap (fun f =>
    ((List.finRange 65).filter (fun i => (s.ring f i).bound && (s.ring f i).dev == h && (s.ring f i).gone.isNone)).map (fun i => (f, i)))

/-- One ring of a device that leaves (R241): its started transfer ends GONE, at once or when its transaction leaves the bus. -/
def State.ringGone (s : State) (f : Func) (ring : Fin 65) (sub : Nat) : State :=
  let s1 := s.modRing f ring (fun r =>
    { r with gone := some sub, cur := r.cur.map (fun t => { t with goneSub := some sub }) })
  match (s1.ring f ring).cur with
  | some t => if t.onBus then s1 else s1.endTransfer f ring .gone sub
  | none => s1

/-- A device leaves (R287, R241): its address is freed, its record cleared and its rings told. -/
def State.leave (s : State) (h sub : Nat) : State :=
  match s.dev h with
  | none => s
  | some _ =>
    let inst := s.devInst h
    let rs := (s.ringsOn h).filter (fun x => (s.ring x.1 x.2).bindInst == inst)
    let s1 := s.dropDev h
    rs.foldl (fun s x => s.ringGone x.1 x.2 sub) s1

/-- The devices behind a hub, with the hub itself first; `fuel` bounds the depth of the tree. -/
def State.behind (s : State) (h : Nat) : Nat → List Nat
  | 0 => [h]
  | fuel + 1 =>
    let kids := ((s.fairway (handleFa h)).devs.filter (fun x => x.2.parent == h)).map (fun x => handleOf (handleFa h) x.1)
    h :: kids.flatMap (fun k => s.behind k fuel)

/-- A device and every device behind it leave (R287). -/
def State.release (s : State) (h sub : Nat) : State := (s.behind h 6).foldl (fun s k => s.leave k sub) s

/-- Every device on a root port leaves. -/
def State.releasePort (s : State) (n : Fin 16) (sub : Nat) : State := (s.devsOnPort n).foldl (fun s h => s.leave h sub) s

end Sys2Proof.Machine
end

