-- ==== Sys2Proof/Machine/Transfers.lean ====
section
/-! DEFINITION. Started transfers (chapter 8): buffers, packets, toggles, the end of each USB transaction, and the commands
TRANSFER_START, TRANSACTION_END, NOOP_DESCRIPTOR, WORK_POST and DATA_READ_COMPLETION for transfer data and LINK lists.
Choices: log 10, 13, 22, 38. -/

namespace Sys2Proof.Machine

/-- Total length of a transfer's buffers. -/
def Transfer.total (t : Transfer) : Nat := (t.bufs.map Prod.snd).sum

/-- The pieces of buffer memory that bytes `from` to `from + n - 1` of a byte stream occupy (R232). -/
def pieces (bufs : List (QWord × Nat)) (start n : Nat) : List (QWord × Nat) :=
  match bufs with
  | [] => []
  | (a, len) :: rest =>
    if len ≤ start then pieces rest (start - len) n
    else
      let here := min n (len - start)
      if here = 0 then [] else (a + BitVec.ofNat 64 start, here) :: pieces rest 0 (n - here)

/-- Bytes with the poison of the words, by number, that failed parity (R28). -/
def markBytes (bytes : List Byte) (bad : List Nat) : List (Byte × Bool) := bytes.zipIdx.map (fun p => (p.1, bad.contains (p.2 / 2)))

/-- Runs of bytes that are poisoned, or not, together: each goes in a write of its own (R240). -/
def poisonRuns : List (Byte × Bool) → List (List Byte × Bool)
  | [] => []
  | (b, p) :: rest =>
    match poisonRuns rest with
    | (l, q) :: more => if p = q then (b :: l, q) :: more else ([b], p) :: (l, q) :: more
    | [] => [([b], p)]

/-- Runs of bytes written one after another to a function's host memory. -/
def State.writeRuns (s : State) (f : Func) (a : QWord) : List (List Byte × Bool) → State
  | [] => s
  | (bs, p) :: rest => (s.writeData f a bs p).writeRuns f (a + BitVec.ofNat 64 bs.length) rest

/-- Bytes written to the pieces of a function's memory (R159): host memory, or the Holding Store for the bridge host (R394). -/
def State.writePieces (s : State) (f : Func) (ps : List (QWord × Nat)) (bytes : List (Byte × Bool)) : State :=
  match ps with
  | [] => s
  | (a, n) :: rest =>
    let here := bytes.take n
    let s1 : State :=
      match f with
      | .bridge => { s with hst := s.hst.writeBytes a.toNat here }
      | _ => s.writeRuns f a (poisonRuns here)
    s1.writePieces f rest (bytes.drop n)

/-- Bytes of a transfer's buffers read from the Holding Store (R394), with whether any is poisoned. -/
def State.readPieces (s : State) (src : Nat) (ps : List (QWord × Nat)) : List Byte × Bool × State :=
  match ps with
  | [] => ([], false, s)
  | (a, n) :: rest =>
    let r := s.hst.readBytes src a.toNat n
    let x := ({ s with hst := r.2 } : State).readPieces src rest
    (r.1.map Prod.fst ++ x.1, r.1.any Prod.snd || x.2.1, x.2.2)

/-- Buffers of leading entries that need no list, and the entries from the first LINK on. -/
def expand (es : List Entry) : List (QWord × Nat) × List Entry :=
  match es with
  | [] => ([], [])
  | e :: rest =>
    match etype e with
    | 6 => ([], e :: rest)
    | 1 => let x := expand rest; ((eaddr e, elen e) :: x.1, x.2)
    | 3 => let x := expand rest; ((eaddr e, elen e) :: x.1, x.2)
    | 5 => let x := expand rest; ((eaddr e, fieldNat e[2] 0 12) :: x.1, x.2)
    | _ => expand rest

/-- The elements of a LINK list, or none where one breaks R229. -/
def listElements (bridge : Bool) (bytes : List Byte) : Nat → Option (List (QWord × Nat))
  | 0 => some []
  | fuel + 1 =>
    let d (i : Nat) : DWord := dwordOfBytes ((bytes.drop (4 * i)).take 4)
    let len := fieldNat (d 2) 0 17
    let addr := ofDWords (d 1) (d 0)
    if fieldNat (d 2) 17 15 ≠ 0 ∨ d 3 ≠ 0 ∨ len = 0 ∨ 0x10000 < len ∨ (bridge = true ∧ inBridge addr len = false) then none
    else (listElements bridge (bytes.drop 16) fuel).map (fun l => (addr, len) :: l)

/-- The stage in which a transfer's transactions begin. -/
def firstStage (r : Ring) : Stage := if r.xtype = 0 then .setup else .data

/-- wLength of a control transfer equals its buffers (Table 8.7). -/
def lengthOk (r : Ring) (t : Transfer) : Bool :=
  r.xtype != 0 ||
    match t.entries with
    | e :: _ => wLength e == t.total
    | [] => true

/-- ZLP of a transfer: its last entry's. -/
def wantsZlp (es : List Entry) : Bool :=
  match es.getLast? with
  | some e => ezlp e
  | none => false

/-- Reads that the transfer in progress needs next go out on its function's behalf: its LINK list (R229), or the buffers of its next OUT
packet (R232); none while the function cannot master (R159). -/
def State.askData (s : State) (f : Func) (ring : Fin 65) : State :=
  let r := s.ring f ring
  match r.cur with
  | none => s
  | some t =>
    if t.asked || decide (f = .bridge) || !s.canMaster f || s.isFrozen f then s
    else
      let reads : List (QWord × Nat) :=
        match t.stage, t.todo, s.boundEp r with
        | .lists, x :: _, _ => [(eaddr x, 16 * fieldNat x[2] 0 7)]
        | .data, _, some (_, ep) =>
          if (if r.xtype = 0 then eventDir r t.entries else r.dirIn) || t.outData.isSome then []
          else pieces t.bufs t.moved (min ep.maxp (t.total - t.moved))
        | _, _, _ => []
      if reads.isEmpty then s
      else
        (reads.foldl (fun s x => (s.wakeFn f).emit (.dataRead f x.1 x.2)) s).modRing f ring (fun r =>
          { r with cur := r.cur.map (fun t => { t with asked := true }) })

/-- A transfer whose buffers are all known begins its first stage; a wrong total is malformed (R231). -/
def State.beginStages (s : State) (f : Func) (ring : Fin 65) (maxp : Nat) : State :=
  let r := s.ring f ring
  match r.cur with
  | none => s
  | some t =>
    if !t.todo.isEmpty then s.askData f ring
    else if !lengthOk r t then s.endTransfer f ring .malformed 0
    else
      let zlp := wantsZlp t.entries && decide (t.total ≠ 0) && decide (t.total % maxp = 0)
      let stage := t.resume.getD (firstStage r)
      let short := t.shortSeen || (decide (t.resume = some .status) && decide (t.moved < t.total))
      (s.modRing f ring (fun r =>
        { r with cur := some { t with stage := stage, zlp := zlp, shortSeen := short, resume := none } })).askData f ring

/-- The bridge host's LINK lists are read from the Holding Store as the transfer starts; `fuel` bounds the lists. -/
def State.bridgeLists (s : State) (ring : Fin 65) : Nat → State
  | 0 => s
  | fuel + 1 =>
    match (s.ring .bridge ring).cur with
    | none => s
    | some t =>
      match t.todo with
      | [] => s
      | e :: rest =>
        let n := fieldNat e[2] 0 7
        let x := s.readPieces 0x14 [(eaddr e, 16 * n)]
        if x.2.1 then x.2.2.endTransfer .bridge ring .poisoned 4
        else
          match listElements true x.1 n with
          | none => x.2.2.endTransfer .bridge ring .malformed 0
          | some l =>
            let y := expand rest
            (x.2.2.modRing .bridge ring (fun r =>
              { r with cur := some { t with bufs := t.bufs ++ l ++ y.1, todo := y.2 } })).bridgeLists ring fuel

/-- The pushed copies among some staged ones. -/
def pushedOf (l : List Staged) : List (BitVec 16 × Entry) :=
  l.filterMap (fun x => if x.kind = .pushed then x.entry.map (fun e => (x.index, e)) else none)

/-- The transfer at the head of a ring starts: its entries are consumed together (R222, R229). -/
def State.startTransfer (s : State) (f : Func) (ring : Fin 65) (l : List Staged) (maxp : Nat) : State :=
  let r := s.ring f ring
  let es := l.filterMap (fun x => x.entry)
  let x := expand es
  let t : Transfer :=
    { first := r.ci, entries := es, stage := .lists, bufs := x.1, todo := x.2, pushed := pushedOf l }
  let s1 := (s.consume f ring l.length).modRing f ring (fun r => { r with cur := some t })
  let s2 :=
    match f with
    | .bridge => s1.bridgeLists ring 16
    | _ => s1
  s2.beginStages f ring maxp

/-- The port of a bound device carries transactions: enabled on a fairway that runs (R254, R297). -/
def State.portCarries (s : State) (n : Fin 16) : Bool := s.portSofs n && decide ((s.port n).state = .enabled)

/-- Another ring has a transfer in progress, as `busy` says, on the same endpoint (R268). -/
def State.endpointHeld (s : State) (f : Func) (ring : Fin 65) (busy : Ring → Bool) : Bool :=
  let r := s.ring f ring
  (s.ringsOn r.dev).any (fun x =>
    !(decide (x.1 = f) && decide (x.2 = ring)) &&
      (let q := s.ring x.1 x.2
       busy q && epKey q.ep q.dirIn == epKey r.ep r.dirIn))

/-- Another ring has a transfer in progress on the same endpoint, one that a restore has yet to go on with included (R268, R483). -/
def State.endpointBusy (s : State) (f : Func) (ring : Fin 65) : Bool :=
  s.endpointHeld f ring (fun q => q.cur.isSome || q.parked.isSome)

/-- The held copies of a parked transfer's entries, once every one of them is held. -/
def Ring.parkedEntries (r : Ring) (p : Parked) : Option (List Staged) :=
  (List.range p.count).mapM (fun i => r.staged.find? (fun x => x.index == p.first + BitVec.ofNat 16 i))

/-- A parked transfer ends without going on (R241, R245, R499); USER is free where its first entry is not held. -/
def State.endParked (s : State) (f : Func) (ring : Fin 65) (p : Parked) (st : Status) (sub : Nat) : State :=
  let r := s.ring f ring
  let l := ((List.range p.count).filterMap (fun i => r.staged.find? (fun x => x.index == p.first + BitVec.ofNat 16 i)))
  let es := l.filterMap (fun x => x.entry)
  let v := s.freeDWord
  let user :=
    match es with
    | e :: _ => if l.any (fun x => x.index == p.first) then e[4] else v.1
    | [] => v.1
  let s1 := v.2.modRing f ring (fun r =>
    { r with parked := none, staged := r.staged.filter (fun x => decide (p.count ≤ idxDist x.index p.first)) })
  s1.complete f ring
    { first := p.first, count := p.count, user := user, dirIn := eventDir r es, status := st, sub := sub, bytes := p.moved
      errs := p.errs, frame := s.bcn.count.setWidth 16 }

/-- A parked transfer goes on with its next transaction once its entries are held, or ends as R245 decides (R483, R498, R499). -/
def State.resumeParked (s : State) (f : Func) (ring : Fin 65) : State :=
  let r := s.ring f ring
  match r.parked with
  | none => s
  | some p =>
    if !s.ringsAlive || !r.opened || r.cur.isSome || s.isHeld f || s.evtFull f r.evtNo then s
    else if (s.boundEp r).isNone then s.endParked f ring p .gone (r.gone.getD 1)
    else if s.mode = .safe then s.endParked f ring p .keeperLost 0
    else if !s.ownsBound f r then s.endParked f ring p .notOwner 0
    else if s.endpointHeld f ring (fun q => q.cur.isSome) then s
    else
      match r.parkedEntries p with
      | none => s
      | some l =>
        if l.any (fun x => x.entry.isNone) then s.endParked f ring p .poisoned 1
        else
          let es := l.filterMap (fun x => x.entry)
          let x := expand es
          let t : Transfer :=
            { first := p.first, entries := es, stage := .lists, bufs := x.1, todo := x.2, moved := p.moved, errs := p.errs
              pushed := pushedOf l, resume := some p.stage }
          let s1 := s.modRing f ring (fun r =>
            { r with parked := none, cur := some t
                     staged := r.staged.filter (fun x => decide (p.count ≤ idxDist x.index p.first)) })
          s1.beginStages f ring (match s.boundEp r with
            | some (_, e) => e.maxp
            | none => 1)

/-- TRANSFER_START's effect: the head transfer of a ring completes by items 1 to 6 of R245, or starts. What needs the bus on a periodic
ring starts in the walk, when its Lamp is due (R214, R238). -/
def State.transferStart (s : State) (f : Func) (ring : Fin 65) : State :=
  let s := (s.flushUnserved f ring).resumeParked f ring
  if !s.ringRuns f ring then s
  else
    match (s.ring f ring).head with
    | none => s
    | some l =>
      let es := l.filterMap (fun x => x.entry)
      if markerSeq es && es.all (entryOk (decide (f = .bridge))) then s
      else
        match s.judge f ring l with
        | some (st, sub) => s.completeHead f ring l st sub
        | none =>
          match s.boundEp (s.ring f ring) with
          | none => s
          | some (d, e) =>
            if (s.ring f ring).xtype % 2 = 1 ∨ !s.canMaster f ∨ !s.portCarries d.port ∨ s.endpointBusy f ring then s
            else s.startTransfer f ring l e.maxp

/-- A marker at the head of a ring completes SUCCESS (R230); WORK_POST decrements its counter. -/
def State.marker (s : State) (f : Func) (ring : Fin 65) (ty : Nat) : State :=
  let s := s.flushUnserved f ring
  if !s.ringRuns f ring then s
  else
    match (s.ring f ring).head with
    | none => s
    | some l =>
      if headType l ≠ some ty then s
      else
        match s.judge f ring l with
        | some (st, sub) => s.completeHead f ring l st sub
        | none => s.completeHead f ring l .success 0

/-- The direction of the transaction a transfer has next: true for IN. -/
def Transfer.tokenIn (t : Transfer) (r : Ring) : Bool :=
  match t.stage with
  | .setup => false
  | .status => !eventDir r t.entries || !(t.entries.any (fun e => etype e == 3))
  | _ => if r.xtype = 0 then eventDir r t.entries else r.dirIn

/-- Length of the next data packet to send. -/
def Transfer.packetLen (t : Transfer) (maxp : Nat) : Nat := min maxp (t.total - t.moved)

/-- The eight bytes of a SETUP. -/
def setupBytes (t : Transfer) : List Byte :=
  match t.entries with
  | e :: _ => bytesOfDWord e[0] ++ bytesOfDWord e[1]
  | [] => []

/-- The device lies behind a transaction translator (R291). -/
def DevRec.isSplit (d : DevRec) : Bool := d.ttHub != 0

/-- What a transaction needs of its device while it is on the bus. -/
def seatOf (d : DevRec) (e : EpRec) : Seat :=
  { split := d.isSplit, root := if d.depth = 0 then some d.port else none, high := decide (d.speed = .high), ep := e }

/-- The present transfer of a ring changed. -/
def State.modCur (s : State) (f : Func) (ring : Fin 65) (g : Transfer → Transfer) : State :=
  s.modRing f ring (fun r => { r with cur := r.cur.map g })

/-- A transaction of a ring goes onto the bus. -/
def State.onBus (s : State) (f : Func) (ring : Fin 65) (q : Seat) (o : Output) : State :=
  (s.emit o).modCur f ring (fun t => { t with onBus := true, seat := q })

/-- A transaction of a ring goes out: to a device behind a translator as a start-split, which has a handshake of its own for bulk and
control only (R291, R295). -/
def State.token (s : State) (f : Func) (ring : Fin 65) (q : Seat) (o : Output) : State :=
  if !q.split then s.onBus f ring q o
  else
    let s1 := s.emit (.startSplit f ring.val)
    if (s.ring f ring).xtype % 2 = 1 then (s1.emit o).modCur f ring (fun t => { t with split := true, seat := q })
    else s1.onBus f ring q o

/-- Toggles that a successful standard request resets (R233). -/
def resetToggles (d : DevRec) (e : Entry) : DevRec :=
  let kind := fieldNat e[0] 0 8
  let req := fieldNat e[0] 8 8
  let value := fieldNat e[0] 16 16
  let index := fieldNat e[1] 0 16
  let off (p : Nat × EpRec) : Nat × EpRec := (p.1, { p.2 with toggle := false })
  if kind = 0x02 ∧ req = 0x01 ∧ value = 0 then
    { d with eps := d.eps.map (fun p => if p.1 / 2 = index % 16 then off p else p) }
  else if kind = 0x00 ∧ req = 0x09 then { d with eps := d.eps.map off }
  else if kind = 0x01 ∧ req = 0x0B then
    { d with eps := d.eps.map (fun p => if p.1 ≠ 0 ∧ p.2.intf = index % 256 then off p else p) }
  else d

/-- The transfer succeeds or ends short, with what a standard request's success does to the toggles. -/
def State.succeed (s : State) (f : Func) (ring : Fin 65) (short : Bool) : State :=
  let r := s.ring f ring
  let s1 :=
    match r.cur, s.boundEp r with
    | some t, some (d, _) =>
      match t.entries with
      | e :: _ => if r.xtype = 0 ∧ !short ∧ !t.psn then s.putDev r.dev (resetToggles d e) else s
      | [] => s
    | _, _ => s
  s1.endTransfer f ring (if short then .short else .success) 0

/-- One start-split of an isochronous OUT interval with its chunk (R292); the last of them ends the interval (R237). -/
def State.sendChunk (s : State) (f : Func) (ring : Fin 65) (t : Transfer) (q : Seat) (bytes : List Byte) : State :=
  let n := min 188 (min q.ep.maxp t.total - t.moved)
  let s1 := ((s.emit (.startSplit f ring.val)).emit (.usbOut f ring.val false false (bytes.take n))).modCur f ring (fun t =>
    { t with split := true, seat := q, moved := t.moved + n, outData := t.outData.map (fun x => (x.1.drop n, x.2)) })
  if min q.ep.maxp t.total ≤ t.moved + n then s1.succeed f ring false else s1

/-- Data of the next OUT packet: for the bridge host read from the Holding Store now (R394), for others what has been read; with
whether a word of it fails parity. -/
def State.outBytes (s : State) (f : Func) (t : Transfer) (n : Nat) : Option (List Byte × Bool) × State :=
  match f with
  | .bridge =>
    let x := s.readPieces 0x14 (pieces t.bufs t.moved n)
    (some (x.1, x.2.1), x.2.2)
  | _ => (if n = 0 then some ([], false) else t.outData, s)

/-- One transaction of a started transfer is issued, if it has what it needs (R232, R233, R240). -/
def State.issue (s : State) (f : Func) (ring : Fin 65) : State :=
  let r := s.ring f ring
  match r.cur, s.boundEp r with
  | some t, some (d, e) =>
    let q := seatOf d e
    if t.onBus then s
    else if q.split && t.split && !(r.xtype == 1 && !t.tokenIn r) then s.onBus f ring q (.completeSplit f ring.val)
    else
      match t.stage with
      | .lists => s
      | .setup => s.token f ring q (.usbOut f ring.val true false (setupBytes t))
      | .status =>
        if t.tokenIn r then s.token f ring q (.usbIn f ring.val)
        else if e.ping && decide (d.speed = .high) then s.onBus f ring q (.usbPing f ring.val)
        else s.token f ring q (.usbOut f ring.val false true [])
      | .data =>
        if t.tokenIn r then s.token f ring q (.usbIn f ring.val)
        else if e.ping && decide (d.speed = .high) then s.onBus f ring q (.usbPing f ring.val)
        else
          match s.outBytes f t (t.packetLen e.maxp) with
          | (none, s1) => s1
          | (some (_, true), s1) => s1.endTransfer f ring .poisoned 3
          | (some (bs, false), s1) =>
            if q.split && r.xtype == 1 then s1.sendChunk f ring t q bs
            else s1.token f ring q (.usbOut f ring.val false e.toggle bs)
  | _, _ => s

/-- A transfer has a transaction it could issue now. -/
def State.canIssue (s : State) (f : Func) (ring : Fin 65) : Bool :=
  let r := s.ring f ring
  match r.cur, s.boundEp r with
  | some t, some (_, e) =>
    !t.onBus &&
      (match t.stage with
       | .lists => false
       | .data => t.split || t.tokenIn r || decide (f = .bridge) || t.packetLen e.maxp == 0 || t.outData.isSome
       | _ => true)
  | _, _ => false

/-- A control transfer moves to its status stage, which uses DATA1 (R233). -/
def State.toStatus (s : State) (f : Func) (ring : Fin 65) (short : Bool) : State :=
  (s.modBoundEp (s.ring f ring) (fun e => { e with toggle := true })).modCur f ring (fun t =>
    { t with stage := .status, shortSeen := short, outData := none })

/-- The data stage has moved all it will. -/
def State.dataEnds (s : State) (f : Func) (ring : Fin 65) (short : Bool) : State :=
  if (s.ring f ring).xtype = 0 then s.toStatus f ring short else s.succeed f ring short

/-- A device that has left or an owner that has changed ends the transfer now that its transaction has left the bus (R241,
R242). -/
def State.endIfDue (s : State) (f : Func) (ring : Fin 65) : State :=
  match (s.ring f ring).cur with
  | none => s
  | some t =>
    match t.goneSub with
    | some sub => s.endTransfer f ring .gone sub
    | none => if t.disowned then s.endTransfer f ring .notOwner 0 else s

/-- The Lamp of a ring has used a transaction of its interval, or all of them (R232, R257). -/
def State.spendLamp (s : State) (f : Func) (ring : Fin 65) (all : Bool) : State :=
  s.modLampOf f ring (fun x => { x with left := if all then 0 else x.left - 1 })

/-- Transactions still reserved in the interval of a ring's Lamp. -/
def State.lampLeft (s : State) (f : Func) (ring : Fin 65) : Nat :=
  match s.lampOf f ring with
  | some (_, _, x) => x.left
  | none => 0

/-- Bytes of an IN packet that fit the remaining buffers are written, the words that failed parity poisoned (R235, R240). -/
def State.landIn (s : State) (f : Func) (ring : Fin 65) (t : Transfer) (bytes : List Byte) (bad : List Nat) : State :=
  let fit := (markBytes bytes bad).take (t.total - t.moved)
  (s.writePieces f (pieces t.bufs t.moved fit.length) fit).modCur f ring (fun t =>
    { t with moved := t.moved + fit.length, consec := 0, psn := t.psn || fit.any Prod.snd })

/-- An IN packet is accepted: acknowledged and its toggle advanced, but for an isochronous one (R233). -/
def State.acceptIn (s : State) (f : Func) (ring : Fin 65) : State :=
  let r := s.ring f ring
  if r.xtype = 1 then s else (s.emit (.usbAck f ring.val)).modBoundEp r (fun e => { e with toggle := !e.toggle })

/-- An OUT packet of the data stage has been accepted (R232, R233). -/
def State.landOut (s : State) (f : Func) (ring : Fin 65) (t : Transfer) (e : EpRec) (nyet : Bool) : State :=
  let r := s.ring f ring
  let s1 := s.modCur f ring (fun t' =>
    { t' with moved := t.moved + t.packetLen e.maxp, consec := 0, outData := none, asked := false
              zlp := t.zlp && decide (t.moved ≠ t.total) })
  if r.xtype = 1 then s1 else s1.modBoundEp r (fun e => { e with toggle := !e.toggle, ping := nyet })

/-- A data packet has arrived (R232, R233, R235, R240). -/
def State.dataIn (s : State) (f : Func) (ring : Fin 65) (t : Transfer) (e : EpRec) (bytes : List Byte) (toggle : Bool) (bad : List Nat) :
    State :=
  let iso := (s.ring f ring).xtype == 1
  if !iso && (toggle != e.toggle) then (s.emit (.usbAck f ring.val)).modCur f ring (fun t => { t with consec := 0 })
  else if t.stage = .status then
    (if bytes.isEmpty then (s.acceptIn f ring).succeed f ring t.shortSeen else s.endTransfer f ring .babble 1)
  else
    let room := t.total - t.moved
    let s1 := s.landIn f ring t bytes bad
    if e.maxp < bytes.length ∨ room < bytes.length then s1.endTransfer f ring .babble 1
    else
      let s2 := s1.acceptIn f ring
      let moved := t.moved + bytes.length
      let short := decide (bytes.length < e.maxp)
      let s3 := s2.spendLamp f ring short
      if moved = t.total then s3.dataEnds f ring false
      else if short then s3.dataEnds f ring true
      else if iso && decide (s3.lampLeft f ring = 0) then s3.dataEnds f ring true
      else s3

/-- A packet the device sent has been accepted (R232, R233). -/
def State.dataOut (s : State) (f : Func) (ring : Fin 65) (t : Transfer) (e : EpRec) (nyet : Bool) : State :=
  let r := s.ring f ring
  match t.stage with
  | .setup =>
    let s1 := s.modBoundEp r (fun e => { e with toggle := true })
    let hasData := t.entries.any (fun e => etype e == 3)
    (s1.modCur f ring (fun t => { t with stage := if hasData then .data else .status, consec := 0 })).askData f ring
  | .status => s.succeed f ring t.shortSeen
  | .lists => s
  | .data =>
    let n := t.packetLen e.maxp
    let moved := t.moved + n
    let s1 := (s.landOut f ring t e nyet).spendLamp f ring (decide (n < e.maxp))
    if moved < t.total then
      (if r.xtype = 1 ∧ s1.lampLeft f ring = 0 then s1.dataEnds f ring false else s1.askData f ring)
    else if t.zlp && decide (t.moved ≠ t.total) then s1
    else s1.dataEnds f ring false

/-- An error of a transaction: the third in a row ends the transfer, and in an isochronous interval the first does (R234, R237). One
count serves transaction errors and split errors alike: DESIGN CHOICE (log 38). No periodic transaction is tried again within the
interval (R257). -/
def State.xactError (s : State) (f : Func) (ring : Fin 65) (t : Transfer) (st : Status) (sub : Nat) : State :=
  if (s.ring f ring).xtype = 1 ∨ 2 ≤ t.consec then s.endTransfer f ring st sub
  else (s.modCur f ring (fun t => { t with consec := t.consec + 1, errs := t.errs + 1 })).spendLamp f ring true

/-- A NAK: the transaction is tried again later; the consecutive errors stand (R234). -/
def State.nakked (s : State) (f : Func) (ring : Fin 65) : State := s.spendLamp f ring true

/-- What the last transaction of a transfer has moved, once its device has left or its owner has changed (R241, R242). -/
def State.lastMoves (s : State) (f : Func) (ring : Fin 65) (t : Transfer) (q : Seat) (e : UsbEnd) : State :=
  let r := s.ring f ring
  if t.stage ≠ .data then s
  else
    match e with
    | .data bytes toggle bad =>
      if !t.tokenIn r then s
      else if r.xtype = 1 ∨ toggle = q.ep.toggle then (s.landIn f ring t bytes bad).acceptIn f ring
      else s.emit (.usbAck f ring.val)
    | .ack => if t.tokenIn r || (q.ep.ping && q.high) || (q.split && !t.split) then s else s.landOut f ring t q.ep false
    | .nyet => if t.tokenIn r || (q.ep.ping && q.high) || q.split then s else s.landOut f ring t q.ep true
    | _ => s

/-- A NYET to a complete-split: tried again at the next visit or at the next offset of the Lamp's footprint; after the last of them an
interrupt IN split has exhausted its window (R237, R292, R295), and any other waits for its next interval. -/
def State.splitNyet (s : State) (f : Func) (ring : Fin 65) (t : Transfer) : State :=
  match s.lampOf f ring with
  | none => s.modCur f ring (fun t => { t with split := true })
  | some (fa, i, x) =>
    if x.offsetAt s.bcn.count.toNat < x.lastOffset then
      (s.modCur f ring (fun t => { t with split := true })).modLamp fa i (fun x => { x with run := .later })
    else if x.dirIn && !x.iso then s.xactError f ring t .splitError 3
    else s.nakked f ring

/-- The transaction on the bus has ended, and the transfer goes on or ends (R234 to R237). -/
def State.transactionMoves (s : State) (f : Func) (ring : Fin 65) (t : Transfer) (q : Seat) (e : UsbEnd) : State :=
  let r := s.ring f ring
  let pinged := !t.tokenIn r && q.ep.ping && decide (t.stage ≠ .setup) && q.high
  let unexpected := s.xactError f ring t .xactError 4
  match e with
  | .data bytes toggle bad =>
    if !t.tokenIn r then unexpected
    else if q.split && r.xtype == 1 && toggle then (s.landIn f ring t bytes bad).splitNyet f ring t
    else s.dataIn f ring t q.ep bytes toggle bad
  | .ack =>
    if q.split && !t.split then s.modCur f ring (fun t => { t with split := true })
    else if pinged then (s.modBoundEp r (fun x => { x with ping := false })).modCur f ring (fun t => { t with consec := 0 })
    else if t.tokenIn r then unexpected
    else s.dataOut f ring t q.ep false
  | .nyet =>
    if q.split then s.splitNyet f ring t
    else if t.tokenIn r || pinged || decide (t.stage = Stage.setup) || !q.high || r.xtype % 2 == 1 then unexpected
    else s.dataOut f ring t q.ep true
  | .nak => if r.xtype = 1 then unexpected else s.nakked f ring
  | .stall => s.endTransfer f ring .stall 0
  | .error k => s.xactError f ring t .xactError (k.val + 1)
  | .splitErr k => s.xactError f ring t .splitError (k.val + 1)

/-- The orphan whose ring a transaction belonged to. -/
def Orphan.isOf (x : Orphan) (f : Func) (ring : Fin 65) : Bool := decide (x.fn = f) && decide (x.ring = ring)

/-- TRANSACTION_END's effect on the transfer whose transaction is on the bus (R234 to R237, R241, R242); one that a function-level
reset has left behind ends with its data discarded (R216). -/
def State.transactionEnd (s : State) (f : Func) (ring : Fin 65) (e : UsbEnd) : State :=
  let r := s.ring f ring
  if s.bcn.orphans.any (fun x => x.isOf f ring) then
    { s with bcn := { s.bcn with orphans := s.bcn.orphans.filter (fun x => !x.isOf f ring) } }
  else
    match r.cur with
    | none => s
    | some t =>
      if !t.onBus then s
      else
        let s1 := s.modCur f ring (fun t => { t with onBus := false, split := false })
        let q : Seat :=
          match s.boundEp r with
          | some (d, ep) => seatOf d ep
          | none => t.seat
        if t.goneSub.isSome || t.disowned then (s1.lastMoves f ring t q e).endIfDue f ring
        else s1.transactionMoves f ring t q e

/-- A failed read that the device issued counts at the link of its function (R163): kind 1 to 3 as read, 4 for poisoned. A completion
timeout and a poisoned completion are errors of the link too. -/
def State.readFault (s : State) (l : Link) (code kind : Nat) (addr : QWord) : State :=
  let s1 := s.modLink l (fun x =>
    { x with
      dmaFault := x.dmaFault.bump
      faultLast := putField code 24 8 ||| putField kind 20 4
      faultAddr := addr })
  if kind = 1 then s1.linkError l .completionTimeout else if kind = 4 then s1.linkError l .poisonedTlp else s1

/-- A failed read counts for a function that stands on a link. -/
def State.fnReadFault (s : State) (f : Func) (kind : Nat) (addr : QWord) : State :=
  match s.linkOf f with
  | some l => s.readFault l f.code kind addr
  | none => s

/-- The transfer in progress on a ring has a read out that a completion may answer (R159, R163). -/
def State.awaits (s : State) (f : Func) (t : Transfer) (stage : Stage) : Bool :=
  t.asked && decide (t.stage = stage) && decide (f ≠ .bridge) && s.canMaster f

/-- OUT data of the next packet has been read, or its read failed (R163, R240, R243). -/
def State.outDataRead (s : State) (f : Func) (ring : Fin 65) (e : ReadEnd) : State :=
  let r := s.ring f ring
  match r.cur, s.boundEp r with
  | some t, some (_, ep) =>
    let n := t.packetLen ep.maxp
    if !s.awaits f t .data || t.outData.isSome then s
    else
      let addr := ((pieces t.bufs t.moved n).head?.map Prod.fst).getD 0
      match e with
      | .data bytes bad =>
        let x := (markBytes (bytes ++ List.replicate n 0) bad).take n
        s.modCur f ring (fun t => { t with outData := some (x.map Prod.fst, x.any Prod.snd) })
      | .poisoned => (s.fnReadFault f 4 addr).endTransfer f ring .poisoned 3
      | .failed k => (s.fnReadFault f (k % 3 + 1) addr).endTransfer f ring .dmaError (k % 3 + 1)
  | _, _ => s

/-- A LINK list has been read, or its read failed (R229, R240, R243). -/
def State.listRead (s : State) (f : Func) (ring : Fin 65) (e : ReadEnd) : State :=
  let r := s.ring f ring
  match r.cur, s.boundEp r with
  | some t, some (_, ep) =>
    if !s.awaits f t .lists then s
    else
      match t.todo with
      | [] => s
      | x :: rest =>
        let n := fieldNat x[2] 0 7
        match e with
        | .data bytes bad =>
          if bad.any (fun i => decide (i < 8 * n)) then s.endTransfer f ring .poisoned 4
          else
            match listElements false bytes n with
            | none => s.endTransfer f ring .malformed 0
            | some l =>
              let y := expand rest
              (s.modCur f ring (fun t => { t with bufs := t.bufs ++ l ++ y.1, todo := y.2, asked := false })).beginStages f ring ep.maxp
        | .poisoned => (s.fnReadFault f 4 (eaddr x)).endTransfer f ring .poisoned 4
        | .failed k => (s.fnReadFault f (k % 3 + 1) (eaddr x)).endTransfer f ring .dmaError (k % 3 + 1)
  | _, _ => s

/-- The started transfers of a function end KEEPER_LOST at the tick at which SAFE stops tokens, those for a device that has left GONE
(R83, R241, R245). -/
def State.loseTransfers (s : State) (f : Func) : State :=
  (List.finRange 65).foldl (fun s i =>
    match (s.ring f i).cur with
    | none => s
    | some t =>
      match t.goneSub with
      | some sub => s.endTransfer f i .gone sub
      | none => s.endTransfer f i .keeperLost 0) s

end Sys2Proof.Machine
end

