-- ==== Sys2Proof/Machine/Access.lean ====
section
/-! DEFINITION. How a register write reaches the register file (chapter 5): whether its path is open, refused writes (R147),
the Keyhole (R135 to R138) and the shadow slot (R128).
Choices: log 15, 16, 28, 61. -/

namespace Sys2Proof.Machine

/-- A link answers memory requests: it is up, and enumeration has been possible (R151). -/
def State.linkOpen (s : State) (l : Link) : Bool := (s.link l).up && (s.mode ≠ .kindle || s.boot.fault)

/-- Keeper firmware is running on a keeper: an item or a program. The boot ROM on KPR0 is a requester of its own (R117). -/
def Keeper.active? (x : Keeper) : Bool :=
  !x.fenced &&
    match x.run with
    | .item _ => true
    | .program _ => true
    | _ => false

/-- The memory space of a path's function is enabled and the function is in D0 (R151, as PCI Express defines). -/
def State.spaceOpen (s : State) (p : Path) : Bool :=
  match p with
  | .mgr l | .mgrMsix l | .bar2 l =>
    let t := s.lnk.msix[msixIdx l 0 (by omega)]
    t.memory && !t.d3hot
  | .slot l _ => (s.link l).cfg.vfMse
  | _ => true

/-- Accesses arrive by a path in the present state (R118, R151, R157, R392, R537). -/
def State.pathLive (s : State) (p : Path) : Bool :=
  match p with
  | .mgr l => s.linkOpen l && s.spaceOpen p
  | .mgrMsix l => s.linkOpen l && s.spaceOpen p
  | .mgrCfg l => s.linkOpen l
  | .slot l i => s.linkOpen l && s.slotExists l i && s.spaceOpen p
  | .slotCfg l i => s.linkOpen l && s.slotExists l i
  | .bar2 l => s.linkOpen l && s.spaceOpen p
  | .ibp => s.ibpSubset ≠ 0
  | .smbus => s.mode ≠ .dark && s.mode ≠ .wick
  | .jtag => s.mode = .service
  | .bootRom => decide ((s.keeper 0).run = .bootRom)
  | .keeper k => (s.keeper k).active?

/-- The register file's state changed. -/
def State.modReg (s : State) (g : RegFile → RegFile) : State := { s with reg := g s.reg }

/-- A refused write (R147): counted and recorded, but not one of the SMBus port. -/
def State.refuse (s : State) (r : Requester) (reason off : Nat) : State :=
  if r = .smbus then s
  else
    s.modReg (fun x =>
      { x with refuse := x.refuse.bump
               refuseLast := putField r.code 24 8 ||| putField reason 20 4 ||| putField (off / 4 * 4) 0 20 })

/-- A Keyhole fault (R138). -/
def State.keyFaultAt (s : State) (r : Requester) (reason off : Nat) : State :=
  s.modReg (fun x =>
    { x with keyFault := x.keyFault.bump
             keyFaultLast := putField r.code 24 8 ||| putField reason 20 4 ||| putField (off / 4 * 4) 0 20 })

/-- A requester's Keyhole written. -/
def State.setKeyhole (s : State) (r : Requester) (k : Keyhole) : State :=
  match r with
  | .mfA => s.modReg (fun x => { x with keyA := k })
  | .mfB => s.modReg (fun x => { x with keyB := k })
  | .bridge => s.modReg (fun x => { x with keyBridge := k })
  | .bootRom => s.modReg (fun x => { x with keyRom := k })
  | _ => s

/-- The state of a requester's Keyhole; one that has none is always ARMED. -/
def State.keyState (s : State) (r : Requester) : KeyState :=
  match s.keyhole r with
  | some k => k.state
  | none => .armed

/-- A write to a register that is not guarded, by a requester with a Keyhole (Table 5.5). -/
def State.keyElsewhere (s : State) (r : Requester) (off : Nat) : State :=
  match s.keyState r with
  | .armed => s
  | .half => (s.keyFaultAt r 2 off).setKeyhole r {}
  | .opened => (s.keyFaultAt r 4 off).setKeyhole r {}

/-- A write that consumes the opening without a fault when the Keyhole is open, and otherwise is a write elsewhere (R137, on
SUP_MODE_REQ). -/
def State.keyConsume (s : State) (r : Requester) (off : Nat) : State :=
  match s.keyState r with
  | .opened => s.setKeyhole r {}
  | _ => s.keyElsewhere r off

/-- A guarded write (R135, R137): its effect behind an open Keyhole, and a refusal with a Keyhole fault otherwise. -/
def State.guarded (s : State) (r : Requester) (off : Nat) (act : State → State) : State :=
  match s.keyState r with
  | .opened => act (s.setKeyhole r {})
  | _ =>
    let s1 := (s.refuse r 3 off).setKeyhole r {}
    if r = .smbus then s1 else s1.keyFaultAt r 3 off

/-- The shadow slot empties at a requester's own write to either dword of its value (R128). -/
def State.dropShadow (s : State) (r : Requester) (off : Nat) : State :=
  s.modReq r (fun x =>
    match x.slot with
    | some h => if off = h.value ∨ off = h.value + 4 then { x with slot := none } else x
    | none => x)

/-- The host link that a path uses. -/
def pathLink (p : Path) : Option Link :=
  match p with
  | .mgr l => some l
  | .mgrMsix l => some l
  | .mgrCfg l => some l
  | .slot l _ => some l
  | .slotCfg l _ => some l
  | .bar2 l => some l
  | _ => none

/-- A request received on a link finds it in L0 or brings it there (R164). -/
def State.arrive (s : State) (p : Path) : State :=
  match pathLink p with
  | some l => s.wakeLink l
  | none => s

/-- A path is one of a function's configuration space. -/
def Path.isConfig (p : Path) : Bool :=
  match p with
  | .mgrCfg _ | .slotCfg _ _ => true
  | _ => false

/-- A request that its link answers as Unsupported Request, counted (R150, R151, R161); a posted one is only discarded. -/
def State.unsupported (s : State) (l : Link) (p : Path) (posted : Bool) : State :=
  let s1 := s.linkError l .unsupportedRequest
  if posted then s1 else s1.emit (.unsupported p)

/-- A request on a path that is not live (R150, R151, R158): before enumeration a configuration request is answered Configuration Request
Retry Status; any other, and one to a function that is absent or whose memory space is closed, is unsupported. -/
def State.turnAway (s : State) (p : Path) (posted : Bool) : State :=
  match pathLink p with
  | none => s
  | some l =>
    if !(s.link l).up then s
    else if p.isConfig && !s.linkOpen l then (s.wakeLink l).emit (.configRetry p)
    else (s.wakeLink l).unsupported l p (posted && !p.isConfig)

/-- An offset of a path lies in its function's Push Window, a buffer and no register (R202). -/
def inPushWindow (p : Path) (off : Nat) : Bool :=
  match p with
  | .mgr _ => decide (0x21000 ≤ off) && decide (off < 0x21080)
  | .slot _ _ => decide (0x1000 ≤ off) && decide (off < 0x1080)
  | _ => false

/-- What a requester's Keyhole makes of a write to no guarded register: nothing where it goes to the Push Window (R137, R202). -/
def State.keySees (s : State) (p : Path) (r : Requester) (off : Nat) : State :=
  if inPushWindow p off then s else s.keyElsewhere r off

/-- A write that arrives by a path at an offset of its own space, outside the guarded registers and KEY_HOLE: the requester's Keyhole
and shadow slot see it, then its effect follows. Every write of the SMBus port is refused uncounted (R118, R147). -/
def State.accessAny (s : State) (p : Path) (off : Nat) (act : Requester → State → State) : State :=
  if !s.pathLive p || decide (p = .smbus) then s.turnAway p true
  else
    match s.requesterOf p with
    | none => s
    | some r => act r (((s.arrive p).keySees p r off).dropShadow r off)

/-- A path reaches the registers of manager BAR0 (R117, R155, R157). -/
def Path.reachesBar0 (p : Path) : Bool :=
  match p with
  | .mgrMsix _ => false
  | .mgrCfg _ => false
  | .slot _ _ => false
  | .slotCfg _ _ => false
  | .bar2 _ => false
  | _ => true

/-- A write that arrives by a path at an offset of manager BAR0. -/
def State.access (s : State) (p : Path) (off : Nat) (act : Requester → State → State) : State :=
  if p.reachesBar0 then s.accessAny p off act else s

/-- A guarded write that arrives by a path. -/
def State.accessGuarded (s : State) (p : Path) (off : Nat) (act : Requester → State → State) : State :=
  if !s.pathLive p || !p.reachesBar0 then s.turnAway p true
  else
    match s.requesterOf p with
    | none => s
    | some r => ((s.arrive p).dropShadow r off).guarded r off (act r)

/-- KEY_HOLE's effect on the Keyhole of a requester (Table 5.5). -/
def State.keyWrite (s : State) (r : Requester) (v : DWord) : State :=
  let off := 0x04000
  let half : Keyhole := { state := .half }
  match s.keyState r with
  | .armed => if v = 0x4B56 then s.setKeyhole r half else s.keyFaultAt r 1 off
  | .half =>
    if v = 0xB4A9 then s.setKeyhole r { state := .opened }
    else if v = 0x4B56 then s.setKeyhole r half
    else (s.keyFaultAt r 1 off).setKeyhole r {}
  | .opened => (s.keyFaultAt r 5 off).setKeyhole r (if v = 0x4B56 then half else {})

/-- A KEY_HOLE write (R136): by the primary manager or the boot ROM; refused and counted otherwise. -/
def State.keyHole (s : State) (p : Path) (v : DWord) : State :=
  if !s.pathLive p || !p.reachesBar0 then s.turnAway p true
  else
    match s.requesterOf p with
    | none => s
    | some r =>
      if s.isPrimary r || decide (r = .bootRom) then (s.arrive p).keyWrite r v
      else if r = .smbus then s
      else ((s.arrive p).refuse r 2 0x04000).keyFaultAt r 2 0x04000

/-- A Keyhole that has stood HALF or OPEN for eight ticks expires (Table 5.5). -/
def State.keyExpire (s : State) (r : Requester) : State :=
  match s.keyhole r with
  | some k =>
    if k.state ≠ .armed ∧ 8 ≤ k.ticks then (s.keyFaultAt r 6 0x04000).setKeyhole r {} else s
  | none => s

/-- One tick for a requester's Keyhole. -/
def State.keyTick (s : State) (r : Requester) : State :=
  match s.keyhole r with
  | some k => if k.state ≠ .armed then (s.setKeyhole r { k with ticks := k.ticks + 1 }).keyExpire r else s
  | none => s

/-- Keeper firmware is in the KINDLE window of R132. -/
def State.kindleWindow (s : State) (r : Requester) : Bool :=
  match r with
  | .keeper _ => s.mode = .kindle && !s.kpr.bootReady
  | _ => false

/-- A write at an offset of the sealed class stores anew the byte at `a` (R129, R141): its own dword, but a window's base is stored
whole by the write of its high dword. -/
def sealedStores (off a : Nat) : Bool :=
  if 0x10400 ≤ off ∧ off < 0x10600 ∧ off % 16 < 8 then off % 16 == 4 && a / 8 == off / 8 else a / 4 == off / 4

/-- An accepted write to a sealed-class register (R142, R143): the Daymark's reference is stale, a pass in progress is disturbed,
and the stored parity of what it stores is right again. -/
def State.sealedAccepted (s : State) (off : Nat) : State :=
  s.modReg (fun x =>
    { x with
      day := { x.day with stale := true, mismatch := false, pass := x.day.pass.map (fun p => { p with disturbed := true }) }
      parityBad := x.parityBad.filter (fun a => !sealedStores off a) })

/-- A write to a register of the sealed class (R131, R132): requester and mode, then the group's seal, then its effect. -/
def State.sealedWrite (s : State) (r : Requester) (off group : Nat) (act : State → State) : State :=
  if !(s.isPrimary r || s.kindleWindow r) then s.refuse r 2 off
  else if s.isSealed group then s.refuse r 1 off
  else act (s.sealedAccepted off)

/-- A write that only the primary manager may make (R147). -/
def State.primaryWrite (s : State) (r : Requester) (off : Nat) (act : State → State) : State :=
  if s.isPrimary r then act s else s.refuse r 2 off

/-- What ends a requester's shadow slot, staged dword and Keyhole: a reset of its function or its freeze (R128, R129, R137). -/
def State.forgetRequester (s : State) (r : Requester) : State :=
  (s.modReq r (fun x => { x with slot := none, staged := [] })).setKeyhole r {}

/-- A function a requester of the RNG block stands for, with its page base (R154, R155). -/
def ringPage (p : Path) : Option Nat :=
  match p with
  | .mgr _ => some 0x20000
  | .ibp => some 0x20000
  | .slot _ _ => some 0
  | _ => none

/-- Offsets within the RNG block of the low dwords of 64-bit values (Tables 7.8 and 7.9). -/
def rngLow64 (o : Nat) : Bool :=
  (decide (0x2000 ≤ o) && decide (o < 0x2820) && o % 0x20 == 0) || (decide (0x2A00 ≤ o) && decide (o < 0x2A80) && o % 0x20 == 0)

/-- Offsets of manager BAR0 that hold the low dword of a 64-bit value (R127): the registers named _LO. -/
def bar0Low64 (off : Nat) : Bool :=
  off == 0x10118 || off == 0x10218 || (decide (0x10400 ≤ off) && decide (off < 0x10600) && off % 0x10 == 0)
    || (decide (0x20000 ≤ off) && decide (off < 0x30000) && rngLow64 (off - 0x20000))
    || off == 0x30050 || off == 0x80028
    || (decide (0xD0040 ≤ off) && decide (off < 0xD0400) &&
        (off % 0x40 == 0x08 || off % 0x40 == 0x18 || off % 0x40 == 0x20))

/-- An offset of a path holds the low dword of a 64-bit value. -/
def low64 (p : Path) (off : Nat) : Bool :=
  match p with
  | .mgrMsix _ => false
  | .mgrCfg _ => false
  | .slotCfg _ _ => false
  | .bar2 _ => false
  | .slot _ _ => rngLow64 off
  | _ => bar0Low64 off

/-- The words of a 64-bit value above the one just read, captured (R127). -/
def capturedWords (keeper : Bool) (lo hi : DWord) : List (Nat × Half) :=
  (if keeper then [(1, hiHalf lo)] else []) ++ [(2, loHalf hi), (3, hiHalf hi)]

/-- The path of a keeper's register accesses: the boot ROM's while KPR0 fetches from it (R117). -/
def State.keeperPath (s : State) (k : Fin 12) : Path :=
  if k = 0 ∧ (s.keeper 0).run = .bootRom then .bootRom else .keeper k

/-- The requester of a keeper's register accesses (R117). -/
def State.keeperReq (s : State) (k : Fin 12) : Requester :=
  if k = 0 ∧ (s.keeper 0).run = .bootRom then .bootRom else .keeper k

/-- The read by a keeper, or by the boot ROM on KPR0, of the word at byte offset `off`, a multiple of 2 (R124, R127). -/
def State.readWord16 (s : State) (k : Fin 12) (off : Nat) : Half × State :=
  let p := s.keeperPath k
  let r := s.keeperReq k
  let base := off / 4 * 4
  let v := s.readPath p base
  let live : Half := if off % 4 = 0 then loHalf v else hiHalf v
  let value := if low64 p base then base else base - 4
  let place := (off - value) / 2
  if low64 p base && off % 4 == 0 then
    (live, s.modReq r (fun x => { x with slot := some { value := base, words := capturedWords true v (s.readPath p (base + 4)) } }))
  else if low64 p value && decide (value ≤ off) && decide (place < 4) then
    match (s.reqState r).slot with
    | some h =>
      if h.value = value then
        match assocGet h.words place with
        | some w =>
          let rest := h.words.filter (fun x => x.1 != place)
          (w, s.modReq r (fun x => { x with slot := if rest.isEmpty then none else some { h with words := rest } }))
        | none => (live, s)
      else (live, s)
    | none => (live, s)
  else (live, s)

end Sys2Proof.Machine
end

