-- ==== Sys2Proof/Machine/KeeperDma.lean ====
section
/-! DEFINITION. The keeper address map (Table 15.3), what a keeper loads, and the issue of keeper DMA requests (R175, R449).
Choices: log 43. -/

namespace Sys2Proof.Machine

/-- The ranges of Table 15.3 that a keeper's items and programs reach. -/
inductive Place where
  | code
  | data
  /-- Bank 0 in WICK: fetch, load and store. -/
  | bank0
  | reg
  | slot
  | unmapped
deriving DecidableEq, Repr

/-- The range of a 24-bit word address (R430). -/
def State.placeOf (s : State) (a : Nat) : Place :=
  if 0x800000 ≤ a ∧ a < 0x880000 then .reg
  else if 0xC00000 ≤ a ∧ a < 0xC00020 then .slot
  else if s.wick then (if a < 0x40000 then .bank0 else .unmapped)
  else if inRegion 0 a 1 then .code
  else if inRegion 1 a 1 || inRegion 4 a 1 || inRegion 5 a 1 then .data
  else .unmapped

/-- The range may be fetched from. -/
def Place.fetch (p : Place) : Bool := decide (p = .code) || decide (p = .bank0)

/-- The range may be loaded from. -/
def Place.load (p : Place) : Bool := decide (p ≠ .unmapped)

/-- The range may be stored to. -/
def Place.store (p : Place) : Bool := decide (p ≠ .unmapped) && decide (p ≠ .code)

/-- Word 6 of a DMA slot (Table 15.10). -/
def DmaSlot.word6 (d : DmaSlot) : Half := loHalf (putBit d.busy 15 ||| putField d.sub 8 4 ||| putField d.status 0 8)

/-- A word of a keeper's DMA slots as it reads it (R448), with whether it is poisoned. -/
def Keeper.slotWord (x : Keeper) (a : Nat) : Half × Bool :=
  let d := x.dma[(a - 0xC00000) / 8 % 4]'(by omega)
  let w := a % 8
  if h : w < 6 then (d.words[w], d.bad[w]) else if w = 6 then (d.word6, false) else (0, false)

/-- A register reads as poisoned words (R124): the Lamp view of a Lamp whose record failed parity (R272). -/
def State.poisonedReg (s : State) (off : Nat) : Bool :=
  if h : 0x31000 ≤ off ∧ off < 0x39000 then
    match assocGet (s.lamps ⟨(off - 0x31000) / 0x2000, by omega⟩) (((off - 0x31000) % 0x2000) / 0x10) with
    | some x => x.poisoned
    | none => false
  else false

/-- A word that a keeper or its DMA loads from a range that permits it, with whether it is poisoned; `src` is the agent's code of
Table 16.4. -/
def State.loadWord (s : State) (k : Fin 12) (src a : Nat) : (Half × Bool) × State :=
  match s.placeOf a with
  | .reg =>
    let x := s.readWord16 k (2 * (a - 0x800000))
    ((x.1, s.poisonedReg (2 * (a - 0x800000))), x.2)
  | .slot => ((s.keeper k).slotWord a, s)
  | _ => let x := s.hst.readWord src a; ((x.1, x.2.1), { s with hst := x.2.2 })

/-- DIR of a slot: keeper to host. -/
def DmaSlot.toHost (d : DmaSlot) : Bool := bitOf d.words[0] 10

/-- WIN of a slot. -/
def DmaSlot.win (d : DmaSlot) : Fin 32 := ⟨fieldNat d.words[0] 0 5, by unfold fieldNat; omega⟩

/-- OFFSET of a slot. -/
def DmaSlot.offset (d : DmaSlot) : Nat := (ofHalves d.words[2] d.words[1]).toNat

/-- LOCAL of a slot. -/
def DmaSlot.local (d : DmaSlot) : Nat := d.words[3].toNat + 0x10000 * fieldNat d.words[4] 0 8

/-- LEN of a slot. -/
def DmaSlot.len (d : DmaSlot) : Nat := fieldNat d.words[5] 0 13

/-- The function of a DMA window (R174). -/
def DmaWindow.func (w : DmaWindow) : Option Func := Func.ofCode (fieldNat w.ctl 24 8)

/-- The host address of a window's first byte. -/
def DmaWindow.base (w : DmaWindow) : QWord := ofDWords w.baseHi w.baseLo

/-- A slot of a keeper changed. -/
def State.modSlot (s : State) (k : Fin 12) (n : Fin 4) (g : DmaSlot → DmaSlot) : State :=
  s.modKeeper k (fun x => { x with dma := x.dma.set n (g x.dma[n]) })

/-- The words that a DMA write reads, one after another (source 0x1D of Table 16.4). -/
def State.dmaWords (s : State) (k : Fin 12) (a : Nat) : Nat → List (Half × Bool) × State
  | 0 => ([], s)
  | n + 1 =>
    let x := s.loadWord k 0x1D a
    let y := x.2.dmaWords k ((a + 1) % 0x1000000) n
    (x.1 :: y.1, y.2)

/-- A busy slot's request goes to its link (R175, R449): a write with its data, poisoned where a word is (R29), or a read. -/
def State.issueSlot (s : State) (k : Fin 12) (n : Fin 4) (f : Func) : State :=
  let d := (s.keeper k).dma[n]
  let addr := s.lnk.win[d.win].base + BitVec.ofNat 64 d.offset
  if d.toHost then
    let x := s.dmaWords k d.local ((d.len + 1) / 2)
    let bytes := (x.1.flatMap (fun w => [lowByte w.1, highByte w.1])).take d.len
    (x.2.issueWrite f addr bytes (x.1.any Prod.snd)).modSlot k n (fun d => { d with issued := true })
  else ((s.wakeFn f).emit (.dmaRead f addr d.len)).modSlot k n (fun d => { d with issued := true })

/-- A function's keeper DMA may be issued (R159, R175, R484). -/
def State.dmaGoes (s : State) (f : Func) : Bool := s.canMaster f && s.presented f && !s.isFrozen f

/-- The held requests of a function are issued, in order of keeper and slot (R449, R485 step 5). -/
def State.issueHeldDma (s : State) (f : Func) : State :=
  (List.finRange 12).foldl (fun s k =>
    (List.finRange 4).foldl (fun s n =>
      let d := (s.keeper k).dma[n]
      if d.busy && !d.issued && decide ((s.lnk.win[d.win]).func = some f) && s.dmaGoes f then s.issueSlot k n f else s) s) s

end Sys2Proof.Machine
end

