-- ==== Sys2Proof/Machine/CommandRing.lean ====
section
/-! DEFINITION. The Command Ring (R205 to R213): the order in which a command's status is decided, its completion event, the tag
window, and commands that take time.
Choices: log 34. -/

namespace Sys2Proof.Machine

/-- What a command's own rules answer after the checks of R211. -/
inductive CmdEnd where
  /-- It completes with a status and results. -/
  | done (s : State) (status : Status) (r0 r1 : DWord)
  /-- It has started and completes later; its record is kept in `FuncState.cmd`. -/
  | started (s : State)
  /-- A REBIND that has parked (R215). -/
  | parked (s : State)

/-- TAG of a Command Ring entry. -/
def cmdTag (e : Entry) : BitVec 16 := hiHalf e[6]

/-- The completion event of a command (Table 7.6). -/
def cmdEvent (index tag : BitVec 16) (type : Nat) (status : Status) (r0 r1 : DWord) : EventEntry :=
  mkEvent r0 r1 0 0 0 (putField tag.toNat 16 16 ||| putField type 8 8) index 0x00 status.code 0x02

/-- A tag enters the window of the last 32 (R210). -/
def FuncState.enterTag (x : FuncState) (tag : BitVec 16) (status : Nat) : FuncState :=
  { x with tags := ((tag, status) :: x.tags).take 32 }

/-- A command completes: its tag enters the window and its event is produced on Event Ring 0 (R209, R217). -/
def State.completeCmd (s : State) (f : Func) (index : BitVec 16) (e : Entry) (status : Status) (r0 r1 : DWord) : State :=
  (s.modFn f (fun x => x.enterTag (cmdTag e) status.code)).postEvent f 0 (cmdEvent index (cmdTag e) (etype e) status r0 r1)

/-- The command in progress on a function's Command Ring completes. -/
def State.finishCmd (s : State) (f : Func) (status : Status) (r0 r1 : DWord) : State :=
  match (s.fn f).cmd with
  | none => s
  | some c => (s.modFn f (fun x => { x with cmd := none })).completeCmd f c.index c.entry status r0 r1

/-- TYPE ranges that a manager Command Ring carries out without keepers (Table 7.5). -/
def keeperless (ty : Nat) : Bool := ty == 1 || ty == 2 || (decide (0x20 ≤ ty) && decide (ty ≤ 0x2F))

/-- TYPE ranges of Table 7.5 whose commands need keepers. -/
def keeperRange (ty : Nat) : Bool := decide (0x10 ≤ ty) && decide (ty ≤ 0x6F) && !(decide (0x20 ≤ ty) && decide (ty ≤ 0x2F))

/-- The status of a command for want of keepers in SAFE (R83, R208): every command of a Buoy, and a manager's of the "No"
ranges. -/
def State.cmdLost (s : State) (f : Func) (ty : Nat) : Bool :=
  s.mode = .safe && (f.isBuoy || keeperRange ty)

/-- The head entry of a Command Ring that may be decided now (R208, R209, R218, R482): in RELIGHT and UPDATE a manager's "Yes"
ranges and poisoned entries only. -/
def State.cmdHead (s : State) (f : Func) : Option Staged :=
  let r := s.ring f 0
  if !r.opened || r.ci = r.pi || (s.fn f).cmd.isSome || s.isHeld f || s.evtFull f 0 then none
  else
    match r.staged.find? (fun x => x.index == r.ci) with
    | none => none
    | some x =>
      if s.ringsAlive then some x
      else
        match s.mode with
        | .relight | .update =>
          match x.entry with
          | none => if f.isBuoy then none else some x
          | some e => if !f.isBuoy && keeperless (etype e) then some x else none
        | _ => none

/-- Bits of Table 7.2 that must be zero: dword 6 [15:0], dword 7 [31:16] and [7:1]. -/
def cmdReservedOk (e : Entry) : Bool := fieldNat e[6] 0 16 == 0 && fieldNat e[7] 16 16 == 0 && fieldNat e[7] 1 7 == 0

/-- The status of an earlier command with a tag: 0 while it is parked (R210). -/
def FuncState.tagStatus (x : FuncState) (tag : BitVec 16) : Option Nat :=
  if x.parkedTags.contains tag then some 0
  else
    match x.tags.find? (fun t => t.1 == tag) with
    | some t => some t.2
    | none => none

/-- A command that has been taken from the ring and passed the checks of R211 ends or goes on as its own rules say. -/
def State.cmdEnd (f : Func) (index : BitVec 16) (e : Entry) (r : CmdEnd) : State :=
  match r with
  | .done s status r0 r1 => s.completeCmd f index e status r0 r1
  | .started s => s.modFn f (fun x => { x with cmd := some { tag := cmdTag e, index := index, entry := e } })
  | .parked s => s.modFn f (fun x => { x with parkedTags := x.parkedTags ++ [cmdTag e] })

/-- The head entry of a Command Ring, if its TYPE is `ty` and the entry names this command by `pick`, goes through R211 and
then through the command's own rules. -/
def State.runCommand (s : State) (f : Func) (ty : Nat) (pick : Entry → Bool) (act : State → Entry → CmdEnd) : State :=
  match s.cmdHead f with
  | none => s
  | some x =>
    match x.entry with
    | none => s
    | some e =>
      if etype e ≠ ty ∨ pick e = false then s
      else
        let s1 := s.consume f 0 1
        match (s.fn f).tagStatus (cmdTag e) with
        | some old =>
          s1.postEvent f 0 (cmdEvent x.index (cmdTag e) (etype e) .duplicate (BitVec.ofNat 32 old) 0)
        | none =>
          if s.cmdLost f ty then s1.completeCmd f x.index e .keeperLost 0 0
          else if !cmdReservedOk e then s1.completeCmd f x.index e .malformed 0 0
          else State.cmdEnd f x.index e (act s1 e)

/-- A TYPE that Table 7.5 or its owning chapter defines, with an ACTION that its table defines (Tables 7.5, 10.2 and 14.4,
R360). -/
def cmdDefined (e : Entry) : Bool :=
  let ty := etype e
  ty == 1 || ty == 2 || (decide (0x10 ≤ ty) && decide (ty ≤ 0x13)) || (ty == 0x14 && decide (fieldNat e[0] 4 4 ≤ 5))
    || (decide (0x20 ≤ ty) && decide (ty ≤ 0x22)) || (decide (0x30 ≤ ty) && decide (ty ≤ 0x32))
    || (ty == 0x40 && decide (1 ≤ fieldNat e[0] 28 4) && decide (fieldNat e[0] 28 4 ≤ 4)) || ty == 0x41 || ty == 0x42
    || (decide (0x50 ≤ ty) && decide (ty ≤ 0x55)) || (ty == 0x60 && decide (fieldNat e[0] 4 4 ≤ 3)) || ty == 0x61

/-- A head entry that carries out nothing: poisoned, or of an undefined TYPE or ACTION (R205, R207, R211). -/
def State.undefinedHead (s : State) (f : Func) : State :=
  match s.cmdHead f with
  | none => s
  | some x =>
    match x.entry with
    | none => (s.consume f 0 1).postEvent f 0 (cmdEvent x.index 0 0 .poisoned 0 0)
    | some e => s.runCommand f (etype e) (fun e => !cmdDefined e) (fun s _ => .done s .malformed 0 0)

end Sys2Proof.Machine
end

