-- ==== Sys2Proof/Machine/Engines.lean ====
section
/-! DEFINITION. What the CC/PD engines, the Moorings and the sectors do of themselves (chapters 11 and 12): items for firmware,
attach and detach, gates, trips, and the enables that follow from the state.
Choices: log 45, 48, 58. -/

namespace Sys2Proof.Machine

/-- A run of Holding Store words can be reached: in WICK only bank 0 holds data (R70, R463). -/
def State.storeReaches (s : State) (w n : Nat) : Bool := !s.wick || decide (w + n ≤ 0x40000)

/-- Words written to the Holding Store by an engine; in WICK an access to another bank reaches no row (R463). -/
def State.storeWords (s : State) (w : Nat) (ws : List (Half × Bool)) : State :=
  if s.storeReaches w ws.length then { s with hst := s.hst.writeWords w ws } else s

/-- The modes in which every engine is the holding responder (R336). -/
def State.holdingMode (s : State) : Bool :=
  match s.mode with
  | .kindle | .safe | .relight | .update => true
  | _ => false

/-- An engine is the holding responder of Table 11.7 (R336). -/
def State.holding (s : State) (e : Fin 17) : Bool := !(s.eng e).rxEn || s.holdingMode

/-- Bytes packed two to a word, the lower byte in bits [7:0] (R333). -/
def packBytes : List Byte → List Half
  | [] => []
  | [a] => [halfOfBytes 0 a]
  | a :: b :: t => halfOfBytes b a :: packBytes t

/-- Receive slots of an engine that hold no unreleased item (R334). -/
def Engine.slotFree (x : Engine) : Bool := decide (idxDist x.rxSeq x.rxAck < 4)

/-- One item placed in its slot, with its counter's decrement (R333, R334). -/
def State.placeItem (s : State) (e : Fin 17) (kind : Nat) (header : Half) (payload : List Byte) : State :=
  let x := s.eng e
  let a := x.rxSeq + 1
  let base := x.msgBase + 136 * (a.toNat % 4)
  let clean (l : List Half) : List (Half × Bool) := l.map (fun w => (w, false))
  let head : List Half := [BitVec.ofNat 16 (kind % 8 * 2 ^ 13 + payload.length % 512), header] ++ packBytes payload
  let s1 := (s.storeWords base (clean head)).storeWords (base + 133) (clean [0, 0, a])
  (s1.modEng e (fun x => { x with rxSeq := a })).decrementEngine x.rxCtr
    (putField 0xE0 24 8 ||| putField e.val 16 8 ||| a.setWidth 32)

/-- Waiting items are placed while slots are free, in rising KIND (R334). -/
def State.placeWaiting (s : State) (e : Fin 17) : Nat → State
  | 0 => s
  | fuel + 1 =>
    let x := s.eng e
    match x.waiting with
    | [] => s
    | w :: rest =>
      if x.slotFree then
        ((s.modEng e (fun x => { x with waiting := rest })).placeItem e w.kind w.header []).placeWaiting e fuel
      else s

/-- An item of KIND 3, 4 or 5: placed, or kept until a slot frees, at most one of each kind, the latest (R334). -/
def State.offerItem (s : State) (e : Fin 17) (kind : Nat) (header : Half) : State :=
  if s.holding e then s
  else
    (s.modEng e (fun x =>
      { x with waiting := x.waiting.filter (fun w => w.kind != kind) ++ [{ kind := kind, header := header }] })).placeWaiting e 4

/-- A transmission ends (R322, R334, R335): its result recorded and TXCTR decremented where firmware asked for it. -/
def State.endTx (s : State) (e : Fin 17) (result : Nat) : State :=
  let x := s.eng e
  match x.tx with
  | none => s
  | some m =>
    let s1 := s.modEng e (fun x => { x with tx := none, txStage := .idle, txng := x.txng && !m.amsEnd })
    if m.firmware then
      (s1.modEng e (fun x => { x with txResult := result })).decrementEngine x.txCtr
        (putField 0xE1 24 8 ||| putField e.val 16 8 ||| x.txSeq.setWidth 32)
    else s1

/-- One more change of an engine (R338). -/
def State.ccChange (s : State) (e : Fin 17) : State := s.modEng e (fun x => { x with chg := x.chg.bump })

/-- An engine that is attached. -/
def Engine.attached (x : Engine) : Bool :=
  match x.state with
  | .attSrc | .attSnk => true
  | _ => false

/-- An engine with no partner, in a state (R313): contract, EPR mode and cable record are cleared, VCONN is off. -/
def Engine.apart (x : Engine) (st : TcState) : Engine :=
  { x with
    state := st, partner := 0, rpSeen := 0, orient := false, source := false, dfp := false, vconnOn := false, vconnOc := false
    epr := false, pdSeen := false, txng := false, debounced := false, ra := false, kind := 0, volt := 0, curr := 0, pend := none
    pendReq := [], caps := [], request := none, held := [], swap := none, asked := none, swapping := none, cable := 0
    msgId := Vector.replicate 3 0, lastId := Vector.replicate 3 none, rev := none, chunkRx := none, hr := .none, eprExit := false
    holdReady := false }

/-- Gate off (R340, R341, R359): PU's is PU_GATE_OUT. -/
def State.gateOff (s : State) (p : Fin 17) : State := s.modMoor p (fun m => { m with gate := false, ppsCl := false, vbad := false })

/-- Gate on (R340): the over-current flag holds until then, and VBUS leaves vSafe0V. -/
def State.gateOn (s : State) (p : Fin 17) : State := s.modMoor p (fun m => { m with gate := true, oc := false, vsafe0v := false })

/-- An engine leaves its partner for a state (R308, R313, R348): a transmission in progress ends unanswered, an attachment that
ends is a detach, which is counted and placed for firmware. -/
def State.leavePartner (s : State) (e : Fin 17) (st : TcState) : State :=
  let was := (s.eng e).attached
  let s0 := if (s.eng e).epr then s.ccChange e else s
  let s1 := ((s0.endTx e 2).gateOff e).modEng e (fun x => x.apart st)
  if was then (s1.ccChange e).offerItem e 5 (BitVec.ofNat 16 st.code) else s1

/-- The preference an engine takes at each entry to an Unattached state (R309): PU's is Try.SNK while VIN is not valid. -/
def State.takePreference (s : State) (e : Fin 17) : State :=
  s.modEng e (fun x => { x with preferSnk := decide (e = pu) && !s.sup.vinValid })

/-- The Unattached state that the dual-role state machine of R309 leads to from a state; from ATTACHED_SRC the toggle dictates
it (R313), and from DISABLED either may come first (log 45). -/
def TcState.unattached (t : TcState) : Option TcState :=
  match t with
  | .waitSrc | .tryWaitSnk | .tryWaitSrc | .attSnk | .debugAcc => some .unattSnk
  | .waitSnk | .recovery => some .unattSrc
  | _ => none

/-- An engine enters an Unattached state: where its state does not fix which one, it is left open; and the preference is taken
(R309, R313). -/
def State.unattach (s : State) (e : Fin 17) : State :=
  let v : TcState × State :=
    match (s.eng e).state.unattached with
    | some st => (st, s)
    | none => (if s.freeBit.1 then .unattSrc else .unattSnk, s.freeBit.2)
  (v.2.leavePartner e v.1).takePreference e

/-- VCONN is allowed on (R317). -/
def Engine.vconnDue (x : Engine) : Bool :=
  decide (x.state = .attSrc) && x.ra && bitOf x.cfg 28 && !x.vconnOc && (decide (x.hr = .none) || decide (x.hr = .psWait))

/-- VCONN follows its conditions (R317). -/
def State.followVconn (s : State) (e : Fin 17) : State := s.modEng e (fun x => { x with vconnOn := x.vconnDue })

/-- An implicit contract as source is recorded (R311): 5 V at the current that RP advertises. -/
def State.implicitSource (s : State) (e : Fin 17) : State :=
  (s.modEng e (fun x => { x with kind := 1, volt := 250, curr := rpCurrent x.rp, held := [] })).ccChange e

/-- Entry to ATTACHED_SRC (R311, R314, R317): gate on, DFP, an implicit contract, VCONN where it is due. -/
def State.attachSrc (s : State) (e : Fin 17) : State :=
  let s1 := s.modEng e (fun x => { x with state := .attSrc, partner := 1, source := true, dfp := true, debounced := false, known := true })
  let s2 := (((s1.gateOn e).ccChange e).implicitSource e).followVconn e
  s2.offerItem e 5 (BitVec.ofNat 16 TcState.attSrc.code)

/-- An implicit contract as sink is recorded for PU (Table 11.4): 5 V at the current that the partner's Rp advertises. -/
def Engine.implicitSink (x : Engine) : Engine :=
  { x with kind := 1, volt := 250, curr := if x.rpSeen = 0 then 0 else rpCurrent x.rpSeen, held := [] }

/-- Entry to ATTACHED_SNK (R312, R314): no power is taken; PU records an implicit contract. -/
def State.attachSnk (s : State) (e : Fin 17) : State :=
  let s1 := s.modEng e (fun x => { x with state := .attSnk, partner := 2, source := false, dfp := false, debounced := false, known := true })
  let s2 := (s1.modMoor e (fun m => { m with vsafe0v := false })).ccChange e
  let s3 := if e = pu then (s2.modEng e Engine.implicitSink).ccChange e else s2
  s3.offerItem e 5 (BitVec.ofNat 16 TcState.attSnk.code)

/-- A path has failed (R302, R356). -/
def State.pathFailed (s : State) (p : Fin 17) : Bool :=
  match portOfPath p with
  | some n => (s.port n).failed
  | none => (s.moor p).failed

/-- Table 3.4 shows CC/PD active for an engine in the current mode (R308, R315, R336). -/
def State.ccMode (s : State) (e : Fin 17) : Bool :=
  match s.mode with
  | .dark | .kindle => false
  | .wick | .service => decide (e = pu)
  | _ => true

/-- An engine applies its terminations (R61, R107, R308, R356). -/
def State.ccActive (s : State) (e : Fin 17) : Bool :=
  bitOf (s.eng e).cfg 31 && s.ccMode e && !s.pathFailed e &&
    match portOfPath e with
    | some n => s.portFit n && !bitOf s.clk.portOn n.val
    | none => true

/-- The PU engine first applies its own termination (R315). -/
def State.handOver (s : State) : State := if s.sup.puValid then s.attachSnk pu else (s.leavePartner pu .unattSnk).takePreference pu

/-- An engine follows R308 and R315: DISABLED while its terminations are off, Unattached once they come on; in KINDLE, PU's
changes nothing. -/
def State.followEngine (s : State) (e : Fin 17) : State :=
  let on := s.ccActive e
  match (s.eng e).state with
  | .deadBattery => if on then s.handOver else s
  | .disabled => if on then s.unattach e else s
  | _ => if on || (decide (e = pu) && decide (s.mode = .kindle)) then s else s.leavePartner e .disabled

/-- A path holds power for its sector's enable (R352): its gate is on, or its engine runs the Hard Reset sequence of R324. -/
def State.holdsPower (s : State) (n : Fin 16) : Bool :=
  (s.moor (pathOf n)).gate || (decide ((s.eng (pathOf n)).state = .attSrc) && decide ((s.eng (pathOf n)).hr ≠ .none))

/-- A port of the quad waits for its sector alone (R352). -/
def State.waitsForSector (s : State) (n : Fin 16) : Bool :=
  decide ((s.eng (pathOf n)).state = .waitSrc) && (s.eng (pathOf n)).debounced && s.permitBase n

/-- The conditions of R352 for SECs_EN. -/
def State.sectorWanted (s : State) (q : Fin 4) : Bool :=
  let held := (portsOf q).any s.holdsPower
  !(s.sector q).faulted &&
    match s.mode with
    | .lit | .bridge | .shed => held || (portsOf q).any s.waitsForSector
    | .night => (portsOf q).any (fun n => s.holdsPower n && (s.moor (pathOf n)).retain)
    | .safe | .relight | .update => held
    | _ => false

/-- A sector whose EN is low. -/
def Sector.off (x : Sector) : Sector :=
  { x with en := false, pg := false, moving := false, atLevel := false, level := 0, ppsCl := false }

/-- No port of a quad reads PPS_CL: its level is no longer held below TARGET (R350). -/
def State.ppsRelease (s : State) (q : Fin 4) : State :=
  (portsOf q).foldl (fun s n => s.modMoor (pathOf n) (fun m => { m with ppsCl := false })) s

/-- A ramp to a target begins (R353): from the level reached, where EN is high; the current loop of R350 lets go. -/
def State.startRamp (s : State) (q : Fin 4) (v : Nat) : State :=
  let now := s.rampLevel q
  let s1 : State := if (s.sector q).moving then { s with freeSeq := s.freeSeq + 1 } else s
  let s2 := if (s.sector q).en then s1.ppsRelease q else s1
  s2.modSector q (fun x =>
    if x.en then { x with target := v, level := now, moving := true, atLevel := false, ppsCl := false } else { x with target := v })

/-- A port of the quad has its gate on. -/
def State.quadPowered (s : State) (q : Fin 4) : Bool := (portsOf q).any (fun n => (s.moor (pathOf n)).gate)

/-- A port of the quad that is powered under a PPS contract (R350). -/
def State.ppsPort (s : State) (q : Fin 4) : Option (Fin 16) :=
  (portsOf q).find? (fun n => (s.moor (pathOf n)).gate && (s.eng (pathOf n)).kind == 3)

/-- The current loop of R350 lets go of a quad that no longer holds a PPS contract. -/
def State.followPps (s : State) (q : Fin 4) : State :=
  if (s.sector q).ppsCl && (s.ppsPort q).isNone then
    (s.ppsRelease q).modSector q (fun x => { x with ppsCl := false, level := x.target })
  else s

/-- A sector follows R352: TARGET returns to 5 V when the quad's last powered port leaves power, and EN falls with its conditions. -/
def State.followSector (s0 s : State) (q : Fin 4) : State :=
  let s1 := if s0.quadPowered q && !s.quadPowered q && (s.sector q).target ≠ 500 then s.startRamp q 500 else s
  if (s1.sector q).en && !s1.sectorWanted q then s1.modSector q Sector.off else s1.followPps q

/-- Power leaves a path as at a trip, without counting one (R348, R357, R358, R360). -/
def State.dropPower (s : State) (p : Fin 17) : State := if (s.moor p).gate then s.leavePartner p .recovery else s

/-- A trip (R348, R349) of a powered path: gate and VCONN off, ERROR_RECOVERY, the count and its record, the retry gap or the
latch. A path that is already off absorbs it. -/
def State.trip (s : State) (p : Fin 17) (kind : Nat) : State :=
  let m := s.moor p
  if !m.gate then s
  else
    let run := m.run + 1
    let latch := decide (m.retries < run)
    (s.leavePartner p .recovery).modMoor p (fun m =>
      { m with oc := decide (kind = 1) || decide (kind = 2), trip := m.trip.bump, tripKind := kind, run := min run 7
               tripCount := s.bcn.count.setWidth 16, latched := latch, gap := !latch })

/-- A sector fault (R354): gates off and trips of kind 5, then EN falls, TARGET returns to 5 V and the gap or the latch follows. -/
def State.failSector (s : State) (q : Fin 4) (cause : Nat) : State :=
  let s1 := (portsOf q).foldl (fun s n => s.trip (pathOf n) 5) s
  let run := (s.sector q).run + 1
  let latch := decide ((s.sector q).retries < run)
  s1.modSector q (fun x =>
    { x.off with target := 500, oc := x.oc || decide (cause = 5) || decide (cause = 6), faultCause := cause, run := min run 7
                 faultCount := s.bcn.count.setWidth 16, latched := latch, gap := !latch })

/-- Every engine and sector follows the state (R308, R352). -/
def State.followPower (s0 s : State) : State :=
  let s1 := (List.finRange 17).foldl (fun s e => s.followEngine e) s
  (List.finRange 4).foldl (fun s q => s0.followSector s q) s1

end Sys2Proof.Machine
end

