-- ==== Sys2Proof/Machine/FunctionReset.lean ====
section
/-! DEFINITION. The function-level reset (R105, R183, R486) and the loss of a link with the functions presented on it (R104,
R152).
Choices: log 11, 25, 26, 35. -/

namespace Sys2Proof.Machine

/-- A Buoy's mailbox. -/
def State.mboxOf (s : State) (b : Fin 15) : Mailbox := s.lnk.mbox[b]

/-- A Buoy's mailbox changed. -/
def State.modMbox (s : State) (b : Fin 15) (g : Mailbox → Mailbox) : State :=
  { s with lnk := { s.lnk with mbox := s.lnk.mbox.set b (g (s.mboxOf b)) } }

/-- A reset of a function's mailboxes: both directions, OUT and IN (R178, R180). -/
def State.resetMailboxes (s : State) (f : Func) : State :=
  match f with
  | .buoy b => s.modMbox b (fun _ => {})
  | .bridge => s
  | _ => { s with lnk := { s.lnk with xAtoB := {}, xBtoA := {} } }

/-- Lamps removed with their function (R264), and held Lamps on ports the function owns (R263). -/
def State.dropLampsOf (s : State) (f : Func) : State :=
  { s with bcn := { s.bcn with
      lists := s.bcn.lists.map (fun l => l.filter (fun x =>
        !((decide (x.2.owner = f) && !x.2.held) || (x.2.held && decide (s.portOwner x.2.port = f))))) } }

/-- Commands of a function that are in progress are forgotten with its Command Ring; what they have begun on a port goes on
without them (R105, R216). -/
def State.dropCommandsOf (s : State) (f : Func) : State :=
  { s with
    fwy := { s.fwy with
      port := s.fwy.port.map (fun p => { p with cmd := p.cmd.filter (fun g => decide (g ≠ f)) })
      fwy := s.fwy.fwy.map (fun x => { x with addressing := x.addressing.filter (fun a => decide (a.fn ≠ f)) }) }
    bcn := { s.bcn with lists := s.bcn.lists.map (fun l => l.map (fun x =>
      (x.1, { x.2 with removing := x.2.removing.filter (fun g => decide (g ≠ f))}))) }
    pwr := { s.pwr with path := s.pwr.path.map (fun m => { m with cmd := m.cmd.filter (fun c => decide (c.1 ≠ f)) }) }
    mig := { s.mig with
      mig := s.mig.mig.map (fun m => if m.cmd = some f then { m with cmd := none } else m)
      log := s.mig.log.map (fun x => if x.swapCmd = some f then { x with swapCmd := none } else x) }
    lnk := { s.lnk with assign := if f = s.primary then s.lnk.assign.map (fun w => { w with quiet := true }) else s.lnk.assign } }

/-- A frozen Buoy returns to RUNNING without a thaw (R486): the BUOY_FREEZE in progress completes with OUTCOME 0x09. -/
def State.unfreezeByReset (s : State) (b : Fin 15) : State :=
  let m := s.migr b
  let s1 := s.modMigr b (fun m => { m with phase := .running, ticked := false, cmd := none, mboxHeld := false, restored := false,
                                           foreign := false, rehomed := false })
  match m.cmd with
  | some g => s1.finishCmd g .success 0 0x09
  | none => s1

/-- A slot's or Manager function's configuration at its reset values (R104, R183). -/
def State.resetSlot (s : State) (i : Fin 32) : State := s.modMsix i (fun _ => {})

/-- A function's transactions on a bus, which run to their end without it (R216). -/
def State.orphansOf (s : State) (f : Func) : List Orphan :=
  (List.finRange 65).filterMap (fun i =>
    let r := s.ring f i
    match r.cur with
    | some t => if t.onBus then some { fn := f, ring := i, fa := handleFa r.dev, root := t.seat.root } else none
    | none => none)

/-- A function's state is cleared (R105, R178, R183, R264): rings, Push Window, tags, held events and messages, mailboxes, MSI-X,
Lamps, shadow slot and Keyhole; a freeze ends. -/
def State.resetFunction (s : State) (f : Func) : State :=
  let s0 := s.dropCommandsOf f
  let s1 : State := { (s0.modFn f (fun _ => {})) with bcn := { s0.bcn with orphans := s0.bcn.orphans ++ s.orphansOf f } }
  let s2 :=
    match s1.msixOf f with
    | some i => s1.resetSlot i
    | none => s1
  let s3 := ((s2.resetMailboxes f).dropLampsOf f).forgetRequester f.requester
  match f with
  | .buoy b => s3.unfreezeByReset b
  | _ => s3

/-- The SLOT event of one link (Table 18.4). -/
def State.slotEvent (s : State) (l : Link) (b : Fin 15) : State :=
  s.postFnEvent (Func.manager l) 0x0D (putField (b.val + 1) 0 4 ||| putField (s.slotState l b) 8 2) 0 0

/-- The SLOT events of both links. -/
def State.slotEvents (s : State) (b : Fin 15) : State := (s.slotEvent .a b).slotEvent .b b

/-- The rest of a Buoy's release, once the entries of its old ports are completed (R171): its grants go, its function is cleared as by a
function-level reset, and its slots become VACANT. -/
def State.finishRelease (s : State) (b : Fin 15) : State :=
  let s1 := (s.modBuoy b (fun x => { x with grant := 0 })).resetFunction (.buoy b)
  (s1.modBuoy b (fun x => { x with home := none })).slotEvents b

/-- The functions presented on a link (R104, R157). -/
def State.presentedOn (s : State) (l : Link) : List Func :=
  Func.all.filter (fun f => decide (s.linkOf f = some l) && s.presented f)

/-- The Manager function's configuration space at its reset values (Table 4.2). -/
def LinkState.resetPf (x : LinkState) : LinkState :=
  { x with vfEnable := false, numVFs := 0, aspmEnable := false, ptmEnable := false, ltrEnable := false, ltr := 0, cfg := {} }

/-- The configuration space of a link at reset: the PF's and every slot's (R104). -/
def State.resetConfig (s : State) (l : Link) : State :=
  let s1 := (List.range 16).foldl (fun s i => if h : i < 16 then s.resetSlot (msixIdx l i h) else s) s
  s1.modLink l LinkState.resetPf

/-- The data link of a link is lost (R104, R152): the functions presented on it, whether or not it is up, are reset, then its
configuration space. What the last PTM dialog gave stays valid for its 10 ms (R273). -/
def State.loseLink (s : State) (l : Link) : State :=
  let fs := (s.modLink l (fun x => { x with up := true })).presentedOn l
  let s1 := (fs.foldl (fun s f => s.resetFunction f) s).resetConfig l
  let s2 := s1.modLink l (fun x => { x with up := false, speed := 0, width := 0, l1 := false, l12 := false, l2 := false })
  { s2 with bcn := { s2.bcn with ptmAsked := s2.bcn.ptmAsked.set l.idx false } }

/-- The function whose vectors a slot's table serves, if one stands there (R160). -/
def State.slotFunc (s : State) (l : Link) (slot : Nat) : Option Func :=
  if slot = 0 then some (Func.manager l)
  else if h : slot ≤ 15 then
    (if s.slotState l ⟨slot - 1, by omega⟩ = 1 then some (.buoy ⟨slot - 1, by omega⟩) else none)
  else none

/-- Pending vectors of a slot that no mask holds any more are sent, which disarms their Event Rings (R160, R219). -/
def State.sendPending (s : State) (l : Link) (slot : Nat) (h : slot < 16) : State :=
  let i := msixIdx l slot h
  match s.slotFunc l slot with
  | none => s
  | some f =>
    (List.finRange 4).foldl (fun s n =>
      let t := s.lnk.msix[i]
      if t.enable && !t.functionMask && bitOf t.pending n.val && !bitOf t.control[n] 0 && s.canMaster f && !s.isFrozen f then
        let s1 : State :=
          { s with lnk := { s.lnk with msix := s.lnk.msix.set i { t with pending := t.pending &&& ~~~BitVec.ofNat 4 (2 ^ n.val) } } }
        ((((s1.wakeFn f).emit (.msix f n.val t.addr[n] t.data[n])).logWrite f t.addr[n].toNat 4)).disarmRing f n
      else s) s

/-- Pending vectors of the slot that a function stands in (R160). -/
def State.sendPendingFn (s : State) (f : Func) : State :=
  match f with
  | .mfA => s.sendPending .a 0 (by omega)
  | .mfB => s.sendPending .b 0 (by omega)
  | .bridge => s
  | .buoy b =>
    match (s.buoy b).home with
    | some l => s.sendPending l (b.val + 1) (by omega)
    | none => s

/-- Reads that the function's transfers need go out now that it can master (R159). -/
def State.askAll (s : State) (f : Func) : State :=
  (List.finRange 65).foldl (fun s i => if (s.ring f i).cur.isNone then s else s.askData f i) s

/-- What a function could not write goes out now that it can (R159, R181): keeper window writes before events, transfer completions
that wait, messages, vectors unmasked meanwhile, and the reads that transfers need. -/
def State.resumeFn (s : State) (f : Func) : State :=
  let s1 := if s.canMaster f && !s.isFrozen f then s.issueHeldDma f else s
  let s2 := (s1.flushFn f).flushUnservedFn f
  if s2.canMaster f && !s2.isFrozen f then
    (((List.finRange 4).foldl (fun s n => if (s.evRing f n).heldMsg then s.sendMessage f n else s) s2).sendPendingFn f).askAll f
  else s2

/-- Every function of a link goes on. -/
def State.resumeLink (s : State) (l : Link) : State :=
  Func.all.foldl (fun s f => if s.linkOf f = some l then s.resumeFn f else s) s

end Sys2Proof.Machine
end

