-- ==== Sys2Proof/Machine/After.lean ====
section
/-! DEFINITION. What follows from every command at once: engines and sectors, root ports whose conditions of R278 have changed, the change counts of
PRT_n_CHG (R304), and the rises and falls of event levels (R511).
Choices: log 9, 35, 56. -/

namespace Sys2Proof.Machine

/-- Table 3.4 shows fairways running or suspended in the mode. -/
def State.fairwaysPresent (s : State) : Bool :=
  match s.mode with
  | .lit | .bridge | .night | .safe | .relight | .update => true
  | .shed => s.md.ret ≠ .standby
  | _ => false

/-- The conditions of R278 of a port. -/
def State.portMayRun (s : State) (n : Fin 16) : Bool :=
  s.portFit n && !(s.fairway (fairwayOf n)).failed && !(s.fairway (fairwayOf n)).resetting && s.fairwaysPresent
    && (s.moor (pathOf n)).gate && (s.eng (pathOf n)).dfp

/-- A port without a connection; DIS_CAUSE is a record and stays. -/
def Port.disconnected (p : Port) (st : PortState) : Port :=
  { p with state := st, speed := none, conn := false, connLow := false, suspMode := false, wait := .none }

/-- SUB of the devices that a port loses when R278 fails: unfitted, fairway failure or reset, else the device left (R241). -/
def State.offSub (s : State) (n : Fin 16) : Nat :=
  if !s.portFit n then 4
  else if (s.fairway (fairwayOf n)).failed || (s.fairway (fairwayOf n)).resetting then 3
  else 1

/-- The PORT_CTLs in progress on a port end with an OUTCOME (R279). -/
def State.finishPort (s : State) (n : Fin 16) (outcome : Nat) : State :=
  if (s.port n).cmd.isEmpty then s
  else
    (s.port n).cmd.foldl (fun s f => s.finishCmd f .success (s.prtStatus n) (BitVec.ofNat 32 outcome))
      (s.modPort n (fun p => { p with cmd := [] }))

/-- One port follows R278: to OFF with its devices released, or from OFF to DISCONNECTED. -/
def State.followPort (s : State) (n : Fin 16) : State :=
  let p := s.port n
  match p.state with
  | .failed => s
  | .off => if s.portMayRun n then s.modPort n (fun p => p.disconnected .disconnected) else s
  | _ =>
    if s.portMayRun n then s
    else ((s.releasePort n (s.offSub n)).modPort n (fun p => p.disconnected .off)).finishPort n 2

/-- The six flags whose changes PRT_n_CHG counts (R304). -/
def State.chgFlags (s : State) (n : Fin 16) : List Bool :=
  let p := s.port n
  [p.conn, p.enabled, p.state = .suspended, s.portOc n, s.portPwr n, p.state = .l1]

/-- Count-and-acknowledge occurrences, several at once. -/
def CntAck.bumps (c : CntAck) : Nat → CntAck
  | 0 => c
  | n + 1 => c.bump.bumps n

/-- Changes of one port's flags between two states counted (R304). -/
def State.countPort (s0 s : State) (n : Fin 16) : State :=
  let k := ((s0.chgFlags n).zip (s.chgFlags n)).countP (fun x => x.1 != x.2)
  if k = 0 ∨ s.mode = .dark then s else s.modPort n (fun p => { p with chg := p.chg.bumps k })

/-- Transfers at the head of a ring that a port's move has taken from it complete as R245 decides, NOT_OWNER included (R20,
R242). -/
def State.rejectLost (s : State) (f : Func) (ring : Fin 65) : Nat → State
  | 0 => s
  | fuel + 1 =>
    if (s.ring f ring).lostTo.isNone || !s.ringRuns f ring then s
    else
      match (s.ring f ring).head with
      | none => s
      | some l =>
        match s.judge f ring l with
        | some x => (s.completeHead f ring l x.1 x.2).rejectLost f ring fuel
        | none => s

/-- A ring no longer keeps a PORT_ASSIGN waiting (R172, R487): its entries are completed or belong to a frozen Buoy, whose statuses
are decided, or what is left of them is not a whole transfer. -/
def State.lostSettled (s : State) (x : Func × Fin 65) : Bool :=
  let r := s.ring x.1 x.2
  (r.lostTo.isNone && !(r.cur.any (fun t => t.disowned))) || s.isHeld x.1 || (r.cur.isNone && r.head.isNone &&
    (r.waitDoorbell || ((List.range (min 16 (idxDist r.pi r.ci))).all (fun k =>
      r.staged.any (fun y => y.index == r.ci + BitVec.ofNat 16 k)))))

/-- The OWNERSHIP events of a PORT_ASSIGN or a release (Table 18.4). -/
def State.ownershipEvents (s : State) (moves : List (Func × DWord × DWord)) : State :=
  moves.foldl (fun s m => s.postFnEvent m.1 0x0B m.2.1 m.2.2 0) s

/-- The PORT_ASSIGN in progress, or the release under BUOY_HOME, goes on and completes once nothing keeps it waiting (R171, R172). -/
def State.finishAssign (s : State) : State :=
  match s.lnk.assign with
  | none => s
  | some w =>
    let s0 := w.rings.foldl (fun s x => s.rejectLost x.1 x.2 16) s
    if w.rings.all s0.lostSettled then
      let s1 : State := { s0 with lnk := { s0.lnk with assign := none } }
      let s2 := w.release.foldl (fun s b => s.finishRelease b) s1
      (if w.quiet then s2 else s2.finishCmd s2.primary .success 0 0).ownershipEvents w.moves
    else s0

/-- Restatements due to the new owner of a port whose owner has changed (R513). -/
def State.restateOwner (s : State) (n : Fin 16) : State :=
  let es := (List.range 10).map (fun j => 10 * n.val + j)
  let due := es.filter (fun e => decide ((s.route e / 8) % 8 = 4) || decide ((s.route e / 8) % 8 = 5))
  { s with evt := { s.evt with restate := s.evt.restate ++ due.map (fun e => (e, s.portOwner n)) } }

/-- The owners of ports followed by their restatements. -/
def State.followOwners (s0 s : State) : State :=
  (List.finRange 16).foldl (fun s n => if s0.portOwner n = s.portOwner n then s else s.restateOwner n) s

/-- The mode controller follows LG1 and LG2 (R55, R85, Table 3.13): LG1 high arms it again, and SHED_REQ_N low sets VIN_SAG. -/
def State.followPins (s : State) : State :=
  { s with md := { s.md with lgArmed := s.md.lgArmed || s.lgLevel 1, sag := s.md.sag || s.shedReq } }

/-- A port's commands complete GONE (R290): not fitted, its fairway failed or in reset, or the port FAILED. -/
def State.portGone (s : State) (n : Fin 16) : Bool :=
  !s.portFit n || (s.fairway (fairwayOf n)).failed || (s.fairway (fairwayOf n)).resetting || decide ((s.port n).state = .failed)

/-- A device that a DEV_ADDRESS in progress addresses may have left (R290): its fairway or port carries it no more, or the hub it
stands behind has gone. -/
def State.addresseeGone (s : State) (d : DevRec) : Bool :=
  s.portGone d.port || !(s.port d.port).enabled || (d.depth != 0 && (s.dev d.parent).isNone)

/-- The DEV_ADDRESS in progress on a fairway ends GONE where its device has left, and its address is freed (R290). -/
def State.followAddress (s : State) (fa : Fin 4) : State :=
  match (s.fairway fa).addressing with
  | none => s
  | some a =>
    if s.addresseeGone a.dev then (s.modFairway fa (fun x => { x with addressing := none })).finishCmd a.fn .gone 0 0 else s

/-- The sink current limit on PU_ISNS in mA (R71): the contract's current, and before any what the source's Rp advertises. -/
def State.wickLimit (s : State) : Nat :=
  let x := s.eng pu
  if x.kind = 2 then 10 * x.curr
  else
    match x.rpSeen with
    | 3 => 3000
    | 2 => 1500
    | _ => 500

/-- The limit on PU_ISNS follows the contract and the source's Rp while PU_GATE_IN is on (R71). -/
def State.followSink (s : State) : State :=
  { s with pwr := { s.pwr with sinkLimit := if s.pins.puGateIn then s.wickLimit else 0 } }

/-- What every command ends with, from the state before it. -/
def State.after (s0 s : State) : State :=
  let s1 := (List.finRange 16).foldl (fun s n => s.followPort n) (s0.followPower s.followPins).followSink
  let s2 := (List.finRange 4).foldl (fun s fa => s.followAddress fa) ((List.finRange 16).foldl (fun s n => s0.countPort s n) s1)
  (s0.followOwners s2.finishAssign).settle

end Sys2Proof.Machine
end

