-- ==== Sys2Proof/Machine/Rings.lean ====
section
/-! DEFINITION. Rings (chapter 7): doorbells, pushes, set-up, fetching, NOOP, undefined commands and REBIND, and the rows of
chapters 7 and 8 of the command table.
Choices: log 33. -/

namespace Sys2Proof.Machine

/-- An access to a register of the RNG block (R154, R155, R221): `o` is the offset in the block; a requester with no view of it is
refused. -/
def State.ringAccess (s : State) (p : Path) (o : Nat) (act : Func → State → State) : State :=
  match p with
  | .mgrMsix _ => s
  | .mgrCfg _ => s
  | .slotCfg _ _ => s
  | .bar2 _ => s
  | _ =>
    let base := (ringPage p).getD 0x20000
    s.accessAny p (base + o) (fun r s =>
      match r.func, ringPage p with
      | some f, some _ => act f s
      | _, _ => s.refuse r 2 (base + o))

/-- A number names a Command Ring or transfer ring of a function (Table 7.1). -/
def ringOf (f : Func) (n : Nat) : Option (Fin 65) :=
  if h : n < 65 then (if n ≤ lastRing f then some ⟨n, h⟩ else none) else none

/-- The speculative reads of a Swell ring start over at PI (R199). -/
def Ring.rearm (r : Ring) : Ring :=
  { r with waitDoorbell := false, spec := if r.swell then some r.pi else none }

/-- An index lies within the window of R192. -/
def Ring.accepts (r : Ring) (d : BitVec 16) : Bool := decide (idxDist d r.ci ≤ 2 ^ r.size)

/-- PI after an accepted producer index (R192). -/
def Ring.advance (r : Ring) (d : BitVec 16) : Ring :=
  ({ r with pi := if idxDist r.pi r.ci < idxDist d r.ci then d else r.pi }).rearm

/-- A producer doorbell for an open ring (R192). -/
def State.produce (s : State) (f : Func) (ring : Fin 65) (d : BitVec 16) : State :=
  if (s.ring f ring).accepts d then s.modRing f ring (fun r => r.advance d) else s.ringFault f ring.val 2 d

/-- A consumer doorbell for an Event Ring (R193): held events and completions then follow. -/
def State.consumeEvents (s : State) (f : Func) (n : Fin 4) (d : BitVec 16) : State :=
  let r := s.evRing f n
  if idxDist d r.hci ≤ idxDist r.ep r.hci then
    let s1 := s.modEvRing f n (fun x => { x with hci := d })
    ((s1.evFullUpdate f n).flushHeld f n r.held.length).flushUnservedFn f
  else s.ringFault f (0xE0 + n.val) 2 d

/-- A write of RNG_DB (R192 to R194). -/
def State.ringDoorbell (s : State) (f : Func) (v : DWord) : State :=
  let n := fieldNat v 0 8
  let d := hiHalf v
  if fieldNat v 8 8 ≠ 0 then s.ringFault f n 1 d
  else if h : 0xE0 ≤ n ∧ n < 0xE4 then
    let e : Fin 4 := ⟨n - 0xE0, by omega⟩
    if (s.evRing f e).opened then s.consumeEvents f e d else s.ringFault f n 1 d
  else
    match ringOf f n with
    | none => s.ringFault f n 1 d
    | some ring => if (s.ring f ring).opened then s.produce f ring d else s.ringFault f n 1 d

/-- The entry that slot `k` of the Push Window holds. -/
def pushSlot (x : FuncState) (k : Fin 4) : Entry := Vector.ofFn (fun i : Fin 8 => x.push[8 * k.val + i.val]'(by omega))

/-- One pushed copy (R204); `ci0` is CI and the index has not been consumed when it lies no further from CI than the new PI. -/
def State.holdPush (s : State) (f : Func) (ring : Fin 65) (index : BitVec 16) (e : Entry) : State :=
  let r := s.ring f ring
  if idxDist r.pi r.ci ≤ idxDist index r.ci then s
  else if 16 ≤ idxDist index r.ci then s.ringFault f ring.val 3 index
  else
    s.modRing f ring (fun r =>
      { r with staged := r.staged.filter (fun x => x.index != index) ++ [{ index := index, entry := some e, kind := .pushed }] })

/-- A write of RNG_PUSH_DB (R203): the ring number and format first, then the count, then the index. -/
def State.ringPush (s : State) (f : Func) (v : DWord) : State :=
  let n := fieldNat v 0 8
  let count := fieldNat v 8 3
  let d := hiHalf v
  match f, ringOf f n with
  | .bridge, _ => s.ringFault f n 1 d
  | _, none => s.ringFault f n 1 d
  | _, some ring =>
    if fieldNat v 11 5 ≠ 0 ∨ (s.ring f ring).opened = false then s.ringFault f n 1 d
    else if count = 0 ∨ 4 < count then s.ringFault f n 3 d
    else if !(s.ring f ring).accepts d then s.ringFault f n 2 d
    else
      let s1 := s.modRing f ring (fun r => r.advance d)
      (List.finRange 4).foldl (fun s' k =>
        if k.val < count then s'.holdPush f ring (d - BitVec.ofNat 16 (count - k.val)) (pushSlot (s.fn f) k) else s') s1

/-- A dword written to the Push Window (R202); the bridge host has none (R220), and the record of its refusal names no ring, so
its fields are free (log 5). -/
def State.pushWindow (s : State) (f : Func) (w : Fin 32) (v : DWord) : State :=
  match f with
  | .bridge =>
    let x := s.freeDWord
    x.2.ringFault f (fieldNat x.1 24 8) 1 (loHalf x.1)
  | _ => s.modFn f (fun x => { x with push := x.push.set w v })

/-- A low dword of a 64-bit control value is staged for its requester (R129). -/
def State.stageLow (s : State) (r : Requester) (off : Nat) (v : DWord) : State :=
  s.modReq r (fun x => { x with staged := assocPut x.staged off v })

/-- The low dword that a high-dword write applies: the staged one of that value, or the present one (R129). -/
def State.takeLow (s : State) (r : Requester) (off : Nat) (present : DWord) : DWord :=
  (assocGet (s.reqState r).staged off).getD present

/-- The stage of a value is used up. -/
def State.dropStaged (s : State) (r : Requester) (off : Nat) : State :=
  s.modReq r (fun x => { x with staged := assocErase x.staged off })

/-- BASE of a ring is acceptable for its function (R188, R220). -/
def baseOk (f : Func) (lo hi : DWord) (size : Nat) : Bool :=
  match f with
  | .bridge => hi == 0 && fieldNat lo 0 6 == 0 && inRegion 5 lo.toNat (16 * 2 ^ size)
  | _ => fieldNat lo 0 6 == 0

/-- The bits of RNG_r_BIND that hold a binding. -/
def bindMask : DWord := 0x8FFF0FB0

/-- The present attach instance of a handle: none, written 0, where no device holds it (R283). -/
def State.presentInst (s : State) (h : Nat) : Nat := if (s.dev h).isSome then s.devInst h else 0

/-- A binding taken up: the present attach instance of its device is recorded (R214). -/
def State.bindRing (s : State) (f : Func) (ring : Fin 65) (v : DWord) : State :=
  let inst := s.presentInst (fieldNat v 16 12)
  s.modRing f ring (fun r => { r with bind := v &&& bindMask, bindInst := inst, gone := none, lostTo := none })

/-- A write of RNG_r_CFG to a ring that is not open (R189): a write with OPEN = 1 applies all its fields or none. -/
def State.ringCfg (s : State) (f : Func) (ring : Fin 65) (v : DWord) : State :=
  let r := s.ring f ring
  let size := fieldNat v 24 4
  let mode := fieldNat v 16 2
  let evt := fieldNat v 8 2
  let sizeOk := decide (4 ≤ size) && decide (size ≤ 12)
  if bitOf v 31 then
    let e : Fin 4 := ⟨evt % 4, by omega⟩
    if sizeOk && baseOk f r.baseLo r.baseHi size && decide (mode ≤ 1) && (s.evRing f e).opened && (decide (ring.val ≠ 0) || evt == 0)
    then
      s.modRing f ring (fun r =>
        { r with opened := true, size := size, swell := mode == 1, evt := evt, pi := 0, ci := 0, lostTo := none, staged := [],
                 waitDoorbell := false, spec := none })
    else s
  else
    s.modRing f ring (fun r =>
      { r with size := if sizeOk then size else r.size, swell := if mode ≤ 1 then mode == 1 else r.swell,
               evt := if ring.val = 0 ∧ evt ≠ 0 then r.evt else evt })

/-- A write of RNG_EVTn_CFG (R189, R219). -/
def State.evCfg (s : State) (f : Func) (n : Fin 4) (v : DWord) : State :=
  let r := s.evRing f n
  let size := fieldNat v 24 4
  let sizeOk := decide (4 ≤ size) && decide (size ≤ 12)
  let ival := fieldNat v 8 8
  let cnt := fieldNat v 0 8
  if r.opened then s.modEvRing f n (fun x => { x with modInterval := ival, modCount := cnt })
  else if bitOf v 31 then
    if sizeOk && baseOk f r.baseLo r.baseHi size then
      let s1 := s.modEvRing f n (fun x =>
        { x with opened := true, size := size, modInterval := ival, modCount := cnt, actInterval := ival, actCount := cnt,
                 ep := 0, hci := 0, ticksMsg := 0, sinceMsg := 0, tickDue := false })
      let s2 : State :=
        match f with
        | .bridge => { s1 with lan := { s1.lan with ibp := { s1.lan.ibp with np := s1.lan.ibp.np.set n 0 } } }
        | _ => s1
      s2.restateRing f n
    else s
  else
    s.modEvRing f n (fun x =>
      { x with size := if sizeOk then size else x.size, modInterval := ival, modCount := cnt })

/-- A write to a set-up register of a ring (Table 7.8, R189). -/
def State.ringSetup (s : State) (req : Requester) (f : Func) (off : Nat) (ring : Fin 65) (o : Nat) (v : DWord) : State :=
  let r := s.ring f ring
  if lastRing f < ring.val then s
  else
    match o with
    | 0x00 => if r.opened then s.refuse req 2 off else s.stageLow req off (v &&& 0xFFFFFFC0)
    | 0x04 =>
      if r.opened then s.refuse req 2 off
      else
        (s.modRing f ring (fun r => { r with baseLo := s.takeLow req (off - 4) r.baseLo, baseHi := v })).dropStaged req (off - 4)
    | 0x08 => if r.opened then s.refuse req 2 off else s.ringCfg f ring v
    | 0x10 => if ring.val = 0 then s else if r.opened then s.refuse req 2 off else s.bindRing f ring v
    | _ => s

/-- A write to a set-up register of an Event Ring (Table 7.9). -/
def State.evSetup (s : State) (req : Requester) (f : Func) (off : Nat) (n : Fin 4) (o : Nat) (v : DWord) : State :=
  let r := s.evRing f n
  match o with
  | 0x00 => if r.opened then s.refuse req 2 off else s.stageLow req off (v &&& 0xFFFFFFC0)
  | 0x04 =>
    if r.opened then s.refuse req 2 off
    else (s.modEvRing f n (fun r => { r with baseLo := s.takeLow req (off - 4) r.baseLo, baseHi := v })).dropStaged req (off - 4)
  | 0x08 => s.evCfg f n v
  | _ => s

/-- A write to the RNG block (Tables 7.7 to 7.10), at offset `o` of the block and `off` of the BAR. -/
def State.writeRng (s : State) (req : Requester) (f : Func) (off o : Nat) (v : DWord) : State :=
  if o = 0 then s.ringDoorbell f v
  else if o = 4 then s.ringPush f v
  else if h : 0x1000 ≤ o ∧ o < 0x1080 then s.pushWindow f ⟨(o - 0x1000) / 4, by omega⟩ v
  else if h : 0x2000 ≤ o ∧ o < 0x2820 then s.ringSetup req f off ⟨(o - 0x2000) / 0x20, by omega⟩ ((o - 0x2000) % 0x20) v
  else if h : 0x2A00 ≤ o ∧ o < 0x2A80 then s.evSetup req f off ⟨(o - 0x2A00) / 0x20, by omega⟩ ((o - 0x2A00) % 0x20) v
  else if o = 0x2B00 then s.modFn f (fun x => { x with fault := x.fault.writeAck v })
  else s

/-- DOORBELL_PRODUCER: a write of RNG_DB (R192, R194). -/
def execDoorbellProducer (p : Path) (v : DWord) (s : State) : Host.Outcome State Fault Refusal :=
  .next (s.after (s.ringAccess p 0 (fun f s => s.ringDoorbell f v)))

/-- DOORBELL_CONSUMER: a write of RNG_DB (R193, R194). -/
def execDoorbellConsumer (p : Path) (v : DWord) (s : State) : Host.Outcome State Fault Refusal :=
  .next (s.after (s.ringAccess p 0 (fun f s => s.ringDoorbell f v)))

/-- PUSH_WINDOW_WRITE: a dword written into the Push Window (R202). -/
def execPushWindowWrite (p : Path) (w : Fin 32) (v : DWord) (s : State) : Host.Outcome State Fault Refusal :=
  .next (s.after (s.ringAccess p (0x1000 + 4 * w.val) (fun f s => s.pushWindow f w v)))

/-- PUSH: a write of RNG_PUSH_DB (R203, R204). -/
def execPushDoorbell (p : Path) (v : DWord) (s : State) : Host.Outcome State Fault Refusal :=
  .next (s.after (s.ringAccess p 4 (fun f s => s.ringPush f v)))

/-- RING_OPEN: a write of RNG_r_CFG (R189). -/
def execRingOpen (p : Path) (r : Fin 65) (v : DWord) (s : State) : Host.Outcome State Fault Refusal :=
  let o := 0x2008 + 0x20 * r.val
  .next (s.after (s.ringAccess p o (fun f s => s.ringSetup f.requester f (o + (ringPage p).getD 0) r 8 v)))

/-- EVENT_RING_CFG_WRITE: a write of RNG_EVTn_CFG (R189, R219). -/
def execEventRingCfgWrite (p : Path) (n : Fin 4) (v : DWord) (s : State) : Host.Outcome State Fault Refusal :=
  .next (s.after (s.ringAccess p (0x2A08 + 0x20 * n.val) (fun f s => s.evCfg f n v)))

/-- An index has a held copy, or one that a demand read has staged. -/
def Ring.holds (r : Ring) (i : BitVec 16) : Bool := r.staged.any (fun x => x.index == i)

/-- The first index whose entry is still wanted: CI, or a restored parked transfer's first entry (R483). -/
def Ring.fetchBase (r : Ring) : BitVec 16 :=
  match r.parked with
  | some p => p.first
  | none => r.ci

/-- The first index below PI that is to be read from memory (R197, R198). -/
def Ring.wanted (r : Ring) : Option (BitVec 16) :=
  let base := r.fetchBase
  ((List.range (min 16 (idxDist r.pi base))).map (fun k => base + BitVec.ofNat 16 k)).find? (fun i => !r.holds i)

/-- The next index of a Swell ring's speculative reads (R199): PI to PI + 7, within the staging limit and one ring from CI. -/
def Ring.wantedSpec (r : Ring) : Option (BitVec 16) :=
  match r.spec with
  | none => none
  | some i =>
    if r.swell && decide (idxDist i r.pi < 8) && decide (idxDist i r.ci < 16) && decide (idxDist i r.ci < 2 ^ r.size) then some i
    else none

/-- A copy read from memory is staged at an index that has none. -/
def Ring.stage (r : Ring) (i : BitVec 16) (e : Option Entry) (k : CopyKind) : Ring :=
  if r.holds i then r else { r with staged := r.staged ++ [{ index := i, entry := e, kind := k }] }

/-- Address of the entry at an index. -/
def Ring.entryAddr (r : Ring) (i : BitVec 16) : QWord :=
  ofDWords r.baseHi r.baseLo + BitVec.ofNat 64 (32 * (i.toNat % 2 ^ r.size))

/-- CYCLE of an entry as read. -/
def ecycle (e : Entry) : Bool := bitOf e[7] 0

/-- A poisoned completion of a ring-entry fetch counts once, whatever it carries (R163). -/
def State.poisonedFetch (s : State) (f : Func) (same : Bool) (addr : QWord) : State := if same then s else s.fnReadFault f 4 addr

/-- A read of one wanted index below PI arrives (R163, R198, R200, R207); the flag says that the following items are still used. -/
def State.demandItem (s : State) (f : Func) (ring : Fin 65) (i : BitVec 16) (x : FetchItem) : State × Bool :=
  let r := s.ring f ring
  match x with
  | .entry e =>
    if ecycle e = cycleAt r.size i then (s.modRing f ring (fun r => r.stage i (some e) .memory), true)
    else ((s.ringFault f ring.val 4 i).modRing f ring (fun r => { r with waitDoorbell := true }), false)
  | .poisoned same => ((s.poisonedFetch f same (r.entryAddr i)).modRing f ring (fun r => r.stage i none .memory), true)
  | .failed k =>
    ((s.fnReadFault f (k % 3 + 1) (r.entryAddr i)).modRing f ring (fun r => { r with waitDoorbell := true }), false)

/-- A speculative read of one index arrives (R199): a copy whose CYCLE did not match is discarded; one that came poisoned is held as a
poisoned entry (R28, R163). -/
def State.specItem (s : State) (f : Func) (ring : Fin 65) (i : BitVec 16) (x : FetchItem) : State × Bool :=
  let r := s.ring f ring
  let next (s : State) : State := s.modRing f ring (fun r => { r with spec := some (i + 1) })
  match x with
  | .entry e =>
    if ecycle e = cycleAt r.size i then (next (s.modRing f ring (fun r => r.stage i (some e) .speculative)), true)
    else (next s, true)
  | .poisoned same =>
    (next ((s.poisonedFetch f same (r.entryAddr i)).modRing f ring (fun r => r.stage i none .speculative)), true)
  | .failed k => ((s.fnReadFault f (k % 3 + 1) (r.entryAddr i)).modRing f ring (fun r => { r with waitDoorbell := true }), false)

/-- The entry of the bridge host's ring at an index, read from the Holding Store (R207, R220). -/
def State.bridgeEntry (s : State) (ring : Fin 65) (i : BitVec 16) : FetchItem × State :=
  let r := s.ring .bridge ring
  let x := s.hst.readWords 0x14 (r.baseLo.toNat + 16 * (i.toNat % 2 ^ r.size)) 16
  let s1 : State := { s with hst := x.2 }
  if x.1.any Prod.snd then (.poisoned false, s1)
  else (.entry (Vector.ofFn (fun k : Fin 8 => ofHalves (x.1.getD (2 * k.val + 1) (0, false)).1 (x.1.getD (2 * k.val) (0, false)).1)), s1)

/-- The items of one request arrive in order: demand indices first, then speculative ones (R197 to R200). -/
def State.fetchItems (s : State) (f : Func) (ring : Fin 65) (items : List FetchItem) : State :=
  match items with
  | [] => s
  | x :: rest =>
    let r := s.ring f ring
    let step (i : BitVec 16) (demand : Bool) : State × Bool :=
      let y : FetchItem × State :=
        match f with
        | .bridge => s.bridgeEntry ring i
        | _ => (x, s)
      if demand then y.2.demandItem f ring i y.1 else y.2.specItem f ring i y.1
    match r.wanted, r.wantedSpec with
    | some i, _ => let z := step i true; if z.2 then z.1.fetchItems f ring rest else z.1
    | none, some i => let z := step i false; if z.2 then z.1.fetchItems f ring rest else z.1
    | none, none => s

/-- A ring may have a fetch outstanding (R159, R163, R200, R239): the one in flight at a freeze lands while FREEZING. -/
def State.mayFetch (s : State) (f : Func) (ring : Fin 65) : Bool :=
  let r := s.ring f ring
  r.opened && !r.waitDoorbell && s.canMaster f && !s.isFrozen f &&
    match s.mode with
    | .dark | .wick | .kindle | .service => false
    | _ => true

/-- RING_FETCH_COMPLETE: completions of a ring-entry read of up to four entries (R163, R197 to R200). -/
def execRingFetchComplete (f : Func) (r : Fin 65) (items : List FetchItem) (s : State) : Host.Outcome State Fault Refusal :=
  .next (s.after (if s.mayFetch f r then s.fetchItems f r (items.take 4) else s))

/-- All parameters of a command are zero. -/
def paramsZero (e : Entry) (is : List (Fin 6)) : Bool := is.all (fun i => e[i.val] == 0)

/-- NOOP (R213). -/
def execNoop (f : Func) (s : State) : Host.Outcome State Fault Refusal :=
  .next (s.after (s.runCommand f 0x01 (fun _ => true) (fun s e =>
    if paramsZero e [0, 1, 2, 3, 4, 5] then .done s .success 0 0 else .done s .malformed 0 0)))

/-- UNDEFINED_COMMAND: a head entry that is poisoned, or names no defined command (R205, R207, R211). -/
def execUndefinedCommand (f : Func) (s : State) : Host.Outcome State Fault Refusal := .next (s.after (s.undefinedHead f))

/-- A ring carries an attached Lamp. -/
def State.carriesLamp (s : State) (f : Func) (ring : Fin 65) : Bool := (s.lampOf f ring).isSome

/-- REBIND's start (R215): malformed, or the drain mark is taken and the command parks. -/
def State.rebindStart (s : State) (f : Func) (index : BitVec 16) (e : Entry) : CmdEnd :=
  match ringOf f (fieldNat e[0] 0 8) with
  | none => .done s .malformed 0 0
  | some ring =>
    let r := s.ring f ring
    let bad := fieldNat e[0] 8 24 != 0 || (e[1] &&& ~~~bindMask) != 0 || !paramsZero e [2, 3, 4, 5] || ring.val == 0
      || s.carriesLamp f ring || r.rebind.isSome
    if bad then .done s .malformed 0 0
    else
      let b : Rebind := { tag := cmdTag e, index := index, mark := r.pi, newBind := e[1], inst := s.presentInst (fieldNat e[1] 16 12) }
      .parked (s.modRing f ring (fun r => { r with rebind := some b }))

/-- REBIND (R215). -/
def execRebind (f : Func) (s : State) : Host.Outcome State Fault Refusal :=
  .next (s.after (s.runCommand f 0x02 (fun _ => true) (fun s' e => s'.rebindStart f ((s.ring f 0).ci) e)))

/-- A ring with a parked REBIND is drained (R215). -/
def Ring.drained (r : Ring) (m : BitVec 16) : Bool := !r.opened || (r.ci == m && r.cur.isNone && r.parked.isNone && r.unserved.isEmpty)

/-- The parked REBIND of a ring ends (R210, R215): its tag leaves the parked ones and enters the window with its status. -/
def State.rebindEnd (s : State) (f : Func) (ring : Fin 65) (b : Rebind) : State :=
  let old := (s.ring f ring).bind
  let h := fieldNat b.newBind 16 12
  let st : Status :=
    if b.lost then .gone
    else if !bitOf b.newBind 31 then .success
    else
      match s.dev h with
      | none => .gone
      | some d => if s.portOwner d.port = f then .success else .notOwner
  let s1 := s.modRing f ring (fun r => { r with rebind := none })
  let s2 := if st = .success then s1.bindRing f ring b.newBind else s1
  let s3 := s2.modFn f (fun x => ({ x with parkedTags := x.parkedTags.filter (fun t => t != b.tag) }).enterTag b.tag st.code)
  s3.postEvent f 0 (cmdEvent b.index b.tag 0x02 st old (b.mark.setWidth 32))

/-- REBIND_DRAINED: the ring of a parked REBIND has drained (R215); not while the Buoy is held (R482). -/
def execRebindDrained (f : Func) (r : Fin 65) (s : State) : Host.Outcome State Fault Refusal :=
  .next (s.after
    (match (s.ring f r).rebind with
     | none => s
     | some b => if (s.ring f r).drained b.mark && !s.isHeld f then s.rebindEnd f r b else s))

/-- TRANSFER_START (R222, R232, R245). -/
def execTransferStart (f : Func) (r : Fin 65) (s : State) : Host.Outcome State Fault Refusal :=
  .next (s.after (s.transferStart f r))

/-- NOOP_DESCRIPTOR: a NOOP transfer entry (R230). -/
def execNoopDescriptor (f : Func) (r : Fin 65) (s : State) : Host.Outcome State Fault Refusal :=
  .next (s.after (s.marker f r 7))

/-- WORK_POST: a counter's decrement in ring order (R230, R244). -/
def execWorkPost (f : Func) (r : Fin 65) (s : State) : Host.Outcome State Fault Refusal :=
  .next (s.after (s.marker f r 8))

end Sys2Proof.Machine
end

