-- ==== Sys2Proof/Machine/Beacon.lean ====
section
/-! DEFINITION. The Beacon's Lamps (chapter 9): admission and removal, the Light List walk, the Bulk Circuit, the cut-off at the
tick, and PTM.
Choices: log 10, 32, 36, 37. -/

namespace Sys2Proof.Machine

/-- A Lamp removed, its charges with it. -/
def State.dropLamp (s : State) (fa : Fin 4) (i : Nat) : State := s.modLamps fa (fun l => assocErase l i)

/-- Microframes of the pattern in which a Lamp's footprint places work. -/
def Lamp.places (x : Lamp) (len : Nat) : List Nat := (List.range len).filter (fun m => decide (0 < x.busAt m))

/-- Worst bus load of a fairway over the microframes of one of its Lamps (Table 9.6). -/
def worstAt (ls : List Lamp) (x : Lamp) : Nat :=
  (x.places (patternLen ls)).foldl (fun a m => max a (busLoad ls m)) 0

/-- The phase is excluded for a split Lamp (R293). -/
def Lamp.excluded (x : Lamp) : Bool :=
  x.split && (x.phase % 8 == 7 || x.footprint.any (fun p => decide (7 < x.phase % 8 + p.1)))

/-- Full- and low-speed charge of a split Lamp in each frame in which it is due (R294). -/
def Lamp.ttCharge (x : Lamp) : Nat := busTime x.speed x.iso x.maxp

/-- Load that split Lamps put on a translator in frame `j` of the pattern (R294). -/
def ttLoad (ls : List Lamp) (tt : Nat × Nat) (j : Nat) : Nat :=
  ((ls.filter (fun x => x.split && x.tt == tt)).map (fun x =>
    ((List.range 8).countP (fun k => x.dueAt (8 * j + k))) * x.ttCharge)).sum

/-- One placement of a new Lamp judged: worst bus load and worst keeper load over its microframes, and the first failing limit as
reason, microframe and load (R260, R262, R294). -/
structure Placement where
  phase : Nat
  worstBus : Nat
  worstKeeper : Nat
  failure : Option (Nat × Nat × Nat)
deriving DecidableEq, Repr

/-- The first of some microframes in which a load exceeds its limit. -/
def firstOver (ms : List Nat) (load : Nat → Nat) (limit : Nat) : Option (Nat × Nat) :=
  (ms.find? (fun m => decide (limit < load m))).map (fun m => (m, load m))

/-- A new Lamp judged at a phase against the Lamps of its fairway and of all fairways. -/
def State.place (s : State) (fa : Fin 4) (x0 : Lamp) (phase : Nat) : Placement :=
  let x : Lamp := { x0 with phase := phase }
  let here := x :: (s.lamps fa).map Prod.snd
  let all := x :: s.allLamps
  let len := patternLen all
  let ms := x.places len
  let worst (f : Nat → Nat) : Nat := ms.foldl (fun a m => max a (f m)) 0
  let frames := ((ms.filter (fun m => x.dueAt m)).map (fun m => m / 8)).dedup
  let failure :=
    match firstOver ms (busLoad here) 10000 with
    | some (m, l) => some (1, m, l)
    | none =>
      match firstOver ms (keeperLoad all) s.keeperLimit with
      | some (m, l) => some (2, m, l)
      | none =>
        if x.split then
          match firstOver frames (ttLoad here x.tt) 90000 with
          | some (j, l) => some (4, 8 * j, l)
          | none => none
        else none
  { phase := phase, worstBus := worst (busLoad here), worstKeeper := worst (keeperLoad all), failure := failure }

/-- The better of two placements: lower worst bus load, then lower worst keeper load, then the earlier phase (R261). -/
def Placement.better (a b : Placement) : Placement :=
  if b.worstBus < a.worstBus ∨ (b.worstBus = a.worstBus ∧ b.worstKeeper < a.worstKeeper) then b else a

/-- The best of some placements, in rising phase. -/
def bestOf (l : List Placement) : Option Placement :=
  match l with
  | [] => none
  | a :: rest => some (rest.foldl Placement.better a)

/-- The placement chosen for a Lamp (R261, R262 item 7): of the candidates that pass, the best; where none passes, the best
candidate with its failure. -/
def State.choose (s : State) (fa : Fin 4) (x : Lamp) (auto : Bool) (phase : Nat) : Option Placement :=
  if auto then
    let cands := ((List.range (2 ^ x.pexp)).filter (fun p => !({ x with phase := p } : Lamp).excluded)).map (s.place fa x)
    match bestOf (cands.filter (fun p => p.failure.isNone)) with
    | some p => some p
    | none => bestOf cands
  else some (s.place fa x phase)

/-- The Lamp of an endpoint and direction, held or attached, on its fairway. It is known by its handle, without the attach instance:
the Lamp that a departed device leaves charged (R264) is the Lamp of a device that takes its handle. DESIGN CHOICE (log 10). -/
def State.lampOn (s : State) (h ep : Nat) (dirIn : Bool) : Option (Nat × Lamp) :=
  (s.lamps (handleFa h)).find? (fun x => x.2.dev == h && x.2.ep == ep && x.2.dirIn == dirIn)

/-- RESULT0 of a Lamp command (Table 9.6). -/
def lampResult (fa : Fin 4) (phase i : Nat) : DWord := putField fa.val 28 2 ||| putField phase 16 12 ||| putField i 0 9

/-- The lowest free Lamp number of a fairway (R255). -/
def State.freeLamp (s : State) (fa : Fin 4) : Option Nat :=
  (List.range 512).find? (fun i => (assocGet (s.lamps fa) i).isNone)

/-- The Lamp of a ring's endpoint (R255, R291): it takes effect at the next tick. -/
def State.lampFor (s : State) (f : Func) (ring : Fin 65) (d : DevRec) (er : EpRec) (pexp phase kb : Nat) : Lamp :=
  let r := s.ring f ring
  let multi :=
    match s.dev d.ttHub with
    | some hub => hub.mtt
    | none => false
  { split := d.isSplit, iso := r.xtype == 1, pexp := pexp, phase := phase, dev := r.dev, owner := f, ring := ring.val
    ep := r.ep, dirIn := r.dirIn, speed := d.speed, mult := if er.mult = 0 then 1 else er.mult, maxp := er.maxp
    kbudget := kb, port := d.port, tt := if d.isSplit then (d.ttHub, if multi then d.ttPort else 0) else (0, 0)
    fresh := true }

/-- A new Lamp's record is written, the words of the record before it with it (log 3). -/
def State.putLamp (s : State) (fa : Fin 4) (i : Nat) (x : Lamp) : State :=
  let here (p : (Fin 4 × Nat) × Nat) : Bool := p.1 == (fa, i)
  let s1 := (s.rewrite ((s.bcn.struck.filter here).map Prod.snd)).modLamps fa (fun l => assocPut l i x)
  { s1 with bcn := { s1.bcn with struck := s1.bcn.struck.filter (fun p => !here p) } }

/-- LAMP_ADMIT after the checks of R211 (R262). -/
def State.lampAdmit (s : State) (f : Func) (e : Entry) : CmdEnd :=
  let pexp := fieldNat e[1] 0 4
  let phase := fieldNat e[1] 16 12
  let auto := bitOf e[1] 31
  let kb := fieldNat e[2] 0 16
  let reserved := fieldNat e[0] 8 24 != 0 || fieldNat e[1] 28 3 != 0 || fieldNat e[1] 4 12 != 0 || fieldNat e[2] 16 16 != 0
    || !paramsZero e [3, 4, 5]
  match ringOf f (fieldNat e[0] 0 8) with
  | none => .done s .malformed 0 0
  | some ring =>
    let r := s.ring f ring
    if reserved || decide (12 < pexp) || (!auto && decide (2 ^ pexp ≤ phase)) || (auto && phase != 0) || ring.val == 0
        || !r.opened || s.carriesLamp f ring || r.rebind.isSome || (r.bound && (r.xtype == 0 || r.xtype == 2)) then
      .done s .malformed 0 0
    else if !r.bound then .done s .ringUnbound 0 0
    else
      match s.boundEp r with
      | none => .done s .gone 0 0
      | some (d, er) =>
        let fa := handleFa r.dev
        let x := s.lampFor f ring d er pexp phase kb
        if s.portOwner d.port ≠ f then .done s .notOwner 0 0
        else
          let old := s.lampOn r.dev r.ep r.dirIn
          let attached :=
            match old with
            | some y => !y.2.held
            | none => false
          if (decide (d.speed ≠ .high) && decide (pexp < 3)) || (!auto && x.excluded) || attached then .done s .malformed 0 0
          else
            match old with
            | some (i, y) =>
              .done (s.modLamp fa i (fun y => { y with held := false, owner := f, ring := ring.val, fresh := true })) .success
                (lampResult fa y.phase i)
                (putField (worstAt ((s.lamps fa).map Prod.snd) y) 16 16 ||| putField y.charge 0 16)
            | none =>
              match s.freeLamp fa with
              | none => .done s .bandwidthRefused (putField fa.val 28 2 ||| putField 3 0 4) 0
              | some i =>
                match s.choose fa x auto phase with
                | none => .done s .malformed 0 0
                | some p =>
                  match p.failure with
                  | some (reason, m, load) =>
                    .done s .bandwidthRefused (putField fa.val 28 2 ||| putField m 16 12 ||| putField reason 0 4)
                      (BitVec.ofNat 32 load)
                  | none =>
                    let y : Lamp := { x with phase := p.phase }
                    .done (s.putLamp fa i y) .success (lampResult fa p.phase i)
                      (putField p.worstBus 16 16 ||| putField y.charge 0 16)

/-- The held Lamp that a ring of its port's owner may remove, one bound to its endpoint (R263): its fairway and number. -/
def State.heldLampOf (s : State) (f : Func) (r : Ring) : Option (Fin 4 × Nat) :=
  if !r.bound then none
  else
    match s.lampOn r.dev r.ep r.dirIn with
    | some (i, x) => if x.held && decide (s.portOwner x.port = f) then some (handleFa r.dev, i) else none
    | none => none

/-- LAMP_REMOVE after the checks of R211 (R265): the removal waits for the next tick. -/
def State.lampRemove (s : State) (f : Func) (e : Entry) : CmdEnd :=
  match ringOf f (fieldNat e[0] 0 8) with
  | none => .done s .malformed 0 0
  | some ring =>
    if fieldNat e[0] 8 24 ≠ 0 ∨ paramsZero e [1, 2, 3, 4, 5] = false ∨ ring.val = 0 then .done s .malformed 0 0
    else
      let target :=
        match s.lampOf f ring with
        | some (fa, i, _) => some (fa, i)
        | none => s.heldLampOf f (s.ring f ring)
      match target with
      | some (fa, i) => .started (s.modLamp fa i (fun x => { x with removing := x.removing ++ [f] }))
      | none => .done s .success 0 0

/-- The ring a Lamp serves. -/
def Lamp.ringNo (x : Lamp) : Fin 65 := ⟨x.ring % 65, by omega⟩

/-- A transaction of a Lamp is on a bus. -/
def State.lampOnBus (s : State) (x : Lamp) : Bool :=
  !x.held &&
    match (s.ring x.owner x.ringNo).cur with
    | some t => t.onBus
    | none => false

/-- What is left of an interval when its Lamp serves no more of it: an isochronous one is MISSED (R238), and a split that awaits its
answer begins again (R292). -/
def State.dropInterval (s : State) (x : Lamp) (why : Status × Nat) : State :=
  if s.lampOnBus x || x.held then s
  else if x.iso then s.endTransfer x.owner x.ringNo why.1 why.2
  else s.modCur x.owner x.ringNo (fun t => { t with split := false })

/-- A removed Lamp whose transaction has left the bus goes, and every LAMP_REMOVE of it completes (R265). -/
def State.finishRemoval (s : State) (fa : Fin 4) (i : Nat) (x : Lamp) : State :=
  if !x.removed || s.lampOnBus x then s
  else
    x.removing.foldl (fun s f => s.finishCmd f .success (lampResult fa 0 i) 0) ((s.dropInterval x (.missed, 2)).dropLamp fa i)

/-- Every removal that may complete does. -/
def State.finishRemovals (s : State) : State :=
  (List.finRange 4).foldl (fun s fa => (s.lamps fa).foldl (fun s x => s.finishRemoval fa x.1 x.2) s) s

/-- A held Lamp attaches to the lowest-numbered open ring of the port's owner that is bound to its endpoint and carries no Lamp
(R263). -/
def State.attachHeld (s : State) (fa : Fin 4) (i : Nat) (x : Lamp) : State :=
  if !x.held then s
  else
    let f := s.portOwner x.port
    match (List.finRange 65).find? (fun r =>
        let q := s.ring f r
        decide (r.val ≠ 0) && q.opened && q.bound && q.dev == x.dev && q.ep == x.ep && q.dirIn == x.dirIn
          && !s.carriesLamp f r) with
    | some r => s.modLamp fa i (fun x => { x with held := false, owner := f, ring := r.val })
    | none => s

/-- Step 3 of Table 9.2: admissions and removals take effect, held Lamps attach, and the keeper limit follows the fences. -/
def State.lampStep (s : State) : State :=
  let s1 : State :=
    { s with bcn := { s.bcn with
        lists := s.bcn.lists.map (fun l => l.map (fun x =>
          (x.1, { x.2 with fresh := false, removed := x.2.removed || !x.2.removing.isEmpty })))
        limitK := s.keepersUp } }
  let s2 := s1.finishRemovals
  (List.finRange 4).foldl (fun s fa => (s.lamps fa).foldl (fun s x => s.attachHeld fa x.1 x.2) s) s2

/-- A transfer of a frozen Buoy is consumed unserved: its completion waits for the thaw (R239). -/
def State.unserve (s : State) (f : Func) (ring : Fin 65) (l : List Staged) (st : Status) (sub : Nat) (frame : BitVec 16) : State :=
  let r := s.ring f ring
  let user := ((l.filterMap (fun x => x.entry)).head?.map (fun e => e[4])).getD 0
  (s.consume f ring l.length).modRing f ring (fun x =>
    { x with unserved := x.unserved ++ [{ index := r.ci, status := st, sub := sub, frame := frame, user := user, count := l.length }] })

/-- What the head ISOCH entry of a ring does in a due interval (R228, R238). -/
inductive IsochCheck where
  | serve
  | wait
  /-- TARGET does not name a due microframe of the Lamp. -/
  | malformed
  /-- TARGET has passed: the microframe it names. -/
  | passed (target : BitVec 16)

/-- TARGET breaks R228. -/
def IsochCheck.bad (c : IsochCheck) : Bool :=
  match c with
  | .malformed => true
  | .serve | .wait | .passed _ => false

/-- The head ISOCH entry checked against the Lamp and the microframe now open. -/
def isochCheck (x : Lamp) (n : DWord) (e : Entry) : IsochCheck :=
  if easap e then .serve
  else
    let target := loHalf e[5]
    let diff := (target - loHalf n).toNat
    if !x.dueAt target.toNat then .malformed
    else if diff = 0 then .serve
    else if diff < 32768 then .wait
    else .passed target

/-- A function is a Buoy whose freeze has seen its first tick: its Lamps issue no token (R482). -/
def State.isStill (s : State) (f : Func) : Bool :=
  match f with
  | .buoy b => s.held b && (s.migr b).ticked
  | _ => false

/-- Why an interval is lost without its head being served: the status and SUB, or none where it may be served. -/
def State.lostCause (s : State) (f : Func) (ring : Fin 65) (x : Lamp) : Option (Status × Nat) :=
  if s.isStill f then some (.frozenMissed, 0)
  else if x.poisoned then some (.missed, 2)
  else if !s.canMaster f then some (.missed, 3)
  else if s.evtFull f (s.ring f ring).evtNo then some (.missed, 4)
  else none

/-- The head of a ring checked against its Lamp and the microframe now open: only an ISOCH entry names a microframe (R228). -/
def headCheck (x : Lamp) (n : DWord) (es : List Entry) : IsochCheck :=
  match es with
  | [e] => if x.iso && etype e == 5 then isochCheck x n e else .serve
  | _ => .serve

/-- The head of a periodic ring in a due interval of its Lamp, in microframe `n` (R214, R228, R230, R238, R239): what is decided without
a transaction completes, or waits for the thaw of a frozen Buoy, and the next is considered; the answer holds the transfer to serve.
`why` says that the interval is lost, and `fuel` bounds the staging buffer. -/
def State.lampHead (s : State) (f : Func) (ring : Fin 65) (x : Lamp) (n : DWord) (why : Option (Status × Nat)) :
    Nat → State × Option (List Staged)
  | 0 => (s, none)
  | fuel + 1 =>
    let r := s.ring f ring
    if r.cur.isSome || r.parked.isSome || r.atMark || !s.ringsAlive then (s, none)
    else
      match r.head with
      | none => (s, none)
      | some l =>
        let es := l.filterMap (fun x => x.entry)
        let marker := markerSeq es && es.all (entryOk (decide (f = .bridge)))
        let check := headCheck x n es
        let finish (st : Status) (sub : Nat) (frame : BitVec 16) : State :=
          if s.isStill f then s.unserve f ring l st sub frame
          else (s.consume f ring l.length).complete f ring (headDone r l frame st sub)
        if marker && (s.isStill f || s.evtFull f r.evtNo) then (s, none)
        else
          match s.judge f ring l check.bad with
          | some (st, sub) => (finish st sub (loHalf n)).lampHead f ring x n why fuel
          | none =>
            if marker then (finish .success 0 (loHalf n)).lampHead f ring x n why fuel
            else
              match check, why with
              | .passed t, _ => (finish .missed 1 t).lampHead f ring x n why fuel
              | .serve, some (st, sub) => (finish st sub (loHalf n), none)
              | .serve, none => (s, some l)
              | .wait, _ => (s, none)
              | .malformed, _ => (s, none)

/-- A root port's Lamps are not due (R297): its bus is suspended, in L1, or on its way there or back. -/
def State.portAsleep (s : State) (n : Fin 16) : Bool :=
  match (s.port n).state with
  | .suspended | .l1 | .resuming => true
  | .enabled => decide ((s.port n).wait = .suspendWait)
  | _ => false

/-- The Lamp may be served at all: attached, in force, its device standing on a port that carries transactions (R254, R263,
R272, R297). -/
def State.lampLive (s : State) (x : Lamp) : Bool :=
  !x.held && !x.fresh && !x.removed && s.portCarries x.port && (s.boundEp (s.ring x.owner x.ringNo)).isSome

/-- A transaction of some reserved time, in 10 ns units, ends at least 1.0 us before the next tick when it starts `ns` nanoseconds after
this one (R269), and in microframe 0 not before the start-of-frame or keep-alive of a full- or low-speed root port has ended (R254, Table
9.3: its typical figures are taken as exact, log 32). -/
def State.fitsNow (s : State) (n : Fin 16) (time ns : Nat) : Bool :=
  let sof :=
    if s.bcn.count.toNat % 8 ≠ 0 then 0
    else
      match (s.port n).speed with
      | some .full => 3000
      | some .low => 1400
      | _ => 0
  decide (sof ≤ ns) && decide (ns + 10 * time + 1000 ≤ 125000)

/-- One transaction of a Lamp fits the microframe now open (R259, R269). -/
def State.lampFits (s : State) (x : Lamp) (ns : Nat) : Bool :=
  s.fitsNow x.port (if x.split then x.busAt s.bcn.count.toNat else busTime x.speed x.iso x.maxp) ns

/-- A Lamp may issue a token now (R159, R218, R269, R272, R482). -/
def State.mayServe (s : State) (x : Lamp) (ns : Nat) : Bool :=
  s.lampLive x && !x.poisoned && !s.isStill x.owner && s.canMaster x.owner && !s.evtFull x.owner (s.ring x.owner x.ringNo).evtNo
    && s.lampFits x ns

/-- Where a Lamp stands in the microframe changed. -/
def State.runLamp (s : State) (fa : Fin 4) (i : Nat) (r : LampRun) : State := s.modLamp fa i (fun x => { x with run := r })

/-- A due Lamp's interval ends. -/
def State.restLamp (s : State) (fa : Fin 4) (i : Nat) : State := s.runLamp fa i .rest

/-- The transfer of a Lamp's ring issues its next transaction, if it has what it needs. -/
def State.lampGoes (s : State) (fa : Fin 4) (i : Nat) (x : Lamp) : State × Bool :=
  if s.canIssue x.owner x.ringNo then
    let s1 := (s.runLamp fa i .running).issue x.owner x.ringNo
    if s1.lampOnBus x then (s1, true)
    else if (s1.ring x.owner x.ringNo).cur.any (fun t => t.split) then (s1.runLamp fa i .later, false)
    else (s1.restLamp fa i, false)
  else (s.runLamp fa i .running, false)

/-- A Lamp begins a transfer in its interval: the head of its ring, where there is one to serve. -/
def State.lampBegins (s : State) (fa : Fin 4) (i : Nat) (x : Lamp) (why : Option (Status × Nat)) : State × Bool :=
  match s.lampHead x.owner x.ringNo x s.bcn.count why 17 with
  | (s1, none) => (s1.restLamp fa i, false)
  | (s1, some l) => (s1.startTransfer x.owner x.ringNo l x.maxp).lampGoes fa i x

/-- The walk reaches one Lamp of the open microframe, `ns` nanoseconds after its tick: the state, and whether a transaction went onto
the bus. -/
def State.serveLamp (s : State) (fa : Fin 4) (i : Nat) (x : Lamp) (ns : Nat) : State × Bool :=
  let f := x.owner
  let ring := x.ringNo
  if s.lampOnBus x then (s, false)
  else
    match x.run with
    | .rest | .later => (s, false)
    | .running =>
      if !s.mayServe x ns then (s, false)
      else if x.left = 0 then (s.restLamp fa i, false)
      else if (s.ring f ring).cur.isSome then s.lampGoes fa i x
      else if x.iso then (s.restLamp fa i, false)
      else s.lampBegins fa i x none
    | .due =>
      if s.portAsleep x.port then (s.restLamp fa i, false)
      else if s.lampLive x && !s.lampFits x ns then (s, false)
      else if x.iso then
        let why := s.lostCause f ring x
        if (why.isNone && !s.lampLive x) || (s.isHeld f && !s.isStill f) then (s.restLamp fa i, false)
        else s.lampBegins fa i x why
      else if !s.mayServe x ns || s.isHeld f then (s.restLamp fa i, false)
      else if (s.ring f ring).cur.isSome then s.lampGoes fa i x
      else s.lampBegins fa i x none

/-- Lamps of a fairway in the order of the walk: isochronous first, each group in rising number (R257). -/
def State.walkOrder (s : State) (fa : Fin 4) : List Nat :=
  ((s.lamps fa).filter (fun x => x.2.iso)).map Prod.fst ++ ((s.lamps fa).filter (fun x => !x.2.iso)).map Prod.fst

/-- The walk goes on to the first Lamp that puts a transaction on the bus. -/
def State.walkFrom (s : State) (fa : Fin 4) (ns : Nat) : List Nat → State × Bool
  | [] => (s, false)
  | i :: rest =>
    match assocGet (s.lamps fa) i with
    | none => s.walkFrom fa ns rest
    | some x =>
      let r := s.serveLamp fa i x ns
      if r.2 then r else r.1.walkFrom fa ns rest

/-- Rings with a transaction on a fairway's bus. -/
def State.onBusRings (s : State) (fa : Fin 4) : List (Func × Fin 65) :=
  Func.all.flatMap (fun f => ((List.finRange 65).filter (fun i =>
    let r := s.ring f i
    r.cur.any (fun t => t.onBus) && handleFa r.dev == fa)).map (fun i => (f, i)))

/-- Transactions on a fairway's bus that function-level resets have left behind (R216). -/
def State.orphansOn (s : State) (fa : Fin 4) : List Orphan := s.bcn.orphans.filter (fun x => decide (x.fa = fa))

/-- A transaction is on the fairway's bus. -/
def State.busBusy (s : State) (fa : Fin 4) : Bool := !(s.orphansOn fa).isEmpty || !(s.onBusRings fa).isEmpty

/-- The fairway's transaction engine works in the open microframe. -/
def State.engineOn (s : State) (fa : Fin 4) : Bool :=
  s.fairwaysRun && !(s.fairway fa).failed && !(s.fairway fa).resetting && decide (s.bcn.rate = .microframe) && !s.busBusy fa

/-- A Lamp leaves the walk nothing more to do in this microframe: it is not due, or its next transaction cannot go out in it. -/
def State.lampDone (s : State) (x : Lamp) (ns : Nat) : Bool :=
  match x.run with
  | .rest | .later => true
  | .due | .running => !s.mayServe x ns

/-- The walk of a fairway takes its next step (R257). -/
def State.walk (s : State) (fa : Fin 4) (ns : Nat) : State :=
  if !s.engineOn fa || s.bcn.walked[fa] then s
  else
    let r := s.walkFrom fa ns (s.walkOrder fa)
    if r.2 then r.1
    else if (r.1.lamps fa).all (fun x => r.1.lampDone x.2 ns) then { r.1 with bcn := { r.1.bcn with walked := r.1.bcn.walked.set fa true } }
    else r.1

/-- Rings of the Bulk Circuit of a fairway, from the one after the last served on (R268). -/
def State.bulkOrder (s : State) (fa : Fin 4) : List (Func × Fin 65) :=
  let all := Func.all.flatMap (fun f => ((List.finRange 65).filter (fun i =>
    let r := s.ring f i
    r.opened && r.bound && (r.xtype == 0 || r.xtype == 2) && handleFa r.dev == fa)).map (fun i => (f, i)))
  let later := all.filter (fun x => decide ((s.fairway fa).cursor.1 < x.1.code)
    || (decide ((s.fairway fa).cursor.1 = x.1.code) && decide ((s.fairway fa).cursor.2 < x.2.val)))
  later ++ all.filter (fun x => !later.contains x)

/-- Reserved time of the next transaction of a bulk or control transfer (R259): a setup counts 8 bytes, and a split goes at high speed. -/
def bulkTime (d : DevRec) (e : EpRec) (t : Transfer) : Nat :=
  busTime (if d.isSplit then .high else d.speed) false (if t.stage = .setup then 8 else e.maxp)

/-- A ring of the Bulk Circuit may be served now (R268), and its transaction fits (R269). -/
def State.bulkEligible (s : State) (f : Func) (ring : Fin 65) (ns : Nat) : Bool :=
  s.canMaster f && !s.isHeld f && !s.evtFull f (s.ring f ring).evtNo && s.canIssue f ring &&
    (match s.boundEp (s.ring f ring), (s.ring f ring).cur with
     | some (d, e), some t => s.portCarries d.port && s.fitsNow d.port (bulkTime d e t) ns
     | _, _ => false)

/-- The Bulk Circuit issues one transaction of the next eligible ring (R268). -/
def State.bulkFrom (s : State) (fa : Fin 4) (ns : Nat) : List (Func × Fin 65) → State
  | [] => s
  | (f, ring) :: rest =>
    let s1 := if (s.ring f ring).cur.isNone then s.transferStart f ring else s
    if s1.bulkEligible f ring ns then
      (s1.modFairway fa (fun x => { x with cursor := (f.code, ring.val) })).issue f ring
    else s1.bulkFrom fa ns rest

/-- One visit of the Bulk Circuit, after the walk. -/
def State.bulkVisit (s : State) (fa : Fin 4) (ns : Nat) : State :=
  if !s.engineOn fa || !s.bcn.walked[fa] then s else s.bulkFrom fa ns (s.bulkOrder fa)

/-- A fairway's overrun in a microframe: its kind, and its due Lamps not started (R271). -/
structure Overrun where
  kind : Nat := 0
  missed : Nat := 0
deriving DecidableEq, Repr

/-- A due Lamp that the tick finds not started had a transaction to issue (R271). -/
def State.hadWork (s : State) (x : Lamp) : Bool :=
  let f := x.owner
  let r := s.ring f x.ringNo
  s.lampLive x && !x.poisoned && !s.isHeld f && s.canMaster f && !s.evtFull f r.evtNo
    && (r.cur.isSome || (s.lampHead f x.ringNo x s.bcn.count none 17).2.isSome)

/-- The tick ends the interval of a Lamp that has started (Table 9.7); a split Lamp's goes on to the later offsets of its footprint. -/
def State.cutStarted (s : State) (fa : Fin 4) (i : Nat) (x : Lamp) : State :=
  let f := x.owner
  let goesOn := x.split && decide (x.offsetAt s.bcn.count.toNat < x.lastOffset) && (s.ring f x.ringNo).cur.any (fun t => t.split)
  if goesOn && (!x.iso || decide (x.run = .later)) then s.runLamp fa i .later
  else (s.restLamp fa i).dropInterval x ((s.lostCause f x.ringNo x).getD (.missed, 2))

/-- The tick cuts off one Lamp of the microframe it closes (Table 9.7); the answer says that the tick kept it from its work. -/
def State.cutLamp (s : State) (fa : Fin 4) (i : Nat) (x : Lamp) : State × Bool :=
  let f := x.owner
  let ring := x.ringNo
  match x.run with
  | .rest => (s, false)
  | .later | .running => (s.cutStarted fa i x, false)
  | .due =>
    let lost := s.hadWork x
    let s1 := s.restLamp fa i
    if x.iso && !s.portAsleep x.port && !(s.isHeld f && !s.isStill f) then
      ((s1.lampHead f ring x s.bcn.count (some ((s.lostCause f ring x).getD (.missed, 2))) 17).1, lost)
    else (s1, lost)

/-- A root port that babbled is disabled, and its devices are released (R301). -/
def State.disableBabbler (s : State) (n : Fin 16) : State :=
  ((s.releasePort n 2).modPort n (fun p =>
    { p with state := .disabled, disCause := 1, suspMode := false, wait := .none })).finishPort n 2

/-- A device still transmitting at the tick (R235, R270, R301): BABBLE, unless the device had left or the owner had changed before
(R241, R242), and a root-port device disables its port. -/
def State.babbleRing (s : State) (f : Func) (ring : Fin 65) : State :=
  match (s.ring f ring).cur with
  | none => s
  | some t =>
    let s1 := s.modCur f ring (fun t => { t with onBus := false })
    if t.goneSub.isSome then s1.endIfDue f ring
    else
      let s2 := if t.disowned then s1.endIfDue f ring else s1.endTransfer f ring .babble 2
      match t.seat.root with
      | some n => s2.disableBabbler n
      | none => s2

/-- A transaction that a function-level reset has left behind, ended by the tick (R216, R301). -/
def State.babbleOrphan (s : State) (x : Orphan) : State :=
  let s1 : State := { s with bcn := { s.bcn with orphans := s.bcn.orphans.filter (fun y => decide (y ≠ x)) } }
  match x.root with
  | some n => if (s.port n).enabled then s1.disableBabbler n else s1
  | none => s1

/-- The cut-off of one fairway at the tick (R270, R271). -/
def State.cutFairway (s : State) (fa : Fin 4) : State × Overrun :=
  let bs := s.onBusRings fa
  let os := s.orphansOn fa
  let s1 := os.foldl (fun s x => s.babbleOrphan x) (bs.foldl (fun s x => s.babbleRing x.1 x.2) s)
  let r := (s1.lamps fa).foldl (fun (acc : State × Nat) x =>
      let y := acc.1.cutLamp fa x.1 x.2
      (y.1, if y.2 then acc.2 + 1 else acc.2)) (s1, 0)
  (r.1, { kind := if !bs.isEmpty || !os.isEmpty then 2 else if 0 < r.2 then 1 else 0, missed := r.2 })

/-- Step 1 of Table 9.2: the cut-off on every fairway, and at most one overrun counted and recorded (R271). -/
def State.cutOff (s : State) : State :=
  if !s.fairwaysRun then s
  else
    let r := (List.finRange 4).foldl (fun (acc : State × List (Fin 4 × Overrun)) fa =>
        let y := acc.1.cutFairway fa
        (y.1, acc.2 ++ [(fa, y.2)])) (s, [])
    let worst := r.2.foldl (fun a x => max a x.2.kind) 0
    if worst = 0 then r.1
    else
      match r.2.find? (fun x => x.2.kind == worst) with
      | some (fa, o) =>
        { r.1 with bcn := { r.1.bcn with
            overrun := r.1.bcn.overrun.bump
            overrunLast := putField fa.val 28 2 ||| putField worst 24 4 ||| putField (min o.missed 0xFF) 16 8
              ||| putField s.bcn.count.toNat 0 16 } }
      | none => r.1

/-- A Lamp in the microframe that a tick opens (R256, R257, R297): due, or at a later offset of its footprint. -/
def State.openLamp (s : State) (x : Lamp) : Lamp :=
  let m := s.bcn.count.toNat
  if x.dueAt m && !x.held && !x.removed && !x.fresh && !s.portAsleep x.port then { x with run := .due, left := x.mult }
  else if x.run = .later ∧ 0 < x.busAt m then { x with run := .running }
  else x

/-- Step 9 of Table 9.2: the Lamps with work in the microframe now open await the walk (R256, R257). -/
def State.openWalk (s : State) : State :=
  if !s.fairwaysRun then s
  else
    { s with bcn := { s.bcn with
        walked := Vector.replicate 4 false
        lists := s.bcn.lists.map (fun l => l.map (fun x => (x.1, s.openLamp x.2))) } }

/-- Step 4 of Table 9.2: a PTM pairing is captured while VALID is 1 (R273). -/
def State.ptmCapture (s : State) (time : QWord) : State :=
  let b := s.bcn
  let wanted := b.ptmCapture || (b.ptmMode == 2 && b.count.toNat % 8 == 0)
  if wanted && b.ptmValid[b.ptmLink.idx] then
    { s with bcn := { b with ptmCapture := false, ptmCount := b.count, ptmTime := time, ptmSeq := b.ptmSeq + 1 } }
  else s

/-- PTM works on a link: enabled, and the link in L0 (R165, R273). -/
def State.ptmOn (s : State) (l : Link) : Bool := (s.link l).up && (s.link l).ptmEnable && !(s.link l).l1 && !(s.link l).l2

/-- A write of BCN_PTM_CTL (R273): by the primary manager; MODE takes 0b00 and 0b10 only. -/
def State.writePtmCtl (s : State) (r : Requester) (v : DWord) : State :=
  if !s.isPrimary r then s.refuse r 2 0x30040
  else
    let m := fieldNat v 0 2
    { s with bcn := { s.bcn with
        ptmLink := Link.ofBool (bitOf v 8)
        ptmCapture := s.bcn.ptmCapture || bitOf v 4
        ptmMode := if m = 0 ∨ m = 2 then m else s.bcn.ptmMode } }

/-- TRANSACTION_END (R234 to R237); a Lamp's removal that waited for the transaction completes (R265). -/
def execTransactionEnd (f : Func) (r : Fin 65) (e : UsbEnd) (s : State) : Host.Outcome State Fault Refusal :=
  .next (s.after (s.transactionEnd f r e).finishRemovals)

/-- LAMP_ADMIT (R262). -/
def execLampAdmit (f : Func) (s : State) : Host.Outcome State Fault Refusal :=
  .next (s.after (s.runCommand f 0x30 (fun _ => true) (fun s e => s.lampAdmit f e)))

/-- LAMP_REMOVE (R265). -/
def execLampRemove (f : Func) (s : State) : Host.Outcome State Fault Refusal :=
  .next (s.after (s.runCommand f 0x31 (fun _ => true) (fun s e => s.lampRemove f e)))

/-- BEACON_SAMPLE (R266): the world supplies the nanoseconds since the tick. -/
def execBeaconSample (f : Func) (ns : Nat) (s : State) : Host.Outcome State Fault Refusal :=
  .next (s.after (s.runCommand f 0x32 (fun _ => true) (fun s e =>
    if paramsZero e [0, 1, 2, 3, 4, 5] then .done s .success s.bcn.count (putField ns 0 20) else .done s .malformed 0 0)))

/-- LIGHT_LIST_WALK: the walk's next step on a fairway, at a time after the tick (R257, R269). -/
def execLightListWalk (t : ServeTime) (s : State) : Host.Outcome State Fault Refusal := .next (s.after (s.walk t.fa t.ns))

/-- BULK_CIRCUIT_VISIT: one visit, at a time after the tick (R268, R269). -/
def execBulkCircuitVisit (t : ServeTime) (s : State) : Host.Outcome State Fault Refusal := .next (s.after (s.bulkVisit t.fa t.ns))

/-- PTM_REQUEST: a PTM Request goes out on a link (R273). -/
def execPtmRequest (l : Link) (s : State) : Host.Outcome State Fault Refusal :=
  .next (s.after
    (if s.ptmOn l then
      { (s.emit (.ptmRequest l)) with bcn := { s.bcn with ptmAsked := s.bcn.ptmAsked.set l.idx true } }
     else s))

/-- PTM_DIALOG_COMPLETE: the dialog of an outstanding request has completed (R273). -/
def execPtmDialogComplete (l : Link) (s : State) : Host.Outcome State Fault Refusal :=
  .next (s.after
    (if s.ptmOn l && s.bcn.ptmAsked[l.idx] then
      { s with bcn := { s.bcn with ptmAsked := s.bcn.ptmAsked.set l.idx false, ptmValid := s.bcn.ptmValid.set l.idx true } }
     else s))

/-- PTM_VALID_EXPIRY: 10 ms have passed since the link's last dialog (R273). -/
def execPtmValidExpiry (l : Link) (s : State) : Host.Outcome State Fault Refusal :=
  .next (s.after { s with bcn := { s.bcn with ptmValid := s.bcn.ptmValid.set l.idx false } })

/-- PTM_CAPTURE_REQUEST: a write of BCN_PTM_CTL (R273). -/
def execPtmCaptureRequest (p : Path) (v : DWord) (s : State) : Host.Outcome State Fault Refusal :=
  .next (s.after (s.access p 0x30040 (fun r s => s.writePtmCtl r v)))

end Sys2Proof.Machine
end

