-- ==== Sys2Proof/Machine/Mailbox.lean ====
section
/-! DEFINITION. The mailboxes (R176 to R180): the two directions of each, sends, acknowledgements and resets. -/

namespace Sys2Proof.Machine

/-- A side of a mailbox: a Buoy's tenant, the manager of a Buoy's mailbox, or a link's manager on the cross-link mailbox. -/
inductive MboxSide where
  | tenant (b : Fin 15)
  | manager (b : Fin 15)
  | cross (l : Link)
deriving DecidableEq, Repr

/-- The direction in which a side sends. -/
def State.sends (s : State) (x : MboxSide) : MboxDir :=
  match x with
  | .tenant b => (s.mboxOf b).toMgr
  | .manager b => (s.mboxOf b).toTenant
  | .cross .a => s.lnk.xAtoB
  | .cross .b => s.lnk.xBtoA

/-- The direction in which a side sends, changed. -/
def State.modSends (s : State) (x : MboxSide) (g : MboxDir → MboxDir) : State :=
  match x with
  | .tenant b => s.modMbox b (fun m => { m with toMgr := g m.toMgr })
  | .manager b => s.modMbox b (fun m => { m with toTenant := g m.toTenant })
  | .cross .a => { s with lnk := { s.lnk with xAtoB := g s.lnk.xAtoB } }
  | .cross .b => { s with lnk := { s.lnk with xBtoA := g s.lnk.xBtoA } }

/-- The side that a side sends to. -/
def MboxSide.peer : MboxSide → MboxSide
  | .tenant b => .manager b
  | .manager b => .tenant b
  | .cross l => .cross l.other

/-- The function of a side (R176, R180). -/
def State.sideFn (s : State) (x : MboxSide) : Func :=
  match x with
  | .tenant b => .buoy b
  | .manager _ => s.primary
  | .cross l => Func.manager l

/-- RESULT of a send (Table 6.7). -/
def sendResult (d : MboxDir) (seq : BitVec 16) (len : Nat) : Nat :=
  if seq = d.accepted ∧ d.accepted ≠ 0 then 2
  else if len = 0 ∨ 16 < len then 5
  else if d.acked ≠ d.accepted then 3
  else if seq ≠ d.accepted + 1 then 4
  else 1

/-- An accepted message (row 5 of Table 6.7): payload dwords from LEN on read zero at the receiver. -/
def MboxDir.delivered (d : MboxDir) (seq : BitVec 16) (len : Nat) : MboxDir :=
  { d with accepted := seq, inSeq := seq, inLen := len, inn := Vector.ofFn (fun i : Fin 16 => if i.val < len then d.out[i] else 0) }

/-- The MAILBOX event of a delivered message (Table 18.4). -/
def State.mailboxEvent (s : State) (x : MboxSide) : State :=
  let d := s.sends x
  s.postFnEvent (s.sideFn x.peer) 0x08 (putField d.inSeq.toNat 16 16 ||| putField d.inLen 0 5)
    (putField (s.sideFn x).code 0 8) 0

/-- The decrement of an accepted message (R410, Table 14.2). -/
def State.mailboxDecrement (s : State) (x : MboxSide) (seq : BitVec 16) : State :=
  let k : Fin 16 :=
    match x with
    | .tenant b => ⟨b.val + 1, by omega⟩
    | .manager b => ⟨b.val + 1, by omega⟩
    | .cross _ => 0
  let toMgr : Bool :=
    match x with
    | .tenant _ => true
    | .manager _ => false
    | .cross l => decide (Func.manager l.other = s.primaryMf)
  let v := s.tnd.mbx[k]
  let tag := putField (if toMgr then 0x30 else 0x31) 24 8 ||| putField k.val 16 8 ||| seq.setWidth 32
  if bitOf v (if toMgr then 31 else 15) then s.decrementMbx (s.sideFn x.peer) (fieldNat v (if toMgr then 16 else 0) 11) tag else s

/-- A message to a tenant whose Buoy is frozen is delivered without its event until the thaw (R178, R485). -/
def State.mailboxArrives (s : State) (x : MboxSide) (seq : BitVec 16) : State :=
  let s1 :=
    match x with
    | .manager b => if s.held b then s.modMigr b (fun m => { m with mboxHeld := true }) else s.mailboxEvent x
    | _ => s.mailboxEvent x
  s1.mailboxDecrement x seq

/-- A write of MBX_OUT_SEQ: a send (R176). -/
def State.mailboxSend (s : State) (x : MboxSide) (v : DWord) : State :=
  let seq := hiHalf v
  let len := fieldNat v 0 5
  let r := sendResult (s.sends x) seq len
  let s1 := s.modSends x (fun d => { d with outSeq := v &&& 0xFFFF001F, result := r })
  if r = 1 then (s1.modSends x (fun d => d.delivered seq len)).mailboxArrives x seq else s1

/-- A write of MBX_IN_ACK (R177). -/
def State.mailboxAck (s : State) (x : MboxSide) (v : DWord) : State :=
  s.modSends x.peer (fun d => if loHalf v = d.inSeq then { d with acked := d.inSeq } else d)

/-- A write to a mailbox register at an offset of its layout (Table 6.9). -/
def State.writeMbox (s : State) (x : MboxSide) (o : Nat) (v : DWord) : State :=
  if h : o < 0x40 then s.modSends x (fun d => { d with out := d.out.set (o / 4) v (by omega) })
  else if o = 0x40 then s.mailboxSend x v
  else if o = 0xC4 then s.mailboxAck x v
  else s

/-- An offset of a mailbox's layout that a register occupies (Table 6.9, R130). -/
def mboxRegister (o : Nat) : Bool :=
  decide (o < 0x4C) || (decide (0x80 ≤ o) && decide (o < 0xC8))

/-- A write to the mailbox area of the BUY block (R155, R179, R180): where no register stands it is ignored (R130). -/
def State.writeMboxArea (s : State) (r : Requester) (off : Nat) (v : DWord) : State :=
  if h : 0xC8000 ≤ off ∧ off < 0xC8F00 then
    if !mboxRegister ((off - 0xC8000) % 0x100) then s else
    s.primaryWrite r off (fun s => s.writeMbox (.manager ⟨(off - 0xC8000) / 0x100, by omega⟩) ((off - 0xC8000) % 0x100) v)
  else if 0xC9000 ≤ off ∧ off < 0xC9100 then
    match r with
    | .mfA => s.writeMbox (.cross .a) (off - 0xC9000) v
    | .mfB => s.writeMbox (.cross .b) (off - 0xC9000) v
    | _ => s.refuse r 2 off
  else s

/-- A write that arrives by a path at a mailbox register, tenant or manager side. -/
def State.mailboxAccess (s : State) (p : Path) (off : Nat) (v : DWord) : State :=
  match p with
  | .slot _ b => s.accessAny p off (fun _ s => if 0x3000 ≤ off ∧ off < 0x3100 then s.writeMbox (.tenant b) (off - 0x3000) v else s)
  | .mgrMsix _ => s
  | .mgrCfg _ => s
  | .slotCfg _ _ => s
  | _ => s.access p off (fun r s => s.writeMboxArea r off v)

/-- Offset of a mailbox access in the layout of Table 6.9. -/
def mailboxOffset (p : Path) (off : Nat) : Nat :=
  match p with
  | .slot _ _ => off - 0x3000
  | _ => off % 0x100

/-- MAILBOX_SEND: a write of MBX_OUT_SEQ (R176). -/
def execMailboxSend (p : Path) (off : Nat) (v : DWord) (s : State) : Host.Outcome State Fault Refusal :=
  .next (s.after (if mailboxOffset p off = 0x40 then s.mailboxAccess p off v else s))

/-- MAILBOX_ACK: a write of MBX_IN_ACK (R177). -/
def execMailboxAck (p : Path) (off : Nat) (v : DWord) (s : State) : Host.Outcome State Fault Refusal :=
  .next (s.after (if mailboxOffset p off = 0xC4 then s.mailboxAccess p off v else s))

end Sys2Proof.Machine
end

