-- ==== Sys2Proof/Machine/Links.lean ====
section
/-! DEFINITION. The host links (chapter 6): training and loss, power states, errors, mastering, MSI-X, the DMA windows, and the
assignment of Buoys, ports and keepers.
Choices: log 11, 15, 25, 26, 35, 58. -/

namespace Sys2Proof.Machine

/-- A link may train (R151): its reference clock is there, PERST_N is high, and nothing holds it in reset. -/
def State.mayTrain (s : State) (l : Link) : Bool :=
  s.mode ≠ .dark && s.mode ≠ .wick && !s.linkInReset l && s.clk.refclkOk[l.idx]

/-- LINK_UP (R151, R85, R159): the link reaches L0; after a wake from L2 a PM_PME message follows, and what its functions hold
goes out. -/
def State.linkUp (s : State) (l : Link) (speed : Fin 3) (width : Bool) : State :=
  let s1 := s.modLink l (fun x =>
    { x with up := true, speed := speed.val + 1, width := if width then 2 else 1, l1 := false, l12 := false, l2 := false, wakeDrive := false })
  let s2 := if (s.link l).wakeDrive then s1.emit (.pmPme l) else s1
  (s2.reportLtr l).resumeLink l

/-- LINK_UP. -/
def execLinkUp (l : Link) (speed : Fin 3) (width : Bool) (s : State) : Host.Outcome State Fault Refusal :=
  .next (s.after (if s.mayTrain l && !(s.link l).up then s.linkUp l speed width else s))

/-- L2 is entered only in STANDBY and NIGHT (R164). -/
def State.mayL2 (s : State) : Bool := s.mode = .standby || s.mode = .night

/-- LINK_DOWN: loss of the data link (R152), or its entry into L2 by the host (R164), which keeps the functions' state. -/
def execLinkDown (l : Link) (l2 : Bool) (s : State) : Host.Outcome State Fault Refusal :=
  .next (s.after
    (if !(s.link l).up then s
     else if l2 && s.mayL2 then s.modLink l (fun x => { x with up := false, l1 := false, l12 := false, l2 := true })
     else s.loseLink l))

/-- PERST_ASSERT: PERST_N of a link low after its filter (R104). -/
def execPerstAssert (l : Link) (s : State) : Host.Outcome State Fault Refusal :=
  .next (s.after (if (s.link l).perst then s else (s.loseLink l).modLink l (fun x => { x with perst := true })))

/-- PERST_DEASSERT: PERST_N of a link high again (R104, R151). -/
def execPerstDeassert (l : Link) (s : State) : Host.Outcome State Fault Refusal :=
  .next (s.after (s.modLink l (fun x => { x with perst := false })))

/-- REFCLK_LOSS: a link's reference clock stops for longer than 10 µs (R98). -/
def execRefclkLoss (l : Link) (s : State) : Host.Outcome State Fault Refusal :=
  let s1 : State := { s with clk := { s.clk with refclkOk := s.clk.refclkOk.set l.idx false } }
  .next (s.after (if (s.link l).up then s1.loseLink l else s1))

/-- REFCLK_RESTORE: a link's reference clock is back (R98, R151). -/
def execRefclkRestore (l : Link) (s : State) : Host.Outcome State Fault Refusal :=
  .next (s.after { s with clk := { s.clk with refclkOk := s.clk.refclkOk.set l.idx true } })

/-- A function-level reset received by the Manager function of a link: its own function state and configuration space, VF Enable and
NumVFs among it (Table 4.2); the state of the other functions of the link is not changed (R105, R183). -/
def State.managerReset (s : State) (l : Link) : State :=
  (s.resetFunction (Func.manager l)).modLink l LinkState.resetPf

/-- FUNCTION_LEVEL_RESET (R105, R183): a slot that is AWAY or VACANT resets its own configuration only. -/
def State.functionLevelReset (s : State) (p : Path) : State :=
  if !s.pathLive p then s.turnAway p false
  else
    match p with
    | .mgrCfg l => (s.arrive p).managerReset l
    | .slotCfg l i =>
      let s1 := s.arrive p
      if s.slotState l i = 1 then s1.resetFunction (.buoy i) else s1.resetSlot (msixIdx l (i.val + 1) (by omega))
    | _ => s

/-- FUNCTION_LEVEL_RESET. -/
def execFunctionLevelReset (p : Path) (s : State) : Host.Outcome State Fault Refusal := .next (s.after (s.functionLevelReset p))

/-- VF Enable of a link's PF cleared (R158): each Buoy presented there is reset as by a function-level reset and stays held. -/
def State.vfClear (s : State) (l : Link) : State :=
  let fs := (s.presentedOn l).filter Func.isBuoy
  let s1 := fs.foldl (fun s f => s.resetFunction f) s
  let s2 := (List.finRange 15).foldl (fun s i => s.resetSlot (msixIdx l (i.val + 1) (by omega))) s1
  s2.modLink l (fun x => { x with vfEnable := false })

/-- VF_ENABLE_CLEAR (R158). -/
def execVfEnableClear (l : Link) (s : State) : Host.Outcome State Fault Refusal :=
  .next (s.after
    (if !s.linkOpen l then s.turnAway (.mgrCfg l) false
     else if (s.link l).vfEnable then (s.wakeLink l).vfClear l
     else s.wakeLink l))

/-- L1 is entered as its L1.2 substate (R164): HLx_CLKREQ_N is wired, and the L1 PM Substates control enables it for PCI-PM, bit 0, or
for ASPM, bit 2. -/
def State.entersL12 (s : State) (l : Link) (d3 clkreq : Bool) : Bool := clkreq && bitOf (s.link l).cfg.l1ss1 (if d3 then 0 else 2)

/-- ASPM_L1_ENTRY: the link enters L1, by the device in STANDBY and NIGHT where Link Control enables it, or by the host with the
Manager function in D3hot, and L1.2 where that is enabled (R164). -/
def execAspmL1Entry (x : L1Entry) (s : State) : Host.Outcome State Fault Refusal :=
  let l := x.link
  let d3 := (s.lnk.msix[msixIdx l 0 (by omega)]).d3hot
  let ok := (s.mayL2 && (s.link l).aspmEnable) || d3
  .next (s.after (if (s.link l).up && ok then s.modLink l (fun y => { y with l1 := true, l12 := s.entersL12 l d3 x.clkreq }) else s))

/-- A configuration write of a function's Bus Master Enable and power state (R159). -/
def State.setMastering (s : State) (l : Link) (slot : Fin 16) (bm d3 : Bool) : State :=
  let i := msixIdx l slot.val slot.isLt
  let s1 : State :=
    { s with lnk := { s.lnk with msix := s.lnk.msix.set i { s.lnk.msix[i] with busMaster := bm, d3hot := d3 } } }
  s1.resumeLink l

/-- MASTERING_CHANGE: Bus Master Enable or the power state of a function is written (R159). -/
def execMasteringChange (p : Path) (busMaster d3 : Bool) (s : State) : Host.Outcome State Fault Refusal :=
  .next (s.after
    (if !s.pathLive p then s.turnAway p false
     else
       match p with
       | .mgrCfg l => (s.arrive p).setMastering l 0 busMaster d3
       | .slotCfg l i => (s.arrive p).setMastering l ⟨i.val + 1, by omega⟩ busMaster false
       | _ => s))

/-- LINK_ERROR_DETECTED (R161, R162), with the header of the TLP in error where there is one. -/
def execLinkErrorDetected (l : Link) (e : LinkErrorSeen) (s : State) : Host.Outcome State Fault Refusal :=
  .next (s.after (if (s.link l).up then s.modLink l (fun x => x.noteError e.kind e.header) else s))

/-- BAR2 is open only in SERVICE and UPDATE (R154). -/
def State.bar2Open (s : State) : Bool := s.mode = .service || s.mode = .update

/-- BAR2_WRITE (R154): applied with parity for the primary manager only; word `w` is bytes `2w` and `2w + 1` of the window. -/
def execBar2Write (l : Link) (addr : Nat) (bytes : List Byte) (s : State) : Host.Outcome State Fault Refusal :=
  .next (s.after
    (if !s.pathLive (.bar2 l) then s.turnAway (.bar2 l) true
     else if s.bar2Open && s.isPrimary (Func.manager l).requester && decide (addr + bytes.length ≤ 2 * storeWords) then
       { s.wakeLink l with hst := s.hst.writeBytes addr (bytes.map (fun b => (b, false))) }
     else s.wakeLink l))

/-- A read of `n` dwords of BAR2 (R154): as Unsupported Request while it is closed, and with a poisoned completion where a word of it
fails parity. -/
def State.bar2Read (s : State) (l : Link) (off n : Nat) : State :=
  let p : Path := .bar2 l
  if !s.bar2Open || decide (2 * Machine.storeWords < off + 4 * n) then (s.wakeLink l).unsupported l p false
  else
    let x := s.hst.readWords 0x18 (off / 2) (2 * n)
    let s1 : State := { s.wakeLink l with hst := x.2 }
    if x.1.any Prod.snd then s1.emit (.poisonedCompletion p off)
    else
      s1.emitAll ((List.range n).map (fun i =>
        .readData p (off + 4 * i) (ofHalves (x.1.getD (2 * i + 1) (0, false)).1 (x.1.getD (2 * i) (0, false)).1)))

/-- A dword of an MSI-X table written (R160). -/
def MsixTable.write (t : MsixTable) (off : Nat) (v : DWord) : MsixTable :=
  if h : off < 0x40 then
    let n : Fin 4 := ⟨off / 16, by omega⟩
    match off % 16 with
    | 0 => { t with addr := t.addr.set n (ofDWords (hiDWord t.addr[n]) (v &&& 0xFFFFFFFC)) }
    | 4 => { t with addr := t.addr.set n (ofDWords v (loDWord t.addr[n])) }
    | 8 => { t with data := t.data.set n v }
    | 12 => { t with control := t.control.set n (v &&& 1) }
    | _ => t
  else t

/-- A write to a slot's MSI-X table. -/
def State.writeMsix (s : State) (l : Link) (slot : Nat) (h : slot < 16) (off : Nat) (v : DWord) : State :=
  let i := msixIdx l slot h
  let s1 : State := { s with lnk := { s.lnk with msix := s.lnk.msix.set i (s.lnk.msix[i].write off v) } }
  s1.sendPending l slot h

/-- MSI-X Message Control of a slot: Enable in bit 31 and Function Mask in bit 30 of the capability's first dword. -/
def State.writeMsixControl (s : State) (l : Link) (slot : Nat) (h : slot < 16) (v : DWord) : State :=
  let i := msixIdx l slot h
  let s1 : State :=
    { s with lnk := { s.lnk with msix := s.lnk.msix.set i { s.lnk.msix[i] with enable := bitOf v 31, functionMask := bitOf v 30 } } }
  s1.sendPending l slot h

/-- VF Enable and NumVFs of a PF (R158): NumVFs changes only while VF Enable is 0, and a number above TotalVFs, of which the manual says
nothing, is taken as 15 (DESIGN CHOICE, log 15). -/
def State.writeSriov (s : State) (l : Link) (off : Nat) (v : DWord) : State :=
  if off = 0x158 then
    if bitOf v 0 then (s.modLink l (fun x => { x with vfEnable := true })).resumeLink l
    else if (s.link l).vfEnable then s.vfClear l
    else s
  else if (s.link l).vfEnable then s
  else s.modLink l (fun x => { x with numVFs := min (fieldNat v 0 16) 15 })

/-- A write to a PF's fields that do something (Table 6.2). -/
def State.writePf (s : State) (l : Link) (off : Nat) (v : DWord) : State :=
  let t := s.lnk.msix[msixIdx l 0 (by omega)]
  let p := fieldNat v 0 2
  match off with
  | 0x04 => (s.modMsix (msixIdx l 0 (by omega)) (fun t => { t with memory := bitOf v 1 })).setMastering l 0 (bitOf v 2) t.d3hot
  | 0x44 => if p = 0 ∨ p = 3 then s.setMastering l 0 t.busMaster (p == 3) else s
  | 0x78 => if bitOf v 15 then s.managerReset l else s
  | 0x80 => s.modLink l (fun x => { x with aspmEnable := bitOf v 1 })
  | 0x98 => (s.modLink l (fun x => { x with ltrEnable := bitOf v 10, ltr := if bitOf v 10 then x.ltr else 0 })).reportLtr l
  | 0x158 => s.writeSriov l off v
  | 0x160 => s.writeSriov l off v
  | 0x1B8 => s.modLink l (fun x => { x with ptmEnable := bitOf v 0 })
  | _ => s

/-- A write to a slot's fields that do something: a function-level reset, and Bus Master Enable. -/
def State.writeVf (s : State) (l : Link) (i : Fin 15) (off : Nat) (v : DWord) : State :=
  match off with
  | 0x04 => s.setMastering l ⟨i.val + 1, by omega⟩ (bitOf v 2) false
  | 0x78 =>
    if !bitOf v 15 then s
    else if s.slotState l i = 1 then s.resetFunction (.buoy i)
    else s.resetSlot (msixIdx l (i.val + 1) (by omega))
  | _ => s

/-- A configuration write (R153): what is only kept, then what the field does. -/
def State.writeConfig (s : State) (l : Link) (slot : Fin 16) (off : Nat) (v : DWord) : State :=
  if off = 0x50 then s.writeMsixControl l slot.val slot.isLt v
  else if h : slot.val = 0 then (s.modLink l (fun x => { x with cfg := x.cfg.write off v })).writePf l off v
  else
    (s.modMsix (msixIdx l slot.val slot.isLt) (fun t => t.writeKept off v)).writeVf l ⟨slot.val - 1, by omega⟩ off v

/-- A requester may acknowledge the counts of a link (Table 6.5). -/
def State.mayAckLink (s : State) (r : Requester) (l : Link) : Bool :=
  s.isPrimary r || decide (r = (Func.manager l).requester)

/-- Counts of a link acknowledged (Table 6.12). -/
def State.writeLinkRegs (s : State) (r : Requester) (l : Link) (off o : Nat) (v : DWord) : State :=
  if o = 4 ∨ o = 8 ∨ o = 0xC ∨ o = 0x10 then
    if s.mayAckLink r l then
      s.modLink l (fun x =>
        match o with
        | 4 => { x with errCor := x.errCor.writeAck v }
        | 8 => { x with errUnc := x.errUnc.writeAck v }
        | 0xC => { x with rxPoison := x.rxPoison.writeAck v }
        | _ => { x with dmaFault := x.dmaFault.writeAck v })
    else s.refuse r 2 off
  else s

/-- FUNC codes a DMA window may hold (R174). -/
def winFuncOk (c : Nat) : Bool := c == 0 || c == 1 || (decide (0x21 ≤ c) && decide (c ≤ 0x2F))

/-- A dword of HLK_WINn written (R174, Table 6.13). -/
def State.setWin (s : State) (r : Requester) (off : Nat) (n : Fin 32) (o : Nat) (v : DWord) : State :=
  let w := s.lnk.win[n]
  let put (s : State) (w : DmaWindow) : State := { s with lnk := { s.lnk with win := s.lnk.win.set n w } }
  match o with
  | 0 => s.stageLow r off (v &&& 0xFFFFF000)
  | 4 => (put s { w with baseLo := s.takeLow r (off - 4) w.baseLo, baseHi := v }).dropStaged r (off - 4)
  | 8 => let p := fieldNat v 0 21; if p ≤ 0x100000 then put s { w with size := putField p 0 21 } else s
  | 0xC =>
    let c := fieldNat v 24 8
    put s { w with ctl := (v &&& 0x00030FFF) ||| (if winFuncOk c then putField c 24 8 else w.ctl &&& 0xFF000000) }
  | _ => s

/-- A write to the HLK block (R186). -/
def State.writeHlk (s : State) (r : Requester) (off : Nat) (v : DWord) : State :=
  if 0x10100 ≤ off ∧ off < 0x10120 then s.writeLinkRegs r .a off (off - 0x10100) v
  else if 0x10200 ≤ off ∧ off < 0x10220 then s.writeLinkRegs r .b off (off - 0x10200) v
  else if h : 0x10400 ≤ off ∧ off < 0x10600 then
    s.sealedWrite r off 4 (fun s => s.setWin r off ⟨(off - 0x10400) / 16, by omega⟩ ((off - 0x10400) % 16) v)
  else s

/-- BUOY of an entry's PARAM0. -/
def buoyParam (e : Entry) : Option (Fin 15) :=
  let k := fieldNat e[0] 0 4
  if h : 1 ≤ k ∧ k ≤ 15 then some ⟨k - 1, by omega⟩ else none

/-- One old ring when a port leaves its owner (R20, R242): a started transfer ends NOT_OWNER, at once or after its transaction,
and what has not started is marked. -/
def State.disownRing (s : State) (f : Func) (ring : Fin 65) : State :=
  let s1 := s.modRing f ring (fun r =>
    { r with cur := r.cur.map (fun t => { t with disowned := true }), lostTo := if r.pi = r.ci then none else some r.pi })
  match (s1.ring f ring).cur with
  | some t => if t.onBus then s1 else s1.endTransfer f ring .notOwner 0
  | none => s1

/-- Rings of a function that are bound to a device on a port (R172). -/
def State.ringsOnPort (s : State) (f : Func) (n : Fin 16) : List (Fin 65) :=
  (List.finRange 65).filter (fun i =>
    match s.boundEp (s.ring f i) with
    | some (d, _) => decide (d.port = n)
    | none => false)

/-- Lamps on a port are held for its new owner (R263). -/
def State.holdLamps (s : State) (n : Fin 16) (f : Func) : State :=
  { s with bcn := { s.bcn with
      lists := s.bcn.lists.map (fun l => l.map (fun x =>
        if x.2.port = n then (x.1, { x.2 with held := true, owner := f, run := .rest }) else x)) } }

/-- Ports move to a new owner, all together (R20, R172, R242, R263); the answer holds the old owners' rings concerned. -/
def State.movePorts (s : State) (ns : List (Fin 16)) (code : Func) : State × List (Func × Fin 65) :=
  let moved := ns.filter (fun n => s.fwy.owner[n] != code)
  let rings := moved.flatMap (fun n => (s.ringsOnPort (s.portOwner n) n).map (fun i => (s.portOwner n, i)))
  let s1 : State :=
    { s with fwy := { s.fwy with owner := Vector.ofFn (fun n : Fin 16 => if moved.contains n then code else s.fwy.owner[n]) } }
  let s2 := moved.foldl (fun s n => s.holdLamps n (s.portOwner n)) s1
  (rings.foldl (fun s x => s.disownRing x.1 x.2) s2, rings)

/-- Ports gained and lost by each function between two states (Table 18.4). -/
def ownershipMoves (s0 s1 : State) : List (Func × DWord × DWord) :=
  Func.all.filterMap (fun f =>
    let has (s : State) (i : Nat) : Bool := if h : i < 16 then s.portOwner ⟨i, h⟩ = f else false
    let gained := bitsOf 16 (fun i => has s1 i && !has s0 i)
    let lost := bitsOf 16 (fun i => has s0 i && !has s1 i)
    if gained = 0 ∧ lost = 0 then none else some (f, gained, lost))

/-- Owners have changed, and their command waits for the old owners' entries (R20, R172); what a command whose issuer was reset has
left behind ends with it. -/
def State.beginAssign (s : State) (rings : List (Func × Fin 65)) (moves : List (Func × DWord × DWord)) (release : List (Fin 15)) :
    State :=
  let w := s.lnk.assign.getD { rings := [], moves := [] }
  let w1 : AssignWait :=
    { rings := w.rings ++ rings, moves := w.moves ++ moves, release := w.release ++ release, quiet := false }
  { s with lnk := { s.lnk with assign := some w1 } }

/-- Ports move as one assignment (R20, R172), and what of a release is still to do follows it (R171). -/
def State.assignPorts (s : State) (ns : List (Fin 16)) (o : Func) (release : List (Fin 15)) : State :=
  let m := s.movePorts ns o
  m.1.beginAssign m.2 (ownershipMoves s m.1) release

/-- The release of a held Buoy begins (R171): its ports go to the primary manager under R20; steps 2 to 4 follow once its entries have
been completed. -/
def State.releaseBuoy (s : State) (b : Fin 15) : State :=
  s.assignPorts ((List.finRange 16).filter (fun n => decide (s.fwy.owner[n] = .buoy b))) s.primaryMf [b]

/-- BUOY_HOME's own checks and effect (R170, R171). -/
def State.buoyHome (s : State) (f : Func) (e : Entry) : CmdEnd :=
  let code := fieldNat e[0] 8 2
  let bad := fieldNat e[0] 10 22 != 0 || code == 2 || fieldNat e[0] 4 4 != 0 || !paramsZero e [1, 2, 3, 4, 5]
  if !s.isPrimaryFn f then .done s .notOwner 0 0
  else
    match buoyParam e with
    | none => .done s .malformed 0 0
    | some b =>
      if bad then .done s .malformed 0 0
      else if code = 3 then
        (if (s.buoy b).home.isNone then .done s .success 0 0 else .started (s.releaseBuoy b))
      else
        let l := Link.ofBool (code = 1)
        if !s.slotExists l b || !s.linkFit l then .done s .gone 0 0
        else
          match (s.buoy b).home with
          | some h => if h = l then .done s .success 0 0 else .done s .notOwner 0 0
          | none => .done ((s.modBuoy b (fun x => { x with home := some l })).slotEvents b) .success 0 0

/-- BUOY_HOME (R170, R171). -/
def execBuoyHome (f : Func) (s : State) : Host.Outcome State Fault Refusal :=
  .next (s.after (s.runCommand f 0x20 (fun _ => true) (fun s e => s.buoyHome f e)))

/-- OWNER codes of PORT_ASSIGN (Table 6.6). -/
def ownerParam (e : Entry) : Option Func :=
  match Func.ofCode (fieldNat e[1] 0 8) with
  | some .bridge => none
  | x => x

/-- PORT_ASSIGN names a port that is not fitted, or a Buoy that is unassigned (R170). -/
def State.assignGone (s : State) (ns : List (Fin 16)) (o : Func) : Bool :=
  ns.any (fun n => !s.portFit n) ||
    match o with
    | .buoy b => (s.buoy b).home.isNone
    | _ => false

/-- PORT_ASSIGN's own checks and effect (R170, R172): owners change at once, and the command waits for the old owners' entries. -/
def State.portAssign (s : State) (f : Func) (e : Entry) : CmdEnd :=
  let ns := (List.finRange 16).filter (fun n => bitOf e[0] n.val)
  let bad := fieldNat e[0] 16 16 != 0 || ns.isEmpty || fieldNat e[1] 8 24 != 0 || !paramsZero e [2, 3, 4, 5]
  if !s.isPrimaryFn f then .done s .notOwner 0 0
  else
    match ownerParam e with
    | none => .done s .malformed 0 0
    | some o =>
      if bad then .done s .malformed 0 0
      else if s.assignGone ns o then .done s .gone 0 0
      else .started (s.assignPorts ns o [])

/-- PORT_ASSIGN (R170, R172). -/
def execPortAssign (f : Func) (s : State) : Host.Outcome State Fault Refusal :=
  .next (s.after (s.runCommand f 0x21 (fun _ => true) (fun s e => s.portAssign f e)))

/-- KEEPER_GRANT's own checks and effect (R170, R173). -/
def State.keeperGrant (s : State) (f : Func) (e : Entry) : CmdEnd :=
  let bad := fieldNat e[0] 4 28 != 0 || fieldNat e[1] 12 20 != 0 || !paramsZero e [2, 3, 4, 5]
  if !s.isPrimaryFn f then .done s .notOwner 0 0
  else
    match buoyParam e with
    | none => .done s .malformed 0 0
    | some b =>
      if bad then .done s .malformed 0 0
      else
        let s1 := s.modBuoy b (fun x => { x with grant := e[1].setWidth 12 })
        .done (s1.postFnEvent (.buoy b) 0x0C (e[1] &&& 0xFFF) 0 0) .success 0 0

/-- KEEPER_GRANT (R170, R173). -/
def execKeeperGrant (f : Func) (s : State) : Host.Outcome State Fault Refusal :=
  .next (s.after (s.runCommand f 0x22 (fun _ => true) (fun s e => s.keeperGrant f e)))

end Sys2Proof.Machine
end

