-- ==== Sys2Proof/Machine/TenderCmds.lean ====
section
/-! DEFINITION. The Tender's commands, registers and events (chapter 14).
Choices: log 40. -/

namespace Sys2Proof.Machine

/-- Parameters of a TND_COUNTER are in range (Table 14.4). -/
def counterParamsOk (e : Entry) : Bool :=
  fieldNat e[0] 11 17 == 0 && paramsZero e [2, 3, 4, 5] &&
    match fieldNat e[0] 28 4 with
    | 1 => fieldNat e[1] 28 3 == 0 && decide (fieldNat e[1] 24 4 ≤ 12) && fieldNat e[1] 12 12 == 0 && fieldNat e[1] 0 12 != 0
    | 2 => decide (0x40 ≤ fieldNat e[1] 24 8) && decide (fieldNat e[1] 24 8 ≤ 0xDF)
    | _ => e[1] == 0

/-- CTR of a TND_COUNTER. -/
def ctrParam (e : Entry) : Nat := fieldNat e[0] 0 11

/-- What a TND_COUNTER answers (R421): the counter's view and owner after the action, and the OUTCOME. -/
def State.counterAnswer (s : State) (c outcome : Nat) : CmdEnd :=
  match s.ctr c with
  | some x => .done s .success (counterView x 0) (putField x.owner.code 24 8 ||| putField outcome 0 8)
  | none => .done s .success 0 (putField outcome 0 8)

/-- A WAITING item is linked to a counter. -/
def State.waitingLinked (s : State) (c : Nat) : Bool :=
  match s.ctr c with
  | some x =>
    match x.link with
    | some i =>
      match s.item i with
      | some y => y.state = .waiting
      | none => false
    | none => false
  | none => false

/-- LOAD (R421): the counter starts to count for its new owner, with an empty window. -/
def State.counterLoad (s : State) (f : Func) (c : Nat) (v : DWord) : State :=
  let link :=
    match s.ctr c with
    | some x => x.link.filter (fun i => (s.item i).isSome)
    | none => none
  let x : Counter :=
    { state := .counting, owner := f, value := fieldNat v 0 12, epochEn := bitOf v 31, epochExp := fieldNat v 24 4
      link := link, window := [] }
  State.renewCtr s c x

/-- FREE (R421): the counter becomes UNUSED. -/
def State.counterFree (s : State) (c : Nat) : State := s.modTnd (fun t => { t with counters := assocErase t.counters c })

/-- A TND_COUNTER command's checks and then its action (R421). -/
def State.counterCmd (s : State) (f : Func) (e : Entry) (act : State → Nat → CmdEnd) : CmdEnd :=
  if !counterParamsOk e then .done s .malformed 0 0
  else if !s.mayDecrement f (ctrParam e) then .done s .notOwner 0 0
  else act s (ctrParam e)

/-- A Command Ring entry is a TND_COUNTER of an action. -/
def counterAction (a : Nat) (e : Entry) : Bool := fieldNat e[0] 28 4 == a

/-- TND_COUNTER LOAD (R421). -/
def execTndCounterLoad (f : Func) (s : State) : Host.Outcome State Fault Refusal :=
  .next (s.after (s.runCommand f 0x40 (counterAction 1) (fun s e => s.counterCmd f e (fun s c =>
    if s.waitingLinked c then s.counterAnswer c 1 else (s.counterLoad f c e[1]).counterAnswer c 0))))

/-- TND_COUNTER DEC (R407, R421). -/
def execTndCounterDec (f : Func) (s : State) : Host.Outcome State Fault Refusal :=
  .next (s.after (s.runCommand f 0x40 (counterAction 2) (fun s e => s.counterCmd f e (fun s c =>
    let r := s.decrementBy f c e[1]
    r.2.counterAnswer c r.1))))

/-- TND_COUNTER FREE (R421). -/
def execTndCounterFree (f : Func) (s : State) : Host.Outcome State Fault Refusal :=
  .next (s.after (s.runCommand f 0x40 (counterAction 3) (fun s e => s.counterCmd f e (fun s c =>
    if s.waitingLinked c then s.counterAnswer c 1 else (s.counterFree c).counterAnswer c 0))))

/-- TND_COUNTER READ (R421). -/
def execTndCounterRead (f : Func) (s : State) : Host.Outcome State Fault Refusal :=
  .next (s.after (s.runCommand f 0x40 (counterAction 4) (fun s e => s.counterCmd f e (fun s c => s.counterAnswer c 0))))

/-- Descriptor dwords 0 to 5 of a TND_POST entry. -/
def descriptorOf (e : Entry) : Vector DWord 6 := #v[e[0], e[1], e[2], e[3], e[4], e[5]]

/-- TND_POST (R421). -/
def State.tndPost (s : State) (f : Func) (e : Entry) : CmdEnd :=
  let r := s.postItem f (descriptorOf e)
  match r.1.status with
  | .success => .done r.2 .success (putField r.1.item 0 12) (putField r.1.outcome 0 8)
  | st => .done r.2 st 0 0

/-- TND_POST. -/
def execTndPost (f : Func) (s : State) : Host.Outcome State Fault Refusal :=
  .next (s.after (s.runCommand f 0x41 (fun _ => true) (fun s e => s.tndPost f e)))

/-- TND_CANCEL (R421): a WAITING or READY item becomes FREE and its counter is unlinked. -/
def State.tndCancel (s : State) (f : Func) (e : Entry) : CmdEnd :=
  let i := fieldNat e[0] 0 12
  if fieldNat e[0] 12 20 != 0 || !paramsZero e [2, 3, 4, 5] then .done s .malformed 0 0
  else
    match s.item i with
    | none => .done s .success 0 1
    | some x =>
      if !s.isPrimaryFn f && decide (x.owner ≠ f) then .done s .notOwner 0 0
      else if x.tag ≠ e[1] then .done s .success 0 1
      else if x.state = .running then .done s .success 0 2
      else .done (s.freeItem i) .success 0 0

/-- TND_CANCEL. -/
def execTndCancel (f : Func) (s : State) : Host.Outcome State Fault Refusal :=
  .next (s.after (s.runCommand f 0x42 (fun _ => true) (fun s e => s.tndCancel f e)))

/-- The OWNER of the item a keeper runs. -/
def State.keeperOwner (s : State) (k : Fin 12) : Option Func :=
  match (s.keeper k).run with
  | .item i => (s.item i).map (fun x => x.owner)
  | _ => none

/-- A keeper holds the grant that an owner's requests need (R24). -/
def State.granted (s : State) (k : Fin 12) (f : Func) : Bool :=
  match f with
  | .buoy b => bitOf (s.buoy b).grant k.val
  | _ => true

/-- A keeper's posting registers changed. -/
def State.modKpost (s : State) (k : Fin 12) (g : KeeperPost → KeeperPost) : State :=
  s.modTnd (fun t => { t with kpost := t.kpost.set k (g t.kpost[k]) })

/-- The counter that the record of a refused post names: TRIG's, where there is one. -/
def postedTrig (d : Vector DWord 6) : Nat := if bitOf d[4] 31 then fieldNat d[4] 16 11 else 0

/-- A write of TND_KPOST_GO (R422); a keeper with no item has no OWNER. -/
def State.keeperPost (s : State) (k : Fin 12) : State :=
  let d := (s.tnd.kpost[k]).post
  let r : PostAnswer × State :=
    if !descriptorOk d then ({ status := .malformed }, s)
    else
      match s.keeperOwner k with
      | none => ({ status := .notOwner }, s)
      | some f => if s.granted k f then s.postItem f d else ({ status := .notOwner }, s)
  let res := putField r.1.status.code 24 8 ||| putField r.1.outcome 16 8 ||| putField r.1.item 0 12
  let s1 := r.2.modKpost k (fun x => { x with result := res })
  if r.1.status = .success ∧ r.1.outcome = 0 then s1 else s1.tndFault 4 (postedTrig d) (fieldNat d[5] 24 8)

/-- A write of TND_KDEC (R408, R422, R24). -/
def State.keeperDecrement (s : State) (k : Fin 12) (v : DWord) : State :=
  let tag := (s.tnd.kpost[k]).decTag
  let src := fieldNat tag 24 8
  let c := fieldNat v 0 11
  if src < 0x40 ∨ 0xDF < src then s.tndFault 3 c src
  else
    match s.keeperOwner k with
    | none => s.tndFault 2 c src
    | some f => if s.granted k f then (s.decrementBy f c tag).2 else s.tndFault 2 c src

/-- Whether a requester may acknowledge counts that either manager acknowledges: the bridge host acts as one (R22, R23). -/
def State.isManager (s : State) (r : Requester) : Bool := decide (r = .mfA) || decide (r = .mfB) || s.isPrimary r

/-- A write to a keeper's own posting registers (R422). -/
def State.writeKpost (s : State) (r : Requester) (off : Nat) (v : DWord) : State :=
  match r with
  | .keeper k =>
    if h : 0x90200 ≤ off ∧ off < 0x90218 then
      s.modKpost k (fun x => { x with post := x.post.set ((off - 0x90200) / 4) v (by omega) })
    else if off = 0x90218 then s.keeperPost k
    else if off = 0x90220 then s.modKpost k (fun x => { x with decTag := v })
    else if off = 0x90224 then s.keeperDecrement k v
    else s
  | _ => if off = 0x9021C then s else s.refuse r 2 off

/-- A write to the TND block (R425). -/
def State.writeTnd (s : State) (r : Requester) (off : Nat) (v : DWord) : State :=
  let ack (s : State) (g : Tender → Tender) : State := if s.isManager r then s.modTnd g else s.refuse r 2 off
  if off = 0x90010 then ack s (fun t => { t with watch := t.watch.writeAck v })
  else if off = 0x90014 then ack s (fun t => { t with lost := t.lost.writeAck v })
  else if off = 0x90018 then ack s (fun t => { t with replay := t.replay.writeAck v })
  else if off = 0x9001C then ack s (fun t => { t with dup := t.dup.writeAck v })
  else if off = 0x90020 then ack s (fun t => { t with fault := t.fault.writeAck v })
  else if h : 0x90100 ≤ off ∧ off < 0x90140 then
    s.primaryWrite r off (fun s => s.modTnd (fun t => { t with mbx := t.mbx.set ((off - 0x90100) / 4) (v &&& 0x87FF87FF) (by omega) }))
  else if 0x90200 ≤ off ∧ off < 0x90228 then s.writeKpost r off v
  else s

/-- KEEPER_POST: keeper firmware writes TND_KPOST_GO (R422). -/
def execKeeperPost (k : Fin 12) (v : DWord) (s : State) : Host.Outcome State Fault Refusal :=
  .next (s.after (s.access (.keeper k) 0x90218 (fun r s => s.writeTnd r 0x90218 v)))

/-- KEEPER_DECREMENT: keeper firmware writes TND_KDEC (R422). -/
def execKeeperDecrement (k : Fin 12) (v : DWord) (s : State) : Host.Outcome State Fault Refusal :=
  .next (s.after (s.access (.keeper k) 0x90224 (fun r s => s.writeTnd r 0x90224 v)))

/-- A dispatch (R411, R419): a descriptor that fails parity ends its item POISONED, or is counted where its owner cannot be read. -/
def State.dispatchOne (s : State) : State :=
  if !s.tenderOn then s
  else
    match s.nextDispatch with
    | none => s
    | some (i, k) =>
      match s.item i with
      | none => s
      | some x =>
        if x.badHead then (s.freeItem i).tndFault 1 0 0
        else if x.badBody then s.endItem i .poisoned
        else s.startItem i k

/-- DISPATCH (R411, R442). -/
def execDispatch (s : State) : Host.Outcome State Fault Refusal := .next (s.after s.dispatchOne)

/-- WATCH_EXPIRY (R414). -/
def execWatchExpiry (k : Fin 12) (s : State) : Host.Outcome State Fault Refusal := .next (s.after (s.watchKeeper k))

/-- EPOCH_DECREMENT (R409): the decrements of the microframe now counted, where the tick has not applied them. -/
def execEpochDecrement (s : State) : Host.Outcome State Fault Refusal := .next (s.after (s.epochAt s.bcn.count))

/-- KEEPER_FENCE (R416): a parity failure in the register file or the pipeline of a keeper whose clock runs. -/
def execKeeperFence (k : Fin 12) (pipe : Bool) (s : State) : Host.Outcome State Fault Refusal :=
  .next (s.after (if s.cdRuns (39 + k.val) then s.fence k (if pipe then 2 else 1) else s))

/-- KPR_REVIVE's effect (R418). -/
def State.revive (s : State) (v : DWord) : State :=
  let n := fieldNat v 0 4
  if h : n < 12 then
    if (s.keeper ⟨n, h⟩).fenced && !s.tnd.revivePending then s.modTnd (fun t => { t with revivePending := true, reviveKeeper := n })
    else s
  else s

/-- A write of KPR_REVIVE through the Keyhole (R418, R425). -/
def State.writeRevive (s : State) (p : Path) (v : DWord) : State :=
  s.accessGuarded p 0xA0000 (fun r s => s.primaryWrite r 0xA0000 (fun s => s.revive v))

/-- KPR_REVIVE. -/
def execKprRevive (p : Path) (v : DWord) (s : State) : Host.Outcome State Fault Refusal := .next (s.after (s.writeRevive p v))

/-- The clock of the keeper whose revive is pending would run (R418). -/
def State.reviveClock (s : State) (k : Fin 12) : Bool := (s.modKeeper k (fun x => { x with fenced := false })).cdRuns (39 + k.val)

/-- A keeper whose self-test has passed is dispatchable again (R418). -/
def State.unfence (s : State) (k : Fin 12) : State :=
  let s1 := s.modKeeper k (fun x => { x with fenced := false })
  if (s1.keeper k).run = .idle then s1.modTnd (fun t => { t with idle := t.idle.filter (fun j => j != k) ++ [k] }) else s1

/-- REVIVE_SELF_TEST (R418). -/
def State.reviveTest (s : State) (pass : Bool) : State :=
  if h : s.tnd.revivePending = true ∧ s.tnd.reviveKeeper < 12 then
    let k : Fin 12 := ⟨s.tnd.reviveKeeper, h.2⟩
    if s.reviveClock k then
      let s1 := s.modTnd (fun t => { t with revivePending := false })
      if pass then s1.unfence k
      else s1.modTnd (fun t => { t with fenceLast := putField 3 28 4 ||| putField k.val 24 4 ||| putField s.bcn.count.toNat 0 16 })
    else s
  else s

/-- REVIVE_SELF_TEST. -/
def execReviveSelfTest (pass : Bool) (s : State) : Host.Outcome State Fault Refusal := .next (s.after (s.reviveTest pass))

end Sys2Proof.Machine
end

