-- ==== Sys2Proof/Machine/Ports.lean ====
section
/-! DEFINITION. Root ports, device records and the device tree (chapter 10), and the wake sources of R85.
Choices: log 9, 13, 39. -/

namespace Sys2Proof.Machine

/-- A wake source of R85, by its bit in SUP_WAKE_CFG. -/
def State.wakeSource (s : State) (bit : Nat) : State :=
  if !bitOf s.md.wakeCfg bit then s
  else
    match s.mode with
    | .standby =>
      let s1 : State := { s with md := { s.md with wakeSrc := s.md.wakeSrc ||| putBit true bit } }
      if (s.link s.primaryLink).l2 then s1.modLink s.primaryLink (fun x => { x with wakeDrive := true }) else s1
    | .night => { s with md := { s.md with wakeSrc := s.md.wakeSrc ||| putBit true bit, wakeHeld := true } }
    | _ => s

/-- PORT of a PORT_CTL. -/
def portParam (e : Entry) : Fin 16 := ⟨fieldNat e[0] 0 4, Nat.mod_lt _ (by decide)⟩

/-- Parameters of a PORT_CTL are in range (R279). -/
def portCtlOk (e : Entry) : Bool :=
  fieldNat e[0] 8 24 == 0 && paramsZero e [2, 3, 4, 5]
    && (if fieldNat e[0] 4 4 = 5 then fieldNat e[1] 9 23 == 0 && fieldNat e[1] 4 4 == 0 else e[1] == 0)

/-- A PORT_CTL that ends at once: RESULT0 is PRT_n_STATUS at completion. -/
def State.portDone (s : State) (n : Fin 16) (outcome : Nat) : CmdEnd :=
  .done s .success (s.prtStatus n) (BitVec.ofNat 32 outcome)

/-- A PORT_CTL's checks and then its action, when the port's state allows it (R290, Table 10.2). -/
def State.portCtl (s : State) (f : Func) (e : Entry) (allowed : Port → Bool) (act : State → Fin 16 → CmdEnd) : CmdEnd :=
  let n := portParam e
  if !portCtlOk e then .done s .malformed 0 0
  else if s.portGone n then .done s .gone 0 0
  else if s.portOwner n ≠ f then .done s .notOwner 0 0
  else if !allowed (s.port n) then s.portDone n 1
  else act s n

/-- ACTION of a PORT_CTL. -/
def portAction (a : Nat) (e : Entry) : Bool := fieldNat e[0] 4 4 == a

/-- States from which RESET is allowed (Table 10.2). -/
def Port.mayReset (p : Port) : Bool :=
  match p.state with
  | .attached | .enabled | .suspended | .l1 | .disabled => true
  | _ => false

/-- States from which DISABLE is allowed. -/
def Port.mayDisable (p : Port) : Bool :=
  match p.state with
  | .enabled | .suspended | .l1 => true
  | _ => false

/-- PORT_CTL STATUS (Table 10.2). -/
def execPortCtlStatus (f : Func) (s : State) : Host.Outcome State Fault Refusal :=
  .next (s.after (s.runCommand f 0x14 (portAction 0) (fun s e =>
    s.portCtl f e (fun _ => true) (fun s n => s.portDone n 0))))

/-- RESET begins (R280): devices of an enabled port are released, and SE0 is driven; an earlier owner's PORT_CTL ends with its device. -/
def State.startReset (s : State) (f : Func) (n : Fin 16) : State :=
  ((s.releasePort n 2).finishPort n 2).modPort n (fun p =>
    { p with state := .resetting, suspMode := false, wait := .se0, cmd := [f] })

/-- PORT_CTL RESET (R280). -/
def execPortCtlReset (f : Func) (s : State) : Host.Outcome State Fault Refusal :=
  .next (s.after (s.runCommand f 0x14 (portAction 1) (fun s e =>
    s.portCtl f e Port.mayReset (fun s n => .started (s.startReset f n)))))

/-- The speed that a reset finds (R280): a chirp gives high speed, and otherwise the pull-up seen before it tells. -/
def Port.foundSpeed (p : Port) (seen : Option Speed) : Option Speed :=
  match seen with
  | none => none
  | some .high => some .high
  | some _ => some (if p.connLow then .low else .full)

/-- BUS_RESET_SE0_END: 50 ms of SE0 have ended, with the speed the device shows, if any (R280). -/
def execBusResetSe0End (n : Fin 16) (speed : Option Speed) (s : State) : Host.Outcome State Fault Refusal :=
  .next (s.after
    (if (s.port n).state ≠ .resetting ∨ (s.port n).wait ≠ .se0 then s
     else
       match (s.port n).foundSpeed speed with
       | some v => s.modPort n (fun p => { p with speed := some v, wait := .recovery })
       | none => (s.modPort n (fun p => { p with state := .disabled, disCause := 3, speed := none, wait := .none, chg := p.chg.bump })).finishPort n 0))

/-- RESET_RECOVERY_END: the reset completes with the port ENABLED (R280); a mode that has stopped start-of-frame suspends it at the next
tick (R299). -/
def execResetRecoveryEnd (n : Fin 16) (s : State) : Host.Outcome State Fault Refusal :=
  .next (s.after
    (if (s.port n).state ≠ .resetting ∨ (s.port n).wait ≠ .recovery then s
     else
       (s.modPort n (fun p => { p with state := .enabled, suspMode := false, wait := .none, chg := p.chg.bump })).finishPort n 0))

/-- PORT_CTL SUSPEND (R297): start-of-frame stops at the next tick; a suspend that a former owner began goes on for both. -/
def execPortCtlSuspend (f : Func) (s : State) : Host.Outcome State Fault Refusal :=
  .next (s.after (s.runCommand f 0x14 (portAction 2) (fun s e =>
    s.portCtl f e (fun p => decide (p.state = .enabled)) (fun s n =>
      .started (s.modPort n (fun p => { p with wait := if p.wait = .none then .suspendTick else p.wait, cmd := p.cmd ++ [f] }))))))

/-- At a tick, start-of-frame stops on the ports that are to suspend (R297). -/
def State.suspendTicks (s : State) : State :=
  { s with fwy := { s.fwy with port := s.fwy.port.map (fun p => if p.wait = .suspendTick then { p with wait := .suspendWait } else p) } }

/-- SUSPEND_WAIT_END: 3 ms after start-of-frame stopped, the port is SUSPENDED by its owner (R297). -/
def execSuspendWaitEnd (n : Fin 16) (s : State) : Host.Outcome State Fault Refusal :=
  .next (s.after
    (if (s.port n).state ≠ .enabled ∨ (s.port n).wait ≠ .suspendWait then s
     else (s.modPort n (fun p => { p with state := .suspended, suspMode := false, wait := .none })).finishPort n 0))

/-- PORT_CTL RESUME of a port suspended by its owner (R297, R299). -/
def execPortCtlResume (f : Func) (s : State) : Host.Outcome State Fault Refusal :=
  .next (s.after (s.runCommand f 0x14 (portAction 3) (fun s e =>
    s.portCtl f e (fun p => decide (p.state = .suspended) && !p.suspMode) (fun s n =>
      .started (s.modPort n (fun p => { p with state := .resuming, suspMode := true, wait := .resume, cmd := p.cmd ++ [f] }))))))

/-- RESUME_SIGNAL_END: start-of-frame is back and the port ENABLED (R297), or the device suspends again in a mode that has
stopped start-of-frame (R299). -/
def execResumeSignalEnd (n : Fin 16) (s : State) : Host.Outcome State Fault Refusal :=
  .next (s.after
    (if (s.port n).state ≠ .resuming then s
     else
       (s.modPort n (fun p =>
         { p with state := if s.busesWake then .enabled else .suspended, suspMode := p.suspMode && !s.busesWake, wait := .none
         })).finishPort n 0))

/-- PORT_CTL DISABLE (Table 10.2). -/
def execPortCtlDisable (f : Func) (s : State) : Host.Outcome State Fault Refusal :=
  .next (s.after (s.runCommand f 0x14 (portAction 4) (fun s e =>
    s.portCtl f e Port.mayDisable (fun s n =>
      (((s.releasePort n 2).modPort n (fun p =>
        { p with state := .disabled, disCause := 2, suspMode := false, wait := .none })).finishPort n 2).portDone n 0))))

/-- An attached Lamp serves a port. -/
def State.lampServes (s : State) (n : Fin 16) : Bool := (s.lamps (fairwayOf n)).any (fun x => decide (x.2.port = n) && !x.2.held)

/-- Codes of PRT_n_LPM LAST_RESP and OUTCOME of a device's answer (R300, Table 10.9). -/
def lpmCodes (a : LpmAnswer) : Nat × Nat :=
  match a with
  | .ack => (1, 0)
  | .nyet => (2, 4)
  | .stall => (3, 5)
  | .error => (4, 6)

/-- PORT_CTL L1's own part (R300): a device at depth 0 that is not declared a hub. A suspend that a former owner began ends with the
entry to L1, with OUTCOME 0x01 (log 9). -/
def State.portL1 (s : State) (n : Fin 16) (v : DWord) (ans : LpmAnswer) : CmdEnd :=
  let root := (s.rootDev n).bind s.dev
  match root with
  | none => s.portDone n 1
  | some d =>
    if d.hub then s.portDone n 1
    else if s.lampServes n then s.portDone n 3
    else
      let besl := fieldNat v 0 4
      let c := lpmCodes ans
      let s1 := (s.emit (.usbLpm n besl (bitOf v 8))).modPort n (fun p =>
        { p with lpmResp := c.1, lpmRwe := bitOf v 8, lpmBesl := besl })
      if c.1 = 1 then ((s1.modPort n (fun p => { p with state := .l1, wait := .none })).finishPort n 1).portDone n 0
      else s1.portDone n c.2

/-- PORT_CTL L1 (R300). -/
def execPortCtlL1 (f : Func) (ans : LpmAnswer) (s : State) : Host.Outcome State Fault Refusal :=
  .next (s.after (s.runCommand f 0x14 (portAction 5) (fun s e =>
    s.portCtl f e (fun p => decide (p.state = .enabled)) (fun s n => s.portL1 n e[1] ans))))

/-- A transfer is ready for a port: the head of some ring of its owner bound there, or one that has started (R300). -/
def State.readyForPort (s : State) (n : Fin 16) : Bool :=
  (s.devsOnPort n).any (fun h => (s.ringsOn h).any (fun x => (s.ring x.1 x.2).cur.isSome || (s.ring x.1 x.2).head.isSome))

/-- L1_EXIT (R300): a transfer is ready, a Lamp is attached, or the device wakes where RWE was 1. -/
def execL1Exit (n : Fin 16) (s : State) : Host.Outcome State Fault Refusal :=
  .next (s.after
    (if (s.port n).state = .l1 ∧ ((s.port n).lpmRwe || s.lampServes n || s.readyForPort n) = true then
       s.modPort n (fun p => { p with state := .resuming, suspMode := true, wait := .resume })
     else s))

/-- PULLUP_SEEN (R277). -/
def execPullupSeen (n : Fin 16) (low : Bool) (s : State) : Host.Outcome State Fault Refusal :=
  .next (s.after
    (if (s.port n).state = .disconnected then
       s.modPort n (fun p => { p with state := .debounce, conn := true, connLow := low })
     else s))

/-- ATTACH_DEBOUNCE_END (R277). -/
def execAttachDebounceEnd (n : Fin 16) (s : State) : Host.Outcome State Fault Refusal :=
  .next (s.after (if (s.port n).state = .debounce then s.modPort n (fun p => { p with state := .attached }) else s))

/-- A port on which a disconnect can be recorded (Table 10.1). -/
def Port.connected (p : Port) : Bool :=
  match p.state with
  | .off | .disconnected | .failed => false
  | _ => true

/-- ROOT_DISCONNECT (R288). -/
def execRootDisconnect (n : Fin 16) (s : State) : Host.Outcome State Fault Refusal :=
  .next (s.after
    (if (s.port n).connected then ((s.releasePort n 1).modPort n (fun p => p.disconnected .disconnected)).finishPort n 2 else s))

/-- PORT_REMOTE_WAKE (R298, R299): resume signalling, a change, and in NIGHT the REMOTE wake. -/
def execPortRemoteWake (n : Fin 16) (s : State) : Host.Outcome State Fault Refusal :=
  .next (s.after
    (if (s.port n).state = .suspended then
       (s.modPort n (fun p => { p with state := .resuming, wait := .resume, chg := p.chg.bump })).wakeSource 18
     else s))

/-- PORT_FAIL (R302). -/
def execPortFail (n : Fin 16) (_cause : Nat) (s : State) : Host.Outcome State Fault Refusal :=
  .next (s.after
    (if s.mode = .dark ∨ (s.port n).failed then s
     else ((s.releasePort n 2).modPort n (fun p => { p.disconnected .failed with failed := true })).finishPort n 2))

/-- FAIRWAY_FAIL (R303): its ports become OFF and their devices are released by R278. -/
def execFairwayFail (fa : Fin 4) (cause : Nat) (s : State) : Host.Outcome State Fault Refusal :=
  .next (s.after
    (if s.mode = .dark ∨ (s.fairway fa).failed then s
     else s.modFairway fa (fun x => { x with failed := true, failCause := (cause - 1) % 3 + 1 })))

/-- Packet sizes and multiplicities that Table 10.4 permits. -/
def maxpOk (sp : Speed) (xtype mult maxp : Nat) : Bool :=
  let periodic (top : Nat) : Bool := mult == 1 && decide (1 ≤ maxp) && decide (maxp ≤ top)
  match sp, xtype with
  | .high, 0 => mult == 1 && maxp == 64
  | .high, 2 => mult == 1 && maxp == 512
  | .high, _ =>
    decide (maxp ≤ 1024) &&
      ((mult == 1 && decide (1 ≤ maxp)) || (mult == 2 && decide (513 ≤ maxp)) || (mult == 3 && decide (683 ≤ maxp)))
  | .full, 0 => mult == 1 && (maxp == 8 || maxp == 16 || maxp == 32 || maxp == 64)
  | .full, 2 => mult == 1 && (maxp == 8 || maxp == 16 || maxp == 32 || maxp == 64)
  | .full, 3 => periodic 64
  | .full, _ => periodic 1023
  | .low, 0 => mult == 1 && maxp == 8
  | .low, 3 => periodic 8
  | .low, _ => false

/-- PARENT of a DEV_ADDRESS. -/
def parentParam (e : Entry) : Nat := fieldNat e[0] 16 12

/-- Fields of a DEV_ADDRESS that are in range whatever its parent is (R281). -/
def addressParamsOk (e : Entry) : Bool :=
  fieldNat e[0] 28 2 == 0 && fieldNat e[0] 15 1 == 0 && fieldNat e[0] 4 4 == 0 && paramsZero e [1, 2, 3, 4, 5]
    && (if parentParam e = 0 then fieldNat e[0] 30 2 == 0 else fieldNat e[0] 30 2 != 3 && fieldNat e[0] 0 4 != 0)

/-- The speed a code names. -/
def speedOfCode (c : Nat) : Speed := if c = 0 then .high else if c = 1 then .full else .low

/-- The device record that a DEV_ADDRESS would create, without its endpoint 0 (R281, R289, R291). -/
def State.newDev (s : State) (e : Entry) (par : Option DevRec) : DevRec :=
  let port : Fin 16 := portParam e
  match par with
  | none => { speed := (s.port port).speed.getD .full, port := port }
  | some h =>
    let sp := speedOfCode (fieldNat e[0] 30 2)
    let tt : Nat × Nat :=
      if h.speed = .high then (if sp = .high then (0, 0) else (parentParam e, if h.mtt then port.val else 0))
      else (h.ttHub, h.ttPort)
    { speed := sp, depth := h.depth + 1, port := h.port, parent := parentParam e
      route := h.route + port.val * 16 ^ h.depth, ttHub := tt.1, ttPort := tt.2 }

/-- The address a DEV_ADDRESS takes on a fairway, if one is free (R281). -/
def Fairway.takeAddr (x : Fairway) (req : Nat) : Option Nat :=
  if req = 0 then ((List.range 128).drop 1).find? (fun a => (assocGet x.devs a).isNone)
  else if (assocGet x.devs req).isNone then some req
  else none

/-- The state condition of a DEV_ADDRESS (R281): a root port is ENABLED, and nothing is addressed at the route. -/
def State.addressReady (s : State) (d : DevRec) : Bool :=
  (d.depth != 0 || decide ((s.port d.port).state = .enabled)) &&
    (s.devsOnPort d.port).all (fun h =>
      match s.dev h with
      | some x => !(x.depth == d.depth && x.parent == d.parent && x.route == d.route)
      | none => true)

/-- The two requests that DEV_ADDRESS sends (R281). -/
def getDescriptor8 : List Byte := [0x80, 0x06, 0x00, 0x01, 0x00, 0x00, 0x08, 0x00]

/-- SET_ADDRESS. -/
def setAddress (a : Nat) : List Byte := [0x00, 0x05, BitVec.ofNat 8 a, 0x00, 0x00, 0x00, 0x00, 0x00]

/-- The next attach instance of a handle: one more modulo 256, never 0 again (R283). -/
def nextInst (i : Nat) : Nat := if i = 255 then 1 else i + 1

/-- A DEV_ADDRESS's exchange has ended with an error (R281): its status, and what it counts; where `sent`, SET_ADDRESS had gone out. -/
def State.addressFails (s : State) (fa : Fin 4) (a : Nat) (sent : Bool) (st : Status) (g : Fairway → Fairway) : CmdEnd :=
  .done ((if sent then s.emit (.usbControl fa 0 (setAddress a)) else s).modFairway fa g) st 0 0

/-- The exchange of a DEV_ADDRESS with the device goes on, or ends with its results (R281, R282). INSTANCE of an OUTCOME that addresses
nothing is 0: DESIGN CHOICE (log 9). -/
def State.addressDevice (s : State) (x : Addressing) (ans : AddressAnswer) : CmdEnd :=
  let d := x.dev
  let fa := fairwayOf d.port
  let h := handleOf fa x.addr
  match ans with
  | .pending => .started (s.modFairway fa (fun y => { y with addressing := some x }))
  | .stall late => s.addressFails fa x.addr late .stall id
  | .babble late atTick =>
    let r := s.addressFails fa x.addr late .babble (fun y => { y with babble := y.babble.bump })
    match r with
    | .done s1 st r0 r1 => if atTick && d.depth == 0 then .done (s1.disableBabbler d.port) st r0 r1 else r
    | _ => r
  | .error late => s.addressFails fa x.addr late .xactError (fun y => { y with xerr := y.xerr.bump })
  | .splitErr late => s.addressFails fa x.addr late .splitError (fun y => { y with split := y.split.bump })
  | .ok maxp =>
    let s2 := s.emit (.usbControl fa 0 (setAddress x.addr))
    let r1 := putField d.speed.code 8 2 ||| putField maxp 0 8
    if maxpOk d.speed 0 1 maxp then
      let inst := nextInst (s.devInst h)
      let s3 := s2.modFairway fa (fun y =>
        { y with insts := assocPut y.insts x.addr inst
                 devs := assocPut y.devs x.addr { d with inst := inst, eps := [(0, { xtype := 0, mult := 1, maxp := maxp })] } })
      .done s3 .success (putField inst 16 8 ||| putField h 0 12) r1
    else .done s2 .success 0 (putField 2 16 8 ||| r1)

/-- The declared hub that a DEV_ADDRESS names. -/
def State.addressParent (s : State) (e : Entry) : Option DevRec :=
  if parentParam e = 0 then none else (s.dev (parentParam e)).filter (fun d => d.hub)

/-- DEV_ADDRESS's checks in the order of R290, up to the ownership of the port. -/
def State.addressRefused (s : State) (f : Func) (e : Entry) : Option Status :=
  let par := s.addressParent e
  let d := s.newDev e par
  if !addressParamsOk e || !par.all (fun h => decide (fieldNat e[0] 0 4 ≤ h.hubPorts)) then some .malformed
  else if (decide (parentParam e ≠ 0) && par.isNone) || s.portGone d.port then some .gone
  else if s.portOwner d.port ≠ f then some .notOwner
  else none

/-- A DEV_ADDRESS that its checks would carry out waits at its ring while another holds address 0 on the fairway (R282). -/
def State.addressWaits (s : State) (f : Func) (e : Entry) : Bool :=
  (s.addressRefused f e).isNone && (s.fairway (fairwayOf (s.newDev e (s.addressParent e)).port)).addressing.isSome

/-- DEV_ADDRESS begins (R281); SPEED and MAXP0 of a command that addresses nothing are not stated, and free. -/
def State.devAddress (s : State) (f : Func) (e : Entry) (ans : AddressAnswer) : CmdEnd :=
  match s.addressRefused f e with
  | some st => .done s st 0 0
  | none =>
    let d := s.newDev e (s.addressParent e)
    let fa := fairwayOf d.port
    match (s.fairway fa).takeAddr (fieldNat e[0] 8 7), s.addressReady d with
    | some a, true => (s.emit (.usbControl fa 0 getDescriptor8)).addressDevice { fn := f, dev := d, addr := a } ans
    | _, _ =>
      let v := s.freeDWord
      .done v.2 .success 0 (putField 1 16 8 ||| (v.1 &&& 0x3FF))

/-- The DEV_ADDRESS that a function has in progress. -/
def State.addressingOf (s : State) (f : Func) : Option Addressing :=
  (List.finRange 4).findSome? (fun fa => (s.fairway fa).addressing.filter (fun x => decide (x.fn = f)))

/-- A DEV_ADDRESS in progress hears from its device (R281): its end frees address 0 and completes it. -/
def State.addressGoesOn (s : State) (x : Addressing) (ans : AddressAnswer) : State :=
  let s0 := s.modFairway (fairwayOf x.dev.port) (fun y => { y with addressing := none })
  match s0.addressDevice x ans with
  | .done s1 st r0 r1 => s1.finishCmd x.fn st r0 r1
  | .started s1 => s1
  | .parked s1 => s1

/-- DEV_ADDRESS (R281, R282, R283): the command as it starts, with what the device answers, and again for the rest of an exchange that
was `pending`. -/
def execDevAddress (f : Func) (ans : AddressAnswer) (s : State) : Host.Outcome State Fault Refusal :=
  .next (s.after
    (match s.addressingOf f with
     | some x => s.addressGoesOn x ans
     | none => s.runCommand f 0x10 (fun e => !s.addressWaits f e) (fun s e => s.devAddress f e ans)))

/-- DEV of a device command. -/
def devParam (e : Entry) : Nat := fieldNat e[0] 0 12

/-- A device has a device addressed behind it. -/
def State.hasBehind (s : State) (h : Nat) : Bool := (s.fairway (handleFa h)).devs.any (fun x => x.2.parent == h)

/-- DEV_HUB's ranges that depend on the device (R284). -/
def State.hubRangeOk (s : State) (h : Nat) (v : DWord) (d : DevRec) : Bool :=
  decide (d.speed ≠ .low) && !(bitOf v 5 && decide (d.speed = .full)) && d.depth != 5
    && !(d.hub && s.hasBehind h
      && !(d.think == fieldNat v 6 2 && d.mtt == bitOf v 5 && d.hubPorts == fieldNat v 0 4))

/-- DEV_HUB (R284, R290). -/
def State.devHub (s : State) (f : Func) (e : Entry) : CmdEnd :=
  let v := e[1]
  let h := devParam e
  let ok := fieldNat e[0] 12 20 == 0 && fieldNat v 8 24 == 0 && fieldNat v 4 1 == 0 && fieldNat v 0 4 != 0 && paramsZero e [2, 3, 4, 5]
  if !ok then .done s .malformed 0 0
  else
    match s.dev h with
    | none => .done s .gone 0 0
    | some d =>
      if !s.hubRangeOk h v d then .done s .malformed 0 0
      else if s.portGone d.port then .done s .gone 0 0
      else if s.portOwner d.port ≠ f then .done s .notOwner 0 0
      else
        .done (s.putDev h { d with hub := true, think := fieldNat v 6 2, mtt := bitOf v 5, hubPorts := fieldNat v 0 4 }) .success 0 0

/-- DEV_HUB. -/
def execDevHub (f : Func) (s : State) : Host.Outcome State Fault Refusal :=
  .next (s.after (s.runCommand f 0x11 (fun _ => true) (fun s e => s.devHub f e)))

/-- Fields of an EP_CONFIG that are in range whatever the device is (R285). -/
def epParamsOk (e : Entry) : Bool :=
  let ep := fieldNat e[0] 8 4
  let xt := fieldNat e[0] 4 2
  let remove := fieldNat e[1] 0 13 == 0
  fieldNat e[0] 28 4 == 0 && fieldNat e[0] 12 4 == 0 && fieldNat e[0] 6 1 == 0 && fieldNat e[0] 0 4 == 0
    && fieldNat e[1] 21 11 == 0 && paramsZero e [2, 3, 4, 5] && (decide (xt = 0) == decide (ep = 0))
    && (ep != 0 || (!bitOf e[0] 7 && !remove && fieldNat e[1] 13 8 == 0))

/-- A Lamp, attached or held, serves an endpoint of a device. -/
def State.epHasLamp (s : State) (h ep : Nat) (dirIn : Bool) : Bool := (s.lampOn h ep dirIn).isSome

/-- Started transfers whose endpoint record no longer fits their binding end GONE (R241, R286). -/
def State.endUnbound (s : State) (h : Nat) : State :=
  (s.ringsOn h).foldl (fun s x =>
    if (s.ring x.1 x.2).cur.isSome && (s.boundEp (s.ring x.1 x.2)).isNone then
      let s1 := s.modRing x.1 x.2 (fun r => { r with cur := r.cur.map (fun t => { t with goneSub := some 1 }) })
      if (s1.ring x.1 x.2).cur.any (fun t => t.onBus) then s1 else s1.endTransfer x.1 x.2 .gone 1
    else s) s

/-- EP_CONFIG's effect (R285): the record written or removed, its toggles at DATA0; the same values written again change only them. -/
def State.writeEp (s : State) (h : Nat) (d : DevRec) (e : Entry) : State :=
  let key := epKey (fieldNat e[0] 8 4) (bitOf e[0] 7)
  let x : EpRec := { xtype := fieldNat e[0] 4 2, mult := fieldNat e[1] 11 2, maxp := fieldNat e[1] 0 11, intf := fieldNat e[1] 13 8 }
  let same (y : EpRec) : Bool := y.xtype == x.xtype && y.mult == x.mult && y.maxp == x.maxp && y.intf == x.intf
  let new : EpRec := { x with ping := ((assocGet d.eps key).filter same).any (fun y => y.ping) }
  let eps := if fieldNat e[1] 0 13 = 0 then assocErase d.eps key else assocPut d.eps key new
  (s.putDev h { d with eps := eps }).endUnbound h

/-- EP_CONFIG (R285, R290). -/
def State.epConfig (s : State) (f : Func) (e : Entry) : CmdEnd :=
  let h := fieldNat e[0] 16 12
  if !epParamsOk e then .done s .malformed 0 0
  else
    match s.dev h with
    | none => .done s .gone 0 0
    | some d =>
      let fits := fieldNat e[1] 0 13 == 0 || maxpOk d.speed (fieldNat e[0] 4 2) (fieldNat e[1] 11 2) (fieldNat e[1] 0 11)
      if !fits || s.epHasLamp h (fieldNat e[0] 8 4) (bitOf e[0] 7) then .done s .malformed 0 0
      else if s.portGone d.port then .done s .gone 0 0
      else if s.portOwner d.port ≠ f then .done s .notOwner 0 0
      else .done (s.writeEp h d e) .success 0 0

/-- EP_CONFIG. -/
def execEpConfig (f : Func) (s : State) : Host.Outcome State Fault Refusal :=
  .next (s.after (s.runCommand f 0x12 (fun _ => true) (fun s e => s.epConfig f e)))

/-- DEV_RELEASE (R287, R290). -/
def State.devRelease (s : State) (f : Func) (e : Entry) : CmdEnd :=
  let h := devParam e
  if fieldNat e[0] 12 20 != 0 || !paramsZero e [1, 2, 3, 4, 5] then .done s .malformed 0 0
  else
    match s.dev h with
    | none => .done s .gone 0 0
    | some d =>
      if s.portGone d.port then .done s .gone 0 0
      else if s.portOwner d.port ≠ f then .done s .notOwner 0 0
      else .done (s.release h 1) .success 0 0

/-- DEV_RELEASE. -/
def execDevRelease (f : Func) (s : State) : Host.Outcome State Fault Refusal :=
  .next (s.after (s.runCommand f 0x13 (fun _ => true) (fun s e => s.devRelease f e)))

/-- A write to the FWY and PRT blocks (R305): ACK fields, by either manager. -/
def State.writeBus (s : State) (r : Requester) (off : Nat) (v : DWord) : State :=
  let ack (s : State) (act : State → State) : State := if s.isManager r then act s else s.refuse r 2 off
  if h : off < 0x40400 ∧ 0x40000 ≤ off then
    let fa : Fin 4 := ⟨(off - 0x40000) / 0x100, by omega⟩
    match (off - 0x40000) % 0x100 with
    | 0x04 => ack s (fun s => s.modFairway fa (fun x => { x with xerr := x.xerr.writeAck v }))
    | 0x08 => ack s (fun s => s.modFairway fa (fun x => { x with split := x.split.writeAck v }))
    | 0x0C => ack s (fun s => s.modFairway fa (fun x => { x with babble := x.babble.writeAck v }))
    | _ => s
  else if h : 0x50000 ≤ off ∧ off < 0x60000 then
    if (off - 0x50000) % 0x1000 = 4 then
      ack s (fun s => s.modPort ⟨(off - 0x50000) / 0x1000, by omega⟩ (fun p => { p with chg := p.chg.writeAck v }))
    else s
  else s

end Sys2Proof.Machine
end

