-- ==== Sys2Proof/Machine/Power.lean ====
section
/-! DEFINITION. Moorings and sectors (chapter 12): the comparators' trips, retry gaps and latches, sector ramps and faults,
shedding, the port power commands, and the MOR and SEC registers as written.
Choices: log 48, 49. -/

namespace Sys2Proof.Machine

/-- Keeper firmware as a requester. -/
def Requester.isKeeper (r : Requester) : Bool :=
  match r with
  | .keeper _ => true
  | _ => false

/-- A path's quad is ganged (R355); PU belongs to no sector. -/
def State.ganged (s : State) (p : Fin 17) : Bool :=
  match portOfPath p with
  | some n => (s.sector (sectorOf n)).gang
  | none => false

/-- A path has its own shunt's comparators (R347, R355). -/
def State.shunted (s : State) (p : Fin 17) : Bool := (s.moor p).gate && !s.ganged p

/-- FAST_OVERCURRENT (R347, R355). -/
def execFastOvercurrent (n : Fin 17) (s : State) : Host.Outcome State Fault Refusal :=
  .next (s.after (if s.shunted n then s.trip n 1 else s))

/-- SLOW_OVERCURRENT (R347, R350, R355): the sector's current loop replaces it under a PPS contract. -/
def execSlowOvercurrent (n : Fin 17) (s : State) : Host.Outcome State Fault Refusal :=
  .next (s.after (if s.shunted n && (s.eng n).kind != 3 then s.trip n 2 else s))

/-- OVERVOLTAGE_TRIP (R347): per port in every mode of reporting. -/
def execOvervoltageTrip (n : Fin 17) (s : State) : Host.Outcome State Fault Refusal := .next (s.after (s.trip n 3))

/-- REVERSE_CURRENT_TRIP (R347, R355). -/
def execReverseCurrentTrip (n : Fin 17) (s : State) : Host.Outcome State Fault Refusal :=
  .next (s.after (if s.shunted n then s.trip n 4 else s))

/-- RETRY_GAP_EXPIRY (R349). -/
def execRetryGapExpiry (n : Fin 17) (s : State) : Host.Outcome State Fault Refusal :=
  .next (s.after (s.modMoor n (fun m => { m with gap := false })))

/-- RUN returns to 0 (R349): 10 s of a port's power without a trip are 10 s without a fault of its sector too. -/
def State.clearRun (s : State) (p : Fin 17) : State :=
  let s1 := s.modMoor p (fun m => { m with run := 0 })
  match portOfPath p with
  | some n => s1.modSector (sectorOf n) (fun x => { x with run := 0 })
  | none => s1

/-- TRIP_RUN_CLEAR (R349). -/
def execTripRunClear (n : Fin 17) (s : State) : Host.Outcome State Fault Refusal :=
  .next (s.after (if (s.moor n).gate then s.clearRun n else s))

/-- The CC lines have shown no partner for tCCDebounce (R349): the latch clears, and a later partner is a new one. -/
def State.noPartner (s : State) (p : Fin 17) : State :=
  (s.modMoor p (fun m => { m with latched := false })).modEng p (fun x => { x with known := false })

/-- LATCH_CLEAR_NO_PARTNER (R349). -/
def execLatchClearNoPartner (n : Fin 17) (s : State) : Host.Outcome State Fault Refusal :=
  .next (s.after (if (s.eng n).partner = 0 then s.noPartner n else s))

/-- The condition under which a Mooring failure of a cause can arise (R356). -/
def State.mayFail (s : State) (p : Fin 17) (cause : Nat) : Bool :=
  let x := s.eng p
  s.mode ≠ .dark && !s.pathFailed p &&
    (cause == 2 ||
      (cause == 3 && !(s.moor p).gate && !(decide (x.state = .waitSnk) || decide (x.state = .tryWaitSnk) || decide (x.state = .attSnk))) ||
      (cause == 4 && (s.moor p).gate) || (cause == 5 && (s.moor p).gate))

/-- A path fails for a Mooring cause (R302, R356): the gate turns off, the terminations are removed, the port is FAILED. -/
def State.failPath (s : State) (p : Fin 17) (cause : Nat) : State :=
  let s1 := (s.leavePartner p .disabled).modMoor p (fun m => { m with failCause := cause })
  match portOfPath p with
  | some n => ((s1.releasePort n 2).modPort n (fun x => { x.disconnected .failed with failed := true })).finishPort n 2
  | none => s1.modMoor p (fun m => { m with failed := true })

/-- MOORING_FAIL (R356): a self-test's cause belongs to PORT_RESET_END. -/
def execMooringFail (n : Fin 17) (cause : Nat) (s : State) : Host.Outcome State Fault Refusal :=
  .next (s.after (if s.mayFail n cause then s.failPath n cause else s))

/-- The powered ports of a quad. -/
def State.poweredPorts (s : State) (q : Fin 4) : List (Fin 16) := (portsOf q).filter (fun n => (s.moor (pathOf n)).gate)

/-- A port's recorded or pending contract stands at a voltage in 10 mV units. -/
def Engine.contractAt (x : Engine) (v : Nat) : Bool :=
  (x.kind != 0 && 2 * x.volt == v) ||
    match x.pend with
    | some (_, pv, _) => 2 * pv == v
    | none => false

/-- The tests of R353 in their order: 0 where all pass. -/
def State.targetCode (s : State) (q : Fin 4) (v : Nat) : Nat :=
  if v < 500 ∨ 4900 < v ∨ 10 * (s.sector q).vmax < v then 1
  else if (s.poweredPorts q).any (fun n => decide (10 * (s.moor (pathOf n)).vmax < v)) then 1
  else if v ≠ 500 ∧ (s.poweredPorts q).any (fun n => !(s.eng (pathOf n)).contractAt v) = true then 2
  else if fieldNat s.sup.vmon 16 16 + 200 < v then 3
  else if s.overbudget q then 4
  else if (s.sector q).faulted then 5
  else 0

/-- Offset of SEC_s_TARGET. -/
def targetOff (q : Fin 4) : Nat := 0x70808 + 0x40 * q.val

/-- A write to SEC_s_TARGET (R353). -/
def State.writeTarget (s : State) (r : Requester) (q : Fin 4) (v : DWord) : State :=
  let closed :=
    match s.mode with
    | .safe | .relight | .update => true
    | _ => false
  if !(s.isPrimary r || r.isKeeper) || closed then s.refuse r 2 (targetOff q)
  else
    let t := fieldNat v 0 13
    let code := s.targetCode q t
    if code = 0 then (s.modSector q (fun x => { x with refuse := 0 })).startRamp q t
    else s.modSector q (fun x => { x with refuse := code })

/-- SEC_TARGET_WRITE (R353). -/
def execSecTargetWrite (p : Path) (q : Fin 4) (v : DWord) (s : State) : Host.Outcome State Fault Refusal :=
  .next (s.after (s.access p (targetOff q) (fun r s => s.writeTarget r q v)))

/-- SECTOR_RAMP_END (R353). -/
def execSectorRampEnd (q : Fin 4) (s : State) : Host.Outcome State Fault Refusal :=
  .next (s.after (if (s.sector q).moving then s.modSector q (fun x => { x with moving := false, level := x.target }) else s))

/-- SECTOR_AT_LEVEL (R353). -/
def execSectorAtLevel (q : Fin 4) (s : State) : Host.Outcome State Fault Refusal :=
  .next (s.after
    (if (s.sector q).en && !(s.sector q).moving then s.modSector q (fun x => { x with atLevel := true }) else s))

/-- SECTOR_ENABLE (R352): the sector starts at 5 V. -/
def execSectorEnable (q : Fin 4) (s : State) : Host.Outcome State Fault Refusal :=
  .next (s.after
    (if s.sectorWanted q && !(s.sector q).en then
       s.modSector q (fun x => { x.off with en := true, target := 500, level := 500, oc := false })
     else s))

/-- SECTOR_PG_RISE (R352). -/
def execSectorPgRise (q : Fin 4) (s : State) : Host.Outcome State Fault Refusal :=
  .next (s.after (if (s.sector q).en then s.modSector q (fun x => { x with pg := true }) else s))

/-- A sector fault of a cause can arise (R354). -/
def Sector.mayFault (x : Sector) (cause : Nat) : Bool :=
  x.en && !x.faulted &&
    ((cause == 1 && !x.pg) || (cause == 2 && x.pg) || cause == 3 || (cause == 4 && !x.moving && x.atLevel) || cause == 5
      || cause == 6)

/-- SECTOR_FAULT (R354). -/
def execSectorFault (q : Fin 4) (cause : Nat) (s : State) : Host.Outcome State Fault Refusal :=
  .next (s.after (if (s.sector q).mayFault cause then s.failSector q cause else s))

/-- SECTOR_RETRY_GAP_EXPIRY (R354). -/
def execSectorRetryGapExpiry (q : Fin 4) (s : State) : Host.Outcome State Fault Refusal :=
  .next (s.after (s.modSector q (fun x => { x with gap := false })))

/-- The sector's current loop acts for a PPS contract (R350): the level it settles at below TARGET is the load's, and free. -/
def State.ppsLimit (s : State) (q : Fin 4) (n : Fin 16) (above : Bool) : State :=
  let s1 := s.modMoor (pathOf n) (fun m => { m with ppsCl := above })
  if above then
    let v := s1.freeHalf
    v.2.modSector q (fun x => { x with ppsCl := true, level := v.1.toNat % x.target })
  else s1.modSector q (fun x => { x with ppsCl := false, level := x.target })

/-- PPS_CURRENT_LIMIT (R350). -/
def execPpsCurrentLimit (q : Fin 4) (above : Bool) (s : State) : Host.Outcome State Fault Refusal :=
  .next (s.after
    (match s.ppsPort q with
     | some n => if (s.sector q).en && !(s.sector q).moving then s.ppsLimit q n above else s
     | none => s))

/-- PU_VBUS_BAD_EXPIRY (R359). -/
def execPuVbusBadExpiry (s : State) : Host.Outcome State Fault Refusal :=
  .next (s.after (if (s.moor pu).gate then s.modMoor pu (fun m => { m with vbad := true }) else s))

/-- The lowest and the highest number of a list. -/
def leastOf (l : List Nat) : Option Nat := l.foldl (fun m x => some (match m with | some y => min x y | none => x)) none

/-- The highest number of a list. -/
def mostOf (l : List Nat) : Option Nat := l.foldl (fun m x => some (match m with | some y => max x y | none => x)) none

/-- The next group is shed (R357): every powered path of the lowest PRIO of 6 or below. -/
def State.shedGroup (s : State) : State :=
  let c := (List.finRange 17).filter (fun p => (s.moor p).gate && decide ((s.moor p).prio ≤ 6))
  match leastOf (c.map (fun p => (s.moor p).prio)) with
  | none => s
  | some lo =>
    (c.filter (fun p => (s.moor p).prio == lo)).foldl (fun s p => (s.dropPower p).modMoor p (fun m => { m with shed := true })) s

/-- The next group's permission is restored (R357): every shed path of the highest PRIO. -/
def State.restoreGroup (s : State) : State :=
  let c := (List.finRange 17).filter (fun p => (s.moor p).shed)
  match mostOf (c.map (fun p => (s.moor p).prio)) with
  | none => { s with pwr := { s.pwr with shedTimer := false } }
  | some hi => (c.filter (fun p => (s.moor p).prio == hi)).foldl (fun s p => s.modMoor p (fun m => { m with shed := false })) s

/-- A step of shedding or of restoring (R357): in SHED the next group goes while VIN_SAG reads 1; after it one group returns. -/
def State.shedTick (s : State) : State :=
  if s.mode = .shed then (if s.vinSag then s.shedGroup else s) else s.restoreGroup

/-- SHED_STEP: an interval of MOR_CFG SHED_STEP has ended (R357). -/
def execShedStep (s : State) : Host.Outcome State Fault Refusal := .next (s.after (if s.pwr.shedTimer then s.shedTick else s))

/-- SHED is entered (R357): the first group goes, and the intervals run. -/
def State.beginShed (s : State) : State := { s.shedGroup with pwr := { s.shedGroup.pwr with shedTimer := true } }

/-- SHED is left (R357): the first group returns, and the intervals run. -/
def State.endShed (s : State) : State := { s.restoreGroup with pwr := { s.restoreGroup.pwr with shedTimer := true } }

/-- NIGHT is entered (R358): every powered path that is not retained loses power. -/
def State.dropUnretained (s : State) : State :=
  (List.finRange 17).foldl (fun s p => if (s.moor p).retain then s else s.dropPower p) s

/-- STANDBY is entered (Table 3.6): every downstream port loses power. -/
def State.dropPorts (s : State) : State := (List.finRange 16).foldl (fun s n => s.dropPower (pathOf n)) s

/-- PORT of a PORT_POWER or PORT_MEASURE. -/
def powerPort (e : Entry) : Fin 16 := portParam e

/-- A port power command's checks after R211 (R362), then its action. -/
def State.powerCmd (s : State) (f : Func) (ok : Bool) (n : Fin 16) (act : State → CmdEnd) : CmdEnd :=
  if !ok then .done s .malformed 0 0
  else if !s.portFit n || (s.port n).failed then .done s .gone 0 0
  else if s.portOwner n ≠ f ∧ f ≠ s.primary then .done s .notOwner 0 0
  else act s

/-- Parameters of a PORT_POWER are in range (R360). -/
def powerOk (e : Entry) : Bool := fieldNat e[0] 8 24 == 0 && paramsZero e [1, 2, 3, 4, 5]

/-- A PORT_POWER that ends: RESULT0 is MOR_n_STATUS at completion. -/
def State.powerDone (s : State) (n : Fin 16) : CmdEnd := .done s .success (s.morStatus (pathOf n)) 0

/-- PORT_POWER ON's effect (R354, R360). -/
def State.powerOn (s : State) (f : Func) (n : Fin 16) : State :=
  let s1 := s.modMoor (pathOf n) (fun m => { m with offCmd := false, latched := false, gap := false, run := 0 })
  if f = s.primary then s1.modSector (sectorOf n) (fun x => { x with latched := false }) else s1

/-- PORT_POWER OFF's start (R348, R360): it acts as a trip without counting one, whatever the gate, and waits for vSafe0V. -/
def State.powerOff (s : State) (f : Func) (n : Fin 16) (cycle : Bool) : CmdEnd :=
  let p := pathOf n
  let s1 := (s.leavePartner p .recovery).modMoor p (fun m => { m with offCmd := true })
  if (s1.moor p).vsafe0v then (if cycle then s1.powerOn f n else s1).powerDone n
  else .started (s1.modMoor p (fun m => { m with cmd := m.cmd ++ [(f, cycle)] }))

/-- PORT_POWER STATUS (R360). -/
def execPortPowerStatus (f : Func) (s : State) : Host.Outcome State Fault Refusal :=
  .next (s.after (s.runCommand f 0x60 (portAction 0) (fun s e =>
    s.powerCmd f (powerOk e) (powerPort e) (fun s => s.powerDone (powerPort e)))))

/-- PORT_POWER OFF (R360). -/
def execPortPowerOff (f : Func) (s : State) : Host.Outcome State Fault Refusal :=
  .next (s.after (s.runCommand f 0x60 (portAction 1) (fun s e =>
    s.powerCmd f (powerOk e) (powerPort e) (fun s => s.powerOff f (powerPort e) false))))

/-- PORT_POWER ON (R360). -/
def execPortPowerOn (f : Func) (s : State) : Host.Outcome State Fault Refusal :=
  .next (s.after (s.runCommand f 0x60 (portAction 2) (fun s e =>
    s.powerCmd f (powerOk e) (powerPort e) (fun s => (s.powerOn f (powerPort e)).powerDone (powerPort e)))))

/-- PORT_POWER CYCLE (R360). -/
def execPortPowerCycle (f : Func) (s : State) : Host.Outcome State Fault Refusal :=
  .next (s.after (s.runCommand f 0x60 (portAction 3) (fun s e =>
    s.powerCmd f (powerOk e) (powerPort e) (fun s => s.powerOff f (powerPort e) true))))

/-- PORT_MEASURE (R361). -/
def execPortMeasure (f : Func) (s : State) : Host.Outcome State Fault Refusal :=
  .next (s.after (s.runCommand f 0x61 (fun _ => true) (fun s e =>
    let n := powerPort e
    s.powerCmd f (fieldNat e[0] 4 28 == 0 && paramsZero e [1, 2, 3, 4, 5]) n (fun s =>
      .done s .success (s.moor (pathOf n)).meas (s.morLimits (pathOf n))))))

/-- One PORT_POWER that waited for vSafe0V ends (R360). -/
def State.endPower (s : State) (n : Fin 16) (c : Func × Bool) : State :=
  let s1 := if c.2 then s.powerOn c.1 n else s
  s1.finishCmd c.1 .success (s1.morStatus (pathOf n)) 0

/-- The PORT_POWER commands in progress on a path end at vSafe0V, oldest first (R360). -/
def State.finishPower (s : State) (p : Fin 17) : State :=
  match (s.moor p).cmd, portOfPath p with
  | c :: rest, some n => (c :: rest).foldl (fun s c => s.endPower n c) (s.modMoor p (fun m => { m with cmd := [] }))
  | _, _ => s

/-- VBUS_AT_VSAFE0V (R324, R360): connector VBUS is below vSafe0V. -/
def State.atVsafe0v (s : State) (p : Fin 17) : State :=
  if (s.moor p).gate then s
  else
    let s1 := (s.modMoor p (fun m => { m with vsafe0v := true })).modEng p (fun x =>
      { x with hr := if x.hr = .discharge then .recover else x.hr })
    s1.finishPower p

/-- MOR_n_ENV with each field that a write gives a valid code (R359, R365). -/
def envWritten (p : Fin 17) (old v : DWord) : DWord :=
  let vm := fieldNat v 16 9
  let im := fieldNat v 0 7
  let vOk := vm == 0 || (decide (50 ≤ vm) && decide (vm ≤ if p = pu then 200 else 490))
  let iOk := decide (im ≤ if p = pu then 60 else 100)
  let a := if vOk then setField old v 16 9 else old
  if iOk then setField a v 0 7 else a

/-- MOR_n_POLICY as written (R365). -/
def policyWritten (old v : DWord) : DWord :=
  let keep : DWord := v &&& 0x71373F3F
  if fieldNat v 20 2 = 3 then setField keep old 20 2 else keep

/-- SEC_s_ENV as written (R365): a VMAX code of 1 to 49 or above 490 leaves that field. -/
def secEnvWritten (old v : DWord) : DWord :=
  let keep : DWord := v &&& 0xFFFFFFF8
  let vm := fieldNat v 23 9
  if vm = 0 ∨ (50 ≤ vm ∧ vm ≤ 490) then keep else setField keep old 23 9

/-- SEC_s_CFG as written (R365): an IGAIN of 0 leaves that field. -/
def secCfgWritten (old v : DWord) : DWord :=
  let keep : DWord := v &&& 0x80FF7FFF
  if fieldNat v 16 8 = 0 then setField keep old 16 8 else keep

/-- A write to a path's registers (R342, R365). -/
def State.writeMoor (s : State) (r : Requester) (p : Fin 17) (off a : Nat) (v : DWord) : State :=
  match a with
  | 0x00 => s.sealedWrite r off 0 (fun s => s.modMoor p (fun m => { m with env := envWritten p m.env v }))
  | 0x04 => s.sealedWrite r off 0 (fun s => s.modMoor p (fun m => { m with policy := policyWritten m.policy v }))
  | 0x14 => if s.isManager r then s.modMoor p (fun m => { m with trip := m.trip.writeAck v }) else s.refuse r 2 off
  | _ => s

/-- A write to a sector's registers (R342, R353, R365). -/
def State.writeSector (s : State) (r : Requester) (q : Fin 4) (off a : Nat) (v : DWord) : State :=
  match a with
  | 0x00 => s.sealedWrite r off 0 (fun s => s.modSector q (fun x => { x with env := secEnvWritten x.env v }))
  | 0x04 => s.sealedWrite r off 0 (fun s => s.modSector q (fun x => { x with cfg := secCfgWritten x.cfg v }))
  | 0x08 => s.writeTarget r q v
  | _ => s

/-- A write to the MOR and SEC blocks, manager BAR0 0x7_0000. -/
def State.writePower (s : State) (r : Requester) (off : Nat) (v : DWord) : State :=
  if h : 0x70000 ≤ off ∧ off < 0x70440 then s.writeMoor r ⟨(off - 0x70000) / 0x40, by omega⟩ off ((off - 0x70000) % 0x40) v
  else if h : 0x70800 ≤ off ∧ off < 0x70900 then s.writeSector r ⟨(off - 0x70800) / 0x40, by omega⟩ off ((off - 0x70800) % 0x40) v
  else if off = 0x70C00 then
    s.sealedWrite r off 0 (fun s => { s with pwr := { s.pwr with cfg := v &&& 0xF } })
  else s

end Sys2Proof.Machine
end

