-- ==== Sys2Proof/Machine/TypeC.lean ====
section
/-! DEFINITION. The Type-C state machines of the CC/PD engines (R308 to R317) and the engine commands that move them.
Choices: log 45. -/

namespace Sys2Proof.Machine

/-- Bit of SUP_WAKE_CFG of an attach on a path (R85). -/
def attachWake (e : Fin 17) : Nat := e.val

/-- A partner's attach raises its wake once, and again only after it has gone (R85, R310). -/
def State.attachWakes (s : State) (e : Fin 17) : State :=
  if (s.eng e).known then s else (s.wakeSource (attachWake e)).modEng e (fun x => { x with known := true })

/-- The Type-C machine of an engine moves of itself: not in KINDLE, where PU's changes no state (R315). -/
def State.ccMoves (s : State) (e : Fin 17) : Bool := s.ccActive e

/-- Rp on both lines is a debug accessory for PU in SERVICE (R316). -/
def State.debugSeen (s : State) (e : Fin 17) : Bool := decide (e = pu) && s.mode = .service

/-- An engine in UNATTACHED_SRC sees a termination (R309). -/
def Engine.seenAsSource (x : Engine) (seen : CcSeen) : Engine :=
  match seen with
  | .sink orient ra => { x with state := .waitSrc, partner := 1, orient := orient, ra := ra, debounced := false }
  | .accessory => { x with partner := 3 }
  | .raOnly => { x with partner := 5 }
  | _ => x

/-- An engine in UNATTACHED_SNK sees a termination (R309, R316). -/
def Engine.seenAsSink (x : Engine) (seen : CcSeen) (debug : Bool) : Engine :=
  match seen with
  | .source orient rp => { x with state := .waitSnk, partner := 2, orient := orient, rpSeen := min rp 3, debounced := false }
  | .rpBoth => if debug then { x with state := .waitSnk, partner := 4 } else { x with partner := 3 }
  | _ => x

/-- CC_ATTACH_DETECT (R309). -/
def State.ccDetect (s : State) (e : Fin 17) (seen : CcSeen) : State :=
  if !s.ccMoves e then s
  else
    match (s.eng e).state with
    | .unattSrc => s.modEng e (fun x => x.seenAsSource seen)
    | .unattSnk => s.modEng e (fun x => x.seenAsSink seen (s.debugSeen e))
    | _ => s

/-- CC_ATTACH_DETECT (R309). -/
def execCcAttachDetect (e : Fin 17) (seen : CcSeen) (s : State) : Host.Outcome State Fault Refusal :=
  .next (s.after (s.ccDetect e seen))

/-- The partner of an engine has gone (R309, R313). -/
def State.partnerGone (s : State) (e : Fin 17) : State := (s.unattach e).modEng e (fun x => { x with known := false })

/-- What an engine that shows Rp does when Rd has held for its debounce (R309, R310): Try.SNK where PU prefers it, else it is
ready to attach. -/
def State.sinkDebounced (s : State) (e : Fin 17) (orient ra : Bool) : State :=
  let x := s.eng e
  let s1 := s.modEng e (fun x => { x with partner := 1, orient := orient, ra := ra })
  if x.state = .waitSrc ∧ x.preferSnk = true then s1.modEng e (fun x => { x with state := .trySnk })
  else (s1.modEng e (fun x => { x with debounced := true })).attachWakes e

/-- What an engine that shows Rd does when Rp has held for its debounce (R309): Try.SRC where it is preferred, else it attaches. -/
def State.sourceDebounced (s : State) (e : Fin 17) (orient : Bool) (rp : Nat) : State :=
  let x := s.eng e
  let s1 := s.modEng e (fun x => { x with partner := 2, orient := orient, rpSeen := min rp 3 })
  if x.state = .waitSnk ∧ x.preferSnk = false then s1.modEng e (fun x => { x with state := .trySrc, debounced := false })
  else (s1.attachWakes e).attachSnk e

/-- CC_DEBOUNCE_EXPIRY: what has held on the CC lines for the state's debounce, or nothing (R309, R310, R316). -/
def State.ccDebounce (s : State) (e : Fin 17) (seen : Option CcSeen) : State :=
  if !s.ccMoves e then s
  else
    match (s.eng e).state, seen with
    | .waitSrc, some (.sink o r) => s.sinkDebounced e o r
    | .waitSrc, _ => s.partnerGone e
    | .waitSnk, some (.source o rp) => s.sourceDebounced e o rp
    | .waitSnk, some .rpBoth =>
      if s.debugSeen e then s.modEng e (fun x => { x with state := .debugAcc, partner := 4 }) else s.partnerGone e
    | .waitSnk, _ => s.partnerGone e
    | .trySrc, some (.sink o r) => s.sinkDebounced e o r
    | .tryWaitSnk, some (.source o rp) => s.sourceDebounced e o rp
    | .tryWaitSnk, none => s.partnerGone e
    | .trySnk, some (.source o rp) => s.sourceDebounced e o rp
    | .trySnk, none => s.modEng e (fun x => { x with state := .tryWaitSrc, debounced := false })
    | .tryWaitSrc, some (.sink o r) => s.sinkDebounced e o r
    | .unattSrc, none => s.modEng e (fun x => { x with partner := 0, known := false })
    | .unattSnk, none => s.modEng e (fun x => { x with partner := 0, known := false })
    | _, _ => s

/-- CC_DEBOUNCE_EXPIRY (R309). -/
def execCcDebounceExpiry (e : Fin 17) (seen : Option CcSeen) (s : State) : Host.Outcome State Fault Refusal :=
  .next (s.after (s.ccDebounce e seen))

/-- DRP_TOGGLE_EXPIRY (R309): the toggle turns, or a Try state ends without its partner. -/
def State.ccToggle (s : State) (e : Fin 17) : State :=
  if !s.ccMoves e then s
  else
    match (s.eng e).state with
    | .unattSrc => (s.modEng e (fun x => { x with state := .unattSnk })).takePreference e
    | .unattSnk => (s.modEng e (fun x => { x with state := .unattSrc })).takePreference e
    | .trySrc => s.modEng e (fun x => { x with state := .tryWaitSnk, debounced := false })
    | .tryWaitSrc => s.partnerGone e
    | _ => s

/-- DRP_TOGGLE_EXPIRY (R309). -/
def execDrpToggleExpiry (e : Fin 17) (s : State) : Host.Outcome State Fault Refusal := .next (s.after (s.ccToggle e))

/-- An engine may enter ATTACHED_SRC (R309, R310, R399). -/
def State.maySource (s : State) (e : Fin 17) : Bool :=
  let x := s.eng e
  s.ccMoves e && x.debounced && (decide (x.state = .waitSrc) || decide (x.state = .trySrc) || decide (x.state = .tryWaitSrc))
    && s.permit e

/-- ATTACHED_SRC_ENTRY (R310, R311, R314). -/
def execAttachedSrcEntry (e : Fin 17) (s : State) : Host.Outcome State Fault Refusal :=
  .next (s.after (if s.maySource e then s.attachSrc e else s))

/-- An attached engine can detect a detach (R313): not a sink during a Hard Reset. -/
def Engine.mayDetach (x : Engine) : Bool :=
  match x.state with
  | .attSrc => true
  | .attSnk => decide (x.hr = .none)
  | .debugAcc => true
  | _ => false

/-- CC_DETACH (R313). -/
def execCcDetach (e : Fin 17) (s : State) : Host.Outcome State Fault Refusal :=
  .next (s.after (if s.ccMoves e && (s.eng e).mayDetach then s.partnerGone e else s))

/-- ERROR_RECOVERY_EXPIRY (R319). -/
def execErrorRecoveryExpiry (e : Fin 17) (s : State) : Host.Outcome State Fault Refusal :=
  .next (s.after (if (s.eng e).state = .recovery then s.unattach e else s))

/-- VCONN_OVERCURRENT (R317). -/
def execVconnOvercurrent (e : Fin 17) (s : State) : Host.Outcome State Fault Refusal :=
  .next (s.after
    (if (s.eng e).vconnOn then (s.modEng e (fun x => { x with vconnOn := false, vconnOc := true })).ccChange e else s))

/-- Offset of a CCP register. -/
def ccpOff (e : Fin 17) (a : Nat) : Nat := 0x60000 + 0x100 * e.val + a

/-- CCP_e_CFG as written (Table 11.10): RP 0b00 leaves that field. -/
def ccpCfgWritten (old v : DWord) : DWord :=
  let keep : DWord := v &&& 0x93000000
  if fieldNat v 24 2 = 0 then setField keep old 24 2 else keep

/-- A write to CCP_e_CFG (R308, R311, R317, R339): an implicit contract as source follows a new RP. -/
def State.writeCcpCfg (s : State) (r : Requester) (e : Fin 17) (v : DWord) : State :=
  if !(s.isPrimary r || r.isKeeper) then s.refuse r 2 (ccpOff e 0)
  else
    let old := s.eng e
    let s1 := (s.modEng e (fun x => { x with cfg := ccpCfgWritten x.cfg v })).followVconn e
    if old.state = .attSrc ∧ old.kind = 1 ∧ (s1.eng e).rp ≠ old.rp then s1.implicitSource e else s1

/-- CCP_CFG_WRITE (R308). -/
def execCcpCfgWrite (p : Path) (e : Fin 17) (v : DWord) (s : State) : Host.Outcome State Fault Refusal :=
  .next (s.after (s.access p (ccpOff e 0) (fun r s => s.writeCcpCfg r e v)))

end Sys2Proof.Machine
end

