-- ==== Sys2Proof/Machine/PdMessages.lean ====
section
/-! DEFINITION. Power Delivery messages as data (R318, R320, R321, R327, R329, R330): headers, data objects, what Table 11.6
refuses, and the contract a Request selects. Layouts inside messages are those of USB PD 3.1 (PRESUMED, log 12).
Choices: log 12. -/

namespace Sys2Proof.Machine

/-- Message type of a header. -/
def pdType (h : Half) : Nat := fieldNat h 0 5

/-- Number of data objects of a header. -/
def pdCount (h : Half) : Nat := fieldNat h 12 3

/-- MessageID of a header. -/
def pdId (h : Half) : BitVec 3 := BitVec.ofNat 3 (fieldNat h 9 3)

/-- A header of an extended message. -/
def pdExt (h : Half) : Bool := bitOf h 15

/-- A control message of a type. -/
def isControl (h : Half) (t : Nat) : Bool := !pdExt h && pdCount h == 0 && pdType h == t

/-- A data message of a type. -/
def isData (h : Half) (t : Nat) : Bool := !pdExt h && pdCount h != 0 && pdType h == t

/-- An extended message of a type. -/
def isExt (h : Half) (t : Nat) : Bool := pdExt h && pdType h == t

/-- Four bytes at a time, little-endian. -/
def dwordsOf : List Byte → List DWord
  | a :: b :: c :: d :: t => dwordOfBytes [a, b, c, d] :: dwordsOf t
  | _ => []

/-- The first half-word of a payload: an extended message's header. -/
def firstHalf : List Byte → Half
  | a :: b :: _ => halfOfBytes b a
  | _ => 0

/-- Data size of an extended header. -/
def extSize (x : Half) : Nat := fieldNat x 0 9

/-- The data objects of a message: of an extended one, those after its extended header. -/
def objectsOf (h : Half) (payload : List Byte) : List DWord := if pdExt h then dwordsOf (payload.drop 2) else dwordsOf payload

/-- Control, data and extended message types of USB PD 3.1 that the engine acts on. -/
def ctlGoodCrc : Nat := 0x01

/-- Accept. -/
def ctlAccept : Nat := 0x03

/-- Reject. -/
def ctlReject : Nat := 0x04

/-- PS_RDY. -/
def ctlPsRdy : Nat := 0x06

/-- DR_Swap. -/
def ctlDrSwap : Nat := 0x09

/-- PR_Swap. -/
def ctlPrSwap : Nat := 0x0A

/-- Wait. -/
def ctlWait : Nat := 0x0C

/-- Soft_Reset. -/
def ctlSoftReset : Nat := 0x0D

/-- Not_Supported. -/
def ctlNotSupported : Nat := 0x10

/-- Source_Capabilities. -/
def isSourceCaps (h : Half) : Bool := isData h 0x01

/-- EPR_Source_Capabilities. -/
def isEprSourceCaps (h : Half) : Bool := isExt h 0x11

/-- Request. -/
def isRequest (h : Half) : Bool := isData h 0x02

/-- EPR_Request. -/
def isEprRequest (h : Half) : Bool := isData h 0x09

/-- EPR_Mode with an action. -/
def isEprMode (h : Half) (payload : List Byte) (action : Nat) : Bool :=
  isData h 0x0A && fieldNat ((dwordsOf payload).headD 0) 24 8 == action

/-- The kinds of power data object. -/
inductive Pdo where
  /-- Fixed: 50 mV, 10 mA. -/
  | fixed (v c : Nat)
  /-- Battery: maximum in 50 mV, power in 250 mW. -/
  | battery (v w : Nat)
  /-- Variable: maximum in 50 mV, 10 mA. -/
  | ranged (v c : Nat)
  /-- PPS: minimum and maximum in 100 mV, 50 mA. -/
  | pps (lo hi c : Nat)
  /-- EPR AVS: minimum and maximum in 100 mV, PDP in W. -/
  | avs (lo hi w : Nat)
  /-- An APDO of another kind. -/
  | other
deriving DecidableEq, Repr

/-- A power data object read (USB PD 3.1). -/
def pdoOf (d : DWord) : Pdo :=
  match fieldNat d 30 2 with
  | 0 => .fixed (fieldNat d 10 10) (fieldNat d 0 10)
  | 1 => .battery (fieldNat d 20 10) (fieldNat d 0 10)
  | 2 => .ranged (fieldNat d 20 10) (fieldNat d 0 10)
  | _ =>
    match fieldNat d 28 2 with
    | 0 => .pps (fieldNat d 8 8) (fieldNat d 17 8) (fieldNat d 0 7)
    | 1 => .avs (fieldNat d 8 8) (fieldNat d 17 9) (fieldNat d 0 8)
    | _ => .other

/-- Maximum voltage in 50 mV units. -/
def Pdo.top : Pdo → Nat
  | .fixed v _ => v
  | .battery v _ => v
  | .ranged v _ => v
  | .pps _ hi _ => 2 * hi
  | .avs _ hi _ => 2 * hi
  | .other => 0

/-- Maximum current in 10 mA units, where the object states one. -/
def Pdo.current : Pdo → Option Nat
  | .fixed _ c => some c
  | .ranged _ c => some c
  | .pps _ _ c => some (5 * c)
  | _ => none

/-- Maximum power in 0.1 mW units: maximum voltage times maximum current, and for AVS its PDP (R344). -/
def Pdo.power : Pdo → Nat
  | .fixed v c => 5 * (v * c)
  | .battery _ w => 2500 * w
  | .ranged v c => 5 * (v * c)
  | .pps _ hi c => 50 * (hi * c)
  | .avs _ _ w => 10000 * w
  | .other => 0

/-- An APDO whose minimum is below 5.0 V (R327). -/
def Pdo.lowMin : Pdo → Bool
  | .pps lo _ _ => decide (lo < 50)
  | .avs lo _ _ => decide (lo < 50)
  | _ => false

/-- CCP_e_CABLE shows a 5 A cable. -/
def Engine.fiveAmp (x : Engine) : Bool := bitOf x.cable 31 && fieldNat x.cable 26 2 == 2

/-- An object exceeds its port's envelope (R344). -/
def State.exceeds (s : State) (e : Fin 17) (o : Pdo) : Bool :=
  let m := s.moor e
  decide (2 * m.vmax < o.top)
    || (match o.current with
        | some c => decide (5 * m.imax < c)
        | none => false)
    || (match portOfPath e with
        | some n => decide (5000 * s.headroom (sectorOf n) + 2 * (s.eng e).committed < o.power)
        | none => false)

/-- A PU object that PU may offer (Table 11.6): Fixed at 5, 9, 15 or 20 V, up to 3 A. -/
def puOffer (o : Pdo) : Bool :=
  match o with
  | .fixed v c => (v == 100 || v == 180 || v == 300 || v == 400) && decide (c ≤ 300)
  | _ => false

/-- Capabilities that Table 11.6 refuses. -/
def State.refusesCaps (s : State) (e : Fin 17) (caps : List DWord) : Bool :=
  let os := caps.map pdoOf
  let x := s.eng e
  os.any (fun o => s.exceeds e o)
    || (!x.fiveAmp && os.any (fun o => match o.current with | some c => decide (300 < c) | none => false))
    || (if e = pu then os.any (fun o => !puOffer o) || !s.sup.vinValid else os.any Pdo.lowMin)

/-- A port is the only powered port of its sector (R328). -/
def State.onlyPowered (s : State) (e : Fin 17) : Bool :=
  match portOfPath e with
  | some n => decide (s.poweredPorts (sectorOf n) = [n])
  | none => false

/-- A PS_RDY that Table 11.6 refuses, with VBUS as sensed in 10 mV units. -/
def State.refusesReady (s : State) (e : Fin 17) (vbus : Nat) : Bool :=
  match (s.eng e).pend with
  | none => false
  | some (k, v, _) => decide (100 * vbus < 95 * (2 * v)) || decide (105 * (2 * v) < 100 * vbus) || (k == 3 && !s.onlyPowered e)

/-- A power-role swap that Table 11.6 refuses. -/
def State.refusesPrSwap (s : State) (e : Fin 17) : Bool :=
  let src := (s.eng e).source
  if e = pu then s.mode = .wick || (!src && !s.sup.vinValid) else src

/-- A data-role swap that Table 11.6 refuses. -/
def State.refusesDrSwap (s : State) (e : Fin 17) : Bool := if e = pu then !(s.eng e).dfp else (s.eng e).dfp

/-- The partner is of Revision 2.0 (R320). -/
def Engine.rev2 (x : Engine) : Bool := x.rev == some 1

/-- EPR_Mode (Enter Succeeded) that the engine refuses: toward a partner of Revision 2.0 (R320), and in Table 11.6 without an
explicit SPR contract, with a cable without EPR, 50 V and 5 A, or with an envelope that stops at 20 V. -/
def State.refusesEpr (s : State) (e : Fin 17) : Bool :=
  let x := s.eng e
  x.rev2 || !(x.kind == 2 || x.kind == 3) || !x.fiveAmp || !bitOf x.cable 30 || fieldNat x.cable 28 2 != 3 || decide ((s.moor e).vmax ≤ 200)

/-- A Request of PU that is refused: it names an object that is not Fixed 5 V (Table 11.6), or more than the 3 A that R71 and
Table 11.4 allow (log 12). -/
def Engine.refusesRequest (x : Engine) (rdo : DWord) : Bool :=
  match x.caps[fieldNat rdo 28 4 - 1]? with
  | some d =>
    match pdoOf d with
    | .fixed v _ => v != 100 || fieldNat rdo 28 4 == 0 || decide (300 < fieldNat rdo 10 10)
    | _ => true
  | none => true

/-- A transmission on SOP that the engine refuses (R329, Table 11.6). -/
def State.refusesTx (s : State) (e : Fin 17) (h : Half) (payload : List Byte) (vbus : Nat) : Bool :=
  let x := s.eng e
  (isSourceCaps h && s.refusesCaps e (objectsOf h payload))
    || (isEprSourceCaps h && (!x.epr || s.refusesCaps e (objectsOf h payload)))
    || (isEprMode h payload 3 && s.refusesEpr e)
    || (decide (e = pu) && (isRequest h || isEprRequest h) && x.refusesRequest ((dwordsOf payload).headD 0))
    || (isControl h ctlPsRdy && s.refusesReady e vbus)
    || (isControl h ctlPrSwap && s.refusesPrSwap e) || (isControl h ctlDrSwap && s.refusesDrSwap e)
    || (isControl h ctlAccept && decide (x.swap = some true) && s.refusesPrSwap e)
    || (isControl h ctlAccept && decide (x.swap = some false) && s.refusesDrSwap e)

/-- What a Request asks for of an object (R330, USB PD 3.1): kind, 20 mV units, 10 mA units. -/
def requestedOf (o : Pdo) (rdo : DWord) : Option (Nat × Nat × Nat) :=
  match o with
  | .fixed v _ => some (if v ≤ 400 then 2 else 4, v * 5 / 2, fieldNat rdo 10 10)
  | .pps _ _ _ => some (3, fieldNat rdo 9 12, 5 * fieldNat rdo 0 7)
  | .avs _ _ _ => some (5, fieldNat rdo 9 12 * 5 / 4, 5 * fieldNat rdo 0 7)
  | _ => none

/-- A contract lies in the ranges of Table 11.4 for its engine (R327): a downstream engine holds an explicit one as source only. -/
def Engine.holds (x : Engine) (isPu : Bool) (c : Nat × Nat × Nat) : Bool :=
  let spr := [250, 450, 750, 1000].contains c.2.1
  let amps := if x.fiveAmp then 500 else 300
  if isPu then c.1 == 2 && (if x.source then spr else c.2.1 == 250) && decide (c.2.2 ≤ 300)
  else
    x.source &&
      match c.1 with
      | 2 => spr && decide (c.2.2 ≤ amps)
      | 3 => decide (250 ≤ c.2.1) && decide (c.2.1 ≤ 1050) && decide (c.2.2 ≤ 500)
      | 4 => x.epr && [1400, 1800, 2400].contains c.2.1 && decide (c.2.2 ≤ 500)
      | 5 => x.epr && decide (750 ≤ c.2.1) && decide (c.2.1 ≤ 2400) && c.2.1 % 5 == 0
      | _ => false

/-- The contract that a Request selects from the capabilities in force (R330), where Table 11.4 lets the engine hold it (R327). -/
def Engine.selectContract (x : Engine) (isPu : Bool) (rdo : DWord) : Option (Nat × Nat × Nat) :=
  let pos := fieldNat rdo 28 4
  if pos = 0 then none
  else
    match x.caps[pos - 1]? with
    | none => none
    | some d => (requestedOf (pdoOf d) rdo).filter (x.holds isPu)

/-- An ACK to Discover Identity that names a cable (R318): the record for CCP_e_CABLE. -/
def cableOf (h : Half) (payload : List Byte) : Option DWord :=
  let o := objectsOf h payload
  let vdm := o.headD 0
  let idh := o[1]?.getD 0
  let kind := fieldNat idh 27 3
  match o[4]? with
  | none => none
  | some v =>
    if isData h 0x0F && vdm >>> 16 == 0xFF00 && bitOf vdm 15 && fieldNat vdm 6 2 == 1 && fieldNat vdm 0 5 == 1
        && (kind == 3 || kind == 4) then
      some (putBit true 31 ||| putBit (bitOf v 17) 30 ||| putField (fieldNat v 9 2) 28 2 ||| putField (fieldNat v 5 2) 26 2
        ||| putBit (kind == 4) 25)
    else none

/-- Control messages of USB PD 3.1 that require an answer. -/
def controlAsks : List Nat := [0x07, 0x08, 0x09, 0x0A, 0x0B, 0x0E, 0x11, 0x12, 0x13, 0x14, 0x15, 0x16, 0x17, 0x18]

/-- A message that requires an answer (Table 11.7, USB PD 3.1). -/
def asksAnswer (h : Half) (payload : List Byte) : Bool :=
  if pdExt h then [0x03, 0x04, 0x06, 0x08, 0x0A, 0x10].contains (pdType h)
  else if pdCount h = 0 then controlAsks.contains (pdType h)
  else
    pdType h == 0x01 || pdType h == 0x07 || pdType h == 0x08 || isEprMode h payload 1
      || (isData h 0x0F && fieldNat ((dwordsOf payload).headD 0) 6 2 == 0)

/-- EPR_KeepAlive and its acknowledge: Extended_Control messages. -/
def isKeepAlive (h : Half) (payload : List Byte) : Bool := isExt h 0x10 && (payload[2]?.getD 0) == 0x03

/-- An own control message of a type. -/
def controlMsg (t : Nat) : TxMsg := { kind := 0, header := BitVec.ofNat 16 t, payload := [], firmware := false }

/-- EPR_KeepAlive_Ack. -/
def keepAliveAck : TxMsg :=
  { kind := 0, header := 0x8010, payload := [0x02, 0x80, 0x04, 0x00], firmware := false }

/-- A Request for an object position at a current in 10 mA units. -/
def requestMsg (pos cur : Nat) : TxMsg :=
  { kind := 0, header := 0x1002, firmware := false
    payload := bytesOfDWord (putField pos 28 4 ||| putField cur 10 10 ||| putField cur 0 10) }

end Sys2Proof.Machine
end

