-- ==== Sys2Proof/Machine/Pd.lean ====
section
/-! DEFINITION. The message layer of the CC/PD engines (R319 to R336): GoodCRC, retries, chunks, contracts, EPR mode, swaps, Hard
Resets, the firmware interface and the holding responder.
Choices: log 12, 46, 47. -/

namespace Sys2Proof.Machine

/-- Table 3.4 runs PD messages on an engine. -/
def State.pdOn (s : State) (e : Fin 17) : Bool :=
  match portOfPath e with
  | none => s.mode ≠ .dark && s.mode ≠ .service
  | some _ =>
    match s.effMode with
    | .lit | .bridge | .safe | .relight | .update => true
    | .night => (s.moor e).retain
    | _ => false

/-- A header as sent: the fields of R320 are the engine's. -/
def Engine.header (x : Engine) (kind : Fin 3) (h : Half) (count : Nat) : Half :=
  let rev := min 2 (x.rev.getD 2)
  let roles := if kind = 0 then putBit x.source 8 ||| putBit x.dfp 5 else 0
  ((putBit (bitOf h 15) 15 ||| putField count 12 3 ||| putField (x.msgId[kind]).toNat 9 3 ||| putField rev 6 2
    ||| roles ||| putField (fieldNat h 0 5) 0 5) : DWord).setWidth 16

/-- Unchunked Extended Messages Supported sent as 0 in Source_Capabilities and Request (R321). -/
def clearUnchunked (h : Half) (payload : List Byte) : List Byte :=
  let bit : Byte := if isSourceCaps h then 0x01 else if isRequest h then 0x80 else 0
  let at_ := if isSourceCaps h then 3 else 2
  if bit = 0 then payload else payload.set at_ ((payload[at_]?.getD 0) &&& ~~~bit)

/-- Bytes padded with zeros to whole data objects. -/
def padObjects (l : List Byte) : List Byte := l ++ List.replicate ((4 - l.length % 4) % 4) 0

/-- The chunk of a message that goes on the line (R321): header and payload. Toward a partner of Revision 2.0 the message goes whole
and unchunked (R320). -/
def Engine.chunkOf (x : Engine) (m : TxMsg) (chunk : Nat) : Half × List Byte :=
  let kind : Fin 3 := ⟨m.kind % 3, by omega⟩
  if x.rev2 && pdExt m.header then
    let eh1 : DWord := putField (extSize (firstHalf m.payload)) 0 9
    let body := padObjects ((bytesOfDWord eh1).take 2 ++ m.payload.drop 2)
    (x.header kind m.header (body.length / 4), body)
  else if pdExt m.header then
    let eh := firstHalf m.payload
    let part := ((m.payload.drop 2).drop (26 * chunk)).take 26
    let eh1 : DWord := putBit true 15 ||| putField chunk 11 4 ||| putField (extSize eh) 0 9
    let body := if bitOf eh 10 then padObjects m.payload else padObjects ((bytesOfDWord eh1).take 2 ++ part)
    (x.header kind m.header (body.length / 4), body)
  else
    let body := clearUnchunked m.header m.payload
    (x.header kind m.header (body.length / 4), body)

/-- Whether a message has a chunk of a number after its first. -/
def TxMsg.hasChunk (m : TxMsg) (n : Nat) : Bool := pdExt m.header && decide (26 * n < m.payload.length - 2)

/-- A message on SOP' or SOP'' that the engine may not transmit, VCONN being off (R317). -/
def Engine.silent (x : Engine) (m : TxMsg) : Bool := decide (m.kind ≠ 0) && !x.vconnOn

/-- The present chunk goes on the line; on SOP' and SOP'' it ends OUT_OF_RANGE once VCONN has gone off (R317, Table 11.10). -/
def State.putOnLine (s : State) (e : Fin 17) (m : TxMsg) (chunk tries : Nat) : State :=
  if (s.eng e).silent m then s.endTx e 6
  else
    let w := (s.eng e).chunkOf m chunk
    (s.emit (.pd e m.kind w.1 w.2)).modEng e (fun x => { x with txStage := .goodCrc tries chunk })

/-- EPR mode ends (R331): the 0.5 s limit runs while an EPR contract stands. -/
def State.leaveEpr (s : State) (e : Fin 17) : State :=
  if (s.eng e).epr then (s.modEng e (fun x => { x with epr := false, eprExit := x.kind == 4 || x.kind == 5 })).ccChange e else s

/-- The pending contract and the exchanges towards one are dropped (R330). -/
def Engine.noPending (x : Engine) : Engine := { x with pend := none, pendReq := [], request := none, holdReady := false }

/-- MessageID counters of one SOP* at 0 (R320). -/
def Engine.resetIds (x : Engine) (k : Fin 3) : Engine := { x with msgId := x.msgId.set k 0, lastId := x.lastId.set k none }

/-- Accept makes the pending contract of a received Request (R330), or lets a swap run (R306). -/
def Engine.accepted (x : Engine) (isPu : Bool) : Engine :=
  match x.swap with
  | some b => { x with swap := none, swapping := some b }
  | none =>
    match x.request with
    | some rdos => { x with pend := x.selectContract isPu (rdos.headD 0), pendReq := rdos, request := none }
    | none => x

/-- A Soft_Reset on SOP (R320, R330): the negotiations and the swaps asked for are dropped, and its counters are 0. -/
def Engine.softReset (x : Engine) : Engine := ({ x.noPending with swap := none, asked := none } : Engine).resetIds 0

/-- Another message that requires an answer takes the place of one that had none: an Accept answers the latest (R306, R330). -/
def Engine.supersede (x : Engine) (h : Half) (payload : List Byte) : Engine :=
  if asksAnswer h payload then { x with swap := none, request := if x.source then none else x.request } else x

/-- What sending a message on SOP does at once (R320, R330, R331). -/
def State.onSend (s : State) (e : Fin 17) (m : TxMsg) : State :=
  let h := m.header
  if m.kind ≠ 0 then (if isControl h ctlSoftReset then s.modEng e (fun x => x.resetIds ⟨m.kind % 3, by omega⟩) else s)
  else if isControl h ctlSoftReset then s.modEng e Engine.softReset
  else if isControl h ctlAccept then s.modEng e (fun x => x.accepted (decide (e = pu)))
  else if isControl h ctlReject || isControl h ctlWait then s.modEng e (fun x => { x.noPending with swap := none })
  else if isControl h ctlNotSupported then s.modEng e (fun x => { x with swap := none })
  else if isSourceCaps h || isEprSourceCaps h then s.modEng e (fun x => { x with caps := objectsOf h m.payload })
  else if isRequest h || isEprRequest h then s.modEng e (fun x => { x with request := some (dwordsOf m.payload) })
  else if isControl h ctlPrSwap then s.modEng e (fun x => { x with asked := some true })
  else if isControl h ctlDrSwap then s.modEng e (fun x => { x with asked := some false })
  else if isEprMode h m.payload 3 && !(s.eng e).epr then (s.modEng e (fun x => { x with epr := true })).ccChange e
  else if isEprMode h m.payload 5 then s.leaveEpr e
  else s

/-- A message's first transmission. -/
def State.sendNow (s : State) (e : Fin 17) (m : TxMsg) : State :=
  if (s.eng e).silent m then (s.modEng e (fun x => { x with tx := some m })).endTx e 6
  else ((s.onSend e m).modEng e (fun x => { x with tx := some m })).putOnLine e m 0 0

/-- The engine's own message (R321, R336, Table 11.7): one at a time. -/
def State.sendOwn (s : State) (e : Fin 17) (m : TxMsg) : State := if (s.eng e).tx.isSome then s else s.sendNow e m

/-- The pending contract becomes the contract (R330). -/
def State.recordContract (s : State) (e : Fin 17) : State :=
  match (s.eng e).pend with
  | none => s
  | some (k, v, c) =>
    (s.modEng e (fun x => { x with kind := k, volt := v, curr := c, held := x.pendReq, pend := none, pendReq := [] })).ccChange e

/-- An attached engine's TCSTATE changes by a power-role swap (R306, R312, R338). -/
def State.swapState (s : State) (e : Fin 17) (src : Bool) : State :=
  let st : TcState := if src then .attSrc else .attSnk
  ((s.modEng e (fun x => { x with state := st, source := src, partner := if src then 1 else 2, kind := 0, volt := 0, curr := 0,
                                  held := [] })).ccChange e).offerItem e 5 (BitVec.ofNat 16 st.code)

/-- An accepted swap runs its steps (R306): a data-role swap turns the role; a power-role swap turns the source's gate off first. -/
def State.startSwap (s : State) (e : Fin 17) : State :=
  match (s.eng e).swapping with
  | some false => s.modEng e (fun x => { x with dfp := !x.dfp, swapping := none })
  | some true => if (s.eng e).source then s.gateOff e else s
  | none => s

/-- VBUS of the old source has gone: it becomes the sink and says so. -/
def State.swapToSink (s : State) (e : Fin 17) : State :=
  if (s.eng e).swapping = some true ∧ (s.eng e).source = true then (s.swapState e false).sendOwn e (controlMsg ctlPsRdy) else s

/-- The old source's PS_RDY reaches an engine in a power-role swap: the new source turns its gate on where it may (R45). -/
def State.swapReady (s : State) (e : Fin 17) : State :=
  let s1 := s.modEng e (fun x => { x with swapping := none })
  if e = pu ∧ (s.eng e).state = .attSnk ∧ (s.eng e).kind = 0 then
    ((s1.modEng e Engine.implicitSink).modMoor e (fun m => { m with vsafe0v := false })).ccChange e
  else if s.permit e then
    ((((s1.swapState e true).gateOn e).implicitSource e).followVconn e).sendOwn e (controlMsg ctlPsRdy)
  else s1.leavePartner e .recovery

/-- What a message acknowledged by GoodCRC does (R306, R330). -/
def State.onAcked (s : State) (e : Fin 17) (m : TxMsg) : State :=
  if m.kind ≠ 0 then s
  else if isControl m.header ctlPsRdy then (if (s.eng e).source then s.recordContract e else s)
  else if isControl m.header ctlAccept then s.startSwap e
  else s

/-- GoodCRC arrives for the message on the line (R320): the counter advances, and the message is sent or its next chunk waits. -/
def State.goodCrc (s : State) (e : Fin 17) (k : Fin 3) (id : BitVec 3) : State :=
  let x := s.eng e
  match x.tx, x.txStage with
  | some m, .goodCrc _ c =>
    if m.kind = k.val ∧ x.msgId[k] = id then
      let s1 := s.modEng e (fun x => { x with msgId := x.msgId.set k (x.msgId[k] + 1), pdSeen := true })
      if m.hasChunk (c + 1) && !x.rev2 then s1.modEng e (fun x => { x with txStage := .chunkWait (c + 1) })
      else (s1.endTx e 1).onAcked e m
    else s
  | _, _ => s

/-- A pending transmission that is not on the line ends DISCARDED when a message of the partner begins (R322). -/
def State.preempt (s : State) (e : Fin 17) (chunkAsk : Bool) : State :=
  match (s.eng e).txStage with
  | .sinkTx => s.endTx e 3
  | .sinkHold => s.endTx e 3
  | .chunkWait _ => if chunkAsk then s else s.endTx e 3
  | _ => s

/-- A received message is answered with GoodCRC (R320). -/
def State.answerCrc (s : State) (e : Fin 17) (k : Fin 3) (h : Half) : State := s.emit (.pdGoodCrc e k.val (pdId h))

/-- A new message is accepted (R320): its MessageID is kept, and the revision of the partner's first. -/
def State.acceptRx (s : State) (e : Fin 17) (k : Fin 3) (h : Half) : State :=
  (s.answerCrc e k h).modEng e (fun x =>
    { x with
      lastId := x.lastId.set k (some (pdId h)), pdSeen := true
      rev := if k = 0 ∧ x.rev.isNone then some (fieldNat h 6 2) else x.rev
      hr := if x.hr = .sinkWait then .none else x.hr })

/-- What an engine does of itself with a complete message on SOP (R320, R330, R331, R368). -/
def State.actOnMessage (s : State) (e : Fin 17) (h : Half) (payload : List Byte) : State :=
  let x := s.eng e
  if isControl h ctlSoftReset then s.modEng e Engine.softReset
  else if (isRequest h || (isEprRequest h && x.epr)) && x.source then
    s.modEng e (fun x => { x with request := some (dwordsOf payload), swap := none })
  else if isControl h ctlPrSwap then s.modEng e (fun x => { x with swap := some true, request := none })
  else if isControl h ctlDrSwap then s.modEng e (fun x => { x with swap := some false, request := none })
  else if isEprMode h payload 5 then s.leaveEpr e
  else if isControl h ctlAccept then
    match x.asked with
    | some b => (s.modEng e (fun x => { x with asked := none, swapping := some b })).startSwap e
    | none => if x.source then s else s.modEng e (fun x => x.accepted (decide (e = pu)))
  else if isControl h ctlReject || isControl h ctlWait then
    s.modEng e (fun x => { (if x.source then x else x.noPending) with asked := none })
  else if isControl h ctlNotSupported then s.modEng e (fun x => { x with asked := none })
  else if isControl h ctlPsRdy then
    if x.swapping = some true then s.swapReady e else if x.source then s else s.recordContract e
  else if isSourceCaps h && !x.source then
    let s1 := s.modEng e (fun x => { x.supersede h payload with caps := dwordsOf payload })
    if e = pu then { s1 with lan := { s1.lan with noSuspend := !bitOf ((dwordsOf payload).headD 0) 28 } } else s1
  else s.modEng e (fun x => x.supersede h payload)

/-- The holding responder's answer on SOP (R336, Table 11.7). -/
def State.holdAnswer (s : State) (e : Fin 17) (h : Half) (payload : List Byte) : State :=
  let x := s.eng e
  let rdos := dwordsOf payload
  if isControl h ctlSoftReset then s.sendOwn e (controlMsg ctlAccept)
  else if isKeepAlive h payload && x.epr then s.sendOwn e keepAliveAck
  else if isRequest h || isEprRequest h then
    if x.source && decide (2 ≤ x.kind) && decide (rdos = x.held) then
      (s.sendOwn e (controlMsg ctlAccept)).modEng e (fun x => { x with holdReady := true })
    else s.sendOwn e (controlMsg ctlWait)
  else if isSourceCaps h && decide (e = pu) && !x.source then
    let top : Nat :=
      match pdoOf (rdos.headD 0) with
      | .fixed _ c => c
      | _ => 0
    s.sendOwn e (requestMsg 1 (min top x.curr))
  else if asksAnswer h payload then s.sendOwn e (controlMsg ctlNotSupported)
  else s

/-- A complete message (R318, R333, R336): the engine acts on it, then it is placed, or the holding responder answers. -/
def State.wholeMessage (s : State) (e : Fin 17) (k : Fin 3) (h : Half) (payload : List Byte) : State :=
  let s1 : State :=
    if k = 0 then s.actOnMessage e h payload
    else if isControl h ctlSoftReset then s.modEng e (fun x => x.resetIds k)
    else if k = 1 then
      match cableOf h payload with
      | some c => s.modEng e (fun x => { x with cable := c })
      | none => s
    else s
  if !s1.holding e then s1.placeItem e k.val h payload else if k = 0 then s1.holdAnswer e h payload else s1

/-- What the payload of an extended message is (R321). -/
inductive ExtPart where
  | whole
  /-- Unchunked and longer than 26 bytes. -/
  | refused
  /-- A Chunk Request for a chunk. -/
  | ask (n : Nat)
  | first
  | next (n : Nat)
deriving DecidableEq, Repr

/-- The part that a received extended message is. -/
def extPart (payload : List Byte) : ExtPart :=
  let x := firstHalf payload
  let n := fieldNat x 11 4
  if !bitOf x 15 then (if extSize x ≤ 26 then .whole else .refused)
  else if bitOf x 10 then .ask n
  else if n ≠ 0 then .next n
  else if extSize x ≤ 26 then .whole
  else .first

/-- A Chunk Request of the engine for a chunk of a message (R321). -/
def chunkRequest (k : Fin 3) (h : Half) (n : Nat) : TxMsg :=
  { kind := k.val, header := h, firmware := false
    payload := (bytesOfDWord (putBit true 15 ||| putField n 11 4 ||| putBit true 10)).take 2 }

/-- A part of an extended message that has been accepted (R321); a partner of Revision 2.0 is asked for no chunk (R320). -/
def State.takePart (s : State) (e : Fin 17) (k : Fin 3) (h : Half) (payload : List Byte) : State :=
  let x := s.eng e
  let eh := firstHalf payload
  match extPart payload with
  | .whole => s.wholeMessage e k h (payload.take (2 + extSize eh))
  | .refused => s.sendOwn e (controlMsg ctlNotSupported)
  | .ask n =>
    match x.tx, x.txStage with
    | some m, .chunkWait j => if n = j then s.putOnLine e m j 0 else s
    | _, _ => s
  | .first =>
    if x.rev2 then s
    else (s.modEng e (fun x => { x with chunkRx := some (k.val, h, extSize eh, (payload.drop 2).take 26) })).sendOwn e (chunkRequest k h 1)
  | .next n =>
    match x.chunkRx with
    | some (k0, h0, size, got) =>
      if k0 = k.val ∧ got.length = 26 * n then
        let all := (got ++ (payload.drop 2).take 26).take size
        if all.length = size then
          (s.modEng e (fun x => { x with chunkRx := none })).wholeMessage e k h0 ((payload.take 2) ++ all)
        else (s.modEng e (fun x => { x with chunkRx := some (k0, h0, size, all) })).sendOwn e (chunkRequest k h (n + 1))
      else s.modEng e (fun x => { x with chunkRx := none })
    | none => s

/-- A message needs a receive slot (R320, R321, R334): a whole one, the first chunk of one, and the chunk that completes one. -/
def State.needsSlot (s : State) (e : Fin 17) (h : Half) (payload : List Byte) : Bool :=
  !s.holding e &&
    (!pdExt h ||
      match extPart payload with
      | .whole => true
      | .first => !(s.eng e).rev2
      | .next n =>
        match (s.eng e).chunkRx with
        | some (_, _, size, got) => decide (got.length = 26 * n) && decide (size ≤ 26 * (n + 1))
        | none => false
      | _ => false)

/-- A message that is a Chunk Request. -/
def isChunkAsk (h : Half) (payload : List Byte) : Bool :=
  pdExt h &&
    match extPart payload with
    | .ask _ => true
    | _ => false

/-- A message with a correct CRC is received (R320, R321, R322). -/
def State.pdReceive (s : State) (e : Fin 17) (k : Fin 3) (h : Half) (payload : List Byte) : State :=
  let x := s.eng e
  if !x.attached || !s.pdOn e || (decide (k ≠ 0) && !x.vconnOn) then s
  else if isControl h ctlGoodCrc then s.goodCrc e k (pdId h)
  else
    let s0 := s.preempt e (isChunkAsk h payload)
    if x.lastId[k] = some (pdId h) ∧ isControl h ctlSoftReset = false then s0.answerCrc e k h
    else if s0.needsSlot e h payload && !(s0.eng e).slotFree then s0
    else
      let s1 := s0.acceptRx e k h
      if pdExt h then s1.takePart e k h payload else s1.wholeMessage e k h (payload.take (4 * pdCount h))

/-- PD_MESSAGE_RECEIVED (R320). -/
def execPdMessageReceived (e : Fin 17) (sop : Fin 3) (hdr : Half) (payload : List Byte) (s : State) :
    Host.Outcome State Fault Refusal :=
  .next (s.after (s.pdReceive e sop hdr payload))

/-- A Hard Reset sent or received (R323 to R325, R330): messages and negotiations are dropped, counters are 0, EPR mode ends, and
the source's or the sink's sequence runs. -/
def State.hardReset (s : State) (e : Fin 17) : State :=
  let was := (s.eng e).epr
  let s1 := (s.endTx e 5).modEng e (fun x =>
    { x.noPending with
      msgId := Vector.replicate 3 0, lastId := Vector.replicate 3 none, chunkRx := none, swap := none, asked := none
      swapping := none, txng := false, epr := false, eprExit := false, hr := if x.source then .psWait else .sinkWait })
  let s2 := (if was then s1.ccChange e else s1).ccChange e
  if !(s.eng e).source && decide (e = pu) then s2.modEng e Engine.implicitSink else s2

/-- HARD_RESET_RECEIVED (R323 to R325): its item follows. -/
def State.hardResetSeen (s : State) (e : Fin 17) : State :=
  if (s.eng e).attached && s.pdOn e then (s.hardReset e).offerItem e 3 0 else s

/-- HARD_RESET_RECEIVED (R324). -/
def execHardResetReceived (e : Fin 17) (s : State) : Host.Outcome State Fault Refusal := .next (s.after (s.hardResetSeen e))

/-- A Cable Reset sent or received (R326). -/
def State.cableReset (s : State) (e : Fin 17) : State := s.modEng e (fun x => (x.resetIds 1).resetIds 2)

/-- CABLE_RESET_RECEIVED (R322, R323, R326): its preamble discards a transmission that waits, and its item follows. -/
def execCableResetReceived (e : Fin 17) (s : State) : Host.Outcome State Fault Refusal :=
  .next (s.after
    (if (s.eng e).attached && s.pdOn e then ((s.preempt e false).cableReset e).offerItem e 4 0 else s))

/-- The engine sends a Hard Reset of its own (R331, R332). -/
def State.sendHardReset (s : State) (e : Fin 17) : State := (s.emit (.pdHardReset e)).hardReset e

/-- The transmit slot as read (R333): nothing where a word is poisoned or cannot be reached. -/
def State.readSlotWords (s : State) (e : Fin 17) (n : Nat) : Option (List Half) × State :=
  let w := (s.eng e).msgBase + 544
  if !s.storeReaches w n then (none, s)
  else
    let r := s.hst.readWords 0x15 w n
    (if r.1.any (fun x => x.2) then none else some (r.1.map Prod.fst), { s with hst := r.2 })

/-- A slot's LEN fits its header (Table 11.5, R321). -/
def slotLenOk (len : Nat) (h : Half) (payload : List Byte) : Bool :=
  if pdExt h then decide (2 ≤ len) && decide (extSize (firstHalf payload) ≤ 260) && decide (len = 2 + extSize (firstHalf payload))
  else decide (len = 4 * pdCount h)

/-- The bytes of words, low byte first. -/
def bytesOfWords (ws : List Half) : List Byte := ws.flatMap (fun w => [lowByte w, highByte w])

/-- Firmware's message is refused by its form (R335, Table 11.10 OUT_OF_RANGE). -/
def State.txOutOfRange (s : State) (e : Fin 17) (kind : Nat) : Bool :=
  decide (2 < kind) || (decide (kind ≠ 0) && !(s.eng e).vconnOn)

/-- A message of firmware starts (R322): it waits for tSinkTx, or for SinkTxOK, or goes at once. -/
def State.startTx (s : State) (e : Fin 17) (m : TxMsg) : State :=
  let x := s.eng e
  let s1 := s.modEng e (fun x => { x with tx := some m })
  if m.amsStart && x.rev != some 1 then
    if x.source then s1.modEng e (fun x => { x with txng := true, txStage := .sinkTx })
    else if x.rpSeen = 3 then s1.sendNow e m
    else s1.modEng e (fun x => { x with txStage := .sinkHold })
  else s1.sendNow e m

/-- The transmit slot's message (R329, R333, R335): read, checked and started, or ended with its result. -/
def State.transmitSlot (s : State) (e : Fin 17) (kind : Nat) (amsStart amsEnd : Bool) (vbus : Nat) : State :=
  let m0 : TxMsg := { kind := kind, header := 0, payload := [], firmware := true, amsStart := amsStart, amsEnd := amsEnd }
  let fail (s : State) (r : Nat) : State := (s.modEng e (fun x => { x with tx := some m0 })).endTx e r
  if s.txOutOfRange e kind then fail s 6
  else
    match s.readSlotWords e 2 with
    | (none, s1) => fail s1 4
    | (some hd, s1) =>
      let w0 := hd.headD 0
      let h := hd[1]?.getD 0
      let len := fieldNat w0 0 9
      if 262 < len ∨ 2 < fieldNat w0 13 3 then fail s1 6
      else
        match s1.readSlotWords e (2 + (len + 1) / 2) with
        | (none, s2) => fail s2 4
        | (some ws, s2) =>
          let payload := (bytesOfWords (ws.drop 2)).take len
          let m : TxMsg := { m0 with header := h, payload := payload }
          if !slotLenOk len h payload then fail s2 6
          else if kind = 0 ∧ s2.refusesTx e h payload vbus = true then fail s2 4
          else if !(s2.eng e).attached || !s2.pdOn e then fail s2 2
          else if (s2.eng e).hr ≠ .none then fail s2 5
          else s2.startTx e m

/-- A Hard Reset or Cable Reset that firmware asks for (R323, R326, R329, R335). -/
def State.transmitReset (s : State) (e : Fin 17) (hard amsEnd : Bool) : State :=
  let x := s.eng e
  let m0 : TxMsg := { kind := 3, header := 0, payload := [], firmware := true, amsEnd := amsEnd }
  let finish (s : State) (r : Nat) : State := (s.modEng e (fun x => { x with tx := some m0 })).endTx e r
  if !x.attached || !s.pdOn e then finish s 2
  else if hard then (if decide (e = pu) && s.mode = .wick then finish s 4 else finish (s.sendHardReset e) 1)
  else if x.dfp && x.vconnOn then finish ((s.emit (.pdCableReset e)).cableReset e) 1
  else finish s 4

/-- The VBUS that an engine senses, in 10 mV units: as the command carries it, else free. -/
def State.sensed (s : State) (vbus : Option Nat) : Nat × State :=
  match vbus with
  | some v => (v, s)
  | none => (s.freeHalf.1.toNat, s.freeHalf.2)

/-- A write to CCP_e_TXCTL (R335, R336, R339). -/
def State.writeTxctl (s : State) (r : Requester) (e : Fin 17) (v : DWord) (vbus : Option Nat) : State :=
  let closed :=
    match s.mode with
    | .safe | .relight | .update => true
    | _ => false
  if !r.isKeeper || closed then s.refuse r 2 (ccpOff e 0x20)
  else
    let x := s.eng e
    let seq := hiHalf v
    if !x.txEn || x.tx.isSome || decide (seq = x.txSeq) then s
    else
      let s1 := s.modEng e (fun x => { x with txctl := v &&& 0xFFFFF800, txSeq := seq, txResult := 0 })
      let kind := fieldNat v 13 3
      if kind = 3 then s1.transmitReset e true (bitOf v 11)
      else if kind = 4 then s1.transmitReset e false (bitOf v 11)
      else (s1.sensed vbus).2.transmitSlot e kind (bitOf v 12) (bitOf v 11) (s1.sensed vbus).1

/-- PD_TRANSMIT (R335): VBUS at the connector as the engine senses it, in 10 mV units. -/
def execPdTransmit (p : Path) (e : Fin 17) (v : DWord) (vbus : Nat) (s : State) : Host.Outcome State Fault Refusal :=
  .next (s.after
    (if fieldNat v 13 3 = 3 ∨ fieldNat v 13 3 = 4 then s
     else s.access p (ccpOff e 0x20) (fun r s => s.writeTxctl r e v (some vbus))))

/-- PD_SEND_HARD_RESET (R335). -/
def execPdSendHardReset (p : Path) (e : Fin 17) (v : DWord) (s : State) : Host.Outcome State Fault Refusal :=
  .next (s.after (if fieldNat v 13 3 = 3 then s.access p (ccpOff e 0x20) (fun r s => s.writeTxctl r e v none) else s))

/-- PD_SEND_CABLE_RESET (R326). -/
def execPdSendCableReset (p : Path) (e : Fin 17) (v : DWord) (s : State) : Host.Outcome State Fault Refusal :=
  .next (s.after (if fieldNat v 13 3 = 4 then s.access p (ccpOff e 0x20) (fun r s => s.writeTxctl r e v none) else s))

/-- GOODCRC_TIMEOUT (R320): a retry, or NO_GOODCRC with the counter advanced. -/
def State.crcTimeout (s : State) (e : Fin 17) : State :=
  match (s.eng e).tx, (s.eng e).txStage with
  | some m, .goodCrc t c =>
    if t < 2 then s.putOnLine e m c (t + 1)
    else
      let k : Fin 3 := ⟨m.kind % 3, by omega⟩
      (s.modEng e (fun x => { x with msgId := x.msgId.set k (x.msgId[k] + 1) })).endTx e 2
  | _, _ => s

/-- GOODCRC_TIMEOUT (R320). -/
def execGoodcrcTimeout (e : Fin 17) (s : State) : Host.Outcome State Fault Refusal := .next (s.after (s.crcTimeout e))

/-- A message that waits for the line to be the engine's goes (R322). -/
def State.sendWaiting (s : State) (e : Fin 17) (stage : TxStage) : State :=
  match (s.eng e).tx with
  | some m => if (s.eng e).txStage = stage then s.sendNow e m else s
  | none => s

/-- SINK_TX_WAIT_END (R322). -/
def execSinkTxWaitEnd (e : Fin 17) (s : State) : Host.Outcome State Fault Refusal := .next (s.after (s.sendWaiting e .sinkTx))

/-- CHUNK_TIMEOUT (R321): an assembly is dropped; the result of a transmission whose chunks are no longer asked for is not stated,
and free. -/
def State.chunkTimeout (s : State) (e : Fin 17) : State :=
  match (s.eng e).txStage with
  | .chunkWait _ =>
    let v := s.freeHalf
    v.2.endTx e (1 + v.1.toNat % 6)
  | _ => s.modEng e (fun x => { x with chunkRx := none })

/-- CHUNK_TIMEOUT (R321). -/
def execChunkTimeout (e : Fin 17) (s : State) : Host.Outcome State Fault Refusal := .next (s.after (s.chunkTimeout e))

/-- PS_HARD_RESET_EXPIRY (R324): power and VCONN off, then the discharge. -/
def State.psExpiry (s : State) (e : Fin 17) : State :=
  if (s.eng e).hr ≠ .psWait then s
  else
    (s.gateOff e).modEng e (fun x => { x with vconnOn := false, hr := if (s.moor e).vsafe0v then .recover else .discharge })

/-- PS_HARD_RESET_EXPIRY (R324). -/
def execPsHardResetExpiry (e : Fin 17) (s : State) : Host.Outcome State Fault Refusal := .next (s.after (s.psExpiry e))

/-- SRC_RECOVER_EXPIRY (R324): vSafe5V and an implicit contract again, or ERROR_RECOVERY. -/
def State.recoverExpiry (s : State) (e : Fin 17) : State :=
  if (s.eng e).hr ≠ .recover then s
  else if s.permit e then (((s.modEng e (fun x => { x with hr := .none })).gateOn e).implicitSource e).followVconn e
  else s.leavePartner e .recovery

/-- SRC_RECOVER_EXPIRY (R324). -/
def execSrcRecoverExpiry (e : Fin 17) (s : State) : Host.Outcome State Fault Refusal := .next (s.after (s.recoverExpiry e))

/-- SINK_HARD_RESET_TIMEOUT (R325). -/
def execSinkHardResetTimeout (e : Fin 17) (s : State) : Host.Outcome State Fault Refusal :=
  .next (s.after (if (s.eng e).hr = .sinkWait ∧ (s.eng e).state = .attSnk then s.partnerGone e else s))

/-- EPR_KEEPALIVE_TIMEOUT (R331). -/
def execEprKeepaliveTimeout (e : Fin 17) (s : State) : Host.Outcome State Fault Refusal :=
  .next (s.after (if (s.eng e).epr then s.sendHardReset e else s))

/-- EPR_EXIT_LIMIT (R331). -/
def State.eprLimit (s : State) (e : Fin 17) : State :=
  let x := s.eng e
  if !x.eprExit then s
  else if x.kind = 4 ∨ x.kind = 5 then s.sendHardReset e
  else s.modEng e (fun x => { x with eprExit := false })

/-- EPR_EXIT_LIMIT (R331). -/
def execEprExitLimit (e : Fin 17) (s : State) : Host.Outcome State Fault Refusal := .next (s.after (s.eprLimit e))

/-- PPS_TIMEOUT (R332). -/
def execPpsTimeout (e : Fin 17) (s : State) : Host.Outcome State Fault Refusal :=
  .next (s.after (if (s.eng e).source && (s.eng e).kind == 3 then s.sendHardReset e else s))

/-- HOLDING_PS_RDY (R336). -/
def execHoldingPsRdy (e : Fin 17) (s : State) : Host.Outcome State Fault Refusal :=
  .next (s.after
    (if (s.eng e).holdReady && (s.eng e).tx.isNone then
       (s.modEng e (fun x => { x with holdReady := false })).sendOwn e (controlMsg ctlPsRdy)
     else s))

/-- CC_RP_CHANGE (R322): the sink's SinkTxOK follows the source's Rp, and so does PU's implicit contract. -/
def State.rpChange (s : State) (e : Fin 17) (rp : Fin 4) : State :=
  if (s.eng e).state ≠ .attSnk then s
  else
    let s1 := s.modEng e (fun x =>
      let y := { x with rpSeen := rp.val, hr := if x.hr = .sinkWait then .none else x.hr }
      if e = pu ∧ y.kind = 1 then y.implicitSink else y)
    if rp = 3 then s1.sendWaiting e .sinkHold else s1

/-- CC_RP_CHANGE (R322). -/
def execCcRpChange (e : Fin 17) (rp : Fin 4) (s : State) : Host.Outcome State Fault Refusal := .next (s.after (s.rpChange e rp))

/-- VBUS_AT_VSAFE0V (R306, R324, R360). -/
def execVbusAtVsafe0v (n : Fin 17) (s : State) : Host.Outcome State Fault Refusal :=
  .next (s.after (if (s.moor n).gate then s else (s.atVsafe0v n).swapToSink n))

/-- A write to CCP_e_RX's ACK (R334): items up to A are released, and waiting items follow. -/
def State.writeRx (s : State) (r : Requester) (e : Fin 17) (v : DWord) : State :=
  let x := s.eng e
  let a := loHalf v
  if !r.isKeeper then s.refuse r 2 (ccpOff e 0x1C)
  else if idxDist a x.rxAck ≤ idxDist x.rxSeq x.rxAck then (s.modEng e (fun x => { x with rxAck := a })).placeWaiting e 4
  else s

/-- RX_RELEASE (R334). -/
def execRxRelease (p : Path) (e : Fin 17) (v : DWord) (s : State) : Host.Outcome State Fault Refusal :=
  .next (s.after (s.access p (ccpOff e 0x1C) (fun r s => s.writeRx r e v)))

/-- CCP_e_CTR as written (R334): A counts from 1 once RX_EN becomes 1. -/
def Engine.writeCtr (x : Engine) (v : DWord) : Engine :=
  let on := bitOf v 31
  let y := { x with rxEn := on, rxCtr := fieldNat v 16 11, txEn := bitOf v 15, txCtr := fieldNat v 0 11 }
  if on && !x.rxEn then { y with rxSeq := 0, rxAck := 0 } else y

/-- A write to CCP_e_CTR (R334): the items of KIND 3, 4 and 5 that still wait are placed once RX_EN is 1. -/
def State.writeCtr (s : State) (e : Fin 17) (v : DWord) : State :=
  let s1 := s.modEng e (fun x => x.writeCtr v)
  if s1.holding e then s1 else s1.placeWaiting e 4

/-- A write to CCP_e_MSGBASE (R339): not while EN is 1; the area must lie inside the keeper data region. -/
def State.writeMsgBase (s : State) (r : Requester) (e : Fin 17) (v : DWord) : State :=
  let b := fieldNat v 0 24
  if !r.isKeeper || bitOf (s.eng e).cfg 31 then s.refuse r 2 (ccpOff e 0x14)
  else if b % 8 = 0 ∧ inRegion 1 b 680 = true then s.modEng e (fun x => { x with msgBase := b })
  else s

/-- A write to the CCP block, manager BAR0 0x6_0000 (R339). -/
def State.writeCcp (s : State) (r : Requester) (off : Nat) (v : DWord) : State :=
  if h : 0x60000 ≤ off ∧ off < 0x61100 then
    let e : Fin 17 := ⟨(off - 0x60000) / 0x100, by omega⟩
    match (off - 0x60000) % 0x100 with
    | 0x00 => s.writeCcpCfg r e v
    | 0x10 => if s.isManager r then s.modEng e (fun x => { x with chg := x.chg.writeAck v }) else s.refuse r 2 off
    | 0x14 => s.writeMsgBase r e v
    | 0x18 => if r.isKeeper then s.writeCtr e v else s.refuse r 2 off
    | 0x1C => s.writeRx r e v
    | 0x20 => s.writeTxctl r e v none
    | _ => s
  else s

/-- Entry to SAFE, RELIGHT or UPDATE makes every engine the holding responder (R336); what waits for a slot still waits (R334). -/
def State.holdEngines (s : State) : State :=
  { s with ccp := { s.ccp with e := s.ccp.e.map (fun x => { x with rxEn := false, txEn := false }) } }

end Sys2Proof.Machine
end

