-- ==== Sys2Proof/Machine/Resets.lean ====
section
/-! DEFINITION. Fairway resets, port resets and TRST_N, and the CLK registers (chapter 4).
Choices: log 7, 27. -/

namespace Sys2Proof.Machine

/-- The clocks' state changed. -/
def State.modClk (s : State) (g : Clocks → Clocks) : State := { s with clk := g s.clk }

/-- A port reset runs on a port of a fairway (R108). -/
def State.portResetOn (s : State) (fa : Fin 4) : Bool := (portsOf fa).any (fun n => bitOf s.clk.portOn n.val)

/-- A fairway reset that has been asked for starts once no port reset runs on its ports (R106, R108). -/
def State.startFairway (s : State) (fa : Fin 4) : State :=
  if bitOf s.clk.fwyAsked fa.val && !bitOf s.clk.fwyOn fa.val && !s.portResetOn fa then
    (s.modClk (fun c => { c with fwyOn := c.fwyOn ||| BitVec.ofNat 4 (2 ^ fa.val) })).modFairway fa (fun x => { x with resetting := true })
  else s

/-- Every fairway reset that may start does. -/
def State.startFairways (s : State) : State := (List.finRange 4).foldl (fun s fa => s.startFairway fa) s

/-- A fairway reset asked for (R106, R108): a fairway without a fitted port counts as unfitted. -/
def State.askFairway (s : State) (fa : Fin 4) : State :=
  if (portsOf fa).any (fun n => s.portFit n) then
    s.modClk (fun c => { c with fwyAsked := c.fwyAsked ||| BitVec.ofNat 4 (2 ^ fa.val) })
  else s

/-- A port reset begins (R107): entries complete GONE, the gate and the contract go, the latch clears (R349), and the engine's
terminations are off until the self-test ends. R108 orders a fairway reset after a port reset only where both are requested together:
asked for while a reset of its fairway already runs, a port reset starts at once (DESIGN CHOICE, log 27). -/
def State.startPortReset (s : State) (n : Fin 16) : State :=
  if !s.portFit n || bitOf s.clk.portOn n.val then s
  else
    let s1 := s.modClk (fun c => { c with portOn := c.portOn ||| BitVec.ofNat 16 (2 ^ n.val) })
    ((s1.releasePort n 2).leavePartner (pathOf n) .disabled).modMoor (pathOf n) (fun m => { m with latched := false })

/-- A write of CLK_RST_REQ (R106 to R108): the port resets first, then the fairway resets. -/
def State.writeRstReq (s : State) (r : Requester) (v : DWord) : State :=
  s.primaryWrite r 0x0200C (fun s =>
    let s1 := (List.finRange 16).foldl (fun s n => if bitOf v n.val then s.startPortReset n else s) s
    ((List.finRange 4).foldl (fun s fa => if bitOf v (16 + fa.val) then s.askFairway fa else s) s1).startFairways)

/-- FAIRWAY_RESET: CLK_RST_REQ FWY bit n written 1 (R106). -/
def execFairwayReset (p : Path) (n : Fin 4) (s : State) : Host.Outcome State Fault Refusal :=
  .next (s.after (s.access p 0x0200C (fun r s => s.writeRstReq r (putBit true (16 + n.val)))))

/-- A fairway reset in progress ends with its self-test's verdict (R106, R303). -/
def State.endFairwayReset (s : State) (fa : Fin 4) (pass : Bool) : State :=
  if !bitOf s.clk.fwyOn fa.val then s
  else
    let m : BitVec 4 := ~~~(BitVec.ofNat 4 (2 ^ fa.val))
    (s.modClk (fun c => { c with fwyAsked := c.fwyAsked &&& m, fwyOn := c.fwyOn &&& m })).modFairway fa (fun x =>
      { x with resetting := false, failed := !pass, failCause := if pass then x.failCause else 2 })

/-- FAIRWAY_RESET_END: 2 ms of self-test have ended (R106). -/
def execFairwayResetEnd (n : Fin 4) (pass : Bool) (s : State) : Host.Outcome State Fault Refusal :=
  .next (s.after (s.endFairwayReset n pass))

/-- PORT_RESET: CLK_RST_REQ PORT bit n written 1 (R107). -/
def execPortReset (p : Path) (n : Fin 16) (s : State) : Host.Outcome State Fault Refusal :=
  .next (s.after (s.access p 0x0200C (fun r s => s.writeRstReq r (putBit true n.val))))

/-- A port reset in progress ends with its self-test's verdict (R107, R302, R356): `mooring` when the Mooring's part failed. -/
def State.endPortReset (s : State) (n : Fin 16) (pass mooring : Bool) : State :=
  if !bitOf s.clk.portOn n.val then s
  else
    let s1 := s.modClk (fun c => { c with portOn := c.portOn &&& ~~~(BitVec.ofNat 16 (2 ^ n.val)) })
    let s2 :=
      if pass then s1.modPort n (fun p => if p.state = .failed then { p.disconnected .off with failed := false } else { p with failed := false })
      else
        let s3 := s1.modPort n (fun p => { p.disconnected .failed with failed := true })
        if mooring then s3.modMoor (pathOf n) (fun m => { m with failCause := 1 }) else s3
    s2.startFairways

/-- PORT_RESET_END: the 30 ms of a port reset have ended (R107). -/
def execPortResetEnd (n : Fin 16) (pass mooring : Bool) (s : State) : Host.Outcome State Fault Refusal :=
  .next (s.after (s.endPortReset n pass mooring))

/-- TRST: TRST_N low resets the JTAG TAP controller only (R109). -/
def execTrst (s : State) : Host.Outcome State Fault Refusal :=
  .next (s.after (s.modClk (fun c => { c with tapReset := true })))

/-- CLK_EDGE as written (Table 4.9): SPI_DRV 0b11 leaves the field unchanged. -/
def edgeWritten (old v : DWord) : DWord := if fieldNat v 0 2 = 3 then old else putField (fieldNat v 0 2) 0 2

/-- A write to the CLK block (R116). -/
def State.writeClk (s : State) (r : Requester) (off : Nat) (v : DWord) : State :=
  match off with
  | 0x02008 => s.sealedWrite r off 2 (fun s => s.modClk (fun c => { c with ssc := putBit (bitOf v 0) 0 }))
  | 0x0200C => s.writeRstReq r v
  | 0x02010 => s.sealedWrite r off 2 (fun s => s.modClk (fun c => { c with edge := edgeWritten c.edge v }))
  | 0x02014 => s.sealedWrite r off 2 (fun s => s.modClk (fun c => { c with lgFilt := putField (fieldNat v 0 16) 0 16 }))
  | _ => s

end Sys2Proof.Machine
end

