-- ==== Sys2Proof/Machine/Lantern.lean ====
section
/-! DEFINITION. The Lantern (chapter 13): connection, bus reset, endpoints and buffers, SETUP and the requests the Lantern recognises,
suspend, L1, remote wake and start-of-frame.
Choices: log 13, 50. -/

namespace Sys2Proof.Machine

/-- The Lantern changed. -/
def State.modLan (s : State) (g : Lantern → Lantern) : State := { s with lan := g s.lan }

/-- An endpoint direction. -/
def State.lanEp (s : State) (i : Fin 32) : LanEp := s.lan.ep[i]

/-- An endpoint direction changed. -/
def State.modEp (s : State) (i : Fin 32) (g : LanEp → LanEp) : State :=
  s.modLan (fun x => { x with ep := x.ep.set i (g x.ep[i]) })

/-- The OUT direction of an endpoint (R373). -/
def epOut (e : Fin 16) : Fin 32 := ⟨2 * e.val, by omega⟩

/-- The IN direction of an endpoint (R373). -/
def epIn (e : Fin 16) : Fin 32 := ⟨2 * e.val + 1, by omega⟩

/-- Keeper firmware and the boot ROM, which write the Lantern's registers (R401). -/
def Requester.firmware (r : Requester) : Bool := r.isKeeper || decide (r = .bootRom)

/-- LSTATE while the pull-up is off (Table 13.2). -/
def Lantern.idleState (x : Lantern) : LanState := if x.en then .waiting else .off

/-- A write of LAN_CONNECT (R369). -/
def State.writeLanConnect (s : State) (r : Requester) (v : DWord) : State :=
  if s.isPrimary r || r.firmware then
    s.modLan (fun x =>
      let y : Lantern := { x with en := bitOf v 0, fsOnly := bitOf v 4 }
      if y.pullup then y else { y with state := y.idleState })
  else s.refuse r 2 0x80000

/-- LAN_CONNECT_WRITE (R369). -/
def execLanConnectWrite (p : Path) (v : DWord) (s : State) : Host.Outcome State Fault Refusal :=
  .next (s.after (s.access p 0x80000 (fun r s => s.writeLanConnect r v)))

/-- LANTERN_CONNECT: every condition of R367 holds, and the pull-up goes on. -/
def execLanternConnect (s : State) : Host.Outcome State Fault Refusal :=
  .next (s.after
    (if s.lanMay && !s.lan.pullup then
      s.modLan (fun x => { x with pullup := true, state := .powered, high := false, sofValid := false })
     else s))

/-- Maximum packet size (Table 13.1) at the present speed. -/
def Lantern.maxp (x : Lantern) (i : Fin 32) : Nat := if i.val < 2 then 64 else if x.high then 512 else 64

/-- Bytes of one buffer of an endpoint direction (Table 13.3). -/
def LanEp.room (x : LanEp) (i : Fin 32) : Nat := if i.val < 4 then 512 else 512 * x.size

/-- One buffer of an endpoint direction. -/
def LanEp.buf (x : LanEp) (second : Bool) : LanBuf := if second then x.buf1 else x.buf0

/-- One buffer changed. -/
def LanEp.setBuf (x : LanEp) (second : Bool) (b : LanBuf) : LanEp := if second then { x with buf1 := b } else { x with buf0 := b }

/-- Byte address in the Holding Store of a Gallery buffer (R373, R374). -/
def LanEp.address (x : LanEp) (second : Bool) : Nat := 2 * 0x0B0000 + 512 * (x.base + if second then x.size else 0)

/-- A buffer of an endpoint direction completes (R377, R381). -/
def State.completeBuf (s : State) (i : Fin 32) (second : Bool) (b : LanBuf) : State :=
  let x := s.lanEp i
  let seq := x.doneSeq + 1
  let s1 := s.modEp i (fun x =>
    { x.setBuf second { b with armed := false, done := true, used := false, zlpDue := false } with
      next := if x.dbl then !second else false, doneSeq := seq })
  if x.ctrEn then s1.decrementEngine x.ctr (putField 0xE2 24 8 ||| putField i.val 16 8 ||| seq.setWidth 32) else s1

/-- An armed buffer completes with ABORT (R371, R380). -/
def State.abortBuf (s : State) (i : Fin 32) (second : Bool) : State :=
  let b := (s.lanEp i).buf second
  if b.armed then s.completeBuf i second { b with abort := true } else s

/-- Every armed buffer of an endpoint direction completes with ABORT, the one that NEXT names first. -/
def State.abortEp (s : State) (i : Fin 32) : State :=
  let k := (s.lanEp i).next
  (s.abortBuf i k).abortBuf i !k

/-- What a bus reset and a disconnect do alike (R371). -/
def State.lanClear (s : State) : State :=
  let s1 := (List.finRange 32).foldl (fun s i => s.abortEp i) s
  s1.modLan (fun x =>
    { x with
      ep := x.ep.map (fun e => { e with toggle := false, halted := false })
      addrPend := none, addr := 0, rweHost := false, wakeReq := false, request := .none
      ibp := { x.ibp with ep0 := [], config := 0, ep0Stall := false } })

/-- LANTERN_DISCONNECT: a condition of R367 fails while the pull-up is on (R367, R371, R396). -/
def execLanternDisconnect (s : State) : Host.Outcome State Fault Refusal :=
  .next (s.after
    (if s.lan.pullup && !s.lanMay then
      s.lanClear.modLan (fun x =>
        { x with pullup := false, state := x.idleState, high := false, sofValid := false, ibp := { x.ibp with waiting := [] } })
     else s))

/-- LAN_BUS_RESET (R371): `high` says that the host has answered the chirp, which FS_ONLY forgoes (R369). -/
def execLanBusReset (high : Bool) (s : State) : Host.Outcome State Fault Refusal :=
  .next (s.after
    (if s.lan.pullup then
      s.lanClear.modLan (fun x =>
        { x with state := .default, reset := x.reset.bump, high := high && !x.fsOnly, lpmEnTaken := x.lpmEn, beslTaken := x.beslMin })
     else s))

/-- The bus carries tokens to the Lantern: connected, reset, and not suspended or in L1. -/
def Lantern.live (x : Lantern) : Bool :=
  x.pullup &&
    match x.state with
    | .default | .addressed => true
    | _ => false

/-- The request of a SETUP packet that the Lantern acts on at its status stage, whoever serves EP0 (R379, R385). -/
def requestOf (b : Vector Byte 8) : LanRequest :=
  let value := b[2].toNat + 256 * b[3].toNat
  let ep : Fin 16 := ⟨b[4].toNat % 16, by omega⟩
  let i := if b[4].toNat < 128 then epOut ep else epIn ep
  match b[0].toNat, b[1].toNat with
  | 0x02, 1 => if value = 0 then .clearHalt i else .none
  | 0x00, 1 => if value = 1 then .wakeOff else .none
  | 0x00, 3 => if value = 1 then .wakeOn else .none
  | 0x00, 5 => .setAddress (value % 128)
  | 0x00, 9 => .setConfig (value % 256)
  | 0x01, 11 => .setInterface
  | _, _ => .none

/-- Two bytes, the low one first. -/
def twoBytes (n : Nat) : List Byte := [BitVec.ofNat 8 n, BitVec.ofNat 8 (n / 256)]

/-- The engine's configuration descriptor set, with its type byte (Table 13.6; layout of USB 2.0, log 13). -/
def ibpConfig (type : Byte) (wick high : Bool) : List Byte :=
  let maxp := twoBytes (if high then 512 else 64)
  [9, type, 32, 0, 1, 1, 0, if wick then 0xA0 else 0xE0, if wick then 0xFA else 0]
    ++ [9, 4, 0, 0, 2, 0xFF, 0x49, 0x01, 0] ++ ([7, 5, 0x01, 2] ++ maxp ++ [0]) ++ ([7, 5, 0x81, 2] ++ maxp ++ [0])

/-- A descriptor of the engine's set, by its type (Table 13.6, log 13). -/
def ibpDescriptor (type : Nat) (wick high : Bool) : Option (List Byte) :=
  match type with
  | 1 => some ([18, 1, 0x01, 0x02, 0xFF, 0, 0, 64] ++ twoBytes 0x1F5B ++ twoBytes 0x4B1B ++ twoBytes 0x00B1 ++ [0, 0, 0, 1])
  | 2 => some (ibpConfig 2 wick high)
  | 6 => some [10, 6, 0x01, 0x02, 0xFF, 0, 0, 64, 1, 0]
  | 7 => some (ibpConfig 7 wick !high)
  | 15 => some ([5, 15, 12, 0, 1] ++ [7, 16, 2, 6, 0, 0, 0])
  | _ => none

/-- The engine's answer to a request: the data of its data stage and what its status stage does, or none where it stalls
(R387). -/
def State.engineAnswer (s : State) (b : Vector Byte 8) : Option (List Byte × LanRequest) :=
  let value := b[2].toNat + 256 * b[3].toNat
  let index := b[4].toNat + 256 * b[5].toNat
  let length := b[6].toNat + 256 * b[7].toNat
  let x := s.lan
  let ep : Option (Fin 32) :=
    match index with
    | 0x00 => some (epOut 0)
    | 0x80 => some (epIn 0)
    | 0x01 => some (epOut 1)
    | 0x81 => some (epIn 1)
    | _ => none
  let send (l : List Byte) : Option (List Byte × LanRequest) := some (l.take length, .none)
  match b[0].toNat, b[1].toNat with
  | 0x80, 6 => if value % 256 = 0 then (ibpDescriptor (value / 256) s.wick x.high).bind send else none
  | 0x80, 8 => send [BitVec.ofNat 8 x.ibp.config]
  | 0x80, 0 => send [(if s.wick then 0 else 1) ||| (if x.rweHost then 2 else 0), 0]
  | 0x81, 0 => if index = 0 then send [0, 0] else none
  | 0x82, 0 => ep.bind (fun i => send [if (s.lanEp i).halted then 1 else 0, 0])
  | 0x81, 10 => if index = 0 then send [0] else none
  | 0x00, 5 => some ([], .setAddress (value % 128))
  | 0x00, 9 => if value < 2 then some ([], .setConfig value) else none
  | 0x00, 1 => if value = 1 then some ([], .wakeOff) else none
  | 0x00, 3 => if value = 1 then some ([], .wakeOn) else none
  | 0x02, 1 => if value = 0 then ep.map (fun i => ([], .clearHalt i)) else none
  | 0x02, 3 => if value = 0 then ep.map (fun i => ([], .setHalt i)) else none
  | 0x01, 11 => if value = 0 ∧ index = 0 then some ([], .setInterface) else none
  | _, _ => none

/-- A SETUP packet (R380). -/
def State.lanSetup (s : State) (b : Vector Byte 8) : State :=
  let s1 := ((s.emit (.lanAck 0)).abortEp (epOut 0)).abortEp (epIn 0)
  let fresh (e : LanEp) : LanEp := { e with halted := false, toggle := true }
  let s2 := ((s1.modEp (epOut 0) fresh).modEp (epIn 0) fresh).modLan (fun x =>
    { x with
      setupLo := dwordOfBytes (b.toList.take 4), setupHi := dwordOfBytes (b.toList.drop 4), setup := x.setup.bump
      request := requestOf b })
  let s3 : State := if s2.lan.setupCtrEn then
      s2.decrementEngine s2.lan.setupCtr (putField 0xE3 24 8 ||| s2.lan.setup.cnt.setWidth 32)
    else s2
  if s3.ibpRuns then
    match s3.engineAnswer b with
    | some (d, q) => s3.modLan (fun x => { x with request := q, ibp := { x.ibp with ep0 := d, ep0Stall := false } })
    | none => s3.modLan (fun x => { x with request := .none, ibp := { x.ibp with ep0 := [], ep0Stall := true } })
  else s3

/-- LAN_SETUP (R380). -/
def execLanSetup (bytes : Vector Byte 8) (s : State) : Host.Outcome State Fault Refusal :=
  .next (s.after (if s.lan.live then s.lanSetup bytes else s))

/-- A halt cleared with its toggle back at DATA0 (R379). -/
def LanEp.unhalt (x : LanEp) : LanEp := { x with halted := false, toggle := false }

/-- An address takes effect (R372). -/
def Lantern.takeAddress (x : Lantern) (a : Nat) : Lantern :=
  { x with addr := a, addrPend := none, state := if a = 0 then .default else .addressed }

/-- The halts of EP1 to EP15 clear (R379). -/
def Lantern.unhaltAll (x : Lantern) : Lantern :=
  { x with ep := Vector.ofFn (fun i => if i.val < 2 then x.ep[i] else (x.ep[i]).unhalt) }

/-- The zero-length IN status stage of a request is acknowledged (R372, R379, R385). -/
def State.statusDone (s : State) : State :=
  s.modLan (fun x =>
    let y : Lantern := { x with request := .none }
    match x.request with
    | .none => y
    | .clearHalt i => if i.val < 2 then y else { y with ep := y.ep.set i (y.ep[i]).unhalt }
    | .setHalt i => { y with ep := y.ep.set i { y.ep[i] with halted := true } }
    | .setConfig c => { y.unhaltAll with ibp := { y.ibp with config := c } }
    | .setInterface => y.unhaltAll
    | .wakeOn => { y with rweHost := true }
    | .wakeOff => { y with rweHost := false }
    | .setAddress a =>
      if s.ibpRuns then y.takeAddress a
      else
        match x.addrPend with
        | some b => y.takeAddress b
        | none => y)

/-- A packet of the engine's EP0 data, or its zero-length status packet, with the host's handshake. -/
def State.engineIn (s : State) (acked : Bool) : State :=
  let i := epIn 0
  if s.lan.ibp.ep0Stall then s.emit (.lanStall 0)
  else
    let pkt := s.lan.ibp.ep0.take 64
    let s1 := s.emit (.lanData 0 (s.lanEp i).toggle pkt)
    if !acked then s1
    else
      let s2 := (s1.modEp i (fun x => { x with toggle := !x.toggle })).modLan (fun x =>
        { x with ibp := { x.ibp with ep0 := x.ibp.ep0.drop 64 } })
      if pkt.isEmpty then s2.statusDone else s2

/-- Bytes of a buffer from its count on: those of a dedicated buffer, or read from the Gallery with their poison (R373, R382). -/
def State.lanRead (s : State) (i : Fin 32) (second : Bool) (start n : Nat) : List (Byte × Bool) × State :=
  if h : i.val < 4 then
    ((List.range n).map (fun k => ((s.lan.ded[i.val]'(by omega)).getD (start + k) 0, false)), s)
  else
    let r := s.hst.readBytes 0x14 ((s.lanEp i).address second + start) n
    (r.1, { s with hst := r.2 })

/-- A list of bytes with some of them replaced from a place on; missing bytes before it are zero. -/
def splice (old : List Byte) (start : Nat) (new : List Byte) : List Byte :=
  (old ++ List.replicate (start - old.length) 0).take start ++ new ++ old.drop (start + new.length)

/-- Bytes received into a buffer (R373, R382). -/
def State.lanStore (s : State) (i : Fin 32) (second : Bool) (start : Nat) (bytes : List (Byte × Bool)) : State :=
  if h : i.val < 4 then
    s.modLan (fun x =>
      { x with ded := x.ded.set i.val (splice (x.ded[i.val]'(by omega)) start (bytes.map Prod.fst)) (by omega) })
  else { s with hst := s.hst.writeBytes ((s.lanEp i).address second + start) bytes }

/-- An IN token to an armed buffer (R377, R382). -/
def State.bufferIn (s : State) (e : Fin 16) (acked : Bool) : State :=
  let i := epIn e
  let x := s.lanEp i
  let k := x.next
  let b := x.buf k
  let n := min (s.lan.maxp i) (b.len - b.count)
  let r := s.lanRead i k b.count n
  if r.1.any (fun y => y.2) then
    ((r.2.completeBuf i k { b with poison := true }).modEp i (fun x => { x with halted := true })).emit (.lanStall e)
  else
    let s1 := r.2.emit (.lanData e x.toggle (r.1.map Prod.fst))
    if !acked then s1.modEp i (fun x => x.setBuf k { b with used := true })
    else
      let c := b.count + n
      let last := decide (c = b.len) && (!b.zlpDue || n == 0)
      let b1 : LanBuf := { b with used := true, count := c }
      let s2 := s1.modEp i (fun x => { x.setBuf k b1 with toggle := !x.toggle })
      let s3 := if last then s2.completeBuf i k b1 else s2
      if i.val = 1 ∧ n = 0 then s3.statusDone else s3

/-- The engine moves EP1's packets as whole IBP messages (R387, R388). -/
def State.engineEp (s : State) (e : Fin 16) : Bool := s.ibpRuns && decide (e = 1)

/-- LAN_IN_TOKEN (R375, R378): `acked` is the host's handshake for a data packet. -/
def State.lanIn (s : State) (e : Fin 16) (acked : Bool) : State :=
  let x := s.lanEp (epIn e)
  if !s.lan.live || s.engineEp e then s
  else if (!x.en && decide (e ≠ 0)) || x.halted then s.emit (.lanStall e)
  else if s.ibpRuns && decide (e = 0) then s.engineIn acked
  else if (x.buf x.next).armed then s.bufferIn e acked
  else s.emit (.lanNak e)

/-- LAN_IN_TOKEN. -/
def execLanInToken (ep : Fin 16) (acked : Bool) (s : State) : Host.Outcome State Fault Refusal := .next (s.after (s.lanIn ep acked))

/-- An armed buffer of an endpoint direction has room for a full packet. -/
def State.outRoom (s : State) (i : Fin 32) : Bool :=
  let x := s.lanEp i
  let b := x.buf x.next
  b.armed && decide (b.count + s.lan.maxp i ≤ b.len)

/-- An OUT packet with the expected toggle arrives in an armed buffer (R377, R378, R382). -/
def State.bufferOut (s : State) (e : Fin 16) (bytes : List (Byte × Bool)) : State :=
  let i := epOut e
  let x := s.lanEp i
  let k := x.next
  let b := x.buf k
  let short := decide (bytes.length < s.lan.maxp i)
  let c := b.count + bytes.length
  let b1 : LanBuf := { b with used := true, count := c, short := short, poison := b.poison || bytes.any (fun y => y.2) }
  let s1 := (s.lanStore i k b.count bytes).modEp i (fun x => { x.setBuf k b1 with toggle := !x.toggle })
  let s2 := if short || decide (c = b.len) then s1.completeBuf i k b1 else s1
  s2.emit (if s.lan.high && !s2.outRoom i then .lanNyet e else .lanAck e)

/-- An OUT token to EP0 while the engine serves it: the status stage of a read; it stalls data (R387). -/
def State.engineOut (s : State) (bytes : List (Byte × Bool)) : State :=
  if s.lan.ibp.ep0Stall || !bytes.isEmpty then s.emit (.lanStall 0) else s.emit (.lanAck 0)

/-- LAN_OUT_TOKEN (R375, R378): a packet with a repeated toggle is acknowledged and discarded, as USB 2.0 has it. -/
def State.lanOut (s : State) (e : Fin 16) (toggle : Bool) (bytes : List (Byte × Bool)) : State :=
  let i := epOut e
  let x := s.lanEp i
  if !s.lan.live || s.engineEp e || decide (s.lan.maxp i < bytes.length) then s
  else if (!x.en && decide (e ≠ 0)) || x.halted then s.emit (.lanStall e)
  else if s.ibpRuns && decide (e = 0) then s.engineOut bytes
  else if !(x.buf x.next).armed then s.emit (.lanNak e)
  else if toggle ≠ x.toggle then s.emit (.lanAck e)
  else s.bufferOut e bytes

/-- LAN_OUT_TOKEN. -/
def execLanOutToken (ep : Fin 16) (toggle : Bool) (bytes : List (Byte × Bool)) (s : State) : Host.Outcome State Fault Refusal :=
  .next (s.after (s.lanOut ep toggle bytes))

/-- LAN_PING (R378), at high speed. -/
def State.lanPing (s : State) (e : Fin 16) : State :=
  let x := s.lanEp (epOut e)
  if !s.lan.live || !s.lan.high || s.engineEp e then s
  else if (!x.en && decide (e ≠ 0)) || x.halted then s.emit (.lanStall e)
  else if s.ibpRuns && decide (e = 0) then s.engineOut []
  else if (x.buf x.next).armed then s.emit (.lanAck e)
  else s.emit (.lanNak e)

/-- LAN_PING. -/
def execLanPing (ep : Fin 16) (s : State) : Host.Outcome State Fault Refusal := .next (s.after (s.lanPing ep))

/-- A register of EP0 or EP1 while the engine runs, or a requester that is not firmware (R387, R401). -/
def State.lanGuard (s : State) (r : Requester) (off : Nat) (engines : Bool) (act : State → State) : State :=
  if !r.firmware || (engines && s.ibpRuns) then s.refuse r 2 off else act s

/-- A write of LAN_ADDR (R372). -/
def State.writeLanAddr (s : State) (r : Requester) (v : DWord) : State :=
  s.lanGuard r 0x80008 true (fun s =>
    s.modLan (fun x => { x with addrReg := fieldNat v 0 7, addrPend := some (fieldNat v 0 7) }))

/-- LAN_ADDR_WRITE (R372). -/
def execLanAddrWrite (p : Path) (v : DWord) (s : State) : Host.Outcome State Fault Refusal :=
  .next (s.after (s.access p 0x80008 (fun r s => s.writeLanAddr r v)))

/-- A count of LAN_FAULT with its record (Table 13.12). -/
def State.lanFault (s : State) (kind : Nat) (i : Fin 32) : State :=
  s.modLan (fun x => { x with fault := x.fault.bump, faultLast := putField kind 28 4 ||| putField i.val 16 5 })

/-- LEN of a buffer about to be armed is in range (R376). -/
def State.lanLenOk (s : State) (i : Fin 32) (len : Nat) : Bool :=
  let room := (s.lanEp i).room i
  decide (len ≤ room) && (i.val % 2 == 1 || (len != 0 && len % s.lan.maxp i == 0))

/-- Offset of a register of an endpoint direction. -/
def epOff (i : Fin 32) (a : Nat) : Nat := 0x80100 + 0x20 * i.val + a

/-- A write of LAN_EPi_BUFk (R376); the second buffer is there only with DBL = 1. -/
def State.writeBuf (s : State) (r : Requester) (i : Fin 32) (second : Bool) (v : DWord) : State :=
  s.lanGuard r (epOff i (if second then 0xC else 8)) (decide (i.val < 4)) (fun s =>
    let x := s.lanEp i
    let b := x.buf second
    let len := fieldNat v 0 17
    if second && !x.dbl then s
    else if bitOf v 31 then
      if b.armed then s
      else if s.lanLenOk i len then
        let zlp := bitOf v 30 && i.val % 2 == 1
        s.modEp i (fun x => x.setBuf second
          { armed := true, zlp := zlp, len := len, zlpDue := zlp && len != 0 && len % s.lan.maxp i == 0 })
      else s.lanFault 3 i
    else if b.armed && !b.used then s.modEp i (fun x => x.setBuf second { b with armed := false })
    else s)

/-- BUFFER_ARM (R376). -/
def execBufferArm (p : Path) (i : Fin 32) (second : Bool) (v : DWord) (s : State) : Host.Outcome State Fault Refusal :=
  .next (s.after (s.access p (epOff i (if second then 0xC else 8)) (fun r s => s.writeBuf r i second v)))

/-- Blocks that an endpoint direction occupies: the first, and the one after the last (R374). -/
def LanEp.blocks (x : LanEp) : Nat × Nat := (x.base, x.base + x.size * (if x.dbl then 2 else 1))

/-- The kind of refusal of an enable, or 0 (R374). -/
def State.carve (s : State) (i : Fin 32) (x : LanEp) : Nat :=
  let r := x.blocks
  if 128 < r.2 then 1
  else if (List.finRange 32).any (fun j =>
      let y := s.lanEp j
      decide (j ≠ i) && decide (4 ≤ j.val) && y.en && decide (y.blocks.1 < r.2) && decide (r.1 < y.blocks.2)) then 2
  else 0

/-- The fields of LAN_EPi_CFG other than EN, as written (R374, R379, R381): for EP0 and EP1 the carving is reserved. -/
def LanEp.written (x : LanEp) (i : Fin 32) (v : DWord) : LanEp :=
  let size := fieldNat v 0 7
  let y : LanEp :=
    if i.val < 4 then x
    else { x with dbl := bitOf v 30, base := fieldNat v 8 7, size := if size = 0 ∨ 64 < size then x.size else size }
  { y with halted := x.halted || bitOf v 29, ctrEn := bitOf v 27, ctr := fieldNat v 16 11 }

/-- A write of LAN_EPi_CFG (R374, R379, R387). -/
def State.writeEpCfg (s : State) (r : Requester) (i : Fin 32) (v : DWord) : State :=
  let off := epOff i 0
  s.lanGuard r off (decide (i.val < 4) || bitOf v 31) (fun s =>
    let x := s.lanEp i
    let y := x.written i v
    if x.en && (y.dbl != x.dbl || y.base != x.base || y.size != x.size) then s.refuse r 2 off
    else if bitOf v 31 && !x.en && decide (4 ≤ i.val) then
      let kind := s.carve i y
      if kind = 0 then s.modEp i (fun _ => { y with en := true }) else (s.modEp i (fun _ => y)).lanFault kind i
    else s.modEp i (fun _ => { y with en := bitOf v 31 }))

/-- EP_ENABLE: a write of LAN_EPi_CFG that sets EN (R374). -/
def execEpEnable (p : Path) (i : Fin 32) (v : DWord) (s : State) : Host.Outcome State Fault Refusal :=
  .next (s.after (s.access p (epOff i 0) (fun r s => s.writeEpCfg r i v)))

/-- EP_STALL: a write of LAN_EPi_CFG that sets STALL (R379). -/
def execEpStall (p : Path) (i : Fin 32) (v : DWord) (s : State) : Host.Outcome State Fault Refusal :=
  .next (s.after (s.access p (epOff i 0) (fun r s => s.writeEpCfg r i v)))

/-- LAN_SUSPEND: 3 ms without bus activity (R383). -/
def execLanSuspend (s : State) : Host.Outcome State Fault Refusal :=
  .next (s.after
    (if s.lan.live || (s.lan.pullup && decide (s.lan.state = .powered)) then
      s.modLan (fun x => { x with state := .suspended, before := x.state })
     else s))

/-- Notifications that waited for resume are sent in order (R396). -/
def State.sendWaitingNotes (s : State) : State :=
  (s.lan.ibp.waiting).foldl (fun s n => s.notifyDue n) (s.modLan (fun x => { x with ibp := { x.ibp with waiting := [] } }))

/-- A byte length and payload of a firmware box half, packed from words (R397). -/
def bytesOf (ws : List (Half × Bool)) : List Byte := ws.flatMap (fun w => [lowByte w.1, highByte w.1])

/-- The firmware box is where R397 wants it. -/
def State.boxOk (s : State) : Bool :=
  let b := s.lan.ibp.fwBox
  b != 0 && (if s.wick then decide (b + 4096 ≤ 0x40000) else inRegion 1 b 4096)

/-- The bus can take an IBP message from EP1 IN now. -/
def Lantern.mayPush (x : Lantern) : Bool := x.pullup && !(decide (x.state = .suspended) || decide (x.state = .l1))

/-- FW_REPLY goes out from the outbox (R397). -/
def State.sendReply (s : State) : State :=
  let i := s.lan.ibp
  let r := s.hst.readWords 0x14 (i.fwBox + 2048 + 8) (i.outLen / 2)
  let flags := if r.1.any (fun w => w.2) then 2 else 0
  let bytes := ibpHeader 0xC1 flags i.devSeq 0 i.outLen 0 0 ++ bytesOf r.1
  { (s.emit (.ibp bytes)) with
    hst := r.2, lan := { s.lan with ibp := { i with devSeq := i.devSeq + 1, outBusy := false } } }

/-- A reply that waited goes out once the bus can take it. -/
def State.flushReply (s : State) : State :=
  if s.lan.ibp.outBusy && s.ibpRuns && s.lan.mayPush && s.boxOk then s.sendReply else s

/-- LAN_RESUME: resume signalling from the host (R383, R384, R396). -/
def execLanResume (s : State) : Host.Outcome State Fault Refusal :=
  .next (s.after
    (match s.lan.state with
     | .suspended => ((s.modLan (fun x => { x with state := x.before })).sendWaitingNotes).flushReply
     | .l1 => ((s.modLan (fun x => { x with state := .addressed })).sendWaitingNotes).flushReply
     | _ => s))

/-- A buffer of some endpoint direction is partly used (Table 13.5). -/
def Lantern.partlyUsed (x : Lantern) : Bool :=
  x.ep.toList.any (fun e => (e.buf0.armed && e.buf0.used) || (e.buf1.armed && e.buf1.used))

/-- LAN_LPM (R384, Table 13.5): bLinkState 1 is L1. -/
def State.lanLpm (s : State) (link besl : Fin 16) (rwe : Bool) : State :=
  let x := s.lan
  if !x.live then s
  else
    let resp := if !x.lpmEnTaken || decide (link ≠ 1) then 3 else if decide (besl.val < x.beslTaken) || x.partlyUsed then 2 else 1
    let s1 := s.modLan (fun x =>
      { x with lpmResp := resp, lpmRwe := rwe, lpmBesl := besl.val, state := if resp = 1 then .l1 else x.state })
    s1.emit (if resp = 3 then .lanStall 0 else if resp = 2 then .lanNyet 0 else .lanAck 0)

/-- LAN_LPM. -/
def execLanLpm (link besl : Fin 16) (rwe : Bool) (s : State) : Host.Outcome State Fault Refusal := .next (s.after (s.lanLpm link besl rwe))

/-- A write of LAN_WAKE (R385); `idle` says that the bus has been idle for at least 5 ms. -/
def State.writeWake (s : State) (r : Requester) (v : DWord) (idle : Bool) : State :=
  s.lanGuard r 0x80020 false (fun s =>
    if bitOf v 0 && s.lan.mayWake idle then s.modLan (fun x => { x with wakeReq := true }) else s)

/-- LAN_WAKE_REQUEST (R385). -/
def execLanWakeRequest (p : Path) (v : DWord) (idle : Bool) (s : State) : Host.Outcome State Fault Refusal :=
  .next (s.after (s.access p 0x80020 (fun r s => s.writeWake r v idle)))

/-- LAN_WAKE_END: the device's resume signalling ends (R385). -/
def execLanWakeEnd (s : State) : Host.Outcome State Fault Refusal :=
  .next (s.after (s.modLan (fun x => { x with wakeReq := false })))

/-- The start-of-frame after a place in the sequence (R386). -/
def Lantern.sofStep (x : Lantern) (n : Nat) : Nat := if x.high then (n + 1) % 16384 else (8 * (n / 8) + 8) % 16384

/-- A start-of-frame is received (R386). -/
def State.lanSof (s : State) (frame : Fin 2048) (offset : Nat) : State :=
  if !s.lan.live then s
  else
    let stamp := putField s.bcn.count.toNat 16 16 ||| putBit (decide (s.bcn.rate ≠ .stopped)) 15 ||| putField offset 0 14
    s.modLan (fun x =>
      let wrong := x.sofValid && x.sofNext / 8 != frame.val
      let same := x.sofValid && x.sofFrame == frame.val
      let place := if x.sofNext / 8 = frame.val ∧ x.sofValid then x.sofNext else 8 * frame.val
      { x with
        sofValid := true, sofFrame := frame.val, sofUframe := if x.high && same then (x.sofUframe + 1) % 8 else 0
        sofStamp := stamp, sofErr := if wrong then x.sofErr.bump else x.sofErr, sofNext := x.sofStep place })

/-- LAN_SOF (R386). -/
def execLanSof (frame : Fin 2048) (offset : Nat) (s : State) : Host.Outcome State Fault Refusal := .next (s.after (s.lanSof frame offset))

/-- LAN_SOF_MISSING: an expected start-of-frame is absent while ADDRESSED (R386). -/
def execLanSofMissing (s : State) : Host.Outcome State Fault Refusal :=
  .next (s.after
    (if s.lan.pullup && decide (s.lan.state = .addressed) && s.lan.sofValid then
      s.modLan (fun x => { x with sofErr := x.sofErr.bump, sofNext := x.sofStep x.sofNext })
     else s))

/-- A write of LAN_IBP_FWOUT (R397): a new SEQ with a LEN in range, while no reply is being sent. -/
def State.writeFwOut (s : State) (r : Requester) (v : DWord) : State :=
  s.lanGuard r 0x82018 false (fun s =>
    let i := s.lan.ibp
    let len := fieldNat v 0 12
    if !s.ibpRuns || !s.boxOk || hiHalf v == i.outSeq || i.outBusy || len % 4 != 0 || decide (len < 4) || decide (4080 < len) then s
    else (s.modLan (fun x => { x with ibp := { x.ibp with outSeq := hiHalf v, outLen := len, outBusy := true } })).flushReply)

/-- FW_REPLY (R397). -/
def execFwReply (p : Path) (v : DWord) (s : State) : Host.Outcome State Fault Refusal :=
  .next (s.after (s.access p 0x82018 (fun r s => s.writeFwOut r v)))

/-- An ACK field of the LAN block written (R401). -/
def State.lanAck (s : State) (r : Requester) (off : Nat) (act : Lantern → Lantern) : State :=
  if r.firmware || s.isManager r then s.modLan act else s.refuse r 2 off

/-- A write to a dedicated buffer (R373, R387): `k` of Table 13.13 and the byte of its dword. -/
def State.writeDed (s : State) (r : Requester) (off : Nat) (k : Fin 4) (a : Nat) (v : DWord) : State :=
  s.lanGuard r off true (fun s => s.modLan (fun x => { x with ded := x.ded.set k (splice x.ded[k] a (bytesOfDWord v)) }))

/-- A write to the LAN and LAN_IBP registers (R401). -/
def State.writeLan (s : State) (r : Requester) (off : Nat) (v : DWord) : State :=
  if off = 0x80000 then s.writeLanConnect r v
  else if off = 0x80008 then s.writeLanAddr r v
  else if off = 0x8000C then s.lanAck r off (fun x => { x with reset := x.reset.writeAck v })
  else if off = 0x80018 then s.lanAck r off (fun x => { x with sofErr := x.sofErr.writeAck v })
  else if off = 0x8001C then
    if s.isPrimary r || r.isKeeper then s.modLan (fun x => { x with lpmEn := bitOf v 31, beslMin := fieldNat v 16 4 })
    else s.refuse r 2 off
  else if off = 0x80020 then
    let b := s.freeBit
    b.2.writeWake r v b.1
  else if off = 0x80030 then s.lanAck r off (fun x => { x with setup := x.setup.writeAck v })
  else if off = 0x80034 then
    s.lanGuard r off true (fun s => s.modLan (fun x => { x with setupCtrEn := bitOf v 31, setupCtr := fieldNat v 0 11 }))
  else if off = 0x80038 then s.lanAck r off (fun x => { x with fault := x.fault.writeAck v })
  else if h : 0x80100 ≤ off ∧ off < 0x80500 then
    let i : Fin 32 := ⟨(off - 0x80100) / 0x20, by omega⟩
    match (off - 0x80100) % 0x20 with
    | 0x00 => s.writeEpCfg r i v
    | 0x08 => s.writeBuf r i false v
    | 0x0C => s.writeBuf r i true v
    | _ => s
  else if h : 0x81000 ≤ off ∧ off < 0x81800 then
    s.writeDed r off ⟨(off - 0x81000) / 0x200, by omega⟩ ((off - 0x81000) % 0x200) v
  else if off = 0x82004 then s.lanAck r off (fun x => { x with ibp := { x.ibp with err := x.ibp.err.writeAck v } })
  else if off = 0x8200C then
    s.lanGuard r off false (fun s =>
      if fieldNat v 0 24 % 8 = 0 then s.modLan (fun x => { x with ibp := { x.ibp with fwBox := fieldNat v 0 24 } }) else s)
  else if off = 0x82010 then
    s.lanGuard r off false (fun s => s.modLan (fun x => { x with ibp := { x.ibp with inAck := loHalf v } }))
  else if off = 0x82014 then
    s.lanGuard r off false (fun s => s.modLan (fun x => { x with ibp := { x.ibp with fwCtrEn := bitOf v 31, fwCtr := fieldNat v 0 11 } }))
  else if off = 0x82018 then s.writeFwOut r v
  else s

end Sys2Proof.Machine
end

