-- ==== Sys2Proof/Machine/Daymark.lean ====
section
/-! DEFINITION. The Daymark, the seals and event routing (chapter 5 and R509, R510): passes, commits, SEAL_SET, and writes of the
DAY, KEY, SEAL and EVT blocks.
Choices: log 30. -/

namespace Sys2Proof.Machine

/-- CRC-32C of one more byte, reflected (R139). -/
def crcByte (c : DWord) (b : Byte) : DWord :=
  (List.range 8).foldl (fun c _ => if bitOf c 0 then (c >>> 1) ^^^ 0x82F63B78 else c >>> 1) (c ^^^ b.setWidth 32)

/-- CRC-32C register after a run of bytes. -/
def crcBytes (c : DWord) (bs : List Byte) : DWord := bs.foldl crcByte c

/-- CRC-32C of a message (R139). -/
def crc32c (bs : List Byte) : DWord := ~~~(crcBytes 0xFFFFFFFF bs)

/-- The Daymark changed. -/
def State.modDay (s : State) (g : Daymark → Daymark) : State := s.modReg (fun x => { x with day := g x.day })

/-- A Daymark pass reads its next register (R139, R141). -/
def State.passRead (s : State) (p : DayPass) : DayPass :=
  match sealedOffsets[p.next]? with
  | none => p
  | some off =>
    let v := s.readBar0 .bootRom off
    let bad := (List.range 4).any (fun i => s.reg.parityBad.contains (off + i))
    { p with
      next := p.next + 1
      crc := crcBytes p.crc (bytesOfDWord (BitVec.ofNat 32 off) ++ bytesOfDWord v)
      parityAt := if p.parityAt.isNone && bad then some off else p.parityAt }

/-- A pass has read every register. -/
def DayPass.complete (p : DayPass) : Bool := decide (sealedOffsets.length ≤ p.next)

/-- The rest of a pass read at once: it ends within its frame (R139). -/
def State.passRest (s : State) (p : DayPass) : DayPass := (List.range sealedOffsets.length).foldl (fun p _ => s.passRead p) p

/-- A pass can be captured: begun after the CAPTURE's write, with no accepted write since (R142). -/
def Daymark.captured (d : Daymark) (p : DayPass) : Bool := d.capturing && p.captures && !p.disturbed

/-- The result of a pass that has ended (R139, R141 to R144): captured, compared, or only reported. A parity failure sets PARITY whatever
the pass was for; a captured pass that found one is a mismatch of the reference it has given, and its count is cleared by the commit. -/
def Daymark.ended (d : Daymark) (p : DayPass) : Daymark :=
  let result := ~~~p.crc
  let bad := p.parityAt.isSome
  let d1 : Daymark := { d with pass := none, last := result, parityAt := BitVec.ofNat 32 (p.parityAt.getD 0) }
  if d.captured p then { d1 with ref := result, capturing := false, stale := false, mismatch := bad, mismatchCnt := 0, parity := bad }
  else if d.capturing || d.stale || !p.comparable then { d1 with parity := bad || d.parity }
  else
    let same := decide (result = d.ref) && !bad
    { d1 with
      mismatch := !same
      parity := bad
      mismatchCnt := if same then d.mismatchCnt else min (d.mismatchCnt + 1) 0xFF }

/-- The pass in progress, if any, ends at the tick that opens the next frame. -/
def State.endPass (s : State) : State :=
  match s.reg.day.pass with
  | none => s
  | some p => s.modDay (fun d => d.ended (s.passRest p))

/-- The pass in progress ends as a match of the reference (R144), one that it gives itself included. -/
def Daymark.matchedBy (d : Daymark) (p : DayPass) : Bool :=
  (d.captured p || (!d.capturing && !d.stale && p.comparable)) && !(d.ended p).mismatch

/-- The pass in progress, its rest read, matches. -/
def State.passMatches (s : State) : Bool :=
  match s.reg.day.pass with
  | none => false
  | some p => s.reg.day.matchedBy (s.passRest p)

/-- The Daymark runs in the mode (R140). -/
def State.dayOn (s : State) : Bool :=
  match s.mode with
  | .dark | .wick | .service => false
  | _ => true

/-- A pass begins at the tick that opens microframe 0 of a frame (R139). -/
def State.beginPass (s : State) : State :=
  if s.dayOn then s.modDay (fun d => { d with pass := some { captures := d.capturing } }) else s.modDay (fun d => { d with pass := none })

/-- DAYMARK_REGISTER_READ: the pass in progress reads its next register (R139). -/
def execDaymarkRegisterRead (s : State) : Host.Outcome State Fault Refusal :=
  .next (s.after (s.modDay (fun d => { d with pass := d.pass.map s.passRead })))

/-- A CAPTURE begins to wait (R142), replacing one that waits: a pass now in progress began before it. STALE becomes 1, as R144 says it is
while a CAPTURE waits (DEDUCED, log 30), and MISMATCH clears with it. -/
def State.capture (s : State) : State :=
  s.modDay (fun d => { d with capturing := true, stale := true, mismatch := false, pass := d.pass.map (fun p => { p with captures := false }) })

/-- A LOAD commits at once (R142, R143, R144): MISMATCH follows the next pass that begins after it. -/
def State.loadRef (s : State) : State :=
  s.modDay (fun d =>
    { d with ref := d.refIn, capturing := false, stale := false, mismatchCnt := 0,
             pass := d.pass.map (fun p => { p with comparable := false, captures := false }) })

/-- DAY_COMMIT behind an open Keyhole (R142): other kinds leave everything unchanged. -/
def State.dayCommit (s : State) (v : DWord) : State :=
  match fieldNat v 0 2 with
  | 1 => s.capture
  | 2 => s.loadRef
  | _ => s

/-- A DAY_COMMIT write by a path (R135). -/
def State.writeCommit (s : State) (p : Path) (v : DWord) : State := s.accessGuarded p 0x03000 (fun _ s => s.dayCommit v)

/-- DAY_COMMIT_CAPTURE (R142). -/
def execDayCommitCapture (p : Path) (v : DWord) (s : State) : Host.Outcome State Fault Refusal :=
  .next (s.after (s.writeCommit p (setField v 1 0 2)))

/-- DAY_COMMIT_LOAD (R142). -/
def execDayCommitLoad (p : Path) (v : DWord) (s : State) : Host.Outcome State Fault Refusal :=
  .next (s.after (s.writeCommit p (setField v 2 0 2)))

/-- SEAL_SET (R133): a 1 sets its bit, a 0 has no effect. -/
def State.writeSealSet (s : State) (r : Requester) (v : DWord) : State :=
  s.primaryWrite r 0x05000 (fun s => s.modReg (fun x => { x with sealSet := x.sealSet ||| v.setWidth 6 }))

/-- SEAL_SET_WRITE (R133). -/
def execSealSetWrite (p : Path) (v : DWord) (s : State) : Host.Outcome State Fault Refusal :=
  .next (s.after (s.access p 0x05000 (fun r s => s.writeSealSet r v)))

/-- KEY_HOLE_WRITE (R136, R137). -/
def execKeyHoleWrite (p : Path) (v : DWord) (s : State) : Host.Outcome State Fault Refusal := .next (s.after (s.keyHole p v))

/-- KEYHOLE_EXPIRY: a Keyhole whose eighth tick has come re-arms (R137). -/
def execKeyholeExpiry (r : Requester) (s : State) : Host.Outcome State Fault Refusal := .next (s.after (s.keyExpire r))

/-- A write to the DAY, KEY and SEAL blocks outside DAY_COMMIT and KEY_HOLE (R149). -/
def State.writeDay (s : State) (r : Requester) (off : Nat) (v : DWord) : State :=
  match off with
  | 0x03004 =>
    if s.isPrimary r || decide (r = .bootRom) then s.modDay (fun d => { d with refIn := v }) else s.refuse r 2 off
  | 0x04008 => s.primaryWrite r off (fun s => s.modReg (fun x => { x with keyFault := x.keyFault.writeAck v }))
  | 0x05000 => s.writeSealSet r v
  | 0x05004 => s.primaryWrite r off (fun s => s.modReg (fun x => { x with refuse := x.refuse.writeAck v }))
  | _ => s

/-- One route byte as written (R509, R510): TARGET codes 6 and 7, and 4 and 5 outside the ports, leave TARGET; a 0 leaves EV293's
ALERT. -/
def routeWritten (e old v : Nat) : Nat :=
  let target := (v / 8) % 8
  let ok := decide (target ≤ 3) || (decide (target ≤ 5) && decide (e < 160))
  let kept := (if ok then v else v / 64 * 64 + (old / 8) % 8 * 8 + v % 8) / 2 * 2
  if e = 293 ∧ old / 128 = 1 then 128 + kept % 128 else kept

/-- EVT_ROUTEm as written. -/
def routeRegWritten (m : Nat) (old v : DWord) : DWord :=
  (List.range 4).foldl (fun acc j =>
    acc ||| putField (routeWritten (4 * m + j) (fieldNat old (8 * j) 8) (fieldNat v (8 * j) 8)) (8 * j) 8) 0

/-- EVT_ROUTEm changes (R513: each source whose byte changes is due a restatement). -/
def State.setRoute (s : State) (m : Fin 75) (v : DWord) : State :=
  let old := s.evt.route[m]
  let s1 : State := { s with evt := { s.evt with route := s.evt.route.set m v } }
  (List.range 4).foldl (fun s j =>
    if fieldNat old (8 * j) 8 = fieldNat v (8 * j) 8 then s else s.restateSource (4 * m.val + j)) s1

/-- EVT_MASKm changes (R513: each source that becomes unmasked is due a restatement). -/
def State.setMask (s : State) (m : Fin 10) (v : DWord) : State :=
  let old := s.evt.mask[m]
  let s1 : State := { s with evt := { s.evt with mask := s.evt.mask.set m v } }
  (List.range 32).foldl (fun s j => if bitOf old j && !bitOf v j then s.restateSource (32 * m.val + j) else s) s1

/-- A write to the EVT block (R510, R520). -/
def State.writeEvt (s : State) (r : Requester) (off : Nat) (v : DWord) : State :=
  if off = 0xE0008 then
    if s.isManager r then { s with evt := { s.evt with undelivered := s.evt.undelivered.writeAck v } } else s.refuse r 2 off
  else if h : 0xE0080 ≤ off ∧ off < 0xE00A8 then
    s.sealedWrite r off 5 (fun s =>
      s.setMask ⟨(off - 0xE0080) / 4, by omega⟩ (if off = 0xE00A4 then v &&& 0xFFF else v))
  else if h : 0xE0100 ≤ off ∧ off < 0xE022C then
    s.sealedWrite r off 5 (fun s =>
      let m : Fin 75 := ⟨(off - 0xE0100) / 4, by omega⟩
      s.setRoute m (routeRegWritten m.val s.evt.route[m] v))
  else s

end Sys2Proof.Machine
end

