-- ==== Sys2Proof/Machine/StoreCmds.lean ====
section
/-! DEFINITION. Commands of the Holding Store (chapter 16) and bit upsets: drains, the scrubber, the HST registers, and what a bit
that flips of itself does to the store, the sealed registers and the tables.
Choices: log 3, 28, 57. -/

namespace Sys2Proof.Machine

/-- The Holding Store changed. -/
def State.modHst (s : State) (g : HoldingStore → HoldingStore) : State := { s with hst := g s.hst }

/-- The merge-buffer entry of a row, if there is one, drains (R467). -/
def State.drainMerge (s : State) (row : Nat) : State :=
  match s.hst.mergeOf row with
  | some e => s.modHst (fun h => h.drain e)
  | none => s

/-- MERGE_DRAIN (R467). -/
def execMergeDrain (row : Fin 0x40000) (s : State) : Host.Outcome State Fault Refusal := .next (s.after (s.drainMerge row.val))

/-- A manager or keeper that may run the scrubber (R474). -/
def State.mayScrub (s : State) (r : Requester) : Bool := s.isPrimary r || r.isKeeper

/-- HST_SCRUB_CTL (R474 to R476): PACE, then GO on an idle scrubber, or STOP on a running one. -/
def State.writeScrubCtl (s : State) (r : Requester) (v : DWord) : State :=
  if !s.mayScrub r then s.refuse r 2 0xB0108
  else
    s.modHst (fun h =>
      let c : Scrubber := { h.scrub with pace := fieldNat v 0 8 }
      let c1 := if c.busy then (if bitOf v 30 then { c with stopping := true } else c)
        else if bitOf v 31 then c.go s.wick else c
      { h with scrub := c1 })

/-- SCRUB_GO (R474). -/
def execScrubGo (p : Path) (v : DWord) (s : State) : Host.Outcome State Fault Refusal :=
  .next (s.after (s.access p 0xB0108 (fun r s => s.writeScrubCtl r (v ||| 0x80000000))))

/-- SCRUB_STOP (R476). -/
def execScrubStop (p : Path) (v : DWord) (s : State) : Host.Outcome State Fault Refusal :=
  .next (s.after (s.access p 0xB0108 (fun r s => s.writeScrubCtl r ((v &&& 0x7FFFFFFF) ||| 0x40000000))))

/-- SCRUB_ROW: the scrubber reads its next row (R475). -/
def execScrubRow (s : State) : Host.Outcome State Fault Refusal := .next (s.after (s.modHst HoldingStore.scrubRow))

/-- HST_SCRUB_START or END: a row above the last leaves the field (R480). -/
def State.writeScrubRow (s : State) (r : Requester) (off : Nat) (v : DWord) : State :=
  if !s.mayScrub r then s.refuse r 2 off
  else if 0x3FFFF < v.toNat then s
  else s.modHst (fun h =>
    { h with scrub := if off = 0xB0100 then { h.scrub with start := v.toNat } else { h.scrub with last := v.toNat } })

/-- A write that either manager may make (R22, R23). -/
def State.managerWrite (s : State) (r : Requester) (off : Nat) (act : State → State) : State :=
  if s.isManager r then act s else s.refuse r 2 off

/-- A write to the HST block (R480). -/
def State.writeHst (s : State) (r : Requester) (off : Nat) (v : DWord) : State :=
  match off with
  | 0xB0004 => s.managerWrite r off (fun s => s.modHst (fun h => { h with fault := h.fault.writeAck v }))
  | 0xB000C => s.managerWrite r off (fun s => s.modHst (fun h => { h with unretired := h.unretired.writeAck v }))
  | 0xB0010 => s.managerWrite r off (fun s => s.modHst (fun h => { h with poison := h.poison.writeAck v }))
  | 0xB0100 => s.writeScrubRow r off v
  | 0xB0104 => s.writeScrubRow r off v
  | 0xB0108 => s.writeScrubCtl r v
  | _ => s

/-- The bits a sealed-class register holds; the others are reserved (R130). -/
def sealedMask (off : Nat) : DWord :=
  if off = 0x00010 then 0x03F0FFFF
  else if off = 0x00034 then 0x0000FFFF
  else if off = 0x01010 then 0x00FFF0FF
  else if off = 0x01014 then 0x0007FFFF
  else if off = 0x0101C then 0x000000FF
  else if off = 0x02008 then 1
  else if off = 0x02010 then 3
  else if off = 0x02014 then 0x0000FFFF
  else if 0x10400 ≤ off ∧ off < 0x10600 then
    match (off - 0x10400) % 16 with
    | 0 => 0xFFFFF000
    | 4 => 0xFFFFFFFF
    | 8 => 0x001FFFFF
    | _ => 0xFF030FFF
  else if 0x70000 ≤ off ∧ off < 0x70440 then (if (off - 0x70000) % 0x40 = 0 then 0x01FF007F else 0x71373F3F)
  else if 0x70800 ≤ off ∧ off < 0x70900 then (if (off - 0x70800) % 0x40 = 0 then 0xFFFFFFF8 else 0x80FF7FFF)
  else if off = 0x70C00 then 0xF
  else if off = 0xE00A4 then 0xFFF
  else if 0xE0100 ≤ off ∧ off < 0xE022C then 0xFEFEFEFE
  else 0xFFFFFFFF

/-- A window register replaced as it stands. -/
def DmaWindow.put (w : DmaWindow) (o : Nat) (v : DWord) : DmaWindow :=
  match o with
  | 0 => { w with baseLo := v }
  | 4 => { w with baseHi := v }
  | 8 => { w with size := v }
  | _ => { w with ctl := v }

/-- A sealed-class register replaced as it stands, by no write (R146). -/
def State.putSealed (s : State) (off : Nat) (v : DWord) : State :=
  if off = 0x00010 then { s with pins := { s.pins with fit := v } }
  else if off = 0x00020 then { s with pins := { s.pins with lgMode0 := v } }
  else if off = 0x00024 then { s with pins := { s.pins with lgMode1 := v } }
  else if off = 0x00034 then { s with pins := { s.pins with lgKeep := v } }
  else if off = 0x01010 then { s with md := { s.md with shedCfg := v } }
  else if off = 0x01014 then { s with md := { s.md with wakeCfg := v } }
  else if off = 0x0101C then { s with md := { s.md with safeCfg := v } }
  else if off = 0x02008 then { s with clk := { s.clk with ssc := v } }
  else if off = 0x02010 then { s with clk := { s.clk with edge := v } }
  else if off = 0x02014 then { s with clk := { s.clk with lgFilt := v } }
  else if h : 0x10400 ≤ off ∧ off < 0x10600 then
    let n : Fin 32 := ⟨(off - 0x10400) / 16, by omega⟩
    { s with lnk := { s.lnk with win := s.lnk.win.set n (s.lnk.win[n].put ((off - 0x10400) % 16) v) } }
  else if h : 0x70000 ≤ off ∧ off < 0x70440 then
    s.modMoor ⟨(off - 0x70000) / 0x40, by omega⟩ (fun m =>
      if (off - 0x70000) % 0x40 = 0 then { m with env := v } else { m with policy := v })
  else if h : 0x70800 ≤ off ∧ off < 0x70900 then
    s.modSector ⟨(off - 0x70800) / 0x40, by omega⟩ (fun x =>
      if (off - 0x70800) % 0x40 = 0 then { x with env := v } else { x with cfg := v })
  else if off = 0x70C00 then { s with pwr := { s.pwr with cfg := v } }
  else if h : 0xE0080 ≤ off ∧ off < 0xE00A8 then s.setMask ⟨(off - 0xE0080) / 4, by omega⟩ v
  else if h : 0xE0100 ≤ off ∧ off < 0xE022C then s.setRoute ⟨(off - 0xE0100) / 4, by omega⟩ v
  else s

/-- A bit of a sealed-class register flips, or a byte's parity bit (R141, R146); a reserved bit is held nowhere. -/
def State.upsetSealed (s : State) (off byte bit : Nat) : State :=
  let place := 8 * byte + bit
  if !sealedOffsets.contains off || (decide (bit < 8) && !bitOf (sealedMask off) place) then s
  else
    let s1 := if bit < 8 then s.putSealed off (s.readBar0 .bootRom off ^^^ BitVec.ofNat 32 (2 ^ place)) else s
    s1.modReg (fun x =>
      { x with parityBad := if x.parityBad.contains (off + byte) then setErase x.parityBad (off + byte) else setInsert x.parityBad (off + byte) })

/-- A word of a Lamp record flips (R29, R272): its row is retired and, where the word is poisoned, the Lamp is served no more. -/
def State.upsetLamp (s : State) (fa : Fin 4) (i : Nat) (w : Fin 0x100000) (bit : Fin 18) : State :=
  match assocGet s.bcn.lists[fa] i with
  | none => s.modHst (fun h => h.flipStored w.val bit.val)
  | some l =>
    let x := s.strike 0x17 w bit
    let ls := assocPut s.bcn.lists[fa] i { l with poisoned := l.poisoned || x.1 }
    { x.2 with bcn := { x.2.bcn with lists := x.2.bcn.lists.set fa ls, struck := ((fa, i), w.val) :: x.2.bcn.struck } }

/-- A word of an item's descriptor flips (R29, R419): its row is retired, and where the word is poisoned the dispatch finds it so. -/
def State.upsetItem (s : State) (i : Nat) (head : Bool) (w : Fin 0x100000) (bit : Fin 18) : State :=
  match s.item i with
  | none => s.modHst (fun h => h.flipStored w.val bit.val)
  | some _ =>
    let x := s.strike 0x16 w bit
    (x.2.modTnd (fun t => { t with struckItem := (i, w.val) :: t.struckItem })).modItem i (fun y =>
      if head then { y with badHead := y.badHead || x.1 } else { y with badBody := y.badBody || x.1 })

/-- A counter record that fails parity becomes POISONED, and its WAITING linked item ends POISONED (R419). -/
def State.poisonCounter (s : State) (c : Nat) (x : Counter) : State :=
  let s1 := s.putCtr c { x with state := .poisoned }
  match x.link with
  | none => s1
  | some i =>
    match s1.item i with
    | some it => if it.state = .waiting then s1.endItem i .poisoned else s1
    | none => s1

/-- A word of a counter record flips (R29, R419): its row is retired. -/
def State.upsetCounter (s : State) (c : Nat) (w : Fin 0x100000) (bit : Fin 18) : State :=
  match s.ctr c with
  | none => s.modHst (fun h => h.flipStored w.val bit.val)
  | some y =>
    let x := s.strike 0x16 w bit
    let s1 := x.2.modTnd (fun t => { t with struckCtr := (c, w.val) :: t.struckCtr })
    if x.1 then s1.poisonCounter c y else s1

/-- A word of a line flips: its parity fails, or passes again. -/
def CacheLine.flip (l : CacheLine) (addr : Nat) : CacheLine :=
  if l.base ≤ addr ∧ addr < l.base + 8 then
    { l with words := l.words.modify (addr - l.base) (fun w => (w.1, !w.2)) }
  else l

/-- A bit flips of itself. -/
def State.upset (s : State) (u : UpsetAt) : State :=
  match u with
  | .store w bit => s.modHst (fun h => h.flipArray w.val bit.val)
  | .spare e byte bit => s.modHst (fun h => h.flipSpare e byte.val bit.val)
  | .merge row byte bit => s.modHst (fun h => h.flipMerge row byte.val bit.val)
  | .sealedByte off byte bit => s.upsetSealed off byte.val bit.val
  | .lamp fa i w bit => s.upsetLamp fa i w bit
  | .item i head w bit => s.upsetItem i head w bit
  | .counter c w bit => s.upsetCounter c w bit
  | .icache k addr => s.modKeeper k (fun x => { x with icache := x.icache.map (fun l => l.flip addr) })

/-- UPSET (R28, R141, R272, R419, R461, R469). In DARK nothing is held that could flip. -/
def execUpset (u : UpsetAt) (s : State) : Host.Outcome State Fault Refusal :=
  .next (s.after (if s.mode = .dark then s else s.upset u))

end Sys2Proof.Machine
end

