-- ==== Sys2Proof/Machine/ModeOps.lean ====
section
/-! DEFINITION. The mode controller's operations (chapter 3): changing TOP_MODE, return modes, stopping and restarting the buses,
judging a request, and starting a transition.
Choices: log 20, 21, 22. -/

namespace Sys2Proof.Machine

/-- The mode controller changed. -/
def State.modMd (s : State) (g : Modes → Modes) : State := { s with md := g s.md }

/-- The modes in which a SAFE cause acts and the heartbeat is supervised (R82, Table 3.5). -/
def Mode.safeFrom (m : Mode) : Bool :=
  match m with
  | .standby | .lit | .bridge | .night | .shed => true
  | _ => false

/-- The base mode follows LIT and BRIDGE (R76). -/
def Modes.based (d : Modes) (m : Mode) : Modes :=
  match m with
  | .lit | .bridge => { d with base := m }
  | _ => d

/-- A return mode is recorded (R76). -/
def State.setRet (s : State) (m : Mode) : State := s.modMd (fun d => { d.based m with ret := m, retSet := true })

/-- MODE events (R518): every function, when TOP_MODE first reports the new mode, while some function can master. -/
def State.modeEvents (s : State) (old m : Mode) : State :=
  if Func.all.any s.canMaster then
    Func.all.foldl (fun s f => s.postFnEvent f 0x0E (putField m.code 0 4 ||| putField old.code 4 4) 0 0) s
  else s

/-- The modes whose entry makes every engine the holding responder (R336). -/
def Mode.holds (m : Mode) : Bool :=
  match m with
  | .safe | .relight | .update => true
  | _ => false

/-- TOP_MODE changes (R75): PREV_MODE, the base mode, the wakes that leaving STANDBY or NIGHT clears (R85), the holding responders
(R336), and the LTR and MODE messages of the change (R164, R518). -/
def State.setMode (s : State) (m : Mode) : State :=
  let old := s.mode
  let left := decide (old ≠ m) && (decide (old = .standby) || decide (old = .night))
  let s1 := s.modMd (fun d =>
    { d.based m with
      mode := m, going := none, prev := old.code, halted := false, halting := false
      ret := if m = .night then d.base else d.ret
      retSet := d.retSet || decide (m = .night)
      safeHeld := if m.safeFrom then d.safeHeld else none
      wakeSrc := if left then 0 else d.wakeSrc
      wakeHeld := d.wakeHeld && decide (m = .night)
      missed := if m.safeFrom then d.missed else 0
      beat := d.beat && m.safeFrom })
  let s2 := if m.holds then s1.holdEngines else s1
  ((s2.reportLtr .a).reportLtr .b).modeEvents old m

/-- One port's start-of-frame stops (R299): an ENABLED port is SUSPENDED by mode, and the SUSPEND it had begun is done with. -/
def State.stopBus (s : State) (n : Fin 16) : State :=
  if (s.port n).state = .enabled then
    (s.modPort n (fun p => { p with state := .suspended, suspMode := true, wait := .none })).finishPort n 0
  else s

/-- Start-of-frame stops on every port (R299), and no Lamp is due. -/
def State.stopBuses (s : State) : State :=
  let s1 := (List.finRange 16).foldl (fun s n => s.stopBus n) s
  { s1 with bcn := { s1.bcn with lists := s1.bcn.lists.map (fun l => l.map (fun x => (x.1, { x.2 with run := .rest }))), walked := Vector.replicate 4 true } }

/-- Ports that a mode suspended resume (R299). -/
def State.startBuses (s : State) : State :=
  { s with fwy := { s.fwy with port := s.fwy.port.map (fun p =>
      if p.state = .suspended ∧ p.suspMode = true then { p with state := .resuming, wait := .resume } else p) } }

/-- The fairways stop for a transition in progress (R83 steps 3 and 4). -/
def State.haltFairways (s : State) : State :=
  let s1 := (s.stopBuses).modMd (fun d => { d with halting := false, halted := true })
  if s1.md.going = some .safe then Func.all.foldl (fun s f => s.loseTransfers f) s1 else s1

/-- The primary manager's link is in L0 (Table 3.12). -/
def State.primaryL0 (s : State) : Bool :=
  let l := s.link s.primaryLink
  l.up && !l.l1 && !l.l2

/-- Why Table 3.5 does not take a request from one mode to another (Table 3.12); none where it does. -/
def State.rowReason (s : State) (frm m : Mode) : Option Nat :=
  match frm, m with
  | .kindle, .update => if s.boot.fault then none else some 1
  | .standby, .lit => if s.strap1 then some 2 else if s.boot.fault then some 3 else if s.primaryL0 then none else some 4
  | .standby, .bridge => if !s.strap1 then some 2 else if s.boot.fault then some 3 else none
  | .standby, .safe => none
  | .standby, .update => none
  | .lit, .standby => none
  | .lit, .night => none
  | .lit, .safe => none
  | .lit, .update => none
  | .bridge, .standby => none
  | .bridge, .night => none
  | .bridge, .safe => none
  | .bridge, .update => none
  | .safe, .relight => none
  | .safe, .update => none
  | .update, .relight => if s.upd.done then none else some 1
  | _, _ => some 1

/-- What a code written to SUP_MODE_REQ asks for in the current mode. -/
inductive ModeVerdict where
  | nothing
  | refuse (reason : Nat)
  /-- A transition of Table 3.5. -/
  | go (m : Mode)
  /-- The return mode of SHED is replaced (R76). -/
  | returnTo (m : Mode)
  /-- NIGHT is restated (R550). -/
  | restate
  /-- The NIGHT request is withdrawn, and a code waits for NIGHT's end (R550). -/
  | withdraw (m : Option Mode)
deriving DecidableEq, Repr

/-- The mode of a request code (Table 3.11). -/
def requestMode (code : Nat) : Option Mode :=
  match code with
  | 3 => some .standby
  | 4 => some .lit
  | 5 => some .bridge
  | 6 => some .night
  | 8 => some .safe
  | 9 => some .relight
  | 10 => some .update
  | _ => none

/-- A request judged in NIGHT, or in SHED with NIGHT as its return mode, from the base mode (R550, R76). -/
def State.judgeBase (s : State) (m : Mode) (ok : ModeVerdict) : ModeVerdict :=
  match s.rowReason s.md.base m with
  | none => ok
  | some _ => .refuse 1

/-- A request judged in SHED (R76): RELIGHT can be no return mode. -/
def State.judgeShed (s : State) (m : Mode) : ModeVerdict :=
  let ret := s.md.ret
  if m = .safe then .go .safe
  else if m = ret then (if m = .night then .restate else .nothing)
  else if m = .relight then .refuse 1
  else if ret = .night then (if m = s.md.base then .returnTo m else s.judgeBase m (.returnTo m))
  else
    match s.rowReason ret m with
    | none => .returnTo m
    | some r => .refuse r

/-- A request judged in the current mode (R81, R550). -/
def State.judgeMode (s : State) (code : Nat) : ModeVerdict :=
  if code = 0 then .nothing
  else
    match requestMode code with
    | none => .refuse 1
    | some m =>
      match s.mode with
      | .night =>
        if m = .night then .restate
        else if m = .safe then .go .safe
        else if m = s.md.base then .withdraw none
        else s.judgeBase m (.withdraw (some m))
      | .shed => s.judgeShed m
      | frm =>
        if m = frm then .nothing
        else
          match s.rowReason frm m with
          | none => .go m
          | some r => .refuse r

/-- A request is refused (R81): in NIGHT, and in SHED with NIGHT as its return mode, the NIGHT request stands (R550). -/
def State.refuseMode (s : State) (reason : Nat) : State :=
  s.modMd (fun d =>
    { d with
      refused := true, reason := reason, reqHeld := false
      nightReg :=
        match d.mode with
        | .night => true
        | .shed => decide (d.ret = .night)
        | .standby | .lit | .bridge => false
        | _ => d.nightReg })

/-- A withdrawn NIGHT request takes a standing one of LG1 with it (R550). -/
def Modes.disarm (d : Modes) (low : Bool) : Modes := { d with nightReg := false, lgArmed := d.lgArmed && !low }

/-- The request in MODE examined in the current mode (R79, R80, R81). -/
def State.examineRequest (s : State) : State :=
  let low := s.nightReq
  let s0 := s.modMd (fun d => { d with reqHeld := false, reqShed := false })
  match s.judgeMode s.md.req with
  | .nothing => s0.modMd (fun d => { d with nightReg := d.nightReg && !(decide (d.mode = .lit) || decide (d.mode = .bridge) || decide (d.mode = .standby)) })
  | .refuse r => s0.refuseMode r
  | .go .safe => s0.modMd (fun d => { d with safeHeld := d.safeHeld.orElse (fun _ => some (if d.reqFw then 1 else 2)) })
  | .go .night => s0.modMd (fun d => { d with nightReg := true })
  | .go m =>
    s0.modMd (fun d =>
      { d with
        reqHeld := true
        reqShed := decide (d.mode = .standby) && (decide (m = .lit) || decide (m = .bridge)) && s.vinSag
        nightReg := d.nightReg && !(decide (d.mode = .lit) || decide (d.mode = .bridge) || decide (d.mode = .standby)) })
  | .returnTo m =>
    s0.modMd (fun d => { (if m = .night then { d with nightReg := true } else d.disarm low) with reqHeld := true })
  | .restate => s0.modMd (fun d => { d with nightReg := true })
  | .withdraw m => s0.modMd (fun d => { d.disarm low with after := m })

/-- An accepted write of SUP_MODE_REQ (R81, R85): a repeated value changes no request, and any clears SUP_WAKE_SRC. One that
comes during a transition is examined when that has finished (R80). -/
def State.writeMode (s : State) (firmware : Bool) (code : Nat) : State :=
  let s0 := s.modMd (fun d => { d with wakeSrc := 0 })
  if code = s.md.req then s0
  else
    let s1 := s0.modMd (fun d =>
      { d with req := code, refused := false, reason := 0, reqHeld := false, reqShed := false, reqFw := firmware, after := none })
    if s.md.going.isSome then s1.modMd (fun d => { d with reqHeld := decide (code ≠ 0) }) else s1.examineRequest

/-- SUP_MODE_REQ by a requester (R81): the primary manager writes any code, keeper firmware only SAFE. -/
def State.modeReqBy (s : State) (r : Requester) (code : Nat) : State :=
  if s.isPrimary r then s.writeMode false code
  else if r.isKeeper && code == 8 then s.writeMode true code
  else s.refuse r 2 0x01000

/-- SUP_MODE_REQ written by a path (R81, R135, R137): the UPDATE code is guarded, and any other consumes an open Keyhole without
a fault. -/
def State.writeModeReq (s : State) (p : Path) (v : DWord) : State :=
  let code := fieldNat v 0 4
  if code = 10 then s.accessGuarded p 0x01000 (fun r s => s.modeReqBy r code)
  else if !s.pathLive p || !p.reachesBar0 || decide (p = .smbus) then s
  else
    match s.requesterOf p with
    | none => s
    | some r => ((s.arrive p).keyConsume r 0x01000).modeReqBy r code

/-- The mode that SAFE or UPDATE records for RELIGHT (R76). -/
def State.recordRet (s : State) : State :=
  match s.mode with
  | .kindle => s.setRet .standby
  | .shed => s.setRet (if s.md.ret = .update then s.md.under else s.md.ret)
  | .safe => s
  | .relight => s
  | .update => s
  | m => s.setRet m

/-- A transition is in progress. -/
def State.going (s : State) (m : Mode) : State := s.modMd (fun d => { d with going := some m })

/-- The entry to SAFE begins (R82, R83, R84, R467). -/
def State.beginSafe (s : State) (cause : Nat) : State :=
  let s1 := (s.recordRet.going .safe).modMd (fun d => { d with safeCause := cause, safeHeld := none, missed := 0, halting := true })
  s1.loseAllItems.modHst HoldingStore.drainAll

/-- The entry to UPDATE begins (R84, R455, R467). -/
def State.beginUpdate (s : State) : State :=
  let s1 := (s.recordRet.going .update).modMd (fun d => { d with halting := true })
  let s2 : State := { s1 with kpr := { s1.kpr with bootReady := false, bootKind := 0 }, upd := { s1.upd with done := false, kib := 0 } }
  s2.loseAllItems.modHst HoldingStore.drainAll

/-- RELIGHT begins. -/
def State.beginRelight (s : State) : State := (s.going .relight).modHst HoldingStore.drainAll

/-- The entry to STANDBY begins: the fairways stop and every downstream port loses power (Table 3.6). -/
def State.beginStandby (s : State) : State :=
  ((s.going .standby).stopBuses.modMd (fun d => { d with halted := true })).dropPorts

/-- The entry to NIGHT begins (R358, worked case 3.2). -/
def State.beginNight (s : State) : State :=
  ((s.going .night).stopBuses.modMd (fun d => { d with halted := true })).dropUnretained

/-- SHED is entered (R86, R357), with its return mode. -/
def State.enterShed (s : State) (ret : Mode) : State := ((s.setRet ret).setMode .shed).beginShed

/-- SHED's return mode is replaced (R76), and what is alive follows it (Table 3.4); UPDATE keeps the one whose place it takes, which
RELIGHT will return to (log 21). -/
def State.replaceRet (s : State) (m : Mode) : State :=
  let s1 := (s.modMd (fun d => { d with under := if d.ret = .night then d.base else d.ret })).setRet m
  match m with
  | .update => s1.stopBuses
  | .standby => s1.stopBuses.dropPorts
  | .night => s1.stopBuses.dropUnretained
  | _ => s1.startBuses

/-- NIGHT ends (Table 3.5): the buses resume. -/
def State.beginLeaveNight (s : State) : State := (s.going s.md.base).startBuses

/-- The wake from NIGHT (R85): the return mode is written into MODE, and LG1 must rise before it asks again. -/
def State.wakeNight (s : State) : State :=
  let low := s.nightReq
  (s.modMd (fun d => { d.disarm low with wakeHeld := false, after := none, req := d.base.code, refused := false, reason := 0, reqHeld := false })).beginLeaveNight

/-- All twelve keepers are fenced, and no revive is pending (R82, R418). -/
def State.allFenced (s : State) : Bool := s.kpr.k.toList.all (fun x => x.fenced) && !s.tnd.revivePending

/-- The cause of SAFE that stands at a tick. -/
def State.safeCauseNow (s : State) : Option Nat :=
  if s.mode.safeFrom then s.md.safeHeld.orElse (fun _ => if s.allFenced then some 4 else none) else none

/-- A held request starts its transition (rank 7). -/
def State.actRequest (s : State) : State :=
  let s0 := s.modMd (fun d => { d with reqHeld := false, reqShed := false })
  match requestMode s.md.req with
  | none => s0
  | some m =>
    match s.mode with
    | .shed => s0.replaceRet m
    | .standby =>
      if m = .lit ∨ m = .bridge then (if s.md.reqShed then (s0.setRet m).going .shed else s0.going m)
      else if m = .update then s0.beginUpdate
      else s0
    | .lit | .bridge => if m = .standby then s0.beginStandby else if m = .update then s0.beginUpdate else s0
    | .kindle => if m = .update then s0.beginUpdate else s0
    | .safe => if m = .relight then s0.beginRelight else if m = .update then s0.beginUpdate else s0
    | _ => s0

/-- After an immediate change of mode, a request that still waits is examined there (R79), and so is a code that R550 would carry
out after NIGHT. -/
def State.reexamine (s : State) : State :=
  if s.md.reqHeld || s.md.after.isSome then (s.modMd (fun d => { d with after := none })).examineRequest else s

/-- SHED exits (R76, R357): its return mode is entered, UPDATE by its transition. -/
def State.leaveShed (s : State) : State :=
  if s.md.ret = .update then s.beginUpdate.endShed else (s.setMode s.md.ret).endShed.reexamine

/-- The triggers gathered in the interval that a tick closes, by rank (R79, Table 3.7). -/
def State.actTriggers (s : State) : State :=
  if s.md.going.isSome then s
  else
    match s.safeCauseNow with
    | some c => s.beginSafe c
    | none =>
      let fair := decide (s.mode = .lit) || decide (s.mode = .bridge)
      let night := decide (s.mode = .night)
      let shed := decide (s.mode = .shed)
      if s.vinSag && (fair || night) then (s.enterShed s.mode).reexamine
      else if shed && !s.vinSag then s.leaveShed
      else if night && s.md.wakeHeld then s.wakeNight
      else if s.md.reqHeld then s.actRequest
      else if fair && s.nightWanted then s.beginNight
      else if night && !s.nightWanted then s.beginLeaveNight
      else if shed && s.nightWanted && (decide (s.md.ret = .lit) || decide (s.md.ret = .bridge)) then s.replaceRet .night
      else if shed && decide (s.md.ret = .night) && !s.nightWanted then s.replaceRet s.md.base
      else s

end Sys2Proof.Machine
end

