-- ==== Sys2Proof/Machine/Boot.lean ====
section
/-! DEFINITION. The boot ROM (R87 to R92, R452 to R456): image headers, the choice and the checks of a slot, loading, the init
program, and the end of KINDLE and of RELIGHT.
Choices: log 24. -/

namespace Sys2Proof.Machine

/-- Little-endian value of `n` header bytes from an offset (R452); a missing byte reads zero. -/
def headField (bs : List Byte) (off n : Nat) : Nat :=
  (List.range n).foldr (fun i acc => (bs.getD (off + i) 0).toNat + 256 * acc) 0

/-- Header bytes that are all zero. -/
def headZero (bs : List Byte) (off n : Nat) : Bool := (List.range n).all (fun i => bs.getD (off + i) 0 == 0)

/-- One segment of an image (Table 15.12). -/
structure Segment where
  off : Nat
  len : Nat
  dest : Nat
  kind : Nat
deriving DecidableEq, Repr

/-- Entry `i` of SEGMENTS. -/
def segmentAt (bs : List Byte) (i : Nat) : Segment :=
  let o := 0x40 + 16 * i
  { off := headField bs o 4, len := headField bs (o + 4) 4, dest := headField bs (o + 8) 4, kind := headField bs (o + 12) 1 }

/-- Fields of a header (Table 15.12). -/
def ImageHeader.seq (h : ImageHeader) : Nat := if h.readable then headField h.bytes 0x08 4 else 0

/-- SVN. -/
def ImageHeader.svn (h : ImageHeader) : Nat := headField h.bytes 0x0C 1

/-- KEY_SLOT. -/
def ImageHeader.keySlot (h : ImageHeader) : Nat := headField h.bytes 0x0D 1

/-- BODY_LEN. -/
def ImageHeader.bodyLen (h : ImageHeader) : Nat := headField h.bytes 0x18 4

/-- FLAGS WICK. -/
def ImageHeader.hasWick (h : ImageHeader) : Bool := headField h.bytes 0x06 2 == 1

/-- The used segments. -/
def ImageHeader.segments (h : ImageHeader) : List Segment := (List.range (headField h.bytes 0x1C 2)).map (segmentAt h.bytes)

/-- A segment is well formed (R453): its place in the body, and its destination in the region of its KIND. -/
def Segment.ok (g : Segment) (bodyLen : Nat) : Bool :=
  g.off % 4 == 0 && g.len % 2 == 0 && decide (2 ≤ g.len) && decide (g.off + g.len ≤ bodyLen)
    && ((g.kind == 1 && inRegion 0 g.dest (g.len / 2)) || (g.kind == 2 && inRegion 1 g.dest (g.len / 2)))

/-- Two segments share a word. -/
def Segment.meets (a b : Segment) : Bool := decide (a.dest < b.dest + b.len / 2) && decide (b.dest < a.dest + a.len / 2)

/-- No two of a list of segments share a word. -/
def segmentsApart : List Segment → Bool
  | [] => true
  | a :: t => t.all (fun b => !a.meets b) && segmentsApart t

/-- An even word address in a run of words. -/
def evenIn (a lo n : Nat) : Bool := a % 2 == 0 && decide (lo ≤ a) && decide (a < lo + n)

/-- An address is even and lies in a code segment. -/
def inCodeSegment (l : List Segment) (a : Nat) : Bool := l.any (fun g => g.kind == 1 && evenIn a g.dest (g.len / 2))

/-- The Wick fields of a header (R453). -/
def ImageHeader.wickOk (h : ImageHeader) : Bool :=
  let f (o : Nat) : Nat := headField h.bytes o 4
  if h.hasWick then
    f 0x20 % 4 == 0 && f 0x24 % 2 == 0 && decide (2 ≤ f 0x24) && decide (f 0x24 ≤ 262144)
      && decide (0x200 + h.bodyLen ≤ f 0x20) && decide (f 0x20 + f 0x24 ≤ 0x100000)
      && decide (f 0x28 + f 0x24 / 2 ≤ 0x40000)
      && evenIn (f 0x2C) (f 0x28) (f 0x24 / 2) && evenIn (f 0x30) (f 0x28) (f 0x24 / 2)
  else headZero h.bytes 0x20 20

/-- A header is well formed, and its image fits its slot (R453). -/
def ImageHeader.wellFormed (h : ImageHeader) : Bool :=
  let b := h.bytes
  let n := headField b 0x1C 2
  b.length == 512 && headField b 0 4 == 0x4E52564F && headField b 4 2 == 1 && decide (headField b 6 2 ≤ 1)
    && headField b 8 4 != 0 && decide (h.svn ≤ 32) && decide (h.keySlot ≤ 2) && headZero b 0x0E 2
    && decide (1 ≤ n) && decide (n ≤ 8) && headZero b 0x1E 2 && headZero b 0x38 8 && headZero b 0x180 128
    && headZero b (0x40 + 16 * n) (128 - 16 * n)
    && (List.range n).all (fun i => headZero b (0x40 + 16 * i + 13) 3)
    && decide (0x200 + h.bodyLen ≤ 0x100000)
    && h.segments.all (fun g => g.ok h.bodyLen) && segmentsApart h.segments
    && inCodeSegment h.segments (headField b 0x10 4) && inCodeSegment h.segments (headField b 0x14 4)
    && h.wickOk

/-- The slot result of checks 1 to 4 of R88, zero where they pass; a Wick boot wants a Wick segment (R454). -/
def State.headerResult (s : State) (h : ImageHeader) (wick : Bool) : Nat :=
  if !h.readable then 0x02
  else if !h.wellFormed then 0x03
  else if !h.keyHashMatch then 0x04
  else if bitOf s.sup.fuse (16 + h.keySlot) then 0x05
  else if h.svn < fieldNat s.sup.fuse 0 6 then 0x06
  else if wick && !h.hasWick then 0x0A
  else 0

/-- The boot changed. -/
def State.modBoot (s : State) (g : Boot → Boot) : State := { s with boot := g s.boot }

/-- A slot's result recorded (SUP_BOOT_STATUS), and the slot tried. -/
def State.slotResult (s : State) (k : Fin 2) (code : Nat) : State :=
  s.modBoot (fun b => { b with result := b.result.set k code, tried := b.tried.set k true })

/-- The slot to try next (R88): the untried one with the higher image sequence number, slot A when they are equal. -/
def Boot.nextSlot (b : Boot) : Option (Fin 2) :=
  match b.tried[0], b.tried[1] with
  | true, true => none
  | true, false => some 1
  | false, true => some 0
  | false, false => if (b.header[0]).seq < (b.header[1]).seq then some 1 else some 0

/-- What KPR0 runs. -/
def State.kpr0 (s : State) (r : KRun) : State :=
  let clean (q : ReqState) : ReqState := { q with slot := none, staged := [], stagedWord := none }
  ((s.modKeeper 0 (fun x => { x with run := r })).modReq (.keeper 0) clean).modReq .bootRom clean

/-- No slot is accepted: KINDLE stays with a boot fault (R90), RELIGHT goes to SAFE (Table 3.5), and WICK halts KPR0 (R70). -/
def State.bootFailed (s : State) : State :=
  let s1 := s.modBoot (fun b => { b with stage := .failed, fault := true, booted := 0 })
  match s.boot.purpose with
  | .kindle =>
    let s2 := if s.strap1 then s1.modLan (fun x => { x with en := true, state := if x.pullup then x.state else .waiting }) else s1
    s2.kpr0 .bootRom
  | .relight => ((s1.kpr0 .idle).modMd (fun d => { d with safeCause := 5 })).setMode .safe
  | .wick => s1.kpr0 .idle

/-- Byte address of a slot in the flash (R87). -/
def slotBase (k : Fin 2) : Nat := 0x100000 * k.val

/-- The bytes that the boot ROM fetches of a slot: the body, or the Wick segment. -/
def Boot.fetchLen (b : Boot) (k : Fin 2) : Nat :=
  match b.purpose with
  | .wick => headField b.header[k].bytes 0x24 4
  | _ => b.header[k].bodyLen

/-- Where in the flash those bytes begin (R452, R453). -/
def Boot.fetchFrom (b : Boot) (k : Fin 2) : Nat :=
  slotBase k +
    match b.purpose with
    | .wick => headField b.header[k].bytes 0x20 4
    | _ => 0x200

/-- The boot ROM goes on to the next slot, if there is one: checks 1 to 4 from its header, then the fetch of its body. -/
def State.trySlot (s : State) : Nat → State
  | 0 => s.bootFailed
  | fuel + 1 =>
    match s.boot.nextSlot with
    | none => s.bootFailed
    | some k =>
      let code := s.headerResult s.boot.header[k] (decide (s.boot.purpose = .wick))
      if code = 0 then
        ((s.emit (.flashFetch s.boot.read (s.boot.fetchFrom k) (s.boot.fetchLen k))).modBoot (fun b =>
          { b with stage := .fetching k, bodyPoison := false })).kpr0 .bootRom
      else (s.slotResult k code).trySlot fuel

/-- The flash's SFDP table is read under STRAP2 = 0, the read method follows (R87, R535), and both headers are fetched. -/
def State.readFlash (s : State) (fl : FlashRead) : State :=
  let m := SpiRead.of s.strap2 fl.sfdp
  let s1 := if s.strap2 then s else s.emit .sfdpRead
  (s1.emitAll ((List.finRange 2).map (fun k => Output.flashFetch m (slotBase k) 512))).modBoot (fun b =>
    { b with read := m, erase := if s.strap2 then 0x20 else (fl.sfdp.bind Sfdp.erase).getD 0x20, header := #v[fl.a, fl.b] })

/-- A boot starts (R87, R88, R92, R454). -/
def State.startBoot (s : State) (why : BootFor) (fl : FlashRead) : State :=
  let s1 := (s.readFlash fl).modBoot (fun b =>
    { b with purpose := why, stage := .idle, tried := Vector.replicate 2 false, result := Vector.replicate 2 0
             fault := false, bodyPoison := false })
  let s2 : State :=
    { s1 with kpr := { s1.kpr with bootReady := false, bootKind := 0, imageSeq := 0, imageSvn := 0, imageKeySlot := 0, wickRunning := false } }
  (s2.kpr0 .bootRom).trySlot 2

/-- A segment's bytes of a body, written from its destination on (R454). -/
def HoldingStore.loadBytes (h : HoldingStore) (dest : Nat) (bs : List Byte) : HoldingStore :=
  h.writeBytes (2 * dest) (bs.map (fun b => (b, false)))

/-- Words read back by the boot ROM: whether one is poisoned, and the store after (R88 check 6). -/
def HoldingStore.readBack (h : HoldingStore) (dest n : Nat) : Bool × HoldingStore :=
  let r := h.readWords 0x19 dest n
  (r.1.any (fun x => x.2), r.2)

/-- The segments that a boot loads: destination and bytes. -/
def Boot.pieces (b : Boot) (k : Fin 2) (body : List Byte) : List (Nat × List Byte) :=
  match b.purpose with
  | .wick => [(headField b.header[k].bytes 0x28 4, body)]
  | _ => b.header[k].segments.map (fun g => (g.dest, (body.drop g.off).take g.len))

/-- The body of the slot in hand has been fetched, hashed and written (R88, R454 steps 1 to 3). -/
def State.loadBody (s : State) (body : List Byte) : State :=
  match s.boot.stage with
  | .fetching k =>
    if body.length ≠ s.boot.fetchLen k then s
    else
      let ps := s.boot.pieces k body
      let clean := match s.boot.purpose with
        | .wick => s.hst.clearBank 0
        | _ => (s.hst.clearBank 0).clearBank 1
      let loaded := ps.foldl (fun h p => h.loadBytes p.1 p.2) clean
      let read := ps.foldl (fun (acc : Bool × HoldingStore) p =>
        let r := acc.2.readBack p.1 (p.2.length / 2)
        (acc.1 || r.1, r.2)) (false, loaded)
      { s with hst := read.2, boot := { s.boot with stage := .checking k, bodyPoison := read.1 } }
  | _ => s

/-- IMAGE_BODY_FETCHED (R88). -/
def execImageBodyFetched (body : List Byte) (s : State) : Host.Outcome State Fault Refusal := .next (s.after (s.loadBody body))

/-- KIND of KPR_BOOT and H0 for a boot (R454). -/
def BootFor.kind (p : BootFor) : Nat :=
  match p with
  | .kindle => 1
  | .relight => 2
  | .wick => 3

/-- A program starts on KPR0 with the state of R442 and its KIND in H0 (R454 step 6). -/
def Keeper.startProgram (x : Keeper) (kind entry : Nat) : Keeper :=
  { x with
    run := .program kind
    pc := BitVec.ofNat 24 entry
    h := #v[BitVec.ofNat 16 kind, 0, 0, 0]
    g := Vector.replicate 8 0
    win := Vector.replicate 8 {}
    trapWin := Vector.replicate 12 0
    seg := #v[0x00, 0x80, 0xC0, 0x04]
    trapped := false
    trapCause := 0
    trapPc := 0
    trapAddr := 0
    active := 0
    held := 1
    parked := 0
    itemOwner := 0xFF
    itemTag := 0
    countHi := none
    cycHi := none
    storeBuf := []
    dma := Vector.replicate 4 {} }

/-- The accepted image is entered (R89, R454 steps 4 to 6). -/
def State.enterImage (s : State) (k : Fin 2) : State :=
  let hd := s.boot.header[k]
  let why := s.boot.purpose
  let f (o : Nat) : Nat := headField hd.bytes o 4
  let entry := if why = .wick then f 0x2C else f 0x10
  let tvec := if why = .wick then f 0x30 else f 0x14
  let s1 : State :=
    { s with kpr := { s.kpr with
        k := s.kpr.k.map (fun x => { x with icache := [], tvec := BitVec.ofNat 24 tvec })
        bootReady := false, bootKind := why.kind, imageSeq := BitVec.ofNat 32 hd.seq, imageSvn := hd.svn
        imageKeySlot := hd.keySlot, wickRunning := decide (why = .wick) } }
  let s2 := (s1.slotResult k 1).modBoot (fun b =>
    { b with booted := k.val + 1, stage := if why = .wick then .idle else .running k })
  (s2.kpr0 .idle).modKeeper 0 (fun x => x.startProgram why.kind entry)

/-- The signature check of the slot in hand has ended: checks 5 and 6 of R88. -/
def State.checkSlot (s : State) (ok : Bool) : State :=
  match s.boot.stage with
  | .checking k =>
    if !ok then (s.slotResult k 0x07).trySlot 2
    else if s.boot.bodyPoison then (s.slotResult k 0x08).trySlot 2
    else s.enterImage k
  | _ => s

/-- SIGNATURE_CHECK_DONE (R88). -/
def execSignatureCheckDone (ok : Bool) (s : State) : Host.Outcome State Fault Refusal := .next (s.after (s.checkSlot ok))

/-- KPR0 runs an init program. -/
def State.initRuns (s : State) : Bool :=
  match (s.keeper 0).run with
  | .program k => k == 1 || k == 2
  | _ => false

/-- The buses resume where the mode being entered runs them (R92). -/
def State.startIfRuns (s : State) : State := if s.busesWake then s.startBuses else s

/-- The firmware is ready (R89, R92, R455): the program ends, and the boot ROM commits the Daymark reference or returns from
RELIGHT. -/
def State.bootReady (s : State) : State :=
  match s.boot.stage with
  | .running _ =>
    let s0 := s.drainStores 0
    let s1 : State := { s0 with kpr := { s0.kpr with bootReady := true } }
    match s.boot.purpose with
    | .kindle => ((s1.kpr0 .bootRom).modBoot (fun b => { b with stage := .committing })).capture
    | _ => (((s1.kpr0 .idle).modBoot (fun b => { b with stage := .idle })).going s.md.ret).startIfRuns
  | _ => s

/-- A write of KPR_BOOT (R455): only KPR0's init program sets READY. -/
def State.writeKprBoot (s : State) (r : Requester) (v : DWord) : State :=
  if r = .keeper 0 ∧ s.initRuns = true then (if bitOf v 31 then s.bootReady else s) else s.refuse r 2 0xA0010

/-- BOOT_READY: a store of KPR_BOOT READY = 1 by a path (R455). -/
def execBootReady (p : Path) (s : State) : Host.Outcome State Fault Refusal :=
  .next (s.after (s.access p 0xA0010 (fun r s => s.writeKprBoot r 0x80000000)))

/-- INIT_TIMEOUT: 50 ms have passed without READY (R89). -/
def State.initTimeout (s : State) : State :=
  match s.boot.stage with
  | .running k =>
    let s1 := (s.drainStores 0).slotResult k 0x09
    ({ s1 with kpr := { s1.kpr with bootKind := 0, imageSeq := 0, imageSvn := 0, imageKeySlot := 0 } } : State).trySlot 2
  | _ => s

/-- INIT_TIMEOUT (R89). -/
def execInitTimeout (s : State) : Host.Outcome State Fault Refusal := .next (s.after s.initTimeout)

/-- The Daymark pass in progress ends, and KINDLE does with the first one that matches once the boot has committed (R89): the pass that
is captured, or, where that found a parity failure, a later one. -/
def State.closePass (s : State) : State :=
  let s1 := s.endPass
  if s.boot.stage = .committing ∧ s.passMatches = true then
    ((s1.modBoot (fun b => { b with stage := .idle })).kpr0 .idle).setMode .standby
  else s1

/-- CAPTURE_COMPLETE: the pass that a waiting CAPTURE takes has read every register and ends (R142). -/
def execCaptureComplete (s : State) : Host.Outcome State Fault Refusal :=
  .next (s.after
    (match s.reg.day.pass with
     | some p => if s.reg.day.captured p && p.complete then s.closePass else s
     | none => s))

/-- A write of a keeper's ACK fields and of KPR_BOOT (R458); KPR_REVIVE is guarded and elsewhere. -/
def State.writeKpr (s : State) (r : Requester) (off : Nat) (v : DWord) : State :=
  if off = 0xA0010 then s.writeKprBoot r v
  else if h : 0xA0100 ≤ off ∧ off < 0xA0280 then
    let k : Fin 12 := ⟨(off - 0xA0100) / 0x20, by omega⟩
    match (off - 0xA0100) % 0x20 with
    | 0x04 => s.managerWrite r off (fun s => s.modKeeper k (fun x => { x with trap := x.trap.writeAck v }))
    | 0x10 => s.managerWrite r off (fun s => s.modKeeper k (fun x => { x with dmaFault := x.dmaFault.writeAck v }))
    | _ => s
  else s

end Sys2Proof.Machine
end

