-- ==== Sys2Proof/Machine/ModeCmds.lean ====
section
/-! DEFINITION. Commands of the mode controller (chapter 3): requests, transitions, the heartbeat, shedding and NIGHT pins, wakes,
and UPDATE.
Choices: log 21, 23, 31. -/

namespace Sys2Proof.Machine

/-- REQUEST_STANDBY (R81). -/
def execRequestStandby (p : Path) (s : State) : Host.Outcome State Fault Refusal := .next (s.after (s.writeModeReq p 0x3))

/-- REQUEST_LIT (R81). -/
def execRequestLit (p : Path) (s : State) : Host.Outcome State Fault Refusal := .next (s.after (s.writeModeReq p 0x4))

/-- REQUEST_BRIDGE (R81). -/
def execRequestBridge (p : Path) (s : State) : Host.Outcome State Fault Refusal := .next (s.after (s.writeModeReq p 0x5))

/-- REQUEST_NIGHT (R81, R550). -/
def execRequestNight (p : Path) (s : State) : Host.Outcome State Fault Refusal := .next (s.after (s.writeModeReq p 0x6))

/-- REQUEST_SAFE (R81, R82). -/
def execRequestSafe (p : Path) (s : State) : Host.Outcome State Fault Refusal := .next (s.after (s.writeModeReq p 0x8))

/-- REQUEST_RELIGHT (R81). -/
def execRequestRelight (p : Path) (s : State) : Host.Outcome State Fault Refusal := .next (s.after (s.writeModeReq p 0x9))

/-- REQUEST_UPDATE (R81, R135). -/
def execRequestUpdate (p : Path) (s : State) : Host.Outcome State Fault Refusal := .next (s.after (s.writeModeReq p 0xA))

/-- What a mode does when TOP_MODE first reports it: SHED sheds its first group, RELIGHT clears the counters and boots, and
UPDATE runs the boot ROM's loader (R84, R92, R357, R456). -/
def State.arriveIn (s : State) (m : Mode) (fl : FlashRead) : State :=
  match m with
  | .shed => s.beginShed
  | .relight => (s.modTnd (fun t => { t with counters := [] })).startBoot .relight fl
  | .update => s.kpr0 .bootRom
  | _ => s

/-- What waits for the end of a transition (R80, R550): the code held behind NIGHT, or the request in MODE. -/
def State.afterTransition (s : State) (was : Mode) : State :=
  match s.md.after with
  | some m =>
    if was = .night then (s.modMd (fun d => { d with after := none, req := m.code })).examineRequest else s.reexamine
  | none => s.reexamine

/-- The transition in progress ends (R75). -/
def State.endTransition (s : State) (fl : FlashRead) : State :=
  match s.md.going with
  | none => s
  | some m =>
    let s1 := if s.md.halting then s.haltFairways else s
    ((s1.setMode m).arriveIn m fl).afterTransition s.mode

/-- MODE_TRANSITION_DONE (R75), with the headers that RELIGHT reads. -/
def execModeTransitionDone (ha : FlashStart) (hb : ImageHeader) (s : State) : Host.Outcome State Fault Refusal :=
  .next (s.after (s.endTransition (ha.andSlotB hb)))

/-- SUP_HEARTBEAT (R82): written by keeper firmware. -/
def State.writeHeartbeat (s : State) (r : Requester) (v : DWord) : State :=
  if r.isKeeper then s.modMd (fun d => { d with heartbeat := v.setWidth 16, beat := true }) else s.refuse r 2 0x01020

/-- HEARTBEAT (R82). -/
def execHeartbeat (k : Fin 12) (v : DWord) (s : State) : Host.Outcome State Fault Refusal :=
  .next (s.after (s.access (.keeper k) 0x01020 (fun r s => s.writeHeartbeat r v)))

/-- The heartbeat's limit is reached: a SAFE cause (R82). -/
def State.heartbeatLost (s : State) : State :=
  if s.mode.safeFrom && decide (fieldNat s.md.safeCfg 0 8 ≤ s.md.missed) then
    s.modMd (fun d => { d with safeHeld := d.safeHeld.orElse (fun _ => some 3) })
  else s

/-- A frame closes: it counts toward the limit when no heartbeat was written during it (R82). -/
def State.heartbeatFrame (s : State) : State :=
  if s.mode.safeFrom then
    (s.modMd (fun d => { d with missed := if d.beat then 0 else d.missed + 1, beat := false })).heartbeatLost
  else s

/-- HEARTBEAT_LIMIT_EXPIRY (R82). -/
def execHeartbeatLimitExpiry (s : State) : Host.Outcome State Fault Refusal := .next (s.after s.heartbeatLost)

/-- SHED_ENTRY_FILTER_EXPIRY: VIN has been below the SHED threshold for the entry filter (R65, R86). -/
def execShedEntryFilterExpiry (s : State) : Host.Outcome State Fault Refusal :=
  .next (s.after (if s.mode = .dark then s else s.modMd (fun d => { d with sag := true })))

/-- SHED_EXIT_FILTER_EXPIRY: VIN has been at or above the threshold plus hysteresis for the exit filter, which SHED_REQ_N low
would have restarted (R86). -/
def execShedExitFilterExpiry (s : State) : Host.Outcome State Fault Refusal :=
  .next (s.after (if s.shedReq then s else s.modMd (fun d => { d with sag := false })))

/-- A level that the board drives on an LG ball, after its filter. -/
def State.setLg (s : State) (n : Nat) (high : Bool) : State :=
  { s with pins := { s.pins with lgIn := setField s.pins.lgIn (putBit high n) n 1 } }

/-- LG0 in its LANE_WAKE_N function (Table 2.8). -/
def State.laneWakeOn (s : State) : Bool := s.lgMode 0 = 3

/-- The filtered level of a ball the board drives changes (R56); a falling edge of LG0 in its function is a wake (R55, R85). CD58
is stopped in DARK and WICK. -/
def State.lgInput (s : State) (n : Nat) (high : Bool) : State :=
  let fall := s.lgLevel n && !high
  let s1 := s.setLg n high
  if n = 0 ∧ fall = true ∧ s.laneWakeOn = true then s1.wakeSource 17 else s1

/-- LG_INPUT_CHANGE (R56). -/
def execLgInputChange (n : Fin 16) (high : Bool) (s : State) : Host.Outcome State Fault Refusal :=
  .next (s.after (s.lgInput n.val high))

/-- SHED_REQ_N_CHANGE (R55): LG2's filtered level. -/
def execShedReqNChange (high : Bool) (s : State) : Host.Outcome State Fault Refusal := .next (s.after (s.lgInput 2 high))

/-- NIGHT_REQ_N_CHANGE (R55, R550): LG1's filtered level. -/
def execNightReqNChange (high : Bool) (s : State) : Host.Outcome State Fault Refusal := .next (s.after (s.lgInput 1 high))

/-- LANE_WAKE: a falling edge on LG0, which the board then holds low (R55, R85). -/
def execLaneWake (s : State) : Host.Outcome State Fault Refusal :=
  .next (s.after (if s.lgLevel 0 then s.lgInput 0 false else s))

/-- FRAME_OUT_FALL: 3,000 crystal cycles after it rose (R55). -/
def execFrameOutFall (s : State) : Host.Outcome State Fault Refusal :=
  .next (s.after { s with bcn := { s.bcn with frameOut := false } })

/-- UPDATE changed. -/
def State.modUpd (s : State) (g : Update → Update) : State := { s with upd := g s.upd }

/-- An abandoned or committed slot leads to RELIGHT (Table 3.5). -/
def State.leaveUpdate (s : State) (result : Nat) : State :=
  (s.modUpd (fun u => { u with result := result, done := true, busy := false })).beginRelight

/-- The slot that UPDATE programs (R91): the one not currently booted, slot A where none is (log 23). -/
def State.updSlot (s : State) : Fin 2 := if s.boot.booted = 1 then 1 else 0

/-- A chunk write (R91, R122): the repeated number is ignored, the next number accepted, and any other reported; a length outside 1 to
256 KiB is no valid code, and a chunk that does not fit the slot is refused. -/
def State.updChunk (s : State) (v : DWord) : State :=
  let seq : BitVec 16 := hiHalf v
  let len := fieldNat v 0 9
  if s.upd.busy || len == 0 || decide (256 < len) || seq == s.upd.lastSeq then s
  else if seq ≠ s.upd.lastSeq + 1 then s.modUpd (fun u => { u with result := 2 })
  else if 1024 < s.upd.kib + len then s.modUpd (fun u => { u with result := 3 })
  else
    let at_ := slotBase s.updSlot + 1024 * s.upd.kib
    (s.emitAll [.flashErase s.boot.erase at_ (1024 * len), .flashProgram at_ (1024 * len)]).modUpd (fun u =>
      { u with lastSeq := seq, busy := true, len := len, final := bitOf v 15 })

/-- SUP_UPD_CTL (R91, R94): by the primary manager, in UPDATE. -/
def State.writeUpdCtl (s : State) (r : Requester) (v : DWord) : State :=
  if !s.isPrimary r || decide (s.mode ≠ .update) || s.md.going.isSome then s.refuse r 2 0x01034
  else
    let s1 := s.modUpd (fun u => { u with ctl := v &&& 0xFFFFC1FF })
    if bitOf v 14 then s1.leaveUpdate 8 else s1.updChunk v

/-- SUP_UPD_CTL written by a path. -/
def State.updAccess (s : State) (p : Path) (v : DWord) : State := s.access p 0x01034 (fun r s => s.writeUpdCtl r v)

/-- UPD_CHUNK (R91). -/
def execUpdChunk (p : Path) (v : DWord) (s : State) : Host.Outcome State Fault Refusal :=
  .next (s.after (s.updAccess p (v &&& 0xFFFF3FFF)))

/-- UPD_FINAL (R91). -/
def execUpdFinal (p : Path) (v : DWord) (s : State) : Host.Outcome State Fault Refusal :=
  .next (s.after (s.updAccess p ((v &&& 0xFFFFBFFF) ||| 0x8000)))

/-- UPD_ABANDON (R91). -/
def execUpdAbandon (p : Path) (v : DWord) (s : State) : Host.Outcome State Fault Refusal :=
  .next (s.after (s.updAccess p (v ||| 0x4000)))

/-- The chunk in hand is not the last, or it is checked and committed (R88, R91): RESULT. -/
def State.finalResult (s : State) (h : ImageHeader) (sigOk : Bool) : Nat :=
  if s.headerResult h false ≠ 0 || !sigOk then 5 else if h.seq ≤ s.kpr.imageSeq.toNat then 7 else 6

/-- The chunk in hand has been programmed, and the slot checked where it was the last (R91). -/
def State.chunkProgrammed (s : State) (flashOk : Bool) (h : ImageHeader) (sigOk : Bool) : State :=
  if !s.upd.busy then s
  else if !flashOk then s.modUpd (fun u => { u with busy := false, result := 4 })
  else if !s.upd.final then s.modUpd (fun u => { u with busy := false, result := 1, kib := u.kib + u.len })
  else
    let r := s.finalResult h sigOk
    if r = 6 then s.leaveUpdate 6 else s.modUpd (fun u => { u with busy := false, result := r, kib := u.kib + u.len })

/-- UPD_CHUNK_PROGRAMMED (R91). -/
def execUpdChunkProgrammed (flashOk : Bool) (h : ImageHeader) (sigOk : Bool) (s : State) : Host.Outcome State Fault Refusal :=
  .next (s.after (s.chunkProgrammed flashOk h sigOk))

/-- FLASH_BUSY_TIMEOUT: the chunk in hand ends with a flash error (R535). -/
def execFlashBusyTimeout (s : State) : Host.Outcome State Fault Refusal :=
  .next (s.after (if s.upd.busy then s.modUpd (fun u => { u with busy := false, result := 4 }) else s))

/-- SUP_SHED_CFG as written (Table 3.15): a TH above 0xA4 leaves that field. -/
def shedCfgWritten (old v : DWord) : DWord :=
  let keep : DWord := v &&& 0x00FFF0FF
  if 0xA4 < fieldNat v 0 8 then setField keep old 0 8 else keep

/-- A write to the SUP block outside SUP_MODE_REQ (R94). -/
def State.writeSup (s : State) (r : Requester) (off : Nat) (v : DWord) : State :=
  match off with
  | 0x01010 => s.sealedWrite r off 3 (fun s => s.modMd (fun d => { d with shedCfg := shedCfgWritten d.shedCfg v }))
  | 0x01014 => s.sealedWrite r off 3 (fun s => s.modMd (fun d => { d with wakeCfg := v &&& 0x0007FFFF }))
  | 0x0101C => s.sealedWrite r off 3 (fun s =>
      s.modMd (fun d => { d with safeCfg := if fieldNat v 0 8 = 0 then d.safeCfg else putField (fieldNat v 0 8) 0 8 }))
  | 0x01020 => s.writeHeartbeat r v
  | 0x01034 => s.writeUpdCtl r v
  | _ => s

/-- The port bits that a TOP_FIT write clears with a sector's (R61). -/
def fitCleared (v : DWord) : DWord :=
  bitsOf 16 (fun n => !bitOf v (20 + n / 4))

/-- TOP_FIT as written (R61): zeros clear, a cleared sector takes its quad, and a manager's write keeps its own link's bit. -/
def fitWritten (r : Requester) (old v : DWord) : DWord :=
  let new := old &&& v &&& ~~~(fitCleared (old &&& v))
  match r with
  | .mfA => new ||| (old &&& 0x01000000)
  | .mfB => new ||| (old &&& 0x02000000)
  | _ => new

/-- A port becomes unfitted (R61): its gate is off and its attach ends as a detach. Its port follows the state (R278). -/
def State.unfitPort (s : State) (n : Fin 16) : State := if s.portFit n then s else s.leavePartner (pathOf n) .disabled

/-- A host link becomes unfitted (R61): it is held in reset. -/
def State.unfitLink (s : State) (l : Link) : State := if s.linkFit l then s else s.loseLink l

/-- TOP_FIT (R61). -/
def State.writeFit (s : State) (r : Requester) (v : DWord) : State :=
  s.sealedWrite r 0x00010 1 (fun s =>
    let old := s.pins.fit
    let s1 : State := { s with pins := { s.pins with fit := fitWritten r old v } }
    let s2 := (List.finRange 16).foldl (fun s n => if bitOf old n.val then s.unfitPort n else s) s1
    let s3 := if bitOf old 24 then s2.unfitLink .a else s2
    if bitOf old 25 then s3.unfitLink .b else s3)

/-- TOP_FIT_WRITE (R61). -/
def execTopFitWrite (p : Path) (v : DWord) (s : State) : Host.Outcome State Fault Refusal :=
  .next (s.after (s.access p 0x00010 (fun r s => s.writeFit r v)))

/-- One LGn_MODE field as written (R54): codes above 3, and 3 on a ball with no alternate function, leave the field. -/
def lgCodeWritten (n old v : Nat) : Nat := if v ≤ 2 ∨ (v = 3 ∧ n ≤ 4) then v else old

/-- TOP_LG_MODE0 or 1 as written, from ball `n0` on (R54). -/
def lgModeWritten (n0 : Nat) (old v : DWord) : DWord :=
  (List.range 8).foldl (fun acc i =>
    acc ||| putField (lgCodeWritten (n0 + i) (fieldNat old (4 * i) 4) (fieldNat v (4 * i) 4)) (4 * i) 4) 0

/-- TOP_LG_OUT (R57): all of it by the primary manager, and the KEEP bits by keeper firmware. -/
def State.writeLgOut (s : State) (r : Requester) (v : DWord) : State :=
  if s.isPrimary r then { s with pins := { s.pins with lgOut := v &&& 0xFFFF } }
  else if r.isKeeper then
    let m := s.pins.lgKeep
    { s with pins := { s.pins with lgOut := (s.pins.lgOut &&& ~~~m) ||| (v &&& m) } }
  else s.refuse r 2 0x00028

/-- TOP_LG_OUT_WRITE (R57). -/
def execTopLgOutWrite (p : Path) (v : DWord) (s : State) : Host.Outcome State Fault Refusal :=
  .next (s.after (s.access p 0x00028 (fun r s => s.writeLgOut r v)))

/-- A write to the TOP block (R57, R62). -/
def State.writeTop (s : State) (r : Requester) (off : Nat) (v : DWord) : State :=
  match off with
  | 0x00010 => s.writeFit r v
  | 0x00020 => s.sealedWrite r off 1 (fun s => { s with pins := { s.pins with lgMode0 := lgModeWritten 0 s.pins.lgMode0 v } })
  | 0x00024 => s.sealedWrite r off 1 (fun s => { s with pins := { s.pins with lgMode1 := lgModeWritten 8 s.pins.lgMode1 v } })
  | 0x00028 => s.writeLgOut r v
  | 0x00030 => s.primaryWrite r off (fun s => { s with pins := { s.pins with lgPull := v &&& 0xFFFF } })
  | 0x00034 => s.sealedWrite r off 1 (fun s => { s with pins := { s.pins with lgKeep := v &&& 0xFFFF } })
  | _ => s

end Sys2Proof.Machine
end

