-- ==== Sys2Proof/Machine/SupplyCmds.lean ====
section
/-! DEFINITION. Supply, rails, reset and Wick (chapters 3, 4 and 19): the way out of DARK, the causes of DARK, and the ends of
WICK.
Choices: log 17, 18, 19. -/

namespace Sys2Proof.Machine

/-- The supply changed. -/
def State.modSup (s : State) (g : Supply → Supply) : State := { s with sup := g s.sup }

/-- The rails go down in order (R68): EN_PHY falls at once and the others follow. A VIN that WICK was timing is valid from here on:
in DARK its rising threshold has no filter (R64, Table 3.2). -/
def Supply.powerDown (x : Supply) : Supply :=
  let io := x.enIo
  let core := x.enCore
  { x with
    enPhy := false, pgPhy := false, vinValid := x.vinValid || x.wickVin, wickVin := false
    stage := if io then .downIo else if core then .downCore else .held }

/-- The device enters DARK (R68, Table 3.6): every block is at its reset state but the supply with its sticky record, the levels the
board drives, the fuses, what has been sent and what waits. -/
def State.enterDark (s : State) : State :=
  let r : State := State.reset
  { r with
    sup := s.sup.powerDown
    md := { r.md with prev := 0 }
    pins := { r.pins with lgIn := s.pins.lgIn }
    clk := { r.clk with refclkOk := s.clk.refclkOk, tapReset := s.clk.tapReset }
    lnk := { r.lnk with link := Vector.ofFn (fun i => { (r.lnk.link[i] : LinkState) with perst := (s.lnk.link[i]).perst }) }
    out := s.out
    freeSeq := s.freeSeq
    pending := s.pending }

/-- A cause of DARK (Table 3.21): it is recorded unless the device is in DARK already. -/
def State.darkFor (s : State) (cause : Nat) : State :=
  if s.mode = .dark then s.enterDark else (s.modSup (fun x => { x with cause := cause })).enterDark

/-- A rail fault (R67): the rail and its run are recorded, and the third in a row holds the device in DARK. -/
def State.railFault (s : State) (r : Rail) : State :=
  let n := min (s.sup.tries + 1) 3
  (s.modSup (fun x => { x with cause := 4, rail := r.code, tries := n, retry := true, stuck := n == 3 })).enterDark

/-- The rails are up or on the way up: the device is out of the power-on reset. -/
def Supply.sequencing (x : Supply) : Bool :=
  match x.stage with
  | .waitPg _ => true
  | .delay _ => true
  | .crystal => true
  | .up => true
  | _ => false

/-- The supply from which the device may leave DARK (Table 3.5, R69). -/
def Supply.present (x : Supply) : Bool := x.vbias && (x.vinValid || x.puValid)

/-- VIN_RISE: VIN crosses the UVLO rising threshold (R64, R65): at once from DARK; in WICK it is timed for 10 ms. It ends a WICK_OC
hold (R77). -/
def execVinRise (s : State) : Host.Outcome State Fault Refusal :=
  .next (s.after
    (if s.wick then s.modSup (fun x => { x with wickVin := true })
     else s.modSup (fun x => { x with vinValid := true, vbias := true, wickHold := false })))

/-- VIN_UVLO_FALL: VIN has stayed below the UVLO falling threshold (R65, R75, R77). -/
def State.vinFall (s : State) : State :=
  let s1 := s.modSup (fun x => { x with vinValid := false, wickVin := false })
  if !s.sup.vinValid then s1
  else
    match s.mode with
    | .wick => s1
    | .dark => if s.sup.sequencing then (s1.modSup (fun x => { x with retry := true })).enterDark else s1
    | _ => (s1.modSup (fun x => { x with retry := true })).darkFor (if s.sup.puValid then 3 else 6)

/-- VIN_UVLO_FALL (R65). -/
def execVinUvloFall (s : State) : Host.Outcome State Fault Refusal := .next (s.after s.vinFall)

/-- VIN_HIGH_CHANGE (R65): reported only. -/
def execVinHighChange (high : Bool) (s : State) : Host.Outcome State Fault Refusal :=
  .next (s.after (s.modSup (fun x => { x with vinHigh := high })))

/-- PU_VBUS_VALID_RISE (R64): PU_VBUS can supply VBIAS. -/
def execPuVbusValidRise (s : State) : Host.Outcome State Fault Refusal :=
  .next (s.after (s.modSup (fun x => { x with puValid := true, vbias := true })))

/-- PU_VBUS falls below its valid threshold (R71, R73): WICK ends in DARK, and so does a sequence that it feeds. -/
def State.puFall (s : State) : State :=
  let s1 := s.modSup (fun x => { x with puValid := false, wickHold := false })
  match s.mode with
  | .wick => s1.enterDark
  | .dark => if (s.sup.sequencing || s.pins.puGateIn) && !s.sup.vinValid then s1.enterDark else s1
  | .service => if s.sup.vinValid then s1 else s1.enterDark
  | _ => s1

/-- PU_VBUS_VALID_FALL (R73). -/
def execPuVbusValidFall (s : State) : Host.Outcome State Fault Refusal := .next (s.after s.puFall)

/-- VBIAS falls below its UVLO (R102, R541): every enable falls with it, and the sticky record is cleared. A valid VIN holds VBIAS
up. -/
def State.vbiasLost (s : State) : State :=
  if s.sup.vinValid then s
  else
    let d := s.enterDark
    { d with sup := { vinHigh := s.sup.vinHigh, puValid := s.sup.puValid, resetLow := s.sup.resetLow, vmon := s.sup.vmon
                      fuse := s.sup.fuse, cause := 1 } }

/-- VBIAS_UVLO (R102). -/
def execVbiasUvlo (s : State) : Host.Outcome State Fault Refusal := .next (s.after s.vbiasLost)

/-- The always-on power-on reset may release (R67, R69, R77, R102, R103). -/
def State.mayRelease (s : State) : Bool :=
  let x := s.sup
  decide (s.mode = .dark) && decide (x.stage = .held) && x.present && !x.resetLow && !x.retry && !x.stuck && !x.wickHold

/-- POWER_ON_RESET_RELEASE (R102). -/
def execPowerOnResetRelease (s : State) : Host.Outcome State Fault Refusal :=
  .next (s.after (if s.mayRelease then s.modSup (fun x => { x with stage := .strapWait }) else s))

/-- The device is on the way to WICK (R69). -/
def State.towardWick (s : State) : Bool := !s.sup.vinValid && s.sup.puValid && !s.serviceSel

/-- PU_GATE_IN turns on at Wick entry, before the rail sequence (R45, R69). -/
def State.openSink (s : State) : State := if s.towardWick then { s with pins := { s.pins with puGateIn := true } } else s

/-- The straps are sampled (R49, R111): every port is the primary manager's (R17), the bridge strap sets LAN_CONNECT EN (Table 13.12),
and on the way to WICK PU_GATE_IN turns on. -/
def State.sampleStraps (s : State) (x : StrapSample) : State :=
  if s.sup.stage ≠ .strapWait then s
  else
    let s1 := s.modSup (fun y => { y with stage := .ready })
    let s2 : State :=
      { s1 with
        pins := { s1.pins with strap := x.strap, testen := x.testen, smbAdr := x.adr.val }
        fwy := { s1.fwy with owner := Vector.replicate 16 (Func.manager (Link.ofBool (bitOf x.strap 0))) } }
    (if bitOf x.strap 1 then s2.modLan (fun y => { y with en := true, state := .waiting }) else s2).openSink

/-- STRAP_SAMPLE (R49, R111): three samples, 1 µs apart. -/
def execStrapSample (a b c : StrapSample) (s : State) : Host.Outcome State Fault Refusal :=
  .next (s.after (s.sampleStraps (StrapSample.latch a b c)))

/-- RAIL_SEQUENCE_START: EN_CORE rises (R66); where the supply has changed since the straps were sampled, PU_GATE_IN turns on first. -/
def execRailSequenceStart (s : State) : Host.Outcome State Fault Refusal :=
  .next (s.after
    (if s.sup.stage = .ready ∧ s.sup.present = true then
       s.openSink.modSup (fun x => { x with enCore := true, stage := .waitPg .core })
     else s))

/-- A rail's enable is high. -/
def Supply.enabled (x : Supply) (r : Rail) : Bool :=
  match r with
  | .core => x.enCore
  | .io => x.enIo
  | .phy => x.enPhy

/-- A rail's filtered power-good. -/
def Supply.pg (x : Supply) (r : Rail) : Bool :=
  match r with
  | .core => x.pgCore
  | .io => x.pgIo
  | .phy => x.pgPhy

/-- A rail's power-good seen or lost. -/
def Supply.setPg (x : Supply) (r : Rail) (v : Bool) : Supply :=
  match r with
  | .core => { x with pgCore := v }
  | .io => { x with pgIo := v }
  | .phy => { x with pgPhy := v }

/-- A power-good is first seen high (R66). -/
def State.pgRise (s : State) (r : Rail) : State :=
  if !s.sup.enabled r then s
  else
    s.modSup (fun x =>
      let y := x.setPg r true
      if x.stage ≠ .waitPg r then y
      else
        match r with
        | .phy => { y with stage := .crystal }
        | _ => { y with stage := .delay r })

/-- POWER_GOOD_RISE (R66). -/
def execPowerGoodRise (r : Rail) (s : State) : Host.Outcome State Fault Refusal := .next (s.after (s.pgRise r))

/-- ENABLE_DELAY_EXPIRY: 0.5 ms after a power-good, the next enable rises (R66). -/
def execEnableDelayExpiry (s : State) : Host.Outcome State Fault Refusal :=
  .next (s.after
    (match s.sup.stage with
     | .delay .core => s.modSup (fun x => { x with enIo := true, stage := .waitPg .io })
     | .delay .io => s.modSup (fun x => { x with enPhy := true, stage := .waitPg .phy })
     | _ => s))

/-- POWER_GOOD_WINDOW_EXPIRY: a power-good has missed its 10 ms window (R67). -/
def execPowerGoodWindowExpiry (s : State) : Host.Outcome State Fault Refusal :=
  .next (s.after
    (match s.sup.stage with
     | .waitPg r => s.railFault r
     | _ => s))

/-- A power-good falls after it has risen (R67); while the rails go down it only reads low. -/
def State.pgFall (s : State) (r : Rail) : State :=
  if !s.sup.pg r then s
  else if s.sup.sequencing then (s.modSup (fun x => x.setPg r false)).railFault r
  else s.modSup (fun x => x.setPg r false)

/-- POWER_GOOD_FALL (R67). -/
def execPowerGoodFall (r : Rail) (s : State) : Host.Outcome State Fault Refusal := .next (s.after (s.pgFall r))

/-- RAIL_FAULT_RETRY: 100 ms have passed in DARK (R67, R77). -/
def execRailFaultRetry (s : State) : Host.Outcome State Fault Refusal :=
  .next (s.after (if s.mode = .dark then s.modSup (fun x => { x with retry := false }) else s))

/-- POWER_DOWN_STEP: the next enable falls, 100 µs after the one before (R68). -/
def execPowerDownStep (s : State) : Host.Outcome State Fault Refusal :=
  .next (s.after
    (match s.sup.stage with
     | .downIo => s.modSup (fun x => { x with enIo := false, pgIo := false, stage := if x.enCore then .downCore else .held })
     | .downCore => s.modSup (fun x => { x with enCore := false, pgCore := false, stage := .held })
     | _ => s))

/-- The PHYs that failed calibration (R59, R114, R303): their fairways have failed. -/
def State.calibrate (s : State) : State :=
  (List.finRange 4).foldl (fun s f =>
    if bitOf s.pins.biasMissing f.val then s.modFairway f (fun x => { x with failed := true, failCause := 1 }) else s) s

/-- The Beacon starts (R249): the first tick opens microframe 0. -/
def State.startBeacon (s : State) : State :=
  { s with bcn := { s.bcn with count := 0, rate := .microframe, started := false, frameOut := false } }

/-- KINDLE begins (R88, R249, R463). -/
def State.beginKindle (s : State) (fl : FlashRead) : State :=
  let s1 := s.modHst (fun h => (((h.clearBank 0).clearBank 1).clearBank 2).clearBank 3)
  let s2 : State := { s1 with pins := { s1.pins with puGateIn := false } }
  ((s2.setMode .kindle).startBeacon.calibrate).startBoot .kindle fl

/-- The crystal is stable and the internal reset releases (R66, R96): the rail sequence is complete. When PLL_LOCK first reads 1 is
left open, and here it is with XTAL_OK (DESIGN CHOICE, log 19). In WICK the boot ROM
clears bank 0 (R463). In SERVICE its test monitor runs (Table 3.4). -/
def State.release_ (s : State) (cal : BitVec 4) (calPu : Bool) (fl : FlashRead) : State :=
  if s.sup.stage ≠ .crystal then s
  else
    let s1 := s.modSup (fun x => { x with stage := .up, tries := 0 })
    let s2 : State :=
      { s1 with
        clk := { s1.clk with xtalOk := true, pllLock := true }
        pins := { s1.pins with biasMissing := ~~~cal, biasPuMissing := !calPu } }
    if s.serviceSel then ((s2.setMode .service).startBeacon.calibrate).kpr0 .bootRom
    else if s.towardWick then ((s2.setMode .wick).modHst (fun h => h.clearBank 0)).startBoot .wick fl
    else s2.beginKindle fl

/-- CRYSTAL_STABLE (R66, R96), with the PHYs that calibrate and the headers that the boot ROM reads. -/
def execCrystalStable (cal : BitVec 4) (calPu : Bool) (ha : FlashStart) (hb : ImageHeader) (s : State) :
    Host.Outcome State Fault Refusal :=
  .next (s.after (s.release_ cal calPu (ha.andSlotB hb)))

/-- CRYSTAL_START_TIMEOUT (R96). -/
def execCrystalStartTimeout (s : State) : Host.Outcome State Fault Refusal :=
  .next (s.after (if s.sup.stage = .crystal then s.railFault .phy else s))

/-- CRYSTAL_STOP (R96). -/
def execCrystalStop (s : State) : Host.Outcome State Fault Refusal :=
  .next (s.after (if s.clk.xtalOk then s.railFault .phy else s))

/-- PLL_LOCK_LOSS (R96). -/
def execPllLockLoss (s : State) : Host.Outcome State Fault Refusal :=
  .next (s.after (if s.clk.pllLock then s.railFault .core else s))

/-- RESET_N is low after its filter (R103): DARK is entered, or the DARK in progress keeps its record and its rails go down. -/
def State.resetFall (s : State) : State :=
  let s1 := s.modSup (fun x => { x with resetLow := true, tries := 0, stuck := false })
  if s.mode ≠ .dark then s1.darkFor 2
  else
    match s.sup.stage with
    | .downIo => s1
    | .downCore => s1
    | _ => s1.enterDark

/-- RESET_N_LOW (R103). -/
def execResetNLow (s : State) : Host.Outcome State Fault Refusal := .next (s.after s.resetFall)

/-- RESET_N_RISE (R103). -/
def execResetNRise (s : State) : Host.Outcome State Fault Refusal :=
  .next (s.after (s.modSup (fun x => { x with resetLow := false })))

/-- WICK_OVERCURRENT (R71): the sink current has exceeded the limit set on PU_ISNS for 10 ms, or twice that limit. PU_GATE_IN turns off, and DARK
holds until PU_VBUS goes or VIN is valid (R77), which one that WICK was timing is. -/
def execWickOvercurrent (s : State) : Host.Outcome State Fault Refusal :=
  .next (s.after
    (if s.pins.puGateIn then
       (s.modSup (fun x => { x with cause := 5, wickHold := !x.wickVin })).enterDark
     else s))

/-- The Lantern's pull-up is released at the end of WICK (R73 step 2). -/
def State.releasePullup (s : State) : State :=
  if s.lan.pullup then
    s.lanClear.modLan (fun x => { x with pullup := false, state := x.idleState, high := false, sofValid := false, ibp := { x.ibp with waiting := [] } })
  else s

/-- VIN has stayed valid for 10 ms in WICK (R73). -/
def State.endWick (s : State) (fl : FlashRead) : State :=
  if !(s.wick && s.sup.wickVin) then s
  else
    let s1 := s.modSup (fun x => { x with vinValid := true, wickVin := false })
    ((s1.releasePullup).kpr0 .idle).beginKindle fl

/-- WICK_VIN_FILTER_EXPIRY (R73). -/
def execWickVinFilterExpiry (ha : FlashStart) (hb : ImageHeader) (s : State) : Host.Outcome State Fault Refusal :=
  .next (s.after (s.endWick (ha.andSlotB hb)))

end Sys2Proof.Machine
end

