-- ==== Sys2Proof/Machine/Tick.lean ====
section
/-! DEFINITION. The Beacon tick (R249 to R253, Table 9.2) and moderated interrupt messages (R219).
Choices: log 32. -/

namespace Sys2Proof.Machine

/-- The tick rate that Table 9.1 gives the present mode. -/
def State.wantedRate (s : State) : BeaconRate :=
  match s.effMode with
  | .dark | .wick => .stopped
  | .standby | .night => .frame
  | _ => .microframe

/-- Microframes that one tick opens at the present rate (R251). -/
def State.tickStep (s : State) : Nat := if s.bcn.rate = .frame then 8 else 1

/-- Step 2 of Table 9.2: BCN_COUNT becomes N, which is 0 at the first tick (R249); a change of rate takes effect at a multiple of
8 (R252). -/
def State.countTick (s : State) : State :=
  let n : DWord := if s.bcn.started then s.bcn.count + BitVec.ofNat 32 s.tickStep else 0
  { s with bcn := { s.bcn with
      count := n, started := true
      rate := if n.toNat % 8 = 0 then s.wantedRate else s.bcn.rate } }

/-- PU's VBUS lies within 5 % of the contract voltage (R359): VBUS in units of 10 mV, the contract in units of 20 mV. -/
def puVbusGood (vbus volt : Nat) : Bool :=
  decide (190 * volt ≤ 100 * vbus) && decide (100 * vbus ≤ 210 * volt)

/-- The first tick of a freeze (R482, R503): from it on the Buoy's Lamps issue no token. -/
def State.freezeTick (s : State) : State :=
  { s with mig := { s.mig with mig := s.mig.mig.map (fun m =>
      if decide (m.phase ≠ .running) && !m.ticked then { m with ticked := true, tickCount := s.bcn.count } else m) } }

/-- What the world measured in the frame that closes (R94, R361, R365): SUP_VMON, the paths and the sectors. -/
def State.measure (s : State) (env : TickEnv) : State :=
  let s1 : State := { s with sup := { s.sup with vmon := env.vmon.getD s.sup.vmon } }
  let s2 := env.meas.foldl (fun s m => s.modMoor m.1 (fun x =>
      { x with
        meas := m.2
        vbad := x.vbad && !(decide (m.1 = pu) && puVbusGood (hiHalf m.2).toNat (s.eng pu).volt) })) s1
  env.secMeas.foldl (fun s m => s.modSector m.1 (fun x => { x with meas := m.2 })) s2

/-- A due message of one Event Ring is sent (R219), or kept while the function cannot master (R159). None is sent while a Buoy is
FROZEN (Table 17.1). -/
def State.messageDue (s : State) (f : Func) (i : Fin 4) : State :=
  let r := s.evRing f i
  if !r.opened || s.isFrozen f || !r.armed then s
  else if r.dueNow || r.tickDue then
    (if s.canMaster f then s.sendMessage f i else s.modEvRing f i (fun x => { x with heldMsg := true }))
  else s

/-- One Event Ring at the tick (R219): changed moderation applies, and `n` more microframes have passed. -/
def State.moderate (s : State) (n : Nat) (f : Func) (i : Fin 4) : State :=
  (s.modEvRing f i (fun x =>
    { x with
      actInterval := x.modInterval, actCount := x.modCount, ticksMsg := x.ticksMsg + n
      tickDue := x.armed && decide (x.modInterval ≤ x.ticksMsg + n) })).messageDue f i

/-- Step 7 of Table 9.2: moderated messages that have come due are sent. -/
def State.moderateAll (s : State) (n : Nat) : State :=
  Func.all.foldl (fun s f => (List.finRange 4).foldl (fun s i => s.moderate n f i) s) s

/-- Keyholes and watches at the tick (R137, R414). -/
def State.limitsAt (s : State) : State :=
  let s1 := [Requester.mfA, .mfB, .bridge, .bootRom].foldl (fun s r => s.keyTick r) s
  (List.finRange 12).foldl (fun s k => s.watchKeeper k) s1

/-- Triggers at the tick: a heartbeat frame closes, fairways that a transition stops stop, and gathered triggers act (R79, R82,
R83). -/
def State.modesAt (s : State) : State :=
  let s1 := if s.bcn.count.toNat % 8 = 0 then s.heartbeatFrame else s
  let s2 := if s1.md.halting then s1.haltFairways else s1
  s2.actTriggers

/-- What a root port receives at the tick (Table 9.3): start-of-frame, at high speed in every microframe and at full speed in microframe
0, or at low speed a keep-alive in microframe 0. -/
def State.sendSof (s : State) (n : Fin 16) : State :=
  let frame := s.bcn.count.toNat / 8 % 2048
  let first := decide (s.bcn.count.toNat % 8 = 0)
  if !s.portSofs n then s
  else
    match (s.port n).speed with
    | some .high => s.emit (.sof n frame)
    | some .full => if first then s.emit (.sof n frame) else s
    | some .low => if first then s.emit (.keepAlive n) else s
    | none => s

/-- Step 5 of Table 9.2: suspends begin, by command or by mode (R297, R299), start-of-frame leaves on every running port at once (R254),
and FRAME_OUT follows. -/
def State.startFrames (s : State) : State :=
  let s1 := if s.busesWake then s.suspendTicks else s.stopBuses
  let s2 := (List.finRange 16).foldl (fun s n => s.sendSof n) s1
  { s2 with bcn := { s2.bcn with frameOut := decide (s2.bcn.count.toNat % 8 = 0) } }

/-- The tick that opens the next microframe, in the order of Table 9.2. -/
def State.tick (s : State) (env : TickEnv) : State :=
  let n := if s.bcn.started then s.tickStep else 0
  let s2 := ((s.cutOff).countTick.measure env).freezeTick
  let frame := decide (s2.bcn.count.toNat % 8 = 0)
  let s3 := s2.lampStep
  let s4 := (s3.ptmCapture env.ptmTime).modesAt
  let s5 := s4.startFrames
  let s6 := (s5.epochsAt (max n 1)).limitsAt
  let s7 := s6.settle.deliverAll.moderateAll n
  let s8 := if frame then s7.closePass.beginPass else s7
  s8.openWalk

/-- BEACON_TICK (R97, R253); the Beacon is stopped in DARK and WICK (Table 9.1). -/
def execBeaconTick (env : TickEnv) (s : State) : Host.Outcome State Fault Refusal :=
  .next (s.after (if s.bcn.rate = .stopped then s else s.tick env))

/-- MODERATION_EXPIRY (R219): the due message of one Event Ring, where the tick has not sent it. -/
def execModerationExpiry (f : Func) (n : Fin 4) (s : State) : Host.Outcome State Fault Refusal :=
  .next (s.after (s.messageDue f n))

end Sys2Proof.Machine
end

