-- ==== Sys2Proof/Machine/Registers.lean ====
section
/-! DEFINITION. The register file as a whole (chapter 5): a write by any path reaches the block that owns its offset, reads of
64-bit values use the shadow slot (R127), and keepers write in two words (R124); with the Logbook's registers (R488, R492).
Choices: log 15, 29. -/

namespace Sys2Proof.Machine

/-- The set-up of a Logbook is in range (R488): 1 to 0x100_0000 pages, inside the 64-bit space. -/
def Logbook.inRange (x : Logbook) : Bool :=
  let pages := x.pages.toNat
  decide (1 ≤ pages) && decide (pages ≤ 0x1000000) && decide ((ofDWords x.rangeHi x.rangeLo).toNat + 4096 * pages ≤ 2 ^ 64)

/-- A write of LOG_k_CTL (R488, R492): EN = 1 starts logging with map A where it may, and EN = 0 ends it, once what is due has been
written and a read has returned; FAULT goes with EN. -/
def State.writeLogCtl (s : State) (r : Requester) (off : Nat) (b : Fin 15) (v : DWord) : State :=
  let x := s.log b
  if bitOf v 31 then
    if x.logging then s.refuse r 2 off
    else if x.inRange && (s.buoy b).home.isSome then
      s.modLog b (fun x => { x with en := true, logging := true, mapB := false, dirty := [], ending := false })
    else s
  else s.modLog b (fun x => { x with en := false, fault := false, ending := x.logging })

/-- A write of a Logbook's set-up (R492), refused while LOGGING reads 1. -/
def State.writeLogSetup (s : State) (r : Requester) (off : Nat) (b : Fin 15) (o : Nat) (v : DWord) : State :=
  if (s.log b).logging then s.refuse r 2 off
  else
    match o with
    | 0x08 => s.stageLow r off (v &&& 0xFFFFF000)
    | 0x0C => (s.modLog b (fun x => { x with rangeLo := s.takeLow r (off - 4) x.rangeLo, rangeHi := v })).dropStaged r (off - 4)
    | 0x10 =>
      let n := fieldNat v 0 25
      if 1 ≤ n ∧ n ≤ 0x1000000 then s.modLog b (fun x => { x with pages := putField n 0 25 }) else s
    | 0x18 => s.stageLow r off (v &&& 0xFFFFF000)
    | 0x1C => (s.modLog b (fun x => { x with mapALo := s.takeLow r (off - 4) x.mapALo, mapAHi := v })).dropStaged r (off - 4)
    | 0x20 => s.stageLow r off (v &&& 0xFFFFF000)
    | _ => (s.modLog b (fun x => { x with mapBLo := s.takeLow r (off - 4) x.mapBLo, mapBHi := v })).dropStaged r (off - 4)

/-- A write to the LOG block (R506, Table 17.7). -/
def State.writeLog (s : State) (r : Requester) (off : Nat) (v : DWord) : State :=
  if h : 0xD0040 ≤ off ∧ off < 0xD0400 then
    let b : Fin 15 := ⟨(off - 0xD0040) / 0x40, by omega⟩
    let o := (off - 0xD0040) % 0x40
    match o with
    | 0x00 => s.primaryWrite r off (fun s => s.writeLogCtl r off b v)
    | 0x08 => s.primaryWrite r off (fun s => s.writeLogSetup r off b o v)
    | 0x0C => s.primaryWrite r off (fun s => s.writeLogSetup r off b o v)
    | 0x10 => s.primaryWrite r off (fun s => s.writeLogSetup r off b o v)
    | 0x18 => s.primaryWrite r off (fun s => s.writeLogSetup r off b o v)
    | 0x1C => s.primaryWrite r off (fun s => s.writeLogSetup r off b o v)
    | 0x20 => s.primaryWrite r off (fun s => s.writeLogSetup r off b o v)
    | 0x24 => s.primaryWrite r off (fun s => s.writeLogSetup r off b o v)
    | 0x28 => s.managerWrite r off (fun s => s.modLog b (fun x => { x with miss := x.miss.writeAck v }))
    | _ => s
  else s

/-- A write to the BUY block: the mailboxes and BUY_ORIGIN (R179, R497, R506). -/
def State.writeBuy (s : State) (r : Requester) (off : Nat) (v : DWord) : State :=
  if off = 0xCA000 then
    s.primaryWrite r off (fun s => if v = 0 then s else { s with mig := { s.mig with origin := v } })
  else s.writeMboxArea r off v

/-- A write to the BCN block (R275, Table 9.10). -/
def State.writeBcn (s : State) (r : Requester) (off : Nat) (v : DWord) : State :=
  match off with
  | 0x30024 => s.managerWrite r off (fun s => { s with bcn := { s.bcn with overrun := s.bcn.overrun.writeAck v } })
  | 0x30040 => s.writePtmCtl r v
  | _ => s

/-- A write to the RNG block of manager BAR0: a manager's or the bridge host's own rings (R155). -/
def State.writeRngBlock (s : State) (r : Requester) (off : Nat) (v : DWord) : State :=
  match r.func with
  | some f => if f.isBuoy then s.refuse r 2 off else s.writeRng r f off (off - 0x20000) v
  | none => s.refuse r 2 off

/-- A write to a manager BAR0 offset, by the block that owns it; an offset that no register occupies ignores it (R130). -/
def State.writeBar0 (s : State) (r : Requester) (off : Nat) (v : DWord) : State :=
  if off < 0x01000 then s.writeTop r off v
  else if off < 0x02000 then s.writeSup r off v
  else if off < 0x03000 then s.writeClk r off v
  else if off < 0x10000 then s.writeDay r off v
  else if off < 0x20000 then s.writeHlk r off v
  else if off < 0x30000 then s.writeRngBlock r off v
  else if off < 0x40000 then s.writeBcn r off v
  else if off < 0x60000 then s.writeBus r off v
  else if off < 0x70000 then s.writeCcp r off v
  else if off < 0x80000 then s.writePower r off v
  else if off < 0x90000 then s.writeLan r off v
  else if off < 0xA0000 then s.writeTnd r off v
  else if off < 0xB0000 then s.writeKpr r off v
  else if off < 0xC0000 then s.writeHst r off v
  else if off < 0xD0000 then s.writeBuy r off v
  else if off < 0xE0000 then s.writeLog r off v
  else s.writeEvt r off v

/-- A write to a Buoy's BAR0 outside its MSI-X table (Table 6.4). -/
def State.writeSlot (s : State) (r : Requester) (b : Fin 15) (off : Nat) (v : DWord) : State :=
  if 0x3000 ≤ off ∧ off < 0x3100 then s.writeMbox (.tenant b) (off - 0x3000) v
  else if off < 0x3000 then s.writeRng r (.buoy b) off off v
  else s

/-- A write of a whole dword to a register of manager BAR0 by a path, the guarded registers and KEY_HOLE among them (R135). -/
def State.writeRegister (s : State) (p : Path) (off : Nat) (v : DWord) : State :=
  if off = 0x01000 then s.writeModeReq p v
  else if off = 0x03000 then s.writeCommit p v
  else if off = 0x04000 then s.keyHole p v
  else if off = 0xA0000 then s.writeRevive p v
  else if 0x100000 ≤ off then s
  else s.access p off (fun r s => s.writeBar0 r off v)

/-- A write of a width that R123 does not allow, at an offset of a path: refused and counted wherever it lands, but discarded at the Push
Window (R202). It is a write to a register other than KEY_HOLE, so that the requester's Keyhole sees it as a write elsewhere, at a guarded
offset too (DESIGN CHOICE, log 15). -/
def State.wrongWidth (s : State) (p : Path) (off : Nat) : State :=
  if inPushWindow p off then s
  else
    match p with
    | .slot _ _ => s.accessAny p off (fun r s => s.refuse r 4 off)
    | _ => s.access p off (fun r s => s.refuse r 4 off)

/-- A write of a dword by a path (R123, R125). An offset that is not a multiple of 4 stands for a write of another width. -/
def State.registerWrite (s : State) (p : Path) (off : Nat) (v : DWord) : State :=
  if !s.pathLive p then s.turnAway p true
  else if off % 4 ≠ 0 then s.wrongWidth p off
  else
    match p with
    | .mgrCfg l => (s.arrive p).writeConfig l 0 off v
    | .slotCfg l i => (s.arrive p).writeConfig l ⟨i.val + 1, by omega⟩ off v
    | .mgrMsix l => if off < 0x40 then (s.arrive p).writeMsix l 0 (by omega) off v else s.arrive p
    | .bar2 _ => s
    | .slot l i =>
      if 0x8000 ≤ off ∧ off < 0x8040 then (s.arrive p).writeMsix l (i.val + 1) (by omega) (off - 0x8000) v
      else s.accessAny p off (fun r s => s.writeSlot r i off v)
    | _ => s.writeRegister p off v

/-- A write of one dword, or of two (R123): two at a multiple of 8 are applied low first, and two at another offset are a write of
another width. -/
def State.hostWrite (s : State) (p : Path) (off : Nat) (v : DWord) (hi : Option DWord) : State :=
  match hi with
  | none => s.registerWrite p off v
  | some w =>
    if off % 8 = 0 ∨ inPushWindow p off then (s.registerWrite p off v).registerWrite p (off + 4) w
    else if s.pathLive p then s.wrongWidth p off
    else s.turnAway p true

/-- REGISTER_WRITE (R123 to R147). -/
def execRegisterWrite (p : Path) (off : Nat) (v : WriteData) (s : State) : Host.Outcome State Fault Refusal :=
  .next (s.after (s.hostWrite p off v.lo v.hi))

/-- A single-dword read by a path, with the requester's shadow slot (R127); the value and the state after. -/
def State.readDWord (s : State) (p : Path) (off : Nat) : DWord × State :=
  let s := s.arrive p
  let v := s.readPath p off
  match s.requesterOf p with
  | none => (v, s)
  | some r =>
    if low64 p off then
      (v, s.modReq r (fun x => { x with slot := some { value := off, words := capturedWords false v (s.readPath p (off + 4)) } }))
    else if decide (4 ≤ off) && low64 p (off - 4) then
      match (s.reqState r).slot with
      | some h =>
        if h.value = off - 4 then
          match assocGet h.words 2, assocGet h.words 3 with
          | some a, some b => (ofHalves b a, s.modReq r (fun x => { x with slot := none }))
          | _, _ => (v, s)
        else (v, s)
      | none => (v, s)
    else (v, s)

/-- A read of one dword answered; a host is answered poisoned words with a poisoned completion (R28, R272). -/
def State.answerDWord (s : State) (p : Path) (off : Nat) : State :=
  let x := s.readDWord p off
  x.2.emit (if (pathLink p).isSome && p.reachesBar0 && s.poisonedReg off then .poisonedCompletion p off else .readData p off x.1)

/-- A keeper's read of one word answered. -/
def State.answerWord (s : State) (k : Fin 12) (off : Nat) : State :=
  let x := s.readWord16 k off
  x.2.emit (.readData (s.keeperPath k) off (x.1.setWidth 32))

/-- A read of `n` dwords by a host (R123, R127): two at a multiple of 8 are of one instant and leave the shadow slot alone, two at another
multiple of 4 are two reads, and more are unsupported. -/
def State.answerHost (s : State) (l : Link) (p : Path) (off n : Nat) : State :=
  if n ≤ 1 then s.answerDWord p off
  else if 2 < n then (s.wakeLink l).unsupported l p false
  else if off % 8 = 0 then
    if p.reachesBar0 && s.poisonedReg off then (s.wakeLink l).emit (.poisonedCompletion p off)
    else
      (s.wakeLink l).emitAll
        [.readData p off ((s.wakeLink l).readPath p off), .readData p (off + 4) ((s.wakeLink l).readPath p (off + 4))]
  else (s.answerDWord p off).answerDWord p (off + 4)

/-- A read by a path from an offset on: `n` dwords by a host, one dword or a keeper's word otherwise (R123, R124, R154). -/
def State.answerRead (s : State) (p : Path) (off n : Nat) : State :=
  if !s.pathLive p then s.turnAway p false
  else
    match p with
    | .keeper k => s.answerWord k off
    | .bootRom => s.answerWord 0 off
    | .bar2 l => s.bar2Read l (off / 4 * 4) (max n 1)
    | _ =>
      match pathLink p with
      | some l => s.answerHost l p (off / 4 * 4) n
      | none => s.answerDWord p (off / 4 * 4)

/-- SHADOW_LOW_READ: a read by a path; at the low dword of a 64-bit value, a keeper's lowest word, the words above it are captured
(R123, R127). -/
def execShadowLowRead (p : Path) (x : ReadSpan) (s : State) : Host.Outcome State Fault Refusal :=
  .next (s.after (s.answerRead p x.off x.n))

/-- SHADOW_HIGH_READ: the high dword of a 64-bit value is read, and by a keeper one of the three words above the lowest (R127). -/
def execShadowHighRead (p : Path) (off : Nat) (s : State) : Host.Outcome State Fault Refusal :=
  .next (s.after (s.answerRead p off 1))

/-- STAGED_LOW_WRITE: a write of the low dword of a 64-bit value (R129). -/
def execStagedLowWrite (p : Path) (off : Nat) (v : DWord) (s : State) : Host.Outcome State Fault Refusal :=
  .next (s.after (if low64 p off then s.registerWrite p off v else s))

/-- A keeper's write of a register's low word: staged (R124), or refused where its parity fails. -/
def State.writeLowWord (s : State) (k : Fin 12) (off : Nat) (w : Half) (bad : Bool) : State :=
  let r := s.keeperReq k
  if bad then s.refuse r 6 off else s.modReq r (fun x => { x with stagedWord := some (off, w) })

/-- A keeper's write of a register's high word: the whole dword is applied (R124). -/
def State.writeHighWord (s : State) (k : Fin 12) (off : Nat) (w : Half) (bad : Bool) : State :=
  let r := s.keeperReq k
  let p := s.keeperPath k
  let present := loHalf (s.readBar0 r off)
  if bad then s.refuse r 6 off
  else
    match (s.reqState r).stagedWord with
    | some (o, lo) =>
      if o = off then (s.modReq r (fun x => { x with stagedWord := none })).writeRegister p off (ofHalves w lo)
      else s.writeRegister p off (ofHalves w present)
    | none => s.writeRegister p off (ofHalves w present)

/-- A keeper, or the boot ROM on KPR0, reaches a register in words: an offset of manager BAR0 that is a multiple of 4 (R124). -/
def State.wordsReach (s : State) (k : Fin 12) (off : Nat) : Bool :=
  s.pathLive (s.keeperPath k) && off % 4 == 0 && decide (off < 0x100000)

/-- KEEPER_LOW_WORD_WRITE (R124); `off` is the register's BAR0 offset. -/
def execKeeperLowWordWrite (k : Fin 12) (off : Nat) (w : Half) (bad : Bool) (s : State) : Host.Outcome State Fault Refusal :=
  .next (s.after (if s.wordsReach k off then s.writeLowWord k off w bad else s))

/-- KEEPER_HIGH_WORD_WRITE (R124, R132). -/
def execKeeperHighWordWrite (k : Fin 12) (off : Nat) (w : Half) (bad : Bool) (s : State) : Host.Outcome State Fault Refusal :=
  .next (s.after (if s.wordsReach k off then s.writeHighWord k off w bad else s))

/-- Offset of LOG_k_CTL. -/
def logCtlOff (b : Fin 15) : Nat := 0xD0040 + 0x40 * b.val

/-- LOG_ENABLE: a write of LOG_k_CTL with EN = 1 (R488). -/
def execLogEnable (p : Path) (b : Fin 15) (v : DWord) (s : State) : Host.Outcome State Fault Refusal :=
  .next (s.after
    (if bitOf v 31 then s.access p (logCtlOff b) (fun r s => s.writeLog r (logCtlOff b) v) else s))

/-- LOG_DISABLE: a write of LOG_k_CTL with EN = 0 (R492). -/
def execLogDisable (p : Path) (b : Fin 15) (v : DWord) (s : State) : Host.Outcome State Fault Refusal :=
  .next (s.after
    (if bitOf v 31 then s else s.access p (logCtlOff b) (fun r s => s.writeLog r (logCtlOff b) v)))

end Sys2Proof.Machine
end

