-- ==== Sys2Proof/Machine/KeeperOps.lean ====
section
/-! DEFINITION. What every keeper instruction shares (chapter 15): fetching through the instruction cache, the registers, loads and
stores by Table 15.3, traps and their outcomes, and carrying out one instruction.
Choices: log 41, 42, 44, 60. -/

namespace Sys2Proof.Machine

/-- A keeper executes instructions: it is not fenced, its clock runs, and it runs an item or a program (R426, R441, R442). -/
def State.kprRuns (s : State) (k : Fin 12) : Bool :=
  let x := s.keeper k
  !x.fenced && s.cdRuns (39 + k.val) &&
    match x.run with
    | .item _ => true
    | .program _ => true
    | _ => false

/-- Set of the instruction cache that a line falls in (R426): 128 sets of 8-word lines. -/
def icacheSet (base : Nat) : Nat := base / 8 % 128

/-- The cached line of an address. -/
def Keeper.line (x : Keeper) (base : Nat) : Option CacheLine := x.icache.find? (fun l => l.base == base)

/-- A line filled: two ways, the older one of a full set goes (the manual names no replacement rule). -/
def Keeper.fill (x : Keeper) (l : CacheLine) : Keeper :=
  let mine := x.icache.filter (fun y => icacheSet y.base == icacheSet l.base)
  let keep :=
    match mine with
    | a :: _ :: _ => x.icache.filter (fun y => y.base != a.base)
    | _ => x.icache
  { x with icache := keep ++ [l] }

/-- What a fetch gives. -/
inductive Fetched where
  | word (w : DWord) (s : State)
  | trap (cause : Nat) (s : State)
  /-- A cached word fails parity: the keeper is fenced (R428). -/
  | upset (s : State)

/-- The two parcels of a line at an address. -/
def CacheLine.parcels (l : CacheLine) (pc : Nat) : (Half × Bool) × (Half × Bool) :=
  (l.words.getD (pc % 8) (0, false), l.words.getD (pc % 8 + 1) (0, false))

/-- The instruction at PC (R426, R428, R432): from the cache, or from the Holding Store with the line filled where no word of it is
poisoned. -/
def State.fetchInstr (s : State) (k : Fin 12) : Fetched :=
  let x := s.keeper k
  let pc := x.pc.toNat
  let base := pc / 8 * 8
  if pc % 2 ≠ 0 ∨ (s.placeOf pc).fetch = false then .trap 0x02 s
  else
    match x.line base with
    | some l =>
      let p := l.parcels pc
      if p.1.2 || p.2.2 then .upset s else .word (ofHalves p.1.1 p.2.1) s
    | none =>
      let r := s.hst.readWords k.val base 8
      let s1 : State := { s with hst := r.2 }
      let l : CacheLine := { base := base, words := r.1 }
      let p := l.parcels pc
      if p.1.2 || p.2.2 then .trap 0x01 s1
      else .word (ofHalves p.1.1 p.2.1) (if r.1.any Prod.snd then s1 else s1.modKeeper k (fun x => x.fill l))

/-- A register by its code (Table 15.1): G, H, and W of the active window or, while TRAPPED is 1, of the trap window. -/
def Keeper.reg (x : Keeper) (c : Nat) : Half :=
  if c = 0 then 0
  else if h : c < 8 then x.g[c]
  else if h : 8 ≤ c ∧ c < 12 then x.h[c - 8]
  else if h : 12 ≤ c ∧ c < 24 then (if x.trapped then x.trapWin[c - 12] else (x.win[x.active]).w[c - 12])
  else 0

/-- A register written; G0 discards it (R427). -/
def Keeper.setReg (x : Keeper) (c : Nat) (v : Half) : Keeper :=
  if c = 0 then x
  else if h : c < 8 then { x with g := x.g.set c v }
  else if h : 8 ≤ c ∧ c < 12 then { x with h := x.h.set (c - 8) v }
  else if h : 12 ≤ c ∧ c < 24 then
    (if x.trapped then { x with trapWin := x.trapWin.set (c - 12) v }
     else { x with win := x.win.set x.active { x.win[x.active] with w := (x.win[x.active]).w.set (c - 12) v } })
  else x

/-- How one instruction goes: `next` to the following one, a jump, a trap with what stands of it, a wait, or the end of what the
keeper ran. -/
inductive KEnd where
  | next (s : State)
  | jump (s : State) (pc : BitVec 24)
  | trap (cause : Nat) (addr : Nat) (s : State)
  | wait
  | ended (s : State)

/-- The status that a trap cause gives (Table 15.8). -/
def trapStatus (cause : Nat) : Status :=
  match cause with
  | 0x01 => .poisoned
  | 0x08 => .poisoned
  | 0x09 => .notOwner
  | 0x0B => .dmaError
  | 0x0C => .notOwner
  | 0x0D => .doubleWindow
  | _ => .malformed

/-- A trap that goes to the handler (R437). -/
def Keeper.enterHandler (x : Keeper) (cause : Nat) : Keeper :=
  { x with trapped := true, trapCause := BitVec.ofNat 16 cause, trapPc := x.pc, trapAddr := 0, pc := x.tvec }

/-- The record of a trap that ends what the keeper ran (R440 step 5), and the window state after a double window fault (R438). -/
def Keeper.recordTrap (x : Keeper) (cause addr item : Nat) (st : Status) : Keeper :=
  let y : Keeper :=
    { x with
      trapCause := BitVec.ofNat 16 (0x100 * st.code + cause), trapPc := x.pc, trapAddr := BitVec.ofNat 24 addr
      trap := x.trap.bump
      trapLast := putField st.code 24 8 ||| putField cause 16 8 ||| putField item 0 12
      trapLastPc := x.pc.setWidth 32 }
  if x.trapped then { y with active := 0, held := 1, parked := 0, trapped := false } else y

/-- A keeper takes a trap (R437 to R441). -/
def State.takeTrap (s : State) (k : Fin 12) (cause addr : Nat) : State :=
  let x := s.keeper k
  if !x.trapped && (cause == 0x04 || cause == 0x05) then s.modKeeper k (fun x => x.enterHandler cause)
  else
    let st : Status := if x.trapped then .doubleWindow else trapStatus cause
    match x.run with
    | .item i => (s.modKeeper k (fun x => x.recordTrap cause addr i st)).endOnKeeper k st
    | .program n =>
      let s1 := (s.drainStores k).modKeeper k (fun x => { (x.recordTrap cause addr 0xFFF st) with run := .halted n })
      s1.modReq (.keeper k) (fun r => { r with stagedWord := none })
    | _ => s

/-- What an instruction leaves. -/
def State.kfinish (s : State) (k : Fin 12) (e : KEnd) : State :=
  match e with
  | .next s1 => s1.modKeeper k (fun x => { x with pc := x.pc + 2 })
  | .jump s1 pc => s1.modKeeper k (fun x => { x with pc := pc })
  | .trap c a s1 => s1.takeTrap k c a
  | .wait => s
  | .ended s1 => s1

/-- OP of an instruction (Table 15.4). -/
def kOp (w : DWord) : Nat := fieldNat w 26 6

/-- FN of a format R instruction. -/
def kFn (w : DWord) : Nat := fieldNat w 6 5

/-- Bits [25:21], [20:16] and [15:11]: register codes of the formats. -/
def kA (w : DWord) : Nat := fieldNat w 21 5
/-- Bits [20:16]. -/
def kB (w : DWord) : Nat := fieldNat w 16 5
/-- Bits [15:11]. -/
def kC (w : DWord) : Nat := fieldNat w 11 5

/-- Bits [15:0]. -/
def kImm (w : DWord) : Half := loHalf w

/-- The keeper's next instruction, if it is one of those that `pick` names, is carried out; a cached word that fails parity fences
the keeper (R428, cause 0x2). -/
def State.runOp (s : State) (k : Fin 12) (pick : DWord → Bool) (act : State → DWord → KEnd) : State :=
  if !s.kprRuns k then s
  else
    match s.fetchInstr k with
    | .word w s1 => if pick w then s1.kfinish k (act s1 w) else s
    | .trap _ _ => s
    | .upset s1 => s1.fence k 2

/-- A register changed by an instruction that goes on. -/
def State.kset (s : State) (k : Fin 12) (c : Nat) (v : Half) : KEnd := .next (s.modKeeper k (fun x => x.setReg c v))

/-- An illegal instruction (Table 15.8, priority 3). -/
def illegal (s : State) : KEnd := .trap 0x03 0 s

/-- The effective address (R432): segment `g`, base register `b`, displacement `d` sign-extended from `n` bits. -/
def Keeper.effective (x : Keeper) (g : Fin 4) (b : Nat) (d : BitVec 32) : Nat :=
  ((fieldNat x.seg[g] 0 8) * 0x10000 + (x.reg b).toNat + d.toNat) % 0x1000000

/-- A word of the store buffer not yet visible: the newest store of the keeper to an address (R444). -/
def Keeper.forwarded (x : Keeper) (a : Nat) : Option Half :=
  (x.storeBuf.reverse.find? (fun y => y.1 == a)).map Prod.snd

/-- A keeper's own load of a permitted word (R430, R431, R444): device registers with the store buffer drained. -/
def State.kload (s : State) (k : Fin 12) (a : Nat) : (Half × Bool) × State :=
  match s.placeOf a with
  | .reg => (s.drainStores k).loadWord k k.val a
  | .slot => s.loadWord k k.val a
  | _ =>
    match (s.keeper k).forwarded a with
    | some v => ((v, false), s)
    | none => s.loadWord k k.val a

/-- What a refused write leaves although the store that made it has no effect: its counts and records (R147, R138). -/
def State.keepRefusal (s s1 : State) : State :=
  s.modReg (fun x =>
    { x with refuse := x.refuse.bump, refuseLast := s1.reg.refuseLast, keyFault := s1.reg.keyFault, keyFaultLast := s1.reg.keyFaultLast })

/-- A keeper stores a word, or its DMA lands one that may be poisoned, to a device register (R28, R124, R431); the answer says whether
the write was refused. -/
def State.storeReg (s : State) (k : Fin 12) (a : Nat) (v : Half) (bad : Bool := false) : State × Bool :=
  let x := 2 * (a - 0x800000)
  let off := x / 4 * 4
  let s0 := s.modReg (fun r => { r with refuse := {} })
  let s1 := if x % 4 = 0 then s0.writeLowWord k off v bad else s0.writeHighWord k off v bad
  let refused := s1.reg.refuse.cnt != 0
  let cnt := if refused then s.reg.refuse.bump else s.reg.refuse
  (s1.modReg (fun r => { r with refuse := cnt }), refused)

/-- A store that acts at once, with the store buffer empty (R431, R446, R448): its state and a trap cause, if it traps. -/
def State.storeNow (s : State) (k : Fin 12) (a : Nat) (v : Half) : State × Option Nat :=
  match s.placeOf a with
  | .reg =>
    let r := s.storeReg k a v
    let inItem : Bool :=
      match (s.keeper k).run with
      | .item _ => true
      | _ => false
    if r.2 && inItem then (s.keepRefusal r.1, some 0x09) else (r.1, none)
  | .slot =>
    let n : Fin 4 := ⟨(a - 0xC00000) / 8 % 4, by omega⟩
    let w := a % 8
    if h : w < 6 then
      (if ((s.keeper k).dma[n]).busy then (s, some 0x0A)
       else (s.modSlot k n (fun d => { d with words := d.words.set w v, bad := d.bad.set w false }), none))
    else (s, none)
  | _ => ({ s with hst := s.hst.writeWords a [(v, false)] }, none)

/-- A keeper's own store (R430, R444): into the store buffer for the Holding Store, and at once for device registers and DMA
slots. -/
def State.kstore (s : State) (k : Fin 12) (a : Nat) (v : Half) : KEnd :=
  let p := s.placeOf a
  if p.store = false then .trap 0x07 a s
  else if p = .reg ∨ p = .slot then
    let run := (s.keeper k).run
    match (s.drainStores k).storeNow k a v with
    | (s1, some c) => .trap c a s1
    | (s1, none) => if (s1.keeper k).run = run then .next s1 else .ended s1
  else if 4 ≤ (s.keeper k).storeBuf.length then .wait
  else .next (s.modKeeper k (fun x => { x with storeBuf := x.storeBuf ++ [(a, v)] }))

/-- A run of addresses modulo 2^24. -/
def addrsFrom (a n : Nat) : List Nat := (List.range n).map (fun i => (a + i) % 0x1000000)

/-- Several loads in order: the words, or the first trap (R437, R443). -/
def State.kloads (s : State) (k : Fin 12) : List Nat → (List Half × Option (Nat × Nat)) × State
  | [] => (([], none), s)
  | a :: rest =>
    let x := s.kload k a
    if x.1.2 then (([], some (0x08, a)), x.2)
    else
      let y := x.2.kloads k rest
      ((x.1.1 :: y.1.1, y.1.2), y.2)

/-- Several stores in order: the state, or the first trap with what stands of it. -/
def State.kstores (s : State) (k : Fin 12) : List (Nat × Half) → State × Option (Nat × Nat)
  | [] => (s, none)
  | (a, v) :: rest =>
    match s.storeNow k a v with
    | (s1, some c) => (s1, some (c, a))
    | (s1, none) => s1.kstores k rest

/-- The keeper is idle once all four DMA slots are (R440), and joins the idle keepers unless it is fenced. -/
def State.settleKeeper (s : State) (k : Fin 12) : State :=
  let x := s.keeper k
  if x.run = .settling ∧ x.dma.toList.all DmaSlot.idle = true then
    let s1 := s.modKeeper k (fun x => { x with run := .idle })
    if x.fenced then s1 else s1.modTnd (fun t => { t with idle := t.idle.filter (fun j => j != k) ++ [k] })
  else s

end Sys2Proof.Machine
end

