-- ==== Sys2Proof/Machine/KeeperIsa.lean ====
section
/-! DEFINITION. The keeper instructions (R427 to R449, Table 15.5): arithmetic, branches, loads and stores, windows, the trap
window's own, and the operations on items and DMA.
Choices: log 42, 43. -/

namespace Sys2Proof.Machine

/-- ALU instructions (R433): reserved bits zero and register codes legal, else illegal. -/
def State.kAlu (s : State) (k : Fin 12) (w : DWord) (f : Half → Half → Half) : KEnd :=
  let x := s.keeper k
  if fieldNat w 0 6 ≠ 0 ∨ 0x18 ≤ kA w ∨ 0x18 ≤ kB w ∨ 0x18 ≤ kC w then illegal s
  else s.kset k (kA w) (f (x.reg (kB w)) (x.reg (kC w)))

/-- Immediate instructions (R433); `ok` is the instruction's own test of its fields. -/
def State.kImmOp (s : State) (k : Fin 12) (w : DWord) (ok : Bool) (f : Half → Half → Half) : KEnd :=
  if !ok || decide (0x18 ≤ kA w) || decide (0x18 ≤ kB w) then illegal s
  else s.kset k (kA w) (f ((s.keeper k).reg (kB w)) (kImm w))

/-- Bits [15:4] of an immediate shift are zero. -/
def shiftOk (w : DWord) : Bool := fieldNat w 4 12 == 0

/-- A comparison as a value. -/
def flagHalf (b : Bool) : Half := if b then 1 else 0

/-- Branches (R433). -/
def State.kBranch (s : State) (k : Fin 12) (w : DWord) (f : Half → Half → Bool) : KEnd :=
  let x := s.keeper k
  if 0x18 ≤ kA w ∨ 0x18 ≤ kB w then illegal s
  else if f (x.reg (kA w)) (x.reg (kB w)) then .jump s (x.pc + 2 * (kImm w).signExtend 24)
  else .next s

/-- The ALU function of FN `fn` is this instruction. -/
def isAlu (fn : Nat) (w : DWord) : Bool := kOp w == 0x01 && kFn w == fn

/-- The opcode is one of these. -/
def isOp (op : Nat) (w : DWord) : Bool := kOp w == op

/-- The opcode is one of four from `op` on, by segment. -/
def isSegOp (op : Nat) (w : DWord) : Bool := decide (op ≤ kOp w) && decide (kOp w < op + 4)

/-- The segment an opcode names. -/
def segOf (w : DWord) : Fin 4 := ⟨kOp w % 4, by omega⟩

/-- ADD (R433, FN 0x00). -/
def execKprAdd (k : Fin 12) (s : State) : Host.Outcome State Fault Refusal :=
  .next (s.after (s.runOp k (isAlu 0x00) (fun s w => s.kAlu k w (fun a b => a + b))))

/-- SUB (R433, FN 0x01). -/
def execKprSub (k : Fin 12) (s : State) : Host.Outcome State Fault Refusal :=
  .next (s.after (s.runOp k (isAlu 0x01) (fun s w => s.kAlu k w (fun a b => a - b))))

/-- AND (R433, FN 0x02). -/
def execKprAnd (k : Fin 12) (s : State) : Host.Outcome State Fault Refusal :=
  .next (s.after (s.runOp k (isAlu 0x02) (fun s w => s.kAlu k w (fun a b => a &&& b))))

/-- OR (R433, FN 0x03). -/
def execKprOr (k : Fin 12) (s : State) : Host.Outcome State Fault Refusal :=
  .next (s.after (s.runOp k (isAlu 0x03) (fun s w => s.kAlu k w (fun a b => a ||| b))))

/-- XOR (R433, FN 0x04). -/
def execKprXor (k : Fin 12) (s : State) : Host.Outcome State Fault Refusal :=
  .next (s.after (s.runOp k (isAlu 0x04) (fun s w => s.kAlu k w (fun a b => a ^^^ b))))

/-- SLL (R433, FN 0x05). -/
def execKprSll (k : Fin 12) (s : State) : Host.Outcome State Fault Refusal :=
  .next (s.after (s.runOp k (isAlu 0x05) (fun s w => s.kAlu k w (fun a b => a <<< fieldNat b 0 4))))

/-- SRL (R433, FN 0x06). -/
def execKprSrl (k : Fin 12) (s : State) : Host.Outcome State Fault Refusal :=
  .next (s.after (s.runOp k (isAlu 0x06) (fun s w => s.kAlu k w (fun a b => a >>> fieldNat b 0 4))))

/-- SRA (R433, FN 0x07). -/
def execKprSra (k : Fin 12) (s : State) : Host.Outcome State Fault Refusal :=
  .next (s.after (s.runOp k (isAlu 0x07) (fun s w => s.kAlu k w (fun a b => a.sshiftRight (fieldNat b 0 4)))))

/-- MUL (R433, FN 0x08). -/
def execKprMul (k : Fin 12) (s : State) : Host.Outcome State Fault Refusal :=
  .next (s.after (s.runOp k (isAlu 0x08) (fun s w => s.kAlu k w (fun a b => a * b))))

/-- MULHU (R433, FN 0x09). -/
def execKprMulhu (k : Fin 12) (s : State) : Host.Outcome State Fault Refusal :=
  .next (s.after (s.runOp k (isAlu 0x09) (fun s w => s.kAlu k w (fun a b => BitVec.ofNat 16 (a.toNat * b.toNat / 0x10000)))))

/-- SLTU (R433, FN 0x0A). -/
def execKprSltu (k : Fin 12) (s : State) : Host.Outcome State Fault Refusal :=
  .next (s.after (s.runOp k (isAlu 0x0A) (fun s w => s.kAlu k w (fun a b => flagHalf (a.ult b)))))

/-- SLT (R433, FN 0x0B). -/
def execKprSlt (k : Fin 12) (s : State) : Host.Outcome State Fault Refusal :=
  .next (s.after (s.runOp k (isAlu 0x0B) (fun s w => s.kAlu k w (fun a b => flagHalf (a.slt b)))))

/-- ADDI (R433, OP 0x02). -/
def execKprAddi (k : Fin 12) (s : State) : Host.Outcome State Fault Refusal :=
  .next (s.after (s.runOp k (isOp 0x02) (fun s w => s.kImmOp k w true (fun a i => a + i))))

/-- ANDI (R433, OP 0x03). -/
def execKprAndi (k : Fin 12) (s : State) : Host.Outcome State Fault Refusal :=
  .next (s.after (s.runOp k (isOp 0x03) (fun s w => s.kImmOp k w true (fun a i => a &&& i))))

/-- ORI (R433, OP 0x04). -/
def execKprOri (k : Fin 12) (s : State) : Host.Outcome State Fault Refusal :=
  .next (s.after (s.runOp k (isOp 0x04) (fun s w => s.kImmOp k w true (fun a i => a ||| i))))

/-- XORI (R433, OP 0x05). -/
def execKprXori (k : Fin 12) (s : State) : Host.Outcome State Fault Refusal :=
  .next (s.after (s.runOp k (isOp 0x05) (fun s w => s.kImmOp k w true (fun a i => a ^^^ i))))

/-- SLLI (R433, OP 0x06). -/
def execKprSlli (k : Fin 12) (s : State) : Host.Outcome State Fault Refusal :=
  .next (s.after (s.runOp k (isOp 0x06) (fun s w => s.kImmOp k w (shiftOk w) (fun a i => a <<< fieldNat i 0 4))))

/-- SRLI (R433, OP 0x07). -/
def execKprSrli (k : Fin 12) (s : State) : Host.Outcome State Fault Refusal :=
  .next (s.after (s.runOp k (isOp 0x07) (fun s w => s.kImmOp k w (shiftOk w) (fun a i => a >>> fieldNat i 0 4))))

/-- SRAI (R433, OP 0x08). -/
def execKprSrai (k : Fin 12) (s : State) : Host.Outcome State Fault Refusal :=
  .next (s.after (s.runOp k (isOp 0x08) (fun s w => s.kImmOp k w (shiftOk w) (fun a i => a.sshiftRight (fieldNat i 0 4)))))

/-- MOVI (R433, OP 0x09). -/
def execKprMovi (k : Fin 12) (s : State) : Host.Outcome State Fault Refusal :=
  .next (s.after (s.runOp k (isOp 0x09) (fun s w => s.kImmOp k w (kB w == 0) (fun _ i => i))))

/-- SLTUI (R433, OP 0x0A). -/
def execKprSltui (k : Fin 12) (s : State) : Host.Outcome State Fault Refusal :=
  .next (s.after (s.runOp k (isOp 0x0A) (fun s w => s.kImmOp k w true (fun a i => flagHalf (a.ult i)))))

/-- SLTI (R433, OP 0x0B). -/
def execKprSlti (k : Fin 12) (s : State) : Host.Outcome State Fault Refusal :=
  .next (s.after (s.runOp k (isOp 0x0B) (fun s w => s.kImmOp k w true (fun a i => flagHalf (a.slt i)))))

/-- A load (R430 to R432, R444): a word that fails parity never enters the register. -/
def State.kLd (s : State) (k : Fin 12) (w : DWord) : KEnd :=
  let a := (s.keeper k).effective (segOf w) (kB w) ((kImm w).signExtend 32)
  if 0x18 ≤ kA w ∨ 0x18 ≤ kB w then illegal s
  else if (s.placeOf a).load = false then .trap 0x07 a s
  else
    let x := s.kload k a
    if x.1.2 then .trap 0x08 a x.2 else x.2.kset k (kA w) x.1.1

/-- LD (R433). -/
def execKprLd (k : Fin 12) (s : State) : Host.Outcome State Fault Refusal :=
  .next (s.after (s.runOp k (isSegOp 0x10) (fun s w => s.kLd k w)))

/-- A store (R430 to R432, R444). -/
def State.kSt (s : State) (k : Fin 12) (w : DWord) : KEnd :=
  let x := s.keeper k
  if 0x18 ≤ kA w ∨ 0x18 ≤ kB w then illegal s
  else s.kstore k (x.effective (segOf w) (kB w) ((kImm w).signExtend 32)) (x.reg (kA w))

/-- ST (R433). -/
def execKprSt (k : Fin 12) (s : State) : Host.Outcome State Fault Refusal :=
  .next (s.after (s.runOp k (isSegOp 0x14) (fun s w => s.kSt k w)))

/-- The event of a `post` (Table 14.3, FORM 0x01). -/
def postEntry (i : Nat) (k : Fin 12) (x : Item) (ws : List Half) : EventEntry :=
  let d (j : Nat) : DWord := ofHalves (ws.getD (2 * j + 1) 0) (ws.getD (2 * j) 0)
  mkEvent (d 0) (d 1) (d 2) (d 3) (putField 1 24 8 ||| putField i 12 12 ||| putField k.val 8 4) x.tag 0 0xFF 0x01 0x04

/-- What `post` answers and does for a ring of the item's owner (R443): posted, full, or not open. -/
def State.postFor (s : State) (f : Func) (n : Fin 4) (e : EventEntry) : Half × State :=
  let r := s.evRing f n
  if !r.opened then (3, s)
  else if r.noRoom && !s.isFrozen f then (2, s)
  else (1, s.postEvent f n e)

/-- A post (R443). -/
def State.kPost (s : State) (k : Fin 12) (w : DWord) : KEnd :=
  if 0x18 ≤ kA w ∨ 0x18 ≤ kB w then illegal s
  else
    match (s.keeper k).run with
    | .item i =>
      match s.item i with
      | none => illegal s
      | some x =>
        let s0 := s.drainStores k
        let as_ := addrsFrom ((s.keeper k).effective (segOf w) (kB w) ((kImm w).signExtend 32)) 8
        match as_.find? (fun a => !(s.placeOf a).load) with
        | some a => .trap 0x07 a s0
        | none =>
          match s0.kloads k as_ with
          | ((_, some (c, a)), s1) => .trap c a s1
          | ((ws, none), s1) =>
            if !s1.granted k x.owner then .trap 0x0C 0 s1
            else
              let y := s1.postFor x.owner x.evt (postEntry i k x ws)
              y.2.kset k (kA w) y.1
    | _ => illegal s

/-- POST (R433, R443). -/
def execKprPost (k : Fin 12) (s : State) : Host.Outcome State Fault Refusal :=
  .next (s.after (s.runOp k (isSegOp 0x18) (fun s w => s.kPost k w)))

/-- BEQ (R433). -/
def execKprBeq (k : Fin 12) (s : State) : Host.Outcome State Fault Refusal :=
  .next (s.after (s.runOp k (isOp 0x20) (fun s w => s.kBranch k w (fun a b => a == b))))

/-- BNE (R433). -/
def execKprBne (k : Fin 12) (s : State) : Host.Outcome State Fault Refusal :=
  .next (s.after (s.runOp k (isOp 0x21) (fun s w => s.kBranch k w (fun a b => a != b))))

/-- BLTU (R433). -/
def execKprBltu (k : Fin 12) (s : State) : Host.Outcome State Fault Refusal :=
  .next (s.after (s.runOp k (isOp 0x22) (fun s w => s.kBranch k w (fun a b => a.ult b))))

/-- BGEU (R433). -/
def execKprBgeu (k : Fin 12) (s : State) : Host.Outcome State Fault Refusal :=
  .next (s.after (s.runOp k (isOp 0x23) (fun s w => s.kBranch k w (fun a b => !a.ult b))))

/-- BLT (R433). -/
def execKprBlt (k : Fin 12) (s : State) : Host.Outcome State Fault Refusal :=
  .next (s.after (s.runOp k (isOp 0x24) (fun s w => s.kBranch k w (fun a b => a.slt b))))

/-- BGE (R433). -/
def execKprBge (k : Fin 12) (s : State) : Host.Outcome State Fault Refusal :=
  .next (s.after (s.runOp k (isOp 0x25) (fun s w => s.kBranch k w (fun a b => !a.slt b))))

/-- The target of a format J instruction. -/
def jumpTarget (w : DWord) : BitVec 24 := w.setWidth 24

/-- The target of `jr` and `callwr` (R433): PC [23:16] followed by the register. -/
def Keeper.regTarget (x : Keeper) (c : Nat) : BitVec 24 := (x.pc &&& 0xFF0000) ||| (x.reg c).setWidth 24

/-- JMP's effect. -/
def State.kJmp (s : State) (w : DWord) : KEnd := if fieldNat w 24 2 ≠ 0 then illegal s else .jump s (jumpTarget w)

/-- RB, FN and the reserved bits of `jr` and `callwr` are zero, and RA is legal. -/
def jrOk (w : DWord) : Bool := fieldNat w 0 16 == 0 && decide (kB w < 0x18)

/-- JR's effect. -/
def State.kJr (s : State) (k : Fin 12) (w : DWord) : KEnd :=
  if jrOk w then .jump s ((s.keeper k).regTarget (kB w)) else illegal s

/-- A call with a new window (R436, R438). -/
def State.kCall (s : State) (k : Fin 12) (target : BitVec 24) : KEnd :=
  let x := s.keeper k
  if x.trapped then .trap 0x0D 0 s
  else if 8 ≤ x.held then .trap 0x04 0 s
  else
    let n := x.active + 1
    .jump (s.modKeeper k (fun x =>
      { x with active := n, held := x.held + 1, win := x.win.set n { x.win[n] with link := x.pc + 2 } })) target

/-- BACKW's effect (R436, R438). -/
def State.kBackw (s : State) (k : Fin 12) (w : DWord) : KEnd :=
  let x := s.keeper k
  if fieldNat w 0 26 ≠ 0 then illegal s
  else if x.trapped then .trap 0x0D 0 s
  else if 1 < x.held then .jump (s.modKeeper k (fun x => { x with active := x.active - 1, held := x.held - 1 })) (x.win[x.active]).link
  else if x.parked ≠ 0 then .trap 0x05 0 s
  else .trap 0x06 0 s

/-- JMP (R433). -/
def execKprJmp (k : Fin 12) (s : State) : Host.Outcome State Fault Refusal :=
  .next (s.after (s.runOp k (isOp 0x28) (fun s w => s.kJmp w)))

/-- JR (R433). -/
def execKprJr (k : Fin 12) (s : State) : Host.Outcome State Fault Refusal :=
  .next (s.after (s.runOp k (isOp 0x29) (fun s w => s.kJr k w)))

/-- CALLW (R436). -/
def execKprCallw (k : Fin 12) (s : State) : Host.Outcome State Fault Refusal :=
  .next (s.after (s.runOp k (isOp 0x2A) (fun s w => if fieldNat w 24 2 ≠ 0 then illegal s else s.kCall k (jumpTarget w))))

/-- CALLWR (R436). -/
def execKprCallwr (k : Fin 12) (s : State) : Host.Outcome State Fault Refusal :=
  .next (s.after (s.runOp k (isOp 0x2B) (fun s w => if jrOk w then s.kCall k ((s.keeper k).regTarget (kB w)) else illegal s)))

/-- BACKW (R436). -/
def execKprBackw (k : Fin 12) (s : State) : Host.Outcome State Fault Refusal :=
  .next (s.after (s.runOp k (isOp 0x2C) (fun s w => s.kBackw k w)))

/-- The two halves of a 24-bit address as special registers give them. -/
def addrHalf (a : BitVec 24) (hi : Bool) : Half := if hi then (a >>> 16).setWidth 16 else a.setWidth 16

/-- WINSTAT (Table 15.2). -/
def Keeper.winstat (x : Keeper) : Half := loHalf (putBit x.trapped 15 ||| putField x.active.val 8 3 ||| putField x.held 4 4)

/-- The number of the running item as ITEM gives it. -/
def Keeper.itemNo (x : Keeper) : Half :=
  match x.run with
  | .item i => BitVec.ofNat 16 i
  | _ => 0xFFFF

/-- A special register that its reader's state alone gives (Table 15.2); none for an unlisted number and for the two counts. -/
def Keeper.special (x : Keeper) (k : Fin 12) (n : Nat) : Option Half :=
  match n with
  | 0x00 => some (addrHalf x.pc false)
  | 0x01 => some (addrHalf x.pc true)
  | 0x04 => some x.seg[0]
  | 0x05 => some x.seg[1]
  | 0x06 => some x.seg[2]
  | 0x07 => some x.seg[3]
  | 0x08 => some x.winstat
  | 0x09 => some x.parked
  | 0x0A => some x.trapCause
  | 0x0B => some (addrHalf x.trapPc false)
  | 0x0C => some (addrHalf x.trapPc true)
  | 0x0D => some (addrHalf x.trapAddr false)
  | 0x0E => some (addrHalf x.trapAddr true)
  | 0x0F => some (addrHalf (x.win[x.active]).link false)
  | 0x10 => some (addrHalf (x.win[x.active]).link true)
  | 0x11 => some (addrHalf x.tvec false)
  | 0x12 => some (addrHalf x.tvec true)
  | 0x13 => some (BitVec.ofNat 16 k.val)
  | 0x14 => some x.itemNo
  | 0x15 => some (BitVec.ofNat 16 x.itemOwner)
  | 0x16 => some (loHalf x.itemTag)
  | 0x17 => some (hiHalf x.itemTag)
  | _ => none

/-- A special register read (R429): COUNT and CYC capture their high halves; cycles are not counted in the model, and CYC is a free
value (log 5). -/
def State.readSpecial (s : State) (k : Fin 12) (n : Nat) : Option (Half × State) :=
  let x := s.keeper k
  match n with
  | 0x18 => some (loHalf s.bcn.count, s.modKeeper k (fun x => { x with countHi := some (hiHalf s.bcn.count) }))
  | 0x19 => some (x.countHi.getD (hiHalf s.bcn.count), s.modKeeper k (fun x => { x with countHi := none }))
  | 0x1A => let v := s.freeDWord; some (loHalf v.1, v.2.modKeeper k (fun x => { x with cycHi := some (hiHalf v.1) }))
  | 0x1B =>
    match x.cycHi with
    | some h => some (h, s.modKeeper k (fun x => { x with cycHi := none }))
    | none => some s.freeHalf
  | _ => (x.special k n).map (fun v => (v, s))

/-- A special register written (R429, Table 15.2); none where that is illegal. -/
def Keeper.writeSpecial (x : Keeper) (n : Nat) (v : Half) : Option Keeper :=
  match n with
  | 0x04 => some { x with seg := x.seg.set 0 (v &&& 0xFF) }
  | 0x05 => some { x with seg := x.seg.set 1 (v &&& 0xFF) }
  | 0x06 => some { x with seg := x.seg.set 2 (v &&& 0xFF) }
  | 0x07 => some { x with seg := x.seg.set 3 (v &&& 0xFF) }
  | 0x08 =>
    let h := fieldNat v 4 4
    if x.trapped && decide (1 ≤ h) && decide (h ≤ 8) then some { x with held := h } else none
  | 0x09 => if x.trapped then some { x with parked := v } else none
  | _ => none

/-- Reserved bits of format S are zero and its register is legal. -/
def formatSOk (w : DWord) : Bool := fieldNat w 16 5 == 0 && fieldNat w 0 8 == 0 && decide (kA w < 0x18)

/-- MOVFS's effect. -/
def State.kMovfs (s : State) (k : Fin 12) (w : DWord) : KEnd :=
  if !formatSOk w then illegal s
  else
    match s.readSpecial k (fieldNat w 8 8) with
    | some (v, s1) => s1.kset k (kA w) v
    | none => illegal s

/-- MOVTS's effect. -/
def State.kMovts (s : State) (k : Fin 12) (w : DWord) : KEnd :=
  let x := s.keeper k
  if !formatSOk w then illegal s
  else
    match x.writeSpecial (fieldNat w 8 8) (x.reg (kA w)) with
    | some y => .next (s.modKeeper k (fun _ => y))
    | none => illegal s

/-- The window that WIN and REL name (R437). -/
def Keeper.named (x : Keeper) (win : Nat) (rel : Bool) : Fin 8 := if rel then x.active + Fin.ofNat 8 win else Fin.ofNat 8 win

/-- A register of a named window as `wget` names it (Table 15.1); G and H are the same in every window. -/
def Keeper.winReg (x : Keeper) (n : Fin 8) (c : Nat) : Option Half :=
  if c < 12 then some (x.reg c)
  else if h : 12 ≤ c ∧ c < 24 then some ((x.win[n]).w[c - 12])
  else if c = 0x18 then some (addrHalf (x.win[n]).link false)
  else if c = 0x19 then some (addrHalf (x.win[n]).link true)
  else none

/-- LINK with one of its halves replaced. -/
def linkWith (l : BitVec 24) (v : Half) (hi : Bool) : BitVec 24 :=
  if hi then (l &&& 0x00FFFF) ||| (v.setWidth 24) <<< 16 else (l &&& 0xFF0000) ||| v.setWidth 24

/-- A register of a named window written as `wput` names it. -/
def Keeper.setWinReg (x : Keeper) (n : Fin 8) (c : Nat) (v : Half) : Option Keeper :=
  if c < 12 then some (x.setReg c v)
  else if h : 12 ≤ c ∧ c < 24 then some { x with win := x.win.set n { x.win[n] with w := (x.win[n]).w.set (c - 12) v } }
  else if c = 0x18 then some { x with win := x.win.set n { x.win[n] with link := linkWith (x.win[n]).link v false } }
  else if c = 0x19 then some { x with win := x.win.set n { x.win[n] with link := linkWith (x.win[n]).link v true } }
  else none

/-- `wget` and `wput` are legal: in the trap window only, with reserved bits zero (R438). -/
def Keeper.formatXOk (x : Keeper) (w : DWord) : Bool :=
  x.trapped && fieldNat w 12 4 == 0 && fieldNat w 0 8 == 0 && decide (kA w < 0x18)

/-- WGET's effect. -/
def State.kWget (s : State) (k : Fin 12) (w : DWord) : KEnd :=
  let x := s.keeper k
  if !x.formatXOk w then illegal s
  else
    match x.winReg (x.named (fieldNat w 8 3) (bitOf w 11)) (kB w) with
    | some v => s.kset k (kA w) v
    | none => illegal s

/-- WPUT's effect. -/
def State.kWput (s : State) (k : Fin 12) (w : DWord) : KEnd :=
  let x := s.keeper k
  if !x.formatXOk w then illegal s
  else
    match x.setWinReg (x.named (fieldNat w 8 3) (bitOf w 11)) (kB w) (x.reg (kA w)) with
    | some y => .next (s.modKeeper k (fun _ => y))
    | none => illegal s

/-- RESUME's effect (R437): TRAPPED clears, and the trapping instruction runs again. -/
def State.kResume (s : State) (k : Fin 12) (w : DWord) : KEnd :=
  let x := s.keeper k
  if !x.trapped || fieldNat w 0 26 != 0 then illegal s
  else .jump (s.modKeeper k (fun x => { x with trapped := false })) x.trapPc

/-- MOVFS (R429). -/
def execKprMovfs (k : Fin 12) (s : State) : Host.Outcome State Fault Refusal :=
  .next (s.after (s.runOp k (isOp 0x30) (fun s w => s.kMovfs k w)))

/-- MOVTS (R429). -/
def execKprMovts (k : Fin 12) (s : State) : Host.Outcome State Fault Refusal :=
  .next (s.after (s.runOp k (isOp 0x31) (fun s w => s.kMovts k w)))

/-- WGET (R433, R438). -/
def execKprWget (k : Fin 12) (s : State) : Host.Outcome State Fault Refusal :=
  .next (s.after (s.runOp k (isOp 0x32) (fun s w => s.kWget k w)))

/-- WPUT (R433, R438). -/
def execKprWput (k : Fin 12) (s : State) : Host.Outcome State Fault Refusal :=
  .next (s.after (s.runOp k (isOp 0x33) (fun s w => s.kWput k w)))

/-- RESUME (R437). -/
def execKprResume (k : Fin 12) (s : State) : Host.Outcome State Fault Refusal :=
  .next (s.after (s.runOp k (isOp 0x34) (fun s w => s.kResume k w)))

/-- The effective address of a format W instruction. -/
def Keeper.frameAddr (x : Keeper) (w : DWord) : Nat :=
  x.effective ⟨fieldNat w 24 2, by unfold fieldNat; omega⟩ (kB w) ((BitVec.ofNat 15 w.toNat).signExtend 32)

/-- The window of a format W instruction. -/
def Keeper.frameWin (x : Keeper) (w : DWord) : Fin 8 := x.named (fieldNat w 21 3) (bitOf w 15)

/-- `parkw` and `fetchw` are legal (R438). -/
def Keeper.formatWOk (x : Keeper) (w : DWord) : Bool := x.trapped && decide (kB w < 0x18)

/-- The words of a parked frame (Table 15.7). -/
def Window.frame (y : Window) : List Half := y.w.toList ++ [addrHalf y.link false, addrHalf y.link true]

/-- PARKW's effect (R437), in the single order of stores. -/
def State.kParkw (s : State) (k : Fin 12) (w : DWord) : KEnd :=
  let x := s.keeper k
  if !x.formatWOk w then illegal s
  else
    let as_ := addrsFrom (x.frameAddr w) 14
    match as_.find? (fun a => !(s.placeOf a).store) with
    | some a => .trap 0x07 a s
    | none =>
      let s0 := s.drainStores k
      match s0.kstores k (as_.zip (x.win[x.frameWin w]).frame) with
      | (s1, some (c, a)) =>
        .trap c a (s0.modReg (fun r =>
          { r with refuse := s1.reg.refuse, refuseLast := s1.reg.refuseLast, keyFault := s1.reg.keyFault, keyFaultLast := s1.reg.keyFaultLast }))
      | (s1, none) => if (s1.keeper k).run = x.run then .next s1 else .ended s1

/-- A window from the words of a parked frame (Table 15.7). -/
def frameWindow (ws : List Half) : Window :=
  { w := Vector.ofFn (fun i : Fin 12 => ws.getD i.val 0)
    link := BitVec.ofNat 24 ((ws.getD 12 0).toNat + 0x10000 * fieldNat (ws.getD 13 0) 0 8) }

/-- FETCHW's effect (R437). -/
def State.kFetchw (s : State) (k : Fin 12) (w : DWord) : KEnd :=
  let x := s.keeper k
  if !x.formatWOk w then illegal s
  else
    let as_ := addrsFrom (x.frameAddr w) 14
    match as_.find? (fun a => !(s.placeOf a).load) with
    | some a => .trap 0x07 a s
    | none =>
      match (s.drainStores k).kloads k as_ with
      | ((_, some (c, a)), s1) => .trap c a s1
      | ((ws, none), s1) => .next (s1.modKeeper k (fun x => { x with win := x.win.set (x.frameWin w) (frameWindow ws) }))

/-- FENCE's effect (R446): it waits until every write request of the keeper's slots has been issued. -/
def State.kFence (s : State) (k : Fin 12) (w : DWord) : KEnd :=
  if fieldNat w 0 26 ≠ 0 then illegal s
  else if (s.keeper k).dma.toList.any (fun d => d.busy && d.toHost && !d.issued) then .wait
  else .next (s.drainStores k)

/-- PARKW (R437). -/
def execKprParkw (k : Fin 12) (s : State) : Host.Outcome State Fault Refusal :=
  .next (s.after (s.runOp k (isOp 0x35) (fun s w => s.kParkw k w)))

/-- FETCHW (R437). -/
def execKprFetchw (k : Fin 12) (s : State) : Host.Outcome State Fault Refusal :=
  .next (s.after (s.runOp k (isOp 0x36) (fun s w => s.kFetchw k w)))

/-- FENCE (R446). -/
def execKprFence (k : Fin 12) (s : State) : Host.Outcome State Fault Refusal :=
  .next (s.after (s.runOp k (isOp 0x38) (fun s w => s.kFence k w)))

/-- The reserved bits and the length of a descriptor, and its local words (R449 check 1). -/
def State.slotOk (s : State) (d : DmaSlot) : Bool :=
  fieldNat d.words[0] 11 5 == 0 && fieldNat d.words[0] 5 5 == 0 && fieldNat d.words[4] 8 8 == 0 && fieldNat d.words[5] 13 3 == 0
    && decide (1 ≤ d.len) && decide (d.len ≤ 4096)
    && (addrsFrom d.local ((d.len + 1) / 2)).all (fun a => if d.toHost then (s.placeOf a).load else (s.placeOf a).store)

/-- The function a request would reach, if the window bounds it and stands on a link (R449 check 2). -/
def State.slotFuncOf (s : State) (d : DmaSlot) : Option Func :=
  let w := s.lnk.win[d.win]
  if !s.isSealed 4 || decide (fieldNat w.size 0 21 * 4096 < d.offset + d.len) || !(if d.toHost then bitOf w.ctl 16 else bitOf w.ctl 17) then
    none
  else
    match w.func with
    | some f => if s.presented f then some f else none
    | none => none

/-- DMA's effect (R449). -/
def State.kDma (s : State) (k : Fin 12) (w : DWord) : KEnd :=
  let n : Fin 4 := ⟨fieldNat w 0 2, by unfold fieldNat; omega⟩
  if fieldNat w 2 24 ≠ 0 then illegal s
  else
    let s0 := s.drainStores k
    let d := (s0.keeper k).dma[n]
    if d.busy || !s0.slotOk d then .trap 0x0A 0 s0
    else
      match s0.slotFuncOf d with
      | none => .trap 0x0B 0 s0
      | some f =>
        if !bitOf (s0.lnk.win[d.win]).ctl k.val || !s0.granted k f then .trap 0x0C 0 s0
        else
          let s1 := s0.modSlot k n (fun d => { d with busy := true, issued := false, sub := 0, status := 0 })
          .next (if s1.dmaGoes f then s1.issueSlot k n f else s1)

/-- DWAIT's effect (R450). -/
def State.kDwait (s : State) (k : Fin 12) (w : DWord) : KEnd :=
  let n : Fin 4 := ⟨fieldNat w 0 2, by unfold fieldNat; omega⟩
  let d := (s.keeper k).dma[n]
  if fieldNat w 2 19 ≠ 0 ∨ 0x18 ≤ kA w then illegal s
  else if d.busy then .wait
  else s.kset k (kA w) d.word6

/-- DONE's effect (R442): it waits until every DMA slot is idle, and the item ends SUCCESS. -/
def State.kDone (s : State) (k : Fin 12) (w : DWord) : KEnd :=
  let x := s.keeper k
  match x.run with
  | .item _ =>
    if fieldNat w 0 26 ≠ 0 then illegal s
    else if x.dma.toList.all DmaSlot.idle then .ended (s.endOnKeeper k .success)
    else .wait
  | _ => illegal s

/-- DMA (R449). -/
def execKprDma (k : Fin 12) (s : State) : Host.Outcome State Fault Refusal :=
  .next (s.after (s.runOp k (isOp 0x39) (fun s w => s.kDma k w)))

/-- DWAIT (R450). -/
def execKprDwait (k : Fin 12) (s : State) : Host.Outcome State Fault Refusal :=
  .next (s.after (s.runOp k (isOp 0x3A) (fun s w => s.kDwait k w)))

/-- DONE (R442). -/
def execKprDone (k : Fin 12) (s : State) : Host.Outcome State Fault Refusal :=
  .next (s.after (s.runOp k (isOp 0x3B) (fun s w => s.kDone k w)))

/-- Table 15.5 lists the opcode and FN of an instruction (R433). -/
def opListed (w : DWord) : Bool :=
  let o := kOp w
  (o == 0x01 && decide (kFn w ≤ 0x0B)) || (decide (0x02 ≤ o) && decide (o ≤ 0x0B)) || (decide (0x10 ≤ o) && decide (o ≤ 0x1B))
    || (decide (0x20 ≤ o) && decide (o ≤ 0x25)) || (decide (0x28 ≤ o) && decide (o ≤ 0x2C)) || (decide (0x30 ≤ o) && decide (o ≤ 0x36))
    || (decide (0x38 ≤ o) && decide (o ≤ 0x3B))

/-- ILLEGAL_INSTRUCTION: an unlisted opcode or FN traps ILLEGAL (R433), and an instruction that cannot be fetched traps as Table 15.8
gives. -/
def execIllegalInstruction (k : Fin 12) (s : State) : Host.Outcome State Fault Refusal :=
  .next (s.after
    (if !s.kprRuns k then s
     else
       match s.fetchInstr k with
       | .word w s1 => if opListed w then s else s1.takeTrap k 0x03 0
       | .trap c s1 => s1.takeTrap k c (s.keeper k).pc.toNat
       | .upset s1 => s1.fence k 2))

/-- STORE_BUFFER_DRAIN: the oldest store of a keeper becomes visible (R444). -/
def execStoreBufferDrain (k : Fin 12) (s : State) : Host.Outcome State Fault Refusal :=
  .next (s.after
    (match (s.keeper k).storeBuf with
     | [] => s
     | (a, v) :: rest =>
       (({ s with hst := s.hst.writeWords a [(v, false)] } : State)).modKeeper k (fun x => { x with storeBuf := rest })))

/-- A word that a DMA read has brought lands in one of the keeper's DMA slots, marked where it is poisoned (R450). -/
def State.landSlot (s : State) (k : Fin 12) (a : Nat) (v : Half) (bad : Bool) : State :=
  let n : Fin 4 := ⟨(a - 0xC00000) / 8 % 4, by omega⟩
  let w := a % 8
  if h : w < 6 then
    (if ((s.keeper k).dma[n]).busy then s
     else s.modSlot k n (fun d => { d with words := d.words.set w v, bad := d.bad.set w bad }))
  else s

/-- Words that a DMA read has brought land in a keeper's local words (R450): whole words, and a last odd byte alone. -/
def State.landBytes (s : State) (k : Fin 12) (a : Nat) : List (Option (Byte × Bool)) → State
  | lo :: hi :: rest =>
    let s1 : State :=
      match s.placeOf a, lo, hi with
      | .reg, some l, some h => (s.storeReg k a (halfOfBytes h.1 l.1) (l.2 || h.2)).1
      | .slot, some l, some h => s.landSlot k a (halfOfBytes h.1 l.1) (l.2 || h.2)
      | .reg, _, _ => s
      | .slot, _, _ => s
      | _, some l, some h => { s with hst := s.hst.writeWords a [(halfOfBytes h.1 l.1, l.2 || h.2)] }
      | _, some l, none => { s with hst := s.hst.writeBytes (2 * a) [l] }
      | _, none, some h => { s with hst := s.hst.writeBytes (2 * a + 1) [h] }
      | _, none, none => s
    s1.landBytes k ((a + 1) % 0x1000000) rest
  | [lo] =>
    match s.placeOf a, lo with
    | .reg, _ => s
    | .slot, _ => s
    | _, some l => { s with hst := s.hst.writeBytes (2 * a) [l] }
    | _, none => s
  | [] => s

/-- A slot's request ends with a status (R450): counted and recorded where it is not SUCCESS. -/
def State.endSlot (s : State) (k : Fin 12) (n : Fin 4) (st : Status) (sub : Nat) : State :=
  let w := ((s.keeper k).dma[n]).win
  let s1 := s.modSlot k n (fun d => { d with busy := false, issued := false, status := st.code, sub := sub })
  let s2 :=
    if st = .success then s1
    else
      s1.modKeeper k (fun x =>
        { x with dmaFault := x.dmaFault.bump
                 dmaLast := putField st.code 24 8 ||| putField sub 20 4 ||| putField n.val 16 2 ||| putField w.val 0 5 })
  s2.settleKeeper k

/-- What the end of an issued request does (R163, R450). -/
def State.dmaComplete (s : State) (k : Fin 12) (n : Fin 4) (e : DmaEnd) : State :=
  let d := (s.keeper k).dma[n]
  let w := s.lnk.win[d.win]
  let addr := w.base + BitVec.ofNat 64 d.offset
  let fault (s : State) (kind : Nat) : State :=
    match w.func with
    | some f => s.fnReadFault f kind addr
    | none => s
  match e with
  | .done bytes =>
    if d.toHost then s.endSlot k n .success 0
    else if bytes.length ≠ d.len then s
    else
      let s1 := s.landBytes k d.local (bytes.map some)
      if bytes.any Prod.snd then (fault s1 4).endSlot k n .poisoned 0 else s1.endSlot k n .success 0
  | .failed kind arrived =>
    if d.toHost then s
    else (fault (s.landBytes k d.local (arrived.take d.len)) (kind.val + 1)).endSlot k n .dmaError (kind.val + 1)

/-- DMA_SLOT_COMPLETE (R450): the end of a request that has been issued. -/
def execDmaSlotComplete (k : Fin 12) (slot : Fin 4) (e : DmaEnd) (s : State) : Host.Outcome State Fault Refusal :=
  let d := (s.keeper k).dma[slot]
  .next (s.after (if d.busy && d.issued then s.dmaComplete k slot e else s))

end Sys2Proof.Machine
end

