-- ==== Sys2Proof/Machine/Image.lean ====
section
/-! DEFINITION. The state image of a Buoy (R493 to R495, Tables 17.2 and 17.3): the words that a save writes and what a restore reads
from them.
Choices: log 52. -/

namespace Sys2Proof.Machine

/-- Words of an image (R493). -/
def imageWords : Nat := 4512

/-- The first word of a Buoy's image slot (R493). -/
def imageBase (b : Fin 15) : Nat := 0x0D8000 + 0x2000 * b.val

/-- A dword as two words, low word first (R494). -/
def wordsOf (d : DWord) : List Half := [loHalf d, hiHalf d]

/-- A word holding a number. -/
def word (n : Nat) : Half := BitVec.ofNat 16 n

/-- Records padded with zero words to their place. -/
def padWords (n : Nat) (l : List Half) : List Half := (l ++ List.replicate n 0).take n

/-- A record's word. -/
def recWord (l : List Half) (i : Nat) : Half := l.getD i 0

/-- A record's number of two words. -/
def recDWord (l : List Half) (i : Nat) : DWord := ofHalves (recWord l (i + 1)) (recWord l i)

/-- Record `k` of `size` words in an area that begins at word `base`. -/
def record (ws : List Half) (base size k : Nat) : List Half := (ws.drop (base + size * k)).take size

/-- The Command Ring's or a transfer ring's record. -/
def ringRecord (r : Ring) : List Half :=
  let rb : List Half :=
    match r.rebind with
    | some b => wordsOf b.newBind ++ [word b.inst, b.mark]
    | none => [0, 0, 0, 0]
  wordsOf r.baseLo ++ wordsOf r.baseHi ++ wordsOf (ringCfgView r) ++ wordsOf (ofHalves r.pi r.ci)
    ++ wordsOf (r.bind ||| putBit r.rebind.isSome 0) ++ [word r.bindInst] ++ rb ++ [0]

/-- An Event Ring's record. -/
def eventRecord (r : EventRing) : List Half :=
  wordsOf r.baseLo ++ wordsOf r.baseHi ++ wordsOf (evCfgView r) ++ wordsOf (ofHalves r.ep r.hci) ++ List.replicate 8 0

/-- The code of a stage in a progress record. -/
def Stage.code : Stage → Nat
  | .lists => 0
  | .setup => 1
  | .data => 2
  | .status => 3

/-- The stage of a code. -/
def Stage.ofCode (n : Nat) : Stage :=
  match n % 4 with
  | 0 => .lists
  | 1 => .setup
  | 2 => .data
  | _ => .status

/-- A ring's transfer in progress, as a parked one (R483). -/
def Ring.progress (r : Ring) : Option Parked :=
  match r.cur with
  | some t => some { first := t.first, count := t.entries.length, moved := t.moved, stage := t.stage, errs := t.errs }
  | none => r.parked

/-- FROZEN_MISSED completions that await the thaw. -/
def Ring.missed (r : Ring) : List Unserved := r.unserved.filter (fun u => decide (u.status = .frozenMissed))

/-- A transfer ring's progress record. -/
def progressRecord (r : Ring) : List Half :=
  let n := min 16 r.missed.length
  match r.progress with
  | some p =>
    [p.first, word p.count] ++ wordsOf (BitVec.ofNat 32 p.moved)
      ++ [word (0x2000 * p.stage.code + 0x20 * min p.errs 0xFF + n)]
  | none => [0, 0, 0, 0, word n]

/-- The tag window's records: parked tags first, then those of completed commands, newest first. -/
def tagRecords (x : FuncState) : List Half :=
  let all : List (BitVec 16 × Nat) := x.parkedTags.map (fun t => (t, 0)) ++ x.tags
  (all.take 32).flatMap (fun t => [t.1, word t.2])

/-- One direction of the mailbox. -/
def mboxRecord (d : MboxDir) : List Half :=
  [d.accepted, d.acked] ++ d.inn.toList.flatMap wordsOf ++ [d.inSeq, word d.inLen]

/-- A Lamp's record. -/
def lampRecord (fa : Fin 4) (x : Lamp) : List Half :=
  [word x.ring, word fa.val, word x.pexp, word x.phase] ++ wordsOf (BitVec.ofNat 32 x.kbudget)
    ++ [word x.dev, word (x.ep + if x.dirIn then 0x80 else 0)]

/-- The Lamps attached to a function's rings, with their fairways. -/
def State.attachedLamps (s : State) (f : Func) : List (Fin 4 × Lamp) :=
  (List.finRange 4).flatMap (fun fa =>
    ((s.lamps fa).filter (fun x => decide (x.2.owner = f) && !x.2.held)).map (fun x => (fa, x.2)))

/-- Pushed copies that a function holds, with their ring, rings rising: staged ones and those of started transfers (R204). -/
def FuncState.pushedCopies (x : FuncState) : List (Nat × BitVec 16 × Entry) :=
  (List.finRange 65).flatMap (fun i =>
    let r := x.rings[i]
    let started := match r.cur with
      | some t => t.pushed
      | none => []
    (started ++ pushedOf r.staged).map (fun p => (i.val, p.1, p.2)))

/-- Events held under R218, with their Event Ring. -/
def FuncState.heldEvents (x : FuncState) : List (Fin 4 × EventEntry) :=
  (List.finRange 4).flatMap (fun n => (x.evts[n]).held.map (fun e => (n, e)))

/-- A held event's record: its Event Ring's number stands in word 15 [1:0]. -/
def heldRecord (h : Fin 4 × EventEntry) : List Half :=
  let ws := h.2.dwords.toList.flatMap wordsOf
  ws.take 15 ++ [recWord ws 15 ||| word h.1.val]

/-- The rings that an image records. -/
def imageRings : List (Fin 65) := (List.range 33).map (fun i => ⟨i % 65, by omega⟩)

/-- The transfer rings that an image records. -/
def transferRings : List (Fin 65) := imageRings.drop 1

/-- The words of an image after its header. -/
def State.imageBody (s : State) (b : Fin 15) : List Half :=
  let f := Func.buoy b
  let x := s.fn f
  let mb := s.mboxOf b
  let pushed := x.pushedCopies.take 128
  imageRings.flatMap (fun i => ringRecord x.rings[i]) ++ x.evts.toList.flatMap eventRecord
    ++ transferRings.flatMap (fun i => progressRecord x.rings[i])
    ++ padWords 64 (tagRecords x)
    ++ padWords 40 (mboxRecord mb.toMgr) ++ padWords 40 (mboxRecord mb.toTenant)
    ++ padWords 256 ((s.attachedLamps f).flatMap (fun p => lampRecord p.1 p.2))
    ++ transferRings.flatMap (fun i => padWords 16 ((x.rings[i]).missed.map (fun u => u.frame)))
    ++ padWords 2048 (pushed.flatMap (fun p => p.2.2.toList.flatMap wordsOf))
    ++ padWords 256 (pushed.flatMap (fun p => [word p.1, p.2.1]))
    ++ padWords 512 ((x.heldEvents.take 32).flatMap heldRecord)

/-- Words 0 to 13 of the header (Table 17.3). -/
def State.imageHead (s : State) (b : Fin 15) : List Half :=
  let x := s.fn (.buoy b)
  let home :=
    match (s.buoy b).home with
    | some l => l.idx.val
    | none => 0
  wordsOf 0x42554F59 ++ [word 1, word (b.val + 1)] ++ wordsOf s.mig.origin ++ wordsOf s.bcn.count
    ++ [word home, word x.pushedCopies.length, word x.heldEvents.length, 0, 0, 0]

/-- The CRC of an image: words 0 to 13 and 16 on (R495). -/
def imageCrc (ws : List Half) : DWord := crc32c (bytesOfWords (ws.take 14 ++ ws.drop 16))

/-- A Buoy's image. -/
def State.imageOf (s : State) (b : Fin 15) : List Half :=
  let head := s.imageHead b
  let rest := List.replicate 16 (0 : Half) ++ s.imageBody b
  head ++ wordsOf (imageCrc (head ++ [0, 0] ++ rest)) ++ rest

/-- Some words are zero. -/
def zeroWords (ws : List Half) (base n : Nat) : Bool := ((ws.drop base).take n).all (fun w => w == 0)

/-- An image is well formed (R495). -/
def imageOk (ws : List Half) : Bool :=
  recDWord ws 0 == 0x42554F59 && recWord ws 2 == 1 && decide ((recWord ws 9).toNat ≤ 128) && decide ((recWord ws 10).toNat ≤ 32)
    && zeroWords ws 11 3 && zeroWords ws 16 16 && (List.range 37).all (fun i => zeroWords ws (0x20 + 16 * i + 15) 1)

/-- The completions of a ring's lost intervals as an image gives them: their USER was not saved and is free. -/
def State.missedOf (s : State) (r : Ring) (frames : List Half) (total : Nat) : List Half → List Unserved × State
  | [] => ([], s)
  | f :: rest =>
    let v := s.freeDWord
    let i := total - (rest.length + 1)
    let u : Unserved :=
      { index := r.ci - BitVec.ofNat 16 (total - i), status := .frozenMissed, sub := 0, frame := f, user := v.1 }
    let x := v.2.missedOf r frames total rest
    (u :: x.1, x.2)

/-- The pushed copies of an image for one ring. -/
def imagePushed (ws : List Half) (ring : Nat) : List Staged :=
  (List.range (recWord ws 9).toNat).filterMap (fun k =>
    let ix := record ws 0xEA0 2 k
    let e := record ws 0x6A0 16 k
    if (recWord ix 0).toNat = ring then
      some { index := recWord ix 1, entry := some (Vector.ofFn (fun i : Fin 8 => recDWord e (2 * i.val))), kind := .pushed }
    else none)

/-- The parked REBIND of a ring record; its tag is that of a parked tag record in ring order, and its index was not saved and is
free. -/
def imageRebind (q : List Half) (tag index : BitVec 16) : Option Rebind :=
  if bitOf (recDWord q 8) 0 then
    some { tag := tag, index := index, mark := recWord q 14, newBind := recDWord q 11, inst := (recWord q 13).toNat }
  else none

/-- A Command Ring or transfer ring as an image gives it, apart from its binding's standing and its lost intervals. -/
def imageRing (ws : List Half) (i : Fin 65) (tag index : BitVec 16) : Ring :=
  let q := record ws 0x20 16 i.val
  let cfg := recDWord q 4
  let pr := record ws 0x270 5 (i.val - 1)
  let w := (recWord pr 4).toNat
  let swell := bitOf cfg 16
  { baseLo := recDWord q 0, baseHi := recDWord q 2, opened := bitOf cfg 31, size := fieldNat cfg 24 4, swell := swell
    evt := fieldNat cfg 8 2, pi := recWord q 7, ci := recWord q 6, bind := recDWord q 8 &&& bindMask
    bindInst := (recWord q 10).toNat, rebind := imageRebind q tag index, staged := imagePushed ws i.val
    spec := if swell then some (recWord q 7) else none
    parked :=
      if i.val = 0 ∨ recWord pr 1 = 0 then none
      else
        some { first := recWord pr 0, count := (recWord pr 1).toNat, moved := (recDWord pr 2).toNat
               stage := Stage.ofCode (w / 0x2000), errs := w / 0x20 % 256 } }

/-- The held events of an image for one Event Ring. -/
def imageHeld (ws : List Half) (n : Nat) : List EventEntry :=
  (List.range (recWord ws 10).toNat).filterMap (fun k =>
    let r := record ws 0xFA0 16 k
    if (recWord r 15).toNat % 4 = n then
      let r' := r.take 15 ++ [recWord r 15 &&& 0xFFFC]
      some { dwords := Vector.ofFn (fun i : Fin 8 => recDWord r' (2 * i.val)) }
    else none)

/-- An Event Ring as an image gives it; it is not armed. -/
def imageEvent (ws : List Half) (n : Fin 4) : EventRing :=
  let q := record ws 0x20 16 (33 + n.val)
  let cfg := recDWord q 4
  let r : EventRing :=
    { baseLo := recDWord q 0, baseHi := recDWord q 2, opened := bitOf cfg 31, size := fieldNat cfg 24 4
      modInterval := fieldNat cfg 8 8, modCount := fieldNat cfg 0 8, actInterval := fieldNat cfg 8 8, actCount := fieldNat cfg 0 8
      ep := recWord q 7, hci := recWord q 6, held := imageHeld ws n.val }
  { r with full := r.noRoom }

/-- The tags of an image: those of parked REBINDs, which come first and are as many as the rings with one, and those of completed
commands with their status. -/
def imageTags (ws : List Half) : List (BitVec 16) × List (BitVec 16 × Nat) :=
  let parked := imageRings.countP (fun i => bitOf (recDWord (record ws 0x20 16 i.val) 8) 0)
  let all := (List.range 32).map (fun k => record ws 0x310 2 k)
  ((all.take parked).map (fun r => recWord r 0),
   ((all.drop parked).filter (fun r => recWord r 1 != 0)).map (fun r => (recWord r 0, (recWord r 1).toNat)))

/-- One direction of an image's mailbox over the present one, whose OUT registers it keeps. -/
def imageMbox (q : List Half) (d : MboxDir) : MboxDir :=
  { d with
    accepted := recWord q 0, acked := recWord q 1, inn := Vector.ofFn (fun i : Fin 16 => recDWord q (2 + 2 * i.val))
    inSeq := recWord q 34, inLen := (recWord q 35).toNat }

/-- The Lamp records of an image that are in use. -/
def imageLamps (ws : List Half) : List (List Half) :=
  ((List.range 32).map (fun k => record ws 0x3A0 8 k)).filter (fun r => recWord r 0 != 0)

end Sys2Proof.Machine
end

