-- ==== Sys2Proof/Machine/Migration.lean ====
section
/-! DEFINITION. Freezing, thawing, saving, restoring and re-homing a Buoy, and the Logbook's swaps and map reads (chapter 17).
Choices: log 29, 52, 53, 54, 60. -/

namespace Sys2Proof.Machine

/-- A command of Table 17.4 is in progress somewhere: they are carried out one at a time across the device (R503). -/
def State.migBusy (s : State) : Bool :=
  s.mig.mig.toList.any (fun m => decide (m.phase = .freezing)) || s.mig.log.toList.any (fun x => x.swapCmd.isSome)

/-- A function's memory for an export or import: the Bridge rings region for the bridge host (R394). -/
def migAddrOk (f : Func) (addr : QWord) : Bool :=
  addr.toNat % 64 == 0 && (decide (f ≠ .bridge) || inBridge addr 9024)

/-- The parameters of a command whose PARAM0 holds BUOY alone (Table 17.4). -/
def migPlain (e : Entry) : Option (Fin 15) :=
  if fieldNat e[0] 4 28 ≠ 0 ∨ paramsZero e [1, 2, 3, 4, 5] = false then none else buoyParam e

/-- The parameters of BUOY_SAVE and BUOY_RESTORE (Table 17.4): the Buoy, and the address where bit 8 is set. -/
def migAddr (f : Func) (e : Entry) : Option (Fin 15 × Option QWord) :=
  let a := ofDWords e[2] e[1]
  if fieldNat e[0] 9 23 ≠ 0 ∨ fieldNat e[0] 4 4 ≠ 0 ∨ paramsZero e [3, 4, 5] = false then none
  else
    match buoyParam e with
    | none => none
    | some b =>
      if bitOf e[0] 8 then (if migAddrOk f a then some (b, some a) else none)
      else if a = 0 then some (b, none)
      else none

/-- SUCCESS with an OUTCOME other than 0x00 (R504). -/
def State.migOutcome (s : State) (n : Nat) : CmdEnd := .done s .success 0 (BitVec.ofNat 32 n)

/-- BUOY_FREEZE after the checks of R211 (R482, R504). -/
def State.buoyFreeze (s : State) (f : Func) (e : Entry) : CmdEnd :=
  match migPlain e with
  | none => .done s .malformed 0 0
  | some b =>
    if !s.isPrimaryFn f then .done s .notOwner 0 0
    else if (s.buoy b).home.isNone then s.migOutcome 1
    else if (s.migr b).phase ≠ .running then s.migOutcome 2
    else
      let s1 := s.modMigr b (fun _ => { phase := .freezing, cmd := some f })
      .started ((s1.forgetRequester (Requester.buoy b)).postFnEvent (.buoy b) 0x09 s.bcn.count 0 0)

/-- BUOY_FREEZE (R482); the commands of Table 17.4 run one at a time (R503). -/
def execBuoyFreeze (f : Func) (s : State) : Host.Outcome State Fault Refusal :=
  .next (s.after (s.runCommand f 0x50 (fun _ => !s.migBusy) (fun s e => s.buoyFreeze f e)))

/-- A keeper DMA slot holds a request through a window of the function that has not been issued. -/
def State.dmaWaits (s : State) (f : Func) : Bool :=
  (List.finRange 12).any (fun k =>
    (s.keeper k).dma.toList.any (fun d => d.busy && !d.issued && decide ((s.lnk.win[d.win]).func = some f)))

/-- Every memory write produced for a Buoy has been issued (R483 item 4); events held for want of room stay. -/
def State.writesIssued (s : State) (b : Fin 15) : Bool :=
  let f := Func.buoy b
  (s.fn f).evts.toList.all (fun r => (r.held.isEmpty || r.noRoom) && !r.heldMsg) && (s.fn f).heldData.isEmpty
    && !s.dmaWaits f && (s.log b).dirty.isEmpty

/-- A transaction of a ring is on a bus, or the interval it serves has not ended (R483 item 1). -/
def Ring.inFlight (r : Ring) : Bool :=
  match r.cur with
  | some t => t.onBus || (r.xtype == 1)
  | none => false

/-- The conditions of R483; a fetch in flight lands before the command that reports them. -/
def State.mayBeFrozen (s : State) (b : Fin 15) : Bool :=
  let f := Func.buoy b
  decide ((s.migr b).phase = .freezing)
    && (s.fn f).rings.toList.all (fun r => !r.inFlight)
    && (s.fn f).cmd.isNone
    && s.tnd.items.all (fun x => !(decide (x.2.owner = f) && decide (x.2.state = .running)))
    && s.writesIssued b

/-- A FREEZING Buoy becomes FROZEN, and its BUOY_FREEZE completes (R483). -/
def State.freezeEnds (s : State) (b : Fin 15) : State :=
  if !s.mayBeFrozen b then s
  else
    let m := s.migr b
    let s1 := s.modMigr b (fun m => { m with phase := .frozen, cmd := none })
    match m.cmd with
    | some g => s1.finishCmd g .success s.bcn.count 0
    | none => s1

/-- BUOY_FROZEN (R483). -/
def execBuoyFrozen (b : Fin 15) (s : State) : Host.Outcome State Fault Refusal := .next (s.after (s.freezeEnds b))

/-- Microframes from the first tick of the freeze (Table 17.4). -/
def State.frozenFor (s : State) (b : Fin 15) : DWord :=
  if (s.migr b).ticked then s.bcn.count - (s.migr b).tickCount else 0

/-- FROZEN_MISSED completions that await a Buoy's thaw. -/
def State.missedCount (s : State) (b : Fin 15) : Nat := (((s.fn (.buoy b)).rings.toList).map (fun r => r.missed.length)).sum

/-- A restored transfer whose device is not there, or a parked REBIND of a foreign image, ends GONE at the thaw (R499). -/
def State.thawRing (s : State) (f : Func) (i : Fin 65) : State :=
  let r := s.ring f i
  let s1 : State :=
    match r.parked with
    | some p => if (s.boundEp r).isNone then s.endParked f i p .gone (r.gone.getD 1) else s
    | none => s
  match r.rebind with
  | some b => if b.lost then s1.rebindEnd f i b else s1
  | none => s1

/-- The writes of R485 in their order, after which the Buoy runs. -/
def State.thaw (s : State) (b : Fin 15) : State :=
  let f := Func.buoy b
  let m := s.migr b
  let s1 := (s.modMigr b (fun _ => {})).flushFn f
  let s2 := s1.postFnEvent f 0x0A (s.frozenFor b) (putBit m.foreign 2 ||| putBit m.restored 1 ||| putBit m.rehomed 0)
    (putField (s.missedCount b) 0 16)
  let s3 := s2.flushUnservedFn f
  let d := (s3.mboxOf b).toTenant
  let s4 := if m.mboxHeld && decide (d.acked ≠ d.accepted) then s3.mailboxEvent (.manager b) else s3
  let s5 := (List.finRange 65).foldl (fun s i => s.thawRing f i) s4
  s5.resumeFn f

/-- BUOY_THAW after the checks of R211 (R485, R504). -/
def State.buoyThaw (s : State) (f : Func) (e : Entry) : CmdEnd :=
  match migPlain e with
  | none => .done s .malformed 0 0
  | some b =>
    if !s.isPrimaryFn f then .done s .notOwner 0 0
    else if (s.buoy b).home.isNone then s.migOutcome 1
    else if (s.migr b).phase = .running then s.migOutcome 2
    else .done (s.thaw b) .success (s.frozenFor b) (putField (s.missedCount b) 16 16)

/-- A command of a function may start with respect to a Buoy's mastering: a thaw of a Buoy that cannot master is held (R502). -/
def State.thawMay (s : State) (e : Entry) : Bool :=
  match migPlain e with
  | some b => decide ((s.migr b).phase ≠ .frozen) || s.canMaster (.buoy b)
  | none => true

/-- BUOY_THAW (R485). -/
def execBuoyThaw (f : Func) (s : State) : Host.Outcome State Fault Refusal :=
  .next (s.after (s.runCommand f 0x51 (fun e => !s.migBusy && s.thawMay e) (fun s e => s.buoyThaw f e)))

/-- Bytes that a command writes to its issuer's memory: one after another, all poisoned or none (R496). -/
def State.exportBytes (s : State) (f : Func) (addr : QWord) (bytes : List Byte) (poison : Bool) : State :=
  match f with
  | .bridge => { s with hst := s.hst.writeBytes addr.toNat (bytes.map (fun b => (b, poison))) }
  | _ => s.issueWrite f addr bytes poison

/-- BUOY_SAVE after the checks of R211 (R496, R504): `bad` is a word of the Buoy's state that fails parity as it is saved. -/
def State.buoySave (s : State) (f : Func) (bad : Option (Fin 4512)) (e : Entry) : CmdEnd :=
  match migAddr f e with
  | none => .done s .malformed 0 0
  | some (b, out) =>
    let x := s.fn (.buoy b)
    let pushed := x.pushedCopies.length
    let held := x.heldEvents.length
    if !s.isPrimaryFn f then .done s .notOwner 0 0
    else if (s.buoy b).home.isNone then s.migOutcome 1
    else if (s.migr b).phase ≠ .frozen then s.migOutcome 3
    else if 128 < pushed ∨ 32 < held then s.migOutcome 4
    else
      let ws := s.imageOf b
      let marked := ws.zipIdx.map (fun w => (w.1, bad.any (fun i => decide (i.val = w.2))))
      let s1 : State := { s with hst := s.hst.writeWords (imageBase b) marked }
      let s2 : State :=
        match out with
        | some a => s1.exportBytes f a (bytesOfWords ws) bad.isSome
        | none => s1
      if bad.isSome then .done s2 .poisoned 0 0
      else .done s2 .success (recDWord ws 14) (putField pushed 16 16 ||| putField held 8 8)

/-- An export or import waits until its issuer may master (R159). -/
def State.migMay (s : State) (f : Func) (e : Entry) : Bool :=
  match migAddr f e with
  | some (_, some _) => s.canMaster f
  | _ => true

/-- BUOY_SAVE (R496). -/
def execBuoySave (f : Func) (bad : Option (Fin 4512)) (s : State) : Host.Outcome State Fault Refusal :=
  .next (s.after (s.runCommand f 0x52 (fun e => !s.migBusy && s.migMay f e) (fun s e => s.buoySave f bad e)))

/-- The completions of an import up to its first failure, written to the slot from `w` on (R498), and that failure: items that do not
come are a completion timeout. -/
def State.importItems (s : State) (f : Func) (addr : QWord) (w : Nat) (items : List FetchItem) : Nat → State × Bool × Bool
  | 0 => (s, false, false)
  | n + 1 =>
    match items with
    | [] => (s.fnReadFault f 1 addr, true, false)
    | .failed k :: _ => (s.fnReadFault f (k % 3 + 1) addr, true, false)
    | .poisoned same :: rest =>
      let s1 := s.poisonedFetch f same addr
      let x := ({ s1 with hst := s1.hst.writeWords w (List.replicate 16 (0, true)) } : State).importItems f (addr + 32) (w + 16) rest n
      (x.1, x.2.1, true)
    | .entry e :: rest =>
      let ws := (e.toList.flatMap wordsOf).map (fun h => (h, false))
      ({ s with hst := s.hst.writeWords w ws } : State).importItems f (addr + 32) (w + 16) rest n

/-- The import of R498: 9,024 bytes into the slot; the state, whether the read failed, and whether a completion came poisoned. -/
def State.importImage (s : State) (f : Func) (b : Fin 15) (addr : QWord) (items : List FetchItem) : State × Bool × Bool :=
  match f with
  | .bridge =>
    let x := s.hst.readWords 0x14 (addr.toNat / 2) imageWords
    ({ s with hst := x.2.writeWords (imageBase b) x.1 }, false, x.1.any Prod.snd)
  | _ => s.importItems f addr (imageBase b) items 282

/-- A restored binding stands (R499). -/
def State.stands (s : State) (native : Bool) (r : Ring) : Bool :=
  native && r.bound && r.bindInst != 0 && decide (r.bindInst = s.presentInst r.dev)

/-- A ring of an image as it stands on this controller (R498 step 3, R499). -/
def State.settleRing (s : State) (native : Bool) (r : Ring) : Ring :=
  { r with
    bindInst := if r.bound && !s.stands native r then 0 else r.bindInst
    rebind := r.rebind.map (fun b =>
      { b with lost := !native || (bitOf b.newBind 31 && decide (b.inst ≠ s.presentInst (fieldNat b.newBind 16 12))) }) }

/-- Tags of parked REBINDs given to the rings that have one, in ring order. -/
def ringTags (ws : List Half) (tags : List (BitVec 16)) (i : Fin 65) : BitVec 16 :=
  let before := imageRings.countP (fun j => decide (j.val < i.val) && bitOf (recDWord (record ws 0x20 16 j.val) 8) 0)
  tags.getD before 0

/-- One ring of a Buoy replaced by an image's, with the completions of its lost intervals (R498 step 3). -/
def State.restoreRing (s : State) (f : Func) (native : Bool) (ws : List Half) (i : Fin 65) : State :=
  let h := s.freeHalf
  let r := s.settleRing native (imageRing ws i (ringTags ws (imageTags ws).1 i) h.1)
  if i.val = 0 then h.2.modRing f i (fun _ => { r with rebind := none })
  else
    let n := min 16 ((recWord (record ws 0x270 5 (i.val - 1)) 4).toNat % 32)
    let u := h.2.missedOf r ((record ws 0x4A0 16 (i.val - 1)).take n) n ((record ws 0x4A0 16 (i.val - 1)).take n)
    u.2.modRing f i (fun _ => { r with unserved := u.1 })

/-- Steps 1 and 2 of R498: attached Lamps go with their charges, items are cancelled without a report, and counters become UNUSED. -/
def State.clearForRestore (s : State) (f : Func) : State :=
  let s1 : State :=
    { s with bcn := { s.bcn with lists := s.bcn.lists.map (fun l => l.filter (fun x => !(decide (x.2.owner = f) && !x.2.held))) } }
  let s2 := (s1.tnd.items.filter (fun x => decide (x.2.owner = f))).foldl (fun s x => s.freeItem x.1) s1
  s2.modTnd (fun t => { t with counters := t.counters.filter (fun c => decide (c.2.owner ≠ f)) })

/-- Step 3 of R498: a Buoy's function state replaced by an image's. -/
def State.restoreRings (s : State) (b : Fin 15) (native : Bool) (ws : List Half) : State :=
  let f := Func.buoy b
  let tags := imageTags ws
  let s1 := s.modFn f (fun x =>
    { x with rings := Vector.replicate 65 {}, evts := Vector.ofFn (fun n => imageEvent ws n), tags := tags.2, parkedTags := tags.1 })
  let s2 := imageRings.foldl (fun s i => s.restoreRing f native ws i) s1
  s2.modMbox b (fun m =>
    { toMgr := imageMbox (record ws 0x350 40 0) m.toMgr, toTenant := imageMbox (record ws 0x350 40 1) m.toTenant })

/-- One Lamp record of a native image admitted again, if it may be (R498 step 4): the state and whether it was restored. -/
def State.restoreLamp (s : State) (f : Func) (q : List Half) : State × Bool :=
  match ringOf f (recWord q 0).toNat with
  | none => (s, false)
  | some ring =>
    let r := s.ring f ring
    match s.boundEp r with
    | none => (s, false)
    | some (d, er) =>
      let fa := handleFa r.dev
      let x := s.lampFor f ring d er ((recWord q 2).toNat % 13) (recWord q 3).toNat (recDWord q 4).toNat
      let same := decide (fa.val = (recWord q 1).toNat) && decide ((recWord q 6).toNat = r.dev)
        && decide ((recWord q 7).toNat = r.ep + if r.dirIn then 0x80 else 0)
      match s.freeLamp fa with
      | none => (s, false)
      | some i =>
        if same && r.opened && (s.lampOn r.dev r.ep r.dirIn).isNone && !s.carriesLamp f ring && (r.xtype == 1 || r.xtype == 3)
            && !x.excluded && (s.place fa x x.phase).failure.isNone then
          (s.putLamp fa i x, true)
        else (s, false)

/-- Step 4 of R498: the state and how many Lamps were restored. -/
def State.restoreLamps (s : State) (f : Func) (native : Bool) (ws : List Half) : State × Nat :=
  if !native then (s, 0)
  else (imageLamps ws).foldl (fun (a : State × Nat) q =>
    let y := a.1.restoreLamp f q
    (y.1, if y.2 then a.2 + 1 else a.2)) (s, 0)

/-- The restore of a checked image (R498, R499): RESULT0 and RESULT1 with it. -/
def State.restoreImage (s : State) (b : Fin 15) (ws : List Half) : CmdEnd :=
  let f := Func.buoy b
  let native := recDWord ws 4 == s.mig.origin && s.mig.origin != 0
  let s1 := (s.clearForRestore f).restoreRings b native ws
  let bound := transferRings.filter (fun i => (s1.ring f i).bound)
  let stand := bound.countP (fun i => s1.stands native (s1.ring f i))
  let y := s1.restoreLamps f native ws
  let d := (y.1.mboxOf b).toTenant
  let s2 := y.1.modMigr b (fun m =>
    { m with restored := true, foreign := !native, mboxHeld := decide (d.acked ≠ d.accepted) })
  .done s2 .success
    (putField stand 16 16 ||| putField (bound.length - stand) 8 8 ||| putField ((imageLamps ws).length - y.2) 0 8)
    (putBit (!native) 8)

/-- The checks of R504 item 5 on a slot, and the restore. -/
def State.restoreSlot (s : State) (b : Fin 15) (failed poisoned : Bool) : CmdEnd :=
  if failed then s.migOutcome 7
  else
    let x := s.hst.readWords 0x1C (imageBase b) imageWords
    let s1 : State := { s with hst := x.2 }
    let ws := x.1.map Prod.fst
    if poisoned || x.1.any Prod.snd then .done s1 .poisoned 0 0
    else if !imageOk ws then s1.migOutcome 5
    else if imageCrc ws ≠ recDWord ws 14 then s1.migOutcome 6
    else s1.restoreImage b ws

/-- BUOY_RESTORE after the checks of R211 (R498, R504). -/
def State.buoyRestore (s : State) (f : Func) (items : List FetchItem) (e : Entry) : CmdEnd :=
  match migAddr f e with
  | none => .done s .malformed 0 0
  | some (b, src) =>
    if !s.isPrimaryFn f then .done s .notOwner 0 0
    else if (s.buoy b).home.isNone then s.migOutcome 1
    else if (s.migr b).phase ≠ .frozen then s.migOutcome 3
    else
      match src with
      | some a =>
        let x := s.importImage f b a items
        x.1.restoreSlot b x.2.1 x.2.2
      | none => s.restoreSlot b false false

/-- BUOY_RESTORE (R498); the world supplies the completions of an import. -/
def execBuoyRestore (f : Func) (import_ : List FetchItem) (s : State) : Host.Outcome State Fault Refusal :=
  .next (s.after (s.runCommand f 0x53 (fun e => !s.migBusy && s.migMay f e) (fun s e => s.buoyRestore f import_ e)))

/-- Copies read from memory go; pushed ones stay, those of an ended speculative run too (R498, R501). -/
def Ring.dropRead (r : Ring) : Ring :=
  { r with staged := r.staged.filter (fun x => decide (x.kind = .pushed)), spec := r.spec.map (fun _ => r.pi) }

/-- BUOY_REHOME after the checks of R211 (R501, R504). -/
def State.buoyRehome (s : State) (f : Func) (e : Entry) : CmdEnd :=
  match migPlain e with
  | none => .done s .malformed 0 0
  | some b =>
    if !s.isPrimaryFn f then .done s .notOwner 0 0
    else
      match (s.buoy b).home with
      | none => s.migOutcome 1
      | some l =>
        if !s.slotExists l.other b || !s.linkFit l.other then .done s .gone 0 0
        else if (s.migr b).phase ≠ .frozen then s.migOutcome 3
        else if (s.log b).logging then s.migOutcome 8
        else
          let s1 := (s.modBuoy b (fun x => { x with home := some l.other })).slotEvents b
          let s2 := s1.modReq (Requester.buoy b) (fun q => { q with slot := none })
          let s3 := s2.modFn (.buoy b) (fun x => { x with rings := x.rings.map Ring.dropRead })
          .done (s3.modMigr b (fun m => { m with rehomed := true })) .success (BitVec.ofNat 32 l.other.idx.val) 0

/-- BUOY_REHOME (R501). -/
def execBuoyRehome (f : Func) (s : State) : Host.Outcome State Fault Refusal :=
  .next (s.after (s.runCommand f 0x54 (fun _ => !s.migBusy) (fun s e => s.buoyRehome f e)))

/-- LOG_SWAP after the checks of R211 (R491, R504). -/
def State.logSwap (s : State) (f : Func) (e : Entry) : CmdEnd :=
  match migPlain e with
  | none => .done s .malformed 0 0
  | some b =>
    if !s.isPrimaryFn f then .done s .notOwner 0 0
    else if (s.buoy b).home.isNone then s.migOutcome 1
    else if !(s.log b).logging then s.migOutcome 8
    else .started (s.modLog b (fun x => { x with mapB := !x.mapB, swapCmd := some f }))

/-- LOG_SWAP (R491). -/
def execLogSwap (f : Func) (s : State) : Host.Outcome State Fault Refusal :=
  .next (s.after (s.runCommand f 0x55 (fun _ => !s.migBusy) (fun s e => s.logSwap f e)))

/-- The base of a Logbook's map. -/
def Logbook.base (x : Logbook) (mapB : Bool) : QWord :=
  if mapB then ofDWords x.mapBHi x.mapBLo else ofDWords x.mapAHi x.mapALo

/-- The home manager of a Buoy, while it can master (R159, R490). -/
def State.homeManager (s : State) (b : Fin 15) : Option Func :=
  match (s.buoy b).home with
  | some l => if s.masters (Func.manager l) then some (Func.manager l) else none
  | none => none

/-- A Logbook stops for want of a map dword (R490), which its home manager is told. -/
def State.logStops (s : State) (b : Fin 15) (f : Func) : State :=
  (s.modLog b (fun x => { x with logging := false, fault := true, dirty := [], ending := false })).postFnEvent
    f 0x0F (putField (b.val + 1) 0 4) 0 0

/-- A Logbook stops for a map read that failed (R490). -/
def State.logFails (s : State) (b : Fin 15) (f : Func) (kind : Nat) (addr : QWord) : State := (s.fnReadFault f kind addr).logStops b f

/-- The oldest map dword has been read (R490): every page noted in it is set in one write back. -/
def State.mapRead (s : State) (b : Fin 15) (e : ReadEnd) : State :=
  let x := s.log b
  match x.dirty, s.homeManager b with
  | (m, p) :: _, some f =>
    let addr := x.base m + BitVec.ofNat 64 (4 * (p / 32))
    let here (q : Bool × Nat) : Bool := q.1 == m && q.2 / 32 == p / 32
    match e with
    | .data bytes bad =>
      let v := (x.dirty.filter here).foldl (fun d q => d ||| BitVec.ofNat 32 (2 ^ (q.2 % 32))) (dwordOfBytes (bytes.take 4))
      if bad.any (fun i => decide (i < 2)) then s.logStops b f
      else ((s.wakeFn f).emit (.logWrite (.buoy b) addr v)).modLog b (fun x => { x with dirty := x.dirty.filter (fun q => !here q) })
    | .poisoned => s.logFails b f 4 addr
    | .failed k => s.logFails b f (k % 3 + 1) addr
  | _, _ => s

/-- The LOG_SWAP of a Buoy completes once nothing is left for the retired map (R491). -/
def State.swapEnds (s : State) (b : Fin 15) : State :=
  let x := s.log b
  match x.swapCmd with
  | some g =>
    if x.dirty.any (fun q => q.1 != x.mapB) then s
    else (s.modLog b (fun x => { x with swapCmd := none })).finishCmd g .success (putBit (!x.mapB) 0) 0
  | none => s

/-- Logging ends once nothing is left for either map (R492); what the Buoy held for its home manager's mastering goes on (R490). -/
def State.loggingEnds (s : State) (b : Fin 15) : State :=
  let x := s.log b
  if x.ending && x.dirty.isEmpty then (s.modLog b (fun x => { x with logging := false, ending := false })).resumeFn (.buoy b) else s

/-- DATA_READ_COMPLETION: OUT data, a LINK list, a Logbook map dword or a Logbook's closing read (R163, R240, R243, R490 to R492). -/
def State.readCompletes (s : State) (what : ReadFor) (e : ReadEnd) : State :=
  match what with
  | .outData f ring => s.outDataRead f ring e
  | .linkList f ring => s.listRead f ring e
  | .logMap b => s.mapRead b e
  | .logBarrier b => (s.swapEnds b).loggingEnds b

/-- DATA_READ_COMPLETION (R163). -/
def execDataReadCompletion (what : ReadFor) (e : ReadEnd) (s : State) : Host.Outcome State Fault Refusal :=
  .next (s.after (s.readCompletes what e))

end Sys2Proof.Machine
end

