-- ==== Sys2Proof/Machine/IbpEngine.lean ====
section
/-! DEFINITION. The Ibley Bridge Protocol's requests (R388 to R397) and the management SMBus port (R536, R537).
Choices: log 51. -/

namespace Sys2Proof.Machine

/-- The engine changed. -/
def State.modIbp (s : State) (g : Ibp → Ibp) : State := s.modLan (fun x => { x with ibp := g x.ibp })

/-- The bulk endpoints of the engine carry messages: the engine runs, the host has addressed the device, and EP1 OUT is not halted
(R387, R388). -/
def State.ibpOpen (s : State) : Bool :=
  s.ibpRuns && s.lan.pullup && decide (s.lan.state = .addressed) && !(s.lanEp (epOut 1)).halted

/-- A status other than OK, or a replay, counted and recorded (R389). -/
def State.ibpErr (s : State) (type status : Nat) (seq : BitVec 16) : State :=
  s.modIbp (fun i =>
    { i with err := i.err.bump, errLast := putField type 24 8 ||| putField status 16 8 ||| seq.setWidth 32 })

/-- The bytes of a response: the type of its request plus 0x80, A0 and A1 echoed (Table 13.7). -/
def ibpResponse (type : Nat) (m : IbpMsg) (status : Nat) (poison : Bool) (data : List Byte) : List Byte :=
  ibpHeader ((type + 0x80) % 256) (if poison then 2 else 0) m.seq status data.length m.a0 m.a1 ++ data

/-- What a request answers: its status, FLAGS POISON, its payload, and the state with its effects. -/
structure IbpAnswer where
  status : Nat
  poison : Bool := false
  data : List Byte := []
  after : State

/-- A request answered OK. -/
def ibpOk (s : State) (data : List Byte) : IbpAnswer := { status := 0, data := data, after := s }

/-- A request answered with another status and no effect. -/
def ibpNo (s : State) (status : Nat) : IbpAnswer := { status := status, after := s }

/-- The answer goes out on EP1 IN; LAST_SEQ advances with it, and the copy for replays, unless the status is BAD_MESSAGE, BAD_SEQ or
BUSY (R389, R391). -/
def State.ibpSend (type : Nat) (m : IbpMsg) (a : IbpAnswer) : State :=
  let bytes := ibpResponse type m a.status a.poison a.data
  let s1 := a.after.emit (.ibp bytes)
  let s2 := if a.status = 0 then s1 else s1.ibpErr type a.status m.seq
  if a.status = 2 ∨ a.status = 3 ∨ a.status = 5 then s2 else s2.modIbp (fun i => { i with lastSeq := m.seq, last := bytes })

/-- The stored response with REPLAY set (R389). -/
def replayBytes (bs : List Byte) : List Byte :=
  match bs with
  | a :: b :: c :: rest => a :: b :: (c ||| 1) :: rest
  | _ => bs

/-- The stored response sent again; before the first response there is none. -/
def State.ibpReplay (s : State) (type : Nat) (seq : BitVec 16) : State :=
  let bs := s.lan.ibp.last
  (if bs.isEmpty then s else s.emit (.ibp (replayBytes bs))).ibpErr type 0 seq

/-- A request other than HELLO: replayed, out of sequence, or checked for its form and executed (R389). -/
def State.ibpRequest (s : State) (type : Nat) (m : IbpMsg) (form : Bool) (act : State → IbpAnswer) : State :=
  if !s.ibpOpen then s
  else if m.seq = s.lan.ibp.lastSeq then s.ibpReplay type m.seq
  else if m.seq ≠ s.lan.ibp.lastSeq + 1 then State.ibpSend type m (ibpNo s 3)
  else if !form || decide (m.flags ≠ 0) then State.ibpSend type m (ibpNo s 2)
  else State.ibpSend type m (act s)

/-- The eight dwords of the HELLO response (R390). -/
def State.helloData (s : State) : List Byte :=
  let ring := regionOf 5
  let data := regionOf 1
  ([0x00010000, putField 2 16 8 ||| putField s.ibpSubset 8 8 ||| putField s.mode.code 0 8, BitVec.ofNat 32 ring.1,
    BitVec.ofNat 32 ring.2, BitVec.ofNat 32 data.1, BitVec.ofNat 32 data.2, 4096, BitVec.ofNat 32 s.lan.ibp.fwBox] : List DWord).flatMap
    bytesOfDWord

/-- HELLO's effect (R389, R396): the device sequence restarts, and NP follows each open Event Ring's EP. -/
def State.hello (s : State) : State :=
  s.modIbp (fun i =>
    { i with devSeq := 1
             np := Vector.ofFn (fun n : Fin 4 => if (s.evRing .bridge n).opened then (s.evRing .bridge n).ep else i.np[n]) })

/-- IBP_HELLO (R389, R390): always executed; a reply that waited follows. -/
def execIbpHello (m : IbpMsg) (s : State) : Host.Outcome State Fault Refusal :=
  .next (s.after
    (if !s.ibpOpen then s
     else if m.flags ≠ 0 ∨ m.a0 ≠ 0 ∨ m.a1 ≠ 0 ∨ m.payload ≠ [] then State.ibpSend 0x01 m (ibpNo s 2)
     else (State.ibpSend 0x01 m (ibpOk s.hello s.helloData)).flushReply))

/-- A BAR0 range of `n` dwords from an offset is one that the request may name (Table 13.8). -/
def ibpRange (off n : Nat) : Bool := off % 4 == 0 && decide (1 ≤ n) && decide (n ≤ 256) && decide (off + 4 * n ≤ 0x100000)

/-- A register that REG_READ reaches in a subset (Table 13.10). -/
def ibpReads (subset off : Nat) : Bool :=
  if subset = 5 then
    decide (off < 0x2000) || (decide (0x61000 ≤ off) && decide (off < 0x61100)) || (decide (0x70400 ≤ off) && decide (off < 0x70440))
      || (decide (0x80000 ≤ off) && decide (off < 0x90000))
  else true

/-- A register that REG_WRITE reaches in a subset (Table 13.10). -/
def ibpWrites (subset off : Nat) : Bool :=
  match subset with
  | 4 => off == 0x4000 || off == 0x1000
  | 5 => false
  | _ => true

/-- The offsets of a request's dwords. -/
def ibpOffsets (off n : Nat) : List Nat := (List.range n).map (fun i => off + 4 * i)

/-- The dwords of a REG_READ (R392): single-dword reads in ascending order, or one two-dword read, which leaves the shadow slot
alone (R123, R127). -/
def State.ibpRead (s : State) (off n : Nat) : List DWord × State :=
  if n = 2 ∧ off % 8 = 0 then ((ibpOffsets off n).map (s.readPath .ibp), s)
  else
    (ibpOffsets off n).foldl (fun (a : List DWord × State) o =>
      let x := a.2.readDWord .ibp o
      (a.1 ++ [x.1], x.2)) ([], s)

/-- REG_READ in its subset. -/
def State.ibpRegRead (s : State) (m : IbpMsg) : IbpAnswer :=
  let off := m.a0.toNat
  let n := m.a1.toNat
  if !(ibpOffsets off n).all (ibpReads s.ibpSubset) then ibpNo s 1
  else
    let x := s.ibpRead off n
    ibpOk x.2 (x.1.flatMap bytesOfDWord)

/-- IBP_REG_READ (R392). -/
def execIbpRegRead (m : IbpMsg) (s : State) : Host.Outcome State Fault Refusal :=
  .next (s.after (s.ibpRequest 0x02 m (m.payload.isEmpty && ibpRange m.a0.toNat m.a1.toNat) (fun s => s.ibpRegRead m)))

/-- A payload as dwords. -/
def payloadDWords (bs : List Byte) : List DWord :=
  (List.range (bs.length / 4)).map (fun i => dwordOfBytes ((bs.drop (4 * i)).take 4))

/-- REG_WRITE in its subset: single-dword writes in order (R392). -/
def State.ibpRegWrite (s : State) (m : IbpMsg) : IbpAnswer :=
  let ds := payloadDWords m.payload
  let os := ibpOffsets m.a0.toNat ds.length
  if !os.all (ibpWrites s.ibpSubset) then ibpNo s 1
  else ibpOk ((os.zip ds).foldl (fun s x => s.registerWrite .ibp x.1 x.2) s) []

/-- IBP_REG_WRITE (R392). -/
def execIbpRegWrite (m : IbpMsg) (s : State) : Host.Outcome State Fault Refusal :=
  .next (s.after (s.ibpRequest 0x03 m
    (m.a1 == 0 && m.payload.length % 4 == 0 && ibpRange m.a0.toNat (m.payload.length / 4)) (fun s => s.ibpRegWrite m)))

/-- A Holding Store range that MEM messages reach (Table 13.10). -/
def State.ibpMem (s : State) (w n : Nat) : Bool :=
  match s.ibpSubset with
  | 1 | 2 => inRegion 5 w n
  | 3 => inRegion 5 w n || inRegion 1 w n
  | _ => false

/-- The byte count of a MEM message (Table 13.8). -/
def ibpBytes (n : Nat) : Bool := n % 2 == 0 && decide (2 ≤ n) && decide (n ≤ 4080)

/-- MEM_READ in its subset (R393). -/
def State.ibpMemRead (s : State) (m : IbpMsg) : IbpAnswer :=
  let w := m.a0.toNat
  let n := m.a1.toNat / 2
  if !s.ibpMem w n then ibpNo s 1
  else
    let x := s.hst.readWords 0x14 w n
    let bad := x.1.any Prod.snd
    { status := if bad then 4 else 0, poison := bad, data := bytesOf x.1, after := { s with hst := x.2 } }

/-- IBP_MEM_READ (R393). -/
def execIbpMemRead (m : IbpMsg) (s : State) : Host.Outcome State Fault Refusal :=
  .next (s.after (s.ibpRequest 0x04 m (m.payload.isEmpty && ibpBytes m.a1.toNat) (fun s => s.ibpMemRead m)))

/-- MEM_WRITE in its subset (R393). -/
def State.ibpMemWrite (s : State) (m : IbpMsg) : IbpAnswer :=
  let w := m.a0.toNat
  if !s.ibpMem w (m.payload.length / 2) then ibpNo s 1
  else ibpOk { s with hst := s.hst.writeBytes (2 * w) (m.payload.map (fun b => (b, false))) } []

/-- IBP_MEM_WRITE (R393). -/
def execIbpMemWrite (m : IbpMsg) (s : State) : Host.Outcome State Fault Refusal :=
  .next (s.after (s.ibpRequest 0x05 m (m.a1 == 0 && ibpBytes m.payload.length) (fun s => s.ibpMemWrite m)))

/-- One RNG_DB dword of a DOORBELL: a register write of the bridge host, which its Keyhole sees (R137, R394). -/
def State.ibpDoorbell (s : State) (d : DWord) : State := (s.keyElsewhere .bridge 0x20000).ringDoorbell .bridge d

/-- DOORBELL in its subset: its dwords in order on the bridge host's rings (R394). -/
def State.ibpDoorbells (s : State) (m : IbpMsg) : IbpAnswer :=
  if !s.ibpNotifies then ibpNo s 1
  else ibpOk ((payloadDWords m.payload).foldl State.ibpDoorbell s) []

/-- IBP_DOORBELL (R394). -/
def execIbpDoorbell (m : IbpMsg) (s : State) : Host.Outcome State Fault Refusal :=
  .next (s.after (s.ibpRequest 0x06 m
    (m.a0 == 0 && m.a1 == 0 && m.payload.length % 4 == 0 && decide (4 ≤ m.payload.length) && decide (m.payload.length ≤ 64))
    (fun s => s.ibpDoorbells m)))

/-- Payload bytes as Holding Store words. -/
def payloadWords (bs : List Byte) : List Half :=
  (List.range (bs.length / 2)).map (fun i => halfOfBytes (bs.getD (2 * i + 1) 0) (bs.getD (2 * i) 0))

/-- A message delivered to the firmware box's inbox (R397). -/
def State.deliverFw (s : State) (payload : List Byte) : State :=
  let i := s.lan.ibp
  let words := [(BitVec.ofNat 16 payload.length, false)]
  let h := (s.hst.writeWords i.fwBox words).writeWords (i.fwBox + 8) ((payloadWords payload).map (fun w => (w, false)))
  let seq := i.inSeq + 1
  let s1 := ({ s with hst := h } : State).modIbp (fun i => { i with inSeq := seq })
  if i.fwCtrEn && !s.wick then s1.decrementEngine i.fwCtr (0xE4000000 ||| seq.setWidth 32) else s1

/-- FW_MSG in its subset (R397). -/
def State.ibpFwMsg (s : State) (m : IbpMsg) : IbpAnswer :=
  if (s.ibpSubset ≠ 1 ∧ s.ibpSubset ≠ 5) ∨ s.boxOk = false then ibpNo s 1
  else if s.lan.ibp.inSeq ≠ s.lan.ibp.inAck then ibpNo s 5
  else ibpOk (s.deliverFw m.payload) []

/-- IBP_FW_MSG (R397). -/
def execIbpFwMsg (m : IbpMsg) (s : State) : Host.Outcome State Fault Refusal :=
  .next (s.after (s.ibpRequest 0x07 m
    (m.a0 == 0 && m.a1 == 0 && m.payload.length % 4 == 0 && decide (4 ≤ m.payload.length) && decide (m.payload.length ≤ 4080))
    (fun s => s.ibpFwMsg m)))

/-- IBP_BAD_MESSAGE: a message of an undefined TYPE or whose header and length do not agree is answered BAD_MESSAGE in its turn; one
longer than 4,096 bytes is, whatever its SEQ (R388, R389). -/
def execIbpBadMessage (type : BitVec 8) (m : IbpMsg) (s : State) : Host.Outcome State Fault Refusal :=
  .next (s.after
    (if s.ibpOpen && decide (4080 < m.payload.length) then State.ibpSend type.toNat m (ibpNo s 2)
     else s.ibpRequest type.toNat m false (fun s => ibpNo s 2)))

/-- The management port answers its address (R536). -/
def State.smbAnswers (s : State) : Bool := s.pathLive .smbus

/-- A transaction of the SMBus goes to another address than the port's (R53, R536); nothing of it concerns the device. -/
def State.smbOther (s : State) (adr : BitVec 7) : Bool := s.smbAddress != adr

/-- SMB_REG_READ (R53, R537): a manager BAR0 dword read as requester 0x03, or count 0 for an offset that is none. -/
def execSmbRegRead (a : SmbTarget) (s : State) : Host.Outcome State Fault Refusal :=
  .next (s.after
    (if s.smbOther a.adr then s
     else if !s.smbAnswers then s.emit .smbNoAck
     else if a.off % 4 ≠ 0 ∨ 0x0FFFFF < a.off then s.emit (.smbData none)
     else
       let x := s.readDWord .smbus a.off
       x.2.emit (.smbData (some x.1))))

/-- SMB_REG_WRITE (R118, R147, R537): acknowledged and discarded, uncounted. -/
def execSmbRegWrite (a : SmbTarget) (_v : DWord) (s : State) : Host.Outcome State Fault Refusal :=
  .next (s.after (if s.smbOther a.adr || s.smbAnswers then s else s.emit .smbNoAck))

/-- SMB_CLOCK_TIMEOUT (R536): the port's protocol state is reset; a transaction is one command here, so none is under way. -/
def execSmbClockTimeout (s : State) : Host.Outcome State Fault Refusal := .next (s.after { s with smbBusy := false })

end Sys2Proof.Machine
end

