-- ==== Sys2Proof/Machine/Dispatch.lean ====
section
/-! DEFINITION. The dispatch: one arm per command, each a direct call of its meaning. -/

namespace Sys2Proof.Machine

/-- The effect of a command on everything but the queue. -/
def exec (i : Instr) (s : State) : Host.Outcome State Fault Refusal :=
  match i with
  | .vinRise => Sys2Proof.Machine.execVinRise s
  | .vinUvloFall => Sys2Proof.Machine.execVinUvloFall s
  | .vinHighChange high => Sys2Proof.Machine.execVinHighChange high s
  | .puVbusValidRise => Sys2Proof.Machine.execPuVbusValidRise s
  | .puVbusValidFall => Sys2Proof.Machine.execPuVbusValidFall s
  | .vbiasUvlo => Sys2Proof.Machine.execVbiasUvlo s
  | .powerOnResetRelease => Sys2Proof.Machine.execPowerOnResetRelease s
  | .strapSample x y z => Sys2Proof.Machine.execStrapSample x y z s
  | .railSequenceStart => Sys2Proof.Machine.execRailSequenceStart s
  | .powerGoodRise r => Sys2Proof.Machine.execPowerGoodRise r s
  | .enableDelayExpiry => Sys2Proof.Machine.execEnableDelayExpiry s
  | .powerGoodWindowExpiry => Sys2Proof.Machine.execPowerGoodWindowExpiry s
  | .powerGoodFall r => Sys2Proof.Machine.execPowerGoodFall r s
  | .railFaultRetry => Sys2Proof.Machine.execRailFaultRetry s
  | .powerDownStep => Sys2Proof.Machine.execPowerDownStep s
  | .crystalStable cal calPu ha hb => Sys2Proof.Machine.execCrystalStable cal calPu ha hb s
  | .crystalStartTimeout => Sys2Proof.Machine.execCrystalStartTimeout s
  | .crystalStop => Sys2Proof.Machine.execCrystalStop s
  | .pllLockLoss => Sys2Proof.Machine.execPllLockLoss s
  | .resetNLow => Sys2Proof.Machine.execResetNLow s
  | .resetNRise => Sys2Proof.Machine.execResetNRise s
  | .wickOvercurrent => Sys2Proof.Machine.execWickOvercurrent s
  | .wickVinFilterExpiry ha hb => Sys2Proof.Machine.execWickVinFilterExpiry ha hb s
  | .imageBodyFetched body => Sys2Proof.Machine.execImageBodyFetched body s
  | .signatureCheckDone ok => Sys2Proof.Machine.execSignatureCheckDone ok s
  | .bootReady p => Sys2Proof.Machine.execBootReady p s
  | .initTimeout => Sys2Proof.Machine.execInitTimeout s
  | .requestStandby p => Sys2Proof.Machine.execRequestStandby p s
  | .requestLit p => Sys2Proof.Machine.execRequestLit p s
  | .requestBridge p => Sys2Proof.Machine.execRequestBridge p s
  | .requestNight p => Sys2Proof.Machine.execRequestNight p s
  | .requestSafe p => Sys2Proof.Machine.execRequestSafe p s
  | .requestRelight p => Sys2Proof.Machine.execRequestRelight p s
  | .requestUpdate p => Sys2Proof.Machine.execRequestUpdate p s
  | .modeTransitionDone ha hb => Sys2Proof.Machine.execModeTransitionDone ha hb s
  | .heartbeat k v => Sys2Proof.Machine.execHeartbeat k v s
  | .heartbeatLimitExpiry => Sys2Proof.Machine.execHeartbeatLimitExpiry s
  | .shedEntryFilterExpiry => Sys2Proof.Machine.execShedEntryFilterExpiry s
  | .shedExitFilterExpiry => Sys2Proof.Machine.execShedExitFilterExpiry s
  | .shedReqNChange high => Sys2Proof.Machine.execShedReqNChange high s
  | .nightReqNChange high => Sys2Proof.Machine.execNightReqNChange high s
  | .laneWake => Sys2Proof.Machine.execLaneWake s
  | .updChunk p v => Sys2Proof.Machine.execUpdChunk p v s
  | .updFinal p v => Sys2Proof.Machine.execUpdFinal p v s
  | .updAbandon p v => Sys2Proof.Machine.execUpdAbandon p v s
  | .updChunkProgrammed flashOk h sigOk => Sys2Proof.Machine.execUpdChunkProgrammed flashOk h sigOk s
  | .flashBusyTimeout => Sys2Proof.Machine.execFlashBusyTimeout s
  | .perstAssert l => Sys2Proof.Machine.execPerstAssert l s
  | .perstDeassert l => Sys2Proof.Machine.execPerstDeassert l s
  | .linkUp l speed width => Sys2Proof.Machine.execLinkUp l speed width s
  | .linkDown l l2 => Sys2Proof.Machine.execLinkDown l l2 s
  | .refclkLoss l => Sys2Proof.Machine.execRefclkLoss l s
  | .functionLevelReset p => Sys2Proof.Machine.execFunctionLevelReset p s
  | .vfEnableClear l => Sys2Proof.Machine.execVfEnableClear l s
  | .fairwayReset p n => Sys2Proof.Machine.execFairwayReset p n s
  | .fairwayResetEnd n pass => Sys2Proof.Machine.execFairwayResetEnd n pass s
  | .portReset p n => Sys2Proof.Machine.execPortReset p n s
  | .portResetEnd n pass mooring => Sys2Proof.Machine.execPortResetEnd n pass mooring s
  | .trst => Sys2Proof.Machine.execTrst s
  | .registerWrite p off v => Sys2Proof.Machine.execRegisterWrite p off v s
  | .shadowLowRead p x => Sys2Proof.Machine.execShadowLowRead p x s
  | .shadowHighRead p off => Sys2Proof.Machine.execShadowHighRead p off s
  | .stagedLowWrite p off v => Sys2Proof.Machine.execStagedLowWrite p off v s
  | .keeperLowWordWrite k off w bad => Sys2Proof.Machine.execKeeperLowWordWrite k off w bad s
  | .keeperHighWordWrite k off w bad => Sys2Proof.Machine.execKeeperHighWordWrite k off w bad s
  | .topFitWrite p v => Sys2Proof.Machine.execTopFitWrite p v s
  | .topLgOutWrite p v => Sys2Proof.Machine.execTopLgOutWrite p v s
  | .sealSetWrite p v => Sys2Proof.Machine.execSealSetWrite p v s
  | .keyHoleWrite p v => Sys2Proof.Machine.execKeyHoleWrite p v s
  | .keyholeExpiry r => Sys2Proof.Machine.execKeyholeExpiry r s
  | .dayCommitCapture p v => Sys2Proof.Machine.execDayCommitCapture p v s
  | .dayCommitLoad p v => Sys2Proof.Machine.execDayCommitLoad p v s
  | .captureComplete => Sys2Proof.Machine.execCaptureComplete s
  | .beaconTick env => Sys2Proof.Machine.execBeaconTick env s
  | .epochDecrement => Sys2Proof.Machine.execEpochDecrement s
  | .watchExpiry k => Sys2Proof.Machine.execWatchExpiry k s
  | .moderationExpiry f n => Sys2Proof.Machine.execModerationExpiry f n s
  | .ptmRequest l => Sys2Proof.Machine.execPtmRequest l s
  | .ptmCaptureRequest p v => Sys2Proof.Machine.execPtmCaptureRequest p v s
  | .lightListWalk t => Sys2Proof.Machine.execLightListWalk t s
  | .bulkCircuitVisit t => Sys2Proof.Machine.execBulkCircuitVisit t s
  | .doorbellProducer p v => Sys2Proof.Machine.execDoorbellProducer p v s
  | .doorbellConsumer p v => Sys2Proof.Machine.execDoorbellConsumer p v s
  | .pushWindowWrite p w v => Sys2Proof.Machine.execPushWindowWrite p w v s
  | .pushDoorbell p v => Sys2Proof.Machine.execPushDoorbell p v s
  | .ringOpen p r v => Sys2Proof.Machine.execRingOpen p r v s
  | .eventRingCfgWrite p n v => Sys2Proof.Machine.execEventRingCfgWrite p n v s
  | .ringFetchComplete f r items => Sys2Proof.Machine.execRingFetchComplete f r items s
  | .noop f => Sys2Proof.Machine.execNoop f s
  | .rebind f => Sys2Proof.Machine.execRebind f s
  | .rebindDrained f r => Sys2Proof.Machine.execRebindDrained f r s
  | .buoyHome f => Sys2Proof.Machine.execBuoyHome f s
  | .portAssign f => Sys2Proof.Machine.execPortAssign f s
  | .keeperGrant f => Sys2Proof.Machine.execKeeperGrant f s
  | .lampAdmit f => Sys2Proof.Machine.execLampAdmit f s
  | .lampRemove f => Sys2Proof.Machine.execLampRemove f s
  | .beaconSample f ns => Sys2Proof.Machine.execBeaconSample f ns s
  | .devAddress f ans => Sys2Proof.Machine.execDevAddress f ans s
  | .devHub f => Sys2Proof.Machine.execDevHub f s
  | .epConfig f => Sys2Proof.Machine.execEpConfig f s
  | .devRelease f => Sys2Proof.Machine.execDevRelease f s
  | .portCtlStatus f => Sys2Proof.Machine.execPortCtlStatus f s
  | .portCtlReset f => Sys2Proof.Machine.execPortCtlReset f s
  | .busResetSe0End n speed => Sys2Proof.Machine.execBusResetSe0End n speed s
  | .resetRecoveryEnd n => Sys2Proof.Machine.execResetRecoveryEnd n s
  | .portCtlSuspend f => Sys2Proof.Machine.execPortCtlSuspend f s
  | .suspendWaitEnd n => Sys2Proof.Machine.execSuspendWaitEnd n s
  | .portCtlResume f => Sys2Proof.Machine.execPortCtlResume f s
  | .resumeSignalEnd n => Sys2Proof.Machine.execResumeSignalEnd n s
  | .portCtlDisable f => Sys2Proof.Machine.execPortCtlDisable f s
  | .portCtlL1 f ans => Sys2Proof.Machine.execPortCtlL1 f ans s
  | .l1Exit n => Sys2Proof.Machine.execL1Exit n s
  | .pullupSeen n low => Sys2Proof.Machine.execPullupSeen n low s
  | .attachDebounceEnd n => Sys2Proof.Machine.execAttachDebounceEnd n s
  | .rootDisconnect n => Sys2Proof.Machine.execRootDisconnect n s
  | .portRemoteWake n => Sys2Proof.Machine.execPortRemoteWake n s
  | .portFail n cause => Sys2Proof.Machine.execPortFail n cause s
  | .fairwayFail fa cause => Sys2Proof.Machine.execFairwayFail fa cause s
  | .transferStart f r => Sys2Proof.Machine.execTransferStart f r s
  | .transactionEnd f r e => Sys2Proof.Machine.execTransactionEnd f r e s
  | .noopDescriptor f r => Sys2Proof.Machine.execNoopDescriptor f r s
  | .workPost f r => Sys2Proof.Machine.execWorkPost f r s
  | .dispatch => Sys2Proof.Machine.execDispatch s
  | .tndCounterLoad f => Sys2Proof.Machine.execTndCounterLoad f s
  | .tndCounterDec f => Sys2Proof.Machine.execTndCounterDec f s
  | .tndCounterFree f => Sys2Proof.Machine.execTndCounterFree f s
  | .tndCounterRead f => Sys2Proof.Machine.execTndCounterRead f s
  | .tndPost f => Sys2Proof.Machine.execTndPost f s
  | .tndCancel f => Sys2Proof.Machine.execTndCancel f s
  | .keeperPost k v => Sys2Proof.Machine.execKeeperPost k v s
  | .keeperDecrement k v => Sys2Proof.Machine.execKeeperDecrement k v s
  | .keeperFence k pipe => Sys2Proof.Machine.execKeeperFence k pipe s
  | .kprRevive p v => Sys2Proof.Machine.execKprRevive p v s
  | .reviveSelfTest pass => Sys2Proof.Machine.execReviveSelfTest pass s
  | .kprAdd k => Sys2Proof.Machine.execKprAdd k s
  | .kprSub k => Sys2Proof.Machine.execKprSub k s
  | .kprAnd k => Sys2Proof.Machine.execKprAnd k s
  | .kprOr k => Sys2Proof.Machine.execKprOr k s
  | .kprXor k => Sys2Proof.Machine.execKprXor k s
  | .kprSll k => Sys2Proof.Machine.execKprSll k s
  | .kprSrl k => Sys2Proof.Machine.execKprSrl k s
  | .kprSra k => Sys2Proof.Machine.execKprSra k s
  | .kprMul k => Sys2Proof.Machine.execKprMul k s
  | .kprMulhu k => Sys2Proof.Machine.execKprMulhu k s
  | .kprSltu k => Sys2Proof.Machine.execKprSltu k s
  | .kprSlt k => Sys2Proof.Machine.execKprSlt k s
  | .kprAddi k => Sys2Proof.Machine.execKprAddi k s
  | .kprAndi k => Sys2Proof.Machine.execKprAndi k s
  | .kprOri k => Sys2Proof.Machine.execKprOri k s
  | .kprXori k => Sys2Proof.Machine.execKprXori k s
  | .kprSlli k => Sys2Proof.Machine.execKprSlli k s
  | .kprSrli k => Sys2Proof.Machine.execKprSrli k s
  | .kprSrai k => Sys2Proof.Machine.execKprSrai k s
  | .kprMovi k => Sys2Proof.Machine.execKprMovi k s
  | .kprSltui k => Sys2Proof.Machine.execKprSltui k s
  | .kprSlti k => Sys2Proof.Machine.execKprSlti k s
  | .kprLd k => Sys2Proof.Machine.execKprLd k s
  | .kprSt k => Sys2Proof.Machine.execKprSt k s
  | .kprPost k => Sys2Proof.Machine.execKprPost k s
  | .kprBeq k => Sys2Proof.Machine.execKprBeq k s
  | .kprBne k => Sys2Proof.Machine.execKprBne k s
  | .kprBltu k => Sys2Proof.Machine.execKprBltu k s
  | .kprBgeu k => Sys2Proof.Machine.execKprBgeu k s
  | .kprBlt k => Sys2Proof.Machine.execKprBlt k s
  | .kprBge k => Sys2Proof.Machine.execKprBge k s
  | .kprJmp k => Sys2Proof.Machine.execKprJmp k s
  | .kprJr k => Sys2Proof.Machine.execKprJr k s
  | .kprCallw k => Sys2Proof.Machine.execKprCallw k s
  | .kprCallwr k => Sys2Proof.Machine.execKprCallwr k s
  | .kprBackw k => Sys2Proof.Machine.execKprBackw k s
  | .kprMovfs k => Sys2Proof.Machine.execKprMovfs k s
  | .kprMovts k => Sys2Proof.Machine.execKprMovts k s
  | .kprWget k => Sys2Proof.Machine.execKprWget k s
  | .kprWput k => Sys2Proof.Machine.execKprWput k s
  | .kprResume k => Sys2Proof.Machine.execKprResume k s
  | .kprParkw k => Sys2Proof.Machine.execKprParkw k s
  | .kprFetchw k => Sys2Proof.Machine.execKprFetchw k s
  | .kprFence k => Sys2Proof.Machine.execKprFence k s
  | .kprDma k => Sys2Proof.Machine.execKprDma k s
  | .kprDwait k => Sys2Proof.Machine.execKprDwait k s
  | .kprDone k => Sys2Proof.Machine.execKprDone k s
  | .dmaSlotComplete k slot e => Sys2Proof.Machine.execDmaSlotComplete k slot e s
  | .mailboxSend p off v => Sys2Proof.Machine.execMailboxSend p off v s
  | .mailboxAck p off v => Sys2Proof.Machine.execMailboxAck p off v s
  | .ccAttachDetect e seen => Sys2Proof.Machine.execCcAttachDetect e seen s
  | .ccDebounceExpiry e seen => Sys2Proof.Machine.execCcDebounceExpiry e seen s
  | .drpToggleExpiry e => Sys2Proof.Machine.execDrpToggleExpiry e s
  | .attachedSrcEntry e => Sys2Proof.Machine.execAttachedSrcEntry e s
  | .ccDetach e => Sys2Proof.Machine.execCcDetach e s
  | .errorRecoveryExpiry e => Sys2Proof.Machine.execErrorRecoveryExpiry e s
  | .vconnOvercurrent e => Sys2Proof.Machine.execVconnOvercurrent e s
  | .pdMessageReceived e sop hdr payload => Sys2Proof.Machine.execPdMessageReceived e sop hdr payload s
  | .hardResetReceived e => Sys2Proof.Machine.execHardResetReceived e s
  | .cableResetReceived e => Sys2Proof.Machine.execCableResetReceived e s
  | .pdTransmit p e v vbus => Sys2Proof.Machine.execPdTransmit p e v vbus s
  | .pdSendHardReset p e v => Sys2Proof.Machine.execPdSendHardReset p e v s
  | .pdSendCableReset p e v => Sys2Proof.Machine.execPdSendCableReset p e v s
  | .goodcrcTimeout e => Sys2Proof.Machine.execGoodcrcTimeout e s
  | .sinkTxWaitEnd e => Sys2Proof.Machine.execSinkTxWaitEnd e s
  | .chunkTimeout e => Sys2Proof.Machine.execChunkTimeout e s
  | .psHardResetExpiry e => Sys2Proof.Machine.execPsHardResetExpiry e s
  | .srcRecoverExpiry e => Sys2Proof.Machine.execSrcRecoverExpiry e s
  | .sinkHardResetTimeout e => Sys2Proof.Machine.execSinkHardResetTimeout e s
  | .eprKeepaliveTimeout e => Sys2Proof.Machine.execEprKeepaliveTimeout e s
  | .eprExitLimit e => Sys2Proof.Machine.execEprExitLimit e s
  | .ppsTimeout e => Sys2Proof.Machine.execPpsTimeout e s
  | .holdingPsRdy e => Sys2Proof.Machine.execHoldingPsRdy e s
  | .rxRelease p e v => Sys2Proof.Machine.execRxRelease p e v s
  | .ccpCfgWrite p e v => Sys2Proof.Machine.execCcpCfgWrite p e v s
  | .fastOvercurrent n => Sys2Proof.Machine.execFastOvercurrent n s
  | .slowOvercurrent n => Sys2Proof.Machine.execSlowOvercurrent n s
  | .overvoltageTrip n => Sys2Proof.Machine.execOvervoltageTrip n s
  | .reverseCurrentTrip n => Sys2Proof.Machine.execReverseCurrentTrip n s
  | .retryGapExpiry n => Sys2Proof.Machine.execRetryGapExpiry n s
  | .tripRunClear n => Sys2Proof.Machine.execTripRunClear n s
  | .latchClearNoPartner n => Sys2Proof.Machine.execLatchClearNoPartner n s
  | .mooringFail n cause => Sys2Proof.Machine.execMooringFail n cause s
  | .secTargetWrite p q v => Sys2Proof.Machine.execSecTargetWrite p q v s
  | .sectorRampEnd q => Sys2Proof.Machine.execSectorRampEnd q s
  | .sectorAtLevel q => Sys2Proof.Machine.execSectorAtLevel q s
  | .sectorEnable q => Sys2Proof.Machine.execSectorEnable q s
  | .sectorFault q cause => Sys2Proof.Machine.execSectorFault q cause s
  | .sectorRetryGapExpiry q => Sys2Proof.Machine.execSectorRetryGapExpiry q s
  | .shedStep => Sys2Proof.Machine.execShedStep s
  | .portPowerStatus f => Sys2Proof.Machine.execPortPowerStatus f s
  | .portPowerOff f => Sys2Proof.Machine.execPortPowerOff f s
  | .portPowerOn f => Sys2Proof.Machine.execPortPowerOn f s
  | .portPowerCycle f => Sys2Proof.Machine.execPortPowerCycle f s
  | .portMeasure f => Sys2Proof.Machine.execPortMeasure f s
  | .lanConnectWrite p v => Sys2Proof.Machine.execLanConnectWrite p v s
  | .lanternConnect => Sys2Proof.Machine.execLanternConnect s
  | .lanternDisconnect => Sys2Proof.Machine.execLanternDisconnect s
  | .lanBusReset high => Sys2Proof.Machine.execLanBusReset high s
  | .lanSetup bytes => Sys2Proof.Machine.execLanSetup bytes s
  | .lanInToken ep acked => Sys2Proof.Machine.execLanInToken ep acked s
  | .lanOutToken ep toggle bytes => Sys2Proof.Machine.execLanOutToken ep toggle bytes s
  | .lanPing ep => Sys2Proof.Machine.execLanPing ep s
  | .lanAddrWrite p v => Sys2Proof.Machine.execLanAddrWrite p v s
  | .bufferArm p n second v => Sys2Proof.Machine.execBufferArm p n second v s
  | .epEnable p n v => Sys2Proof.Machine.execEpEnable p n v s
  | .epStall p n v => Sys2Proof.Machine.execEpStall p n v s
  | .lanSuspend => Sys2Proof.Machine.execLanSuspend s
  | .lanResume => Sys2Proof.Machine.execLanResume s
  | .lanLpm link besl rwe => Sys2Proof.Machine.execLanLpm link besl rwe s
  | .lanWakeRequest p v idle => Sys2Proof.Machine.execLanWakeRequest p v idle s
  | .lanWakeEnd => Sys2Proof.Machine.execLanWakeEnd s
  | .lanSof frame offset => Sys2Proof.Machine.execLanSof frame offset s
  | .lanSofMissing => Sys2Proof.Machine.execLanSofMissing s
  | .ibpHello m => Sys2Proof.Machine.execIbpHello m s
  | .ibpRegRead m => Sys2Proof.Machine.execIbpRegRead m s
  | .ibpRegWrite m => Sys2Proof.Machine.execIbpRegWrite m s
  | .ibpMemRead m => Sys2Proof.Machine.execIbpMemRead m s
  | .ibpMemWrite m => Sys2Proof.Machine.execIbpMemWrite m s
  | .ibpDoorbell m => Sys2Proof.Machine.execIbpDoorbell m s
  | .ibpFwMsg m => Sys2Proof.Machine.execIbpFwMsg m s
  | .fwReply p v => Sys2Proof.Machine.execFwReply p v s
  | .mergeDrain row => Sys2Proof.Machine.execMergeDrain row s
  | .scrubGo p v => Sys2Proof.Machine.execScrubGo p v s
  | .scrubStop p v => Sys2Proof.Machine.execScrubStop p v s
  | .scrubRow => Sys2Proof.Machine.execScrubRow s
  | .buoyFreeze f => Sys2Proof.Machine.execBuoyFreeze f s
  | .buoyFrozen b => Sys2Proof.Machine.execBuoyFrozen b s
  | .buoyThaw f => Sys2Proof.Machine.execBuoyThaw f s
  | .buoySave f bad => Sys2Proof.Machine.execBuoySave f bad s
  | .buoyRestore f import_ => Sys2Proof.Machine.execBuoyRestore f import_ s
  | .buoyRehome f => Sys2Proof.Machine.execBuoyRehome f s
  | .logSwap f => Sys2Proof.Machine.execLogSwap f s
  | .logEnable p b v => Sys2Proof.Machine.execLogEnable p b v s
  | .logDisable p b v => Sys2Proof.Machine.execLogDisable p b v s
  | .smbRegRead a => Sys2Proof.Machine.execSmbRegRead a s
  | .smbRegWrite a v => Sys2Proof.Machine.execSmbRegWrite a v s
  | .smbClockTimeout => Sys2Proof.Machine.execSmbClockTimeout s
  | .aspmL1Entry x => Sys2Proof.Machine.execAspmL1Entry x s
  | .masteringChange p busMaster d3 => Sys2Proof.Machine.execMasteringChange p busMaster d3 s
  | .linkErrorDetected l e => Sys2Proof.Machine.execLinkErrorDetected l e s
  | .dataReadCompletion what e => Sys2Proof.Machine.execDataReadCompletion what e s
  | .ppsCurrentLimit q above => Sys2Proof.Machine.execPpsCurrentLimit q above s
  | .puVbusBadExpiry => Sys2Proof.Machine.execPuVbusBadExpiry s
  | .vbusAtVsafe0v n => Sys2Proof.Machine.execVbusAtVsafe0v n s
  | .ccRpChange e rp => Sys2Proof.Machine.execCcRpChange e rp s
  | .storeBufferDrain k => Sys2Proof.Machine.execStoreBufferDrain k s
  | .frameOutFall => Sys2Proof.Machine.execFrameOutFall s
  | .daymarkRegisterRead => Sys2Proof.Machine.execDaymarkRegisterRead s
  | .ptmDialogComplete l => Sys2Proof.Machine.execPtmDialogComplete l s
  | .ptmValidExpiry l => Sys2Proof.Machine.execPtmValidExpiry l s
  | .refclkRestore l => Sys2Proof.Machine.execRefclkRestore l s
  | .lgInputChange n high => Sys2Proof.Machine.execLgInputChange n high s
  | .sectorPgRise q => Sys2Proof.Machine.execSectorPgRise q s
  | .undefinedCommand f => Sys2Proof.Machine.execUndefinedCommand f s
  | .illegalInstruction k => Sys2Proof.Machine.execIllegalInstruction k s
  | .ibpBadMessage type m => Sys2Proof.Machine.execIbpBadMessage type m s
  | .bar2Write l addr bytes => Sys2Proof.Machine.execBar2Write l addr bytes s
  | .upset u => Sys2Proof.Machine.execUpset u s

end Sys2Proof.Machine
end

