-- ==== Sys2Proof/Safety.lean ====
section
/-! DEFINITION. The terms in which claims are made: a command that completes with an effect, a write that reaches its register, a
command that a function issues, and the states in which what follows a command leaves the Holding Store alone. -/

namespace Sys2Proof.Machine

/-- A step answers a next state: it neither stops nor is refused. -/
def SafeStep (s : State) : Prop := ∃ t, step s = .next t

/-- A command completes with an effect `u`: the next state is `u` with what every command ends with (`State.after`). -/
def Completes (c : Instr) (s u : State) : Prop := exec c s = .next (s.after u)

/-- A path brings a write to the registers of manager BAR0 as a requester (R117, R157): it is live, and it is not the SMBus port,
whose writes are refused (R118). -/
def State.Brings (s : State) (p : Path) (r : Requester) : Prop :=
  s.pathLive p = true ∧ p.reachesBar0 = true ∧ p ≠ .smbus ∧ s.requesterOf p = some r

/-- The state in which the rule of the register at an offset sees a write: the link is in L0, and the requester's Keyhole and
shadow slot have seen the write (R128, R137, R164). -/
def State.arrived (s : State) (p : Path) (r : Requester) (off : Nat) : State := ((s.arrive p).keySees p r off).dropShadow r off

/-- The state in which the rule of a guarded register acts behind an open Keyhole, which the write has closed (R135, R137). -/
def State.unlocked (s : State) (p : Path) (r : Requester) (off : Nat) : State := ((s.arrive p).dropShadow r off).setKeyhole r {}

/-- The Keyhole of a requester that a path brings stands OPEN when its write arrives (R135). -/
def State.KeyOpen (s : State) (p : Path) (r : Requester) (off : Nat) : Prop := ((s.arrive p).dropShadow r off).keyState r = .opened

/-- The head of a function's Command Ring is a command that passes the checks of R211: entry `i` holds `e` of TYPE `ty`, its tag is new,
no want of keepers ends it, and its reserved bits are zero. `s1` is the state in which its own rules act, with the entry consumed. -/
def State.Issues (s : State) (f : Func) (ty : Nat) (i : Half) (e : Entry) (s1 : State) : Prop :=
  (∃ k, s.cmdHead f = some { index := i, entry := some e, kind := k }) ∧ etype e = ty ∧ (s.fn f).tagStatus (cmdTag e) = none ∧
    s.cmdLost f ty = false ∧ cmdReservedOk e = true ∧ s1 = s.consume f 0 1

/-- A path brings a write at offset `o` of its RNG block, which holds the rings of function `f`; `s1` is the state in which the ring's
rule sees it (R154, R155). -/
def State.RingsAt (s : State) (p : Path) (f : Func) (o : Nat) (s1 : State) : Prop :=
  s.pathLive p = true ∧ p ≠ .smbus ∧
    ∃ r b, s.requesterOf p = some r ∧ r.func = some f ∧ ringPage p = some b ∧ s1 = s.arrived p r (b + o)

/-- A keeper that runs fetches the instruction `w` (R426, R441); `s1` is the state in which it acts, its line cached. -/
def State.Fetches (s : State) (k : Fin 12) (w : DWord) (s1 : State) : Prop := s.kprRuns k = true ∧ s.fetchInstr k = .word w s1

/-- A keeper's register written by an instruction that goes on to the next one (R427, R433). -/
def State.kwrite (s : State) (k : Fin 12) (c : Nat) (v : Half) : State :=
  s.modKeeper k (fun x => { x.setReg c v with pc := x.pc + 2 })

/-- A keeper goes on to the next instruction. -/
def State.kstep (s : State) (k : Fin 12) : State := s.modKeeper k (fun x => { x with pc := x.pc + 2 })

/-- A keeper goes on at an address. -/
def State.kgoto (s : State) (k : Fin 12) (a : BitVec 24) : State := s.modKeeper k (fun x => { x with pc := a })

end Sys2Proof.Machine
end

