-- ==== Sys2Proof/Certificates/Slice0/Obligations.lean ====
section
/-! DEFINITION. What the model is claimed to do: the statements for the provers, by the chapters of the spec. -/

open Sys2Proof Sys2Proof.Machine

/-- VIN_RISE, VIN_HIGH_CHANGE, PU_VBUS_VALID_RISE, RESET_N_RISE and RAIL_FAULT_RETRY complete, each with its own change of the supply
state (R64, R65, R67, R103). In WICK the rise of VIN is only timed (R73). The way up (R66, R67, R69, R77, R102): the power-on reset
releases; the straps are sampled three times, the majority is latched (R49, R111), every port is the primary manager's (R17), the bridge
strap enables the Lantern, and toward WICK PU_GATE_IN turns on; then the three rails rise one after another, each enabled when the delay
after the power-good before it has ended. PU_GATE_IN is on at the latest when the first rail is enabled. The way down (R68): EN_IO falls,
and then EN_CORE. -/
def Obligations.RailsFollowTheSupply : Prop :=
  (∀ s : State, s.wick = false →
    Completes .vinRise s { s with sup := { s.sup with vinValid := true, vbias := true, wickHold := false } }) ∧
  (∀ s : State, s.wick = true → Completes .vinRise s { s with sup := { s.sup with wickVin := true } }) ∧
  (∀ (s : State) (h : Bool), Completes (.vinHighChange h) s { s with sup := { s.sup with vinHigh := h } }) ∧
  (∀ s : State, Completes .puVbusValidRise s { s with sup := { s.sup with puValid := true, vbias := true } }) ∧
  (∀ s : State, Completes .resetNRise s { s with sup := { s.sup with resetLow := false } }) ∧
  (∀ s : State, s.mode = .dark → Completes .railFaultRetry s { s with sup := { s.sup with retry := false } }) ∧
  (∀ s : State, s.mode = .dark → s.sup.stage = .held → s.sup.present = true → s.sup.resetLow = false → s.sup.retry = false →
    s.sup.stuck = false → s.sup.wickHold = false →
    Completes .powerOnResetRelease s { s with sup := { s.sup with stage := .strapWait } }) ∧
  (∀ (s : State) (x y z : StrapSample), s.sup.stage = .strapWait →
    ∃ t, Completes (.strapSample x y z) s t ∧ t.sup = { s.sup with stage := .ready } ∧
      t.pins.strap = ((x.strap &&& y.strap) ||| (x.strap &&& z.strap) ||| (y.strap &&& z.strap)) ∧
      t.pins.testen = ((x.testen && y.testen) || (x.testen && z.testen) || (y.testen && z.testen)) ∧
      t.pins.smbAdr = (if x.adr = z.adr then x.adr.val else y.adr.val) ∧
      t.fwy = { s.fwy with owner := Vector.replicate 16 (Func.manager (Link.ofBool (bitOf t.pins.strap 0))) } ∧
      t.lan.en = (s.lan.en || bitOf t.pins.strap 1) ∧ t.pins.puGateIn = (s.pins.puGateIn || t.towardWick)) ∧
  (∀ s : State, s.sup.stage = .ready → s.sup.present = true → s.towardWick = false →
    Completes .railSequenceStart s { s with sup := { s.sup with enCore := true, stage := .waitPg .core } }) ∧
  (∀ s : State, s.sup.stage = .ready → s.sup.present = true → s.towardWick = true →
    Completes .railSequenceStart s
      { s with sup := { s.sup with enCore := true, stage := .waitPg .core }, pins := { s.pins with puGateIn := true } }) ∧
  (∀ s : State, s.sup.stage = .waitPg .core → s.sup.enCore = true →
    Completes (.powerGoodRise .core) s { s with sup := { s.sup with pgCore := true, stage := .delay .core } }) ∧
  (∀ s : State, s.sup.stage = .delay .core →
    Completes .enableDelayExpiry s { s with sup := { s.sup with enIo := true, stage := .waitPg .io } }) ∧
  (∀ s : State, s.sup.stage = .waitPg .io → s.sup.enIo = true →
    Completes (.powerGoodRise .io) s { s with sup := { s.sup with pgIo := true, stage := .delay .io } }) ∧
  (∀ s : State, s.sup.stage = .delay .io →
    Completes .enableDelayExpiry s { s with sup := { s.sup with enPhy := true, stage := .waitPg .phy } }) ∧
  (∀ s : State, s.sup.stage = .waitPg .phy → s.sup.enPhy = true →
    Completes (.powerGoodRise .phy) s { s with sup := { s.sup with pgPhy := true, stage := .crystal } }) ∧
  (∀ s : State, s.sup.stage = .downIo → s.sup.enCore = true →
    Completes .powerDownStep s { s with sup := { s.sup with enIo := false, pgIo := false, stage := .downCore } }) ∧
  (∀ s : State, s.sup.stage = .downCore →
    Completes .powerDownStep s { s with sup := { s.sup with enCore := false, pgCore := false, stage := .held } })

/-- What leads to DARK (R65, R67, R71, R73, R96, R102, R103, R541): each cause writes its code, the rail and the retry count into the
sticky record, and the device enters DARK. That an over-current in WICK holds WICK off until its supply falls is the model's reading (log
19). In DARK, whatever was before (R68, Table 3.6): the mode is DARK and EN_PHY low; the register file, the keepers, the Tender and the
rings are at their reset state, and the Holding Store in its canonical form; EN_IO is next to fall where it was high; the fuse and the
cause recorded before stay, and so do the waiting commands and what has been sent. -/
def Obligations.DarkAndItsCauses : Prop :=
  (∀ s : State, s.mode ≠ .dark → s.mode ≠ .wick → s.sup.vinValid = true →
    Completes .vinUvloFall s
      ({ s with sup := { s.sup with
          vinValid := false, wickVin := false, retry := true, cause := if s.sup.puValid then 3 else 6 } } : State).enterDark) ∧
  (∀ s : State, s.mode = .wick →
    Completes .puVbusValidFall s ({ s with sup := { s.sup with puValid := false, wickHold := false } } : State).enterDark) ∧
  (∀ s : State, s.sup.vinValid = false → ∃ t, exec .vbiasUvlo s = .next t ∧ t.mode = .dark ∧ t.sup.vbias = false ∧ t.sup.enCore = false ∧
    t.sup.enIo = false ∧ t.sup.enPhy = false ∧ t.sup.cause = 1) ∧
  (∀ (s : State) (r : Rail), s.sup.stage = .waitPg r →
    Completes .powerGoodWindowExpiry s ({ s with sup := { s.sup with
      cause := 4, rail := r.code, tries := min (s.sup.tries + 1) 3, retry := true, stuck := min (s.sup.tries + 1) 3 == 3 } } : State).enterDark) ∧
  (∀ s : State, s.sup.stage = .up → s.sup.pgIo = true →
    Completes (.powerGoodFall .io) s ({ s with sup := { s.sup with
      pgIo := false, cause := 4, rail := Rail.io.code, tries := min (s.sup.tries + 1) 3, retry := true
      stuck := min (s.sup.tries + 1) 3 == 3 } } : State).enterDark) ∧
  (∀ s : State, s.sup.stage = .crystal →
    Completes .crystalStartTimeout s ({ s with sup := { s.sup with
      cause := 4, rail := Rail.phy.code, tries := min (s.sup.tries + 1) 3, retry := true, stuck := min (s.sup.tries + 1) 3 == 3 } } : State).enterDark) ∧
  (∀ s : State, s.clk.xtalOk = true →
    Completes .crystalStop s ({ s with sup := { s.sup with
      cause := 4, rail := Rail.phy.code, tries := min (s.sup.tries + 1) 3, retry := true, stuck := min (s.sup.tries + 1) 3 == 3 } } : State).enterDark) ∧
  (∀ s : State, s.clk.pllLock = true →
    Completes .pllLockLoss s ({ s with sup := { s.sup with
      cause := 4, rail := Rail.core.code, tries := min (s.sup.tries + 1) 3, retry := true, stuck := min (s.sup.tries + 1) 3 == 3 } } : State).enterDark) ∧
  (∀ s : State, s.mode ≠ .dark →
    Completes .resetNLow s ({ s with sup := { s.sup with resetLow := true, tries := 0, stuck := false, cause := 2 } } : State).enterDark) ∧
  (∀ s : State, s.pins.puGateIn = true →
    Completes .wickOvercurrent s ({ s with sup := { s.sup with cause := 5, wickHold := !s.sup.wickVin } } : State).enterDark) ∧
  (∀ s : State,
     s.enterDark.mode = .dark ∧ s.enterDark.sup.enPhy = false ∧ s.enterDark.pending = s.pending ∧ s.enterDark.out = s.out ∧
       s.enterDark.reg = State.reset.reg ∧ s.enterDark.kpr = State.reset.kpr ∧ s.enterDark.tnd = State.reset.tnd ∧
       s.enterDark.rng = State.reset.rng ∧ s.enterDark.hst.wf = true ∧
       (s.sup.enIo = true → s.enterDark.sup.stage = .downIo) ∧ s.enterDark.sup.fuse = s.sup.fuse ∧ s.enterDark.sup.cause = s.sup.cause)

/-- CRYSTAL_STABLE ends the rail sequence (R66, R96): the supply is up, the clocks run, and the device is in SERVICE, WICK or KINDLE by
its straps and its supply (R69, Table 3.5). WICK ends when VIN has stayed valid for 10 ms (R73): VIN is valid and the device is in KINDLE.
-/
def Obligations.SequencesEndInTheirModes : Prop :=
  (∀ (s : State) (cal : BitVec 4) (pu : Bool) (ha : FlashStart) (hb : ImageHeader), s.sup.stage = .crystal →
     ∃ t, exec (.crystalStable cal pu ha hb) s = .next t ∧ t.sup = { s.sup with stage := .up, tries := 0 } ∧
       t.clk.xtalOk = true ∧ t.clk.pllLock = true ∧ t.pins.biasMissing = ~~~cal ∧ t.pins.biasPuMissing = !pu ∧
       t.mode = (if s.serviceSel then .service else if s.towardWick then .wick else .kindle)) ∧
  (∀ (s : State) (ha : FlashStart) (hb : ImageHeader), s.mode = .wick → s.sup.wickVin = true →
     ∃ t, exec (.wickVinFilterExpiry ha hb) s = .next t ∧ t.sup = { s.sup with vinValid := true, wickVin := false } ∧ t.mode = .kindle ∧
       t.pins.puGateIn = false)

/-- A request written by the primary manager is the request of SUP_MODE_REQ (R81): the writes of the codes other than UPDATE are seen by
the writer's Keyhole first (R137), and that of UPDATE acts behind an open Keyhole (R135). What a new request does (R79, R80, R81): a
refused one sets REFUSED and its reason and is not held; one that comes during a transition is held until it has ended; a SAFE request
becomes a SAFE cause, its own code telling the primary manager from firmware; and a request for NIGHT sets the NIGHT level. The mode does
not change at the write. -/
def Obligations.ModeRequestsAreJudged : Prop :=
  (∀ (s : State) (p : Path) (r : Requester), s.Brings p r → ((s.arrive p).keyConsume r 0x01000).isPrimary r = true →
    Completes (.requestStandby p) s (((s.arrive p).keyConsume r 0x01000).writeMode false 0x3) ∧
    Completes (.requestLit p) s (((s.arrive p).keyConsume r 0x01000).writeMode false 0x4) ∧
    Completes (.requestBridge p) s (((s.arrive p).keyConsume r 0x01000).writeMode false 0x5) ∧
    Completes (.requestNight p) s (((s.arrive p).keyConsume r 0x01000).writeMode false 0x6) ∧
    Completes (.requestSafe p) s (((s.arrive p).keyConsume r 0x01000).writeMode false 0x8) ∧
    Completes (.requestRelight p) s (((s.arrive p).keyConsume r 0x01000).writeMode false 0x9)) ∧
  (∀ (s : State) (p : Path) (r : Requester), s.Brings p r → s.KeyOpen p r 0x01000 → (s.unlocked p r 0x01000).isPrimary r = true →
    Completes (.requestUpdate p) s ((s.unlocked p r 0x01000).writeMode false 0xA)) ∧
  (∀ (s : State) (fw : Bool) (code : Nat), code ≠ s.md.req →
     (s.writeMode fw code).mode = s.mode ∧ (s.writeMode fw code).md.req = code ∧ (s.writeMode fw code).md.wakeSrc = 0 ∧
     (s.md.going.isSome = true → (s.writeMode fw code).md.reqHeld = decide (code ≠ 0) ∧ (s.writeMode fw code).md.refused = false) ∧
     (∀ n, s.md.going = none → s.judgeMode code = .refuse n →
       (s.writeMode fw code).md.refused = true ∧ (s.writeMode fw code).md.reason = n ∧ (s.writeMode fw code).md.reqHeld = false) ∧
     (s.md.going = none → s.judgeMode code = .go .safe → s.md.safeHeld = none →
       (s.writeMode fw code).md.safeHeld = some (if fw then 1 else 2)) ∧
     (s.md.going = none → s.judgeMode code = .go .night → (s.writeMode fw code).md.nightReg = true))

/-- The end of a transition (R75): TOP_MODE reports the new mode, PREV_MODE the old, and no transition is in progress. The heartbeat
(R82): a keeper's write is noted, and a limit reached is a SAFE cause of code 3. The board's levels (R55, R56, R65, R86): the shed filters
set and clear VIN_SAG, and LG0 to LG2 and the other balls are read after their filter. A falling edge of LG0 in its LANE_WAKE_N function
is wake source 17 (R85), and FRAME_OUT falls again. -/
def Obligations.ModesAndPinsFollow : Prop :=
  (∀ (s : State) (m : Mode) (ha : FlashStart) (hb : ImageHeader), s.md.going = some m → m ≠ .relight → m ≠ .update → m ≠ .shed → s.md.after = none →
     s.md.reqHeld = false →
     ∃ t, exec (.modeTransitionDone ha hb) s = .next t ∧ t.mode = m ∧ t.md.prev = s.mode.code ∧ t.md.going = none) ∧
  (∀ (s : State) (k : Fin 12) (v : DWord), s.pathLive (.keeper k) = true →
    Completes (.heartbeat k v) s
      ((s.arrived (.keeper k) (.keeper k) 0x01020).modMd (fun d => { d with heartbeat := v.setWidth 16, beat := true }))) ∧
  (∀ s : State, s.mode.safeFrom = true → fieldNat s.md.safeCfg 0 8 ≤ s.md.missed → s.md.safeHeld = none →
    Completes .heartbeatLimitExpiry s (s.modMd (fun d => { d with safeHeld := some 3 }))) ∧
  (∀ s : State, s.mode ≠ .dark → Completes .shedEntryFilterExpiry s (s.modMd (fun d => { d with sag := true }))) ∧
  (∀ s : State, s.shedReq = false → Completes .shedExitFilterExpiry s (s.modMd (fun d => { d with sag := false }))) ∧
  (∀ (s : State) (h : Bool), Completes (.shedReqNChange h) s (s.setLg 2 h)) ∧
  (∀ (s : State) (h : Bool), Completes (.nightReqNChange h) s (s.setLg 1 h)) ∧
  (∀ (s : State) (n : Fin 16) (h : Bool), n ≠ 0 → Completes (.lgInputChange n h) s (s.setLg n.val h)) ∧
  (∀ s : State, s.lgLevel 0 = true → s.laneWakeOn = true → Completes .laneWake s ((s.setLg 0 false).wakeSource 17)) ∧
  (∀ s : State, Completes .frameOutFall s { s with bcn := { s.bcn with frameOut := false } })

/-- UPDATE takes an image in numbered chunks (R91): a chunk with the next number that fits the slot is taken, a last chunk is marked so,
and an abandoned update leads to RELIGHT. What becomes of a chunk in hand (R91, R535): programmed, failed by the flash, or, for the last
one, checked as R88 checks a slot and committed if its sequence number is higher than the running image's. TOP_FIT and TOP_LG_OUT (R57,
R61): a write behind the FIT group's open seal clears bits and never sets one, and the general lanes follow the primary manager, the KEEP
balls alone keeper firmware. -/
def Obligations.UpdateAndTopRegisters : Prop :=
  (∀ (s s1 : State) (p : Path) (r : Requester) (v : DWord), s.Brings p r → s1 = s.arrived p r 0x01034 → s1.isPrimary r = true →
    s1.mode = .update → s1.md.going = none → s1.upd.busy = false → 1 ≤ fieldNat v 0 9 → fieldNat v 0 9 ≤ 256 →
    hiHalf v = s1.upd.lastSeq + 1 → s1.upd.kib + fieldNat v 0 9 ≤ 1024 →
    (∃ t, exec (.updChunk p v) s = .next t ∧ t.upd.busy = true ∧ t.upd.final = false ∧ t.upd.lastSeq = hiHalf v ∧ t.upd.len = fieldNat v 0 9) ∧
    (∃ t, exec (.updFinal p v) s = .next t ∧ t.upd.busy = true ∧ t.upd.final = true ∧ t.upd.lastSeq = hiHalf v ∧
      t.upd.len = fieldNat v 0 9)) ∧
  (∀ (s s1 : State) (p : Path) (r : Requester) (v : DWord), s.Brings p r → s1 = s.arrived p r 0x01034 → s1.isPrimary r = true →
    s1.mode = .update → s1.md.going = none →
    ∃ t, exec (.updAbandon p v) s = .next t ∧ t.upd.result = 8 ∧ t.upd.done = true ∧ t.upd.busy = false ∧ t.md.going = some .relight) ∧
  (∀ (s : State) (h : ImageHeader) (ok : Bool), s.upd.busy = true →
    Completes (.updChunkProgrammed false h ok) s (s.modUpd (fun u => { u with busy := false, result := 4 }))) ∧
  (∀ (s : State) (h : ImageHeader) (ok : Bool), s.upd.busy = true → s.upd.final = false →
    Completes (.updChunkProgrammed true h ok) s (s.modUpd (fun u => { u with busy := false, result := 1, kib := u.kib + u.len }))) ∧
  (∀ (s : State) (h : ImageHeader), s.upd.busy = true → s.upd.final = true → s.headerResult h false = 0 → s.kpr.imageSeq.toNat < h.seq →
    ∃ t, exec (.updChunkProgrammed true h true) s = .next t ∧ t.upd.result = 6 ∧ t.upd.done = true ∧ t.md.going = some .relight) ∧
  (∀ s : State, s.upd.busy = true → Completes .flashBusyTimeout s (s.modUpd (fun u => { u with busy := false, result := 4 }))) ∧
  (∀ (s s1 : State) (p : Path) (r : Requester) (v : DWord), s.Brings p r → s1 = s.arrived p r 0x00010 →
    (s1.isPrimary r || s1.kindleWindow r) = true → s1.isSealed 1 = false →
    ∃ t, exec (.topFitWrite p v) s = .next t ∧ t.pins.fit = fitWritten r s1.pins.fit v ∧ t.pins.fit &&& ~~~s.pins.fit = 0) ∧
  (∀ (s s1 : State) (p : Path) (r : Requester) (v : DWord), s.Brings p r → s1 = s.arrived p r 0x00028 → s1.isPrimary r = true →
    Completes (.topLgOutWrite p v) s { s1 with pins := { s1.pins with lgOut := v &&& 0xFFFF } }) ∧
  (∀ (s s1 : State) (p : Path) (r : Requester) (v : DWord), s.Brings p r → s1 = s.arrived p r 0x00028 → s1.isPrimary r = false →
    r.isKeeper = true →
    Completes (.topLgOutWrite p v) s
      { s1 with pins := { s1.pins with lgOut := (s1.pins.lgOut &&& ~~~s1.pins.lgKeep) ||| (v &&& s1.pins.lgKeep) } })

/-- The boot ROM takes a slot (R88, R454): when its body has been fetched its signature is checked; a good signature runs the init program
on KPR0 with the KIND of the boot, a bad one and the init program's time limit record their result for the slot, and the next slot is
tried, after a time limit with what the program was told of its image cleared. The end of the init program (R89, R92, R455): READY from
KPR0's program commits the Daymark reference in KINDLE and returns to the recorded mode in RELIGHT, and a captured pass that has found no
parity failure ends KINDLE in STANDBY. -/
def Obligations.BootRunsAndEnds : Prop :=
  (∀ (s : State) (k : Fin 2) (body : List Byte), s.boot.stage = .fetching k → body.length = s.boot.fetchLen k →
    ∃ t, exec (.imageBodyFetched body) s = .next t ∧ t.boot.stage = .checking k ∧ t.boot.tried = s.boot.tried) ∧
  (∀ (s : State) (k : Fin 2), s.boot.stage = .checking k → s.boot.bodyPoison = false →
    ∃ t, exec (.signatureCheckDone true) s = .next t ∧ t.boot.booted = k.val + 1 ∧ (t.keeper 0).run = .program s.boot.purpose.kind ∧
      t.kpr.bootKind = s.boot.purpose.kind) ∧
  (∀ (s : State) (k : Fin 2), s.boot.stage = .checking k →
    Completes (.signatureCheckDone false) s ((s.slotResult k 0x07).trySlot 2)) ∧
  (∀ (s u : State) (k : Fin 2), s.boot.stage = .running k → u = (s.drainStores 0).slotResult k 0x09 →
    Completes .initTimeout s
      (({ u with kpr := { u.kpr with bootKind := 0, imageSeq := 0, imageSvn := 0, imageKeySlot := 0 } } : State).trySlot 2)) ∧
  (∀ (s s1 : State) (k : Fin 2), s.pathLive (.keeper 0) = true → s1 = s.arrived (.keeper 0) (.keeper 0) 0xA0010 → s1.initRuns = true →
    s1.boot.stage = .running k → s1.boot.purpose = .kindle →
    ∃ t, exec (.bootReady (.keeper 0)) s = .next t ∧ t.kpr.bootReady = true ∧ t.boot.stage = .committing ∧ t.reg.day.capturing = true) ∧
  (∀ (s s1 : State) (k : Fin 2), s.pathLive (.keeper 0) = true → s1 = s.arrived (.keeper 0) (.keeper 0) 0xA0010 → s1.initRuns = true →
    s1.boot.stage = .running k → s1.boot.purpose = .relight →
    ∃ t, exec (.bootReady (.keeper 0)) s = .next t ∧ t.kpr.bootReady = true ∧ t.boot.stage = .idle ∧ t.md.going = some s1.md.ret) ∧
  (∀ (s : State) (p : DayPass), s.reg.day.pass = some p → s.reg.day.captured p = true → p.complete = true → p.parityAt = none → s.boot.stage = .committing →
    ∃ t, exec .captureComplete s = .next t ∧ t.mode = .standby ∧ t.boot.stage = .idle ∧ t.reg.day.capturing = false ∧
      t.reg.day.stale = false)

/-- The resets of a link (R98, R104, R151, R152): PERST_N, the loss of the data link and of the reference clock each take the link's
functions and configuration to reset; PERST_N high and a clock that is back let it train. A link that is lost (R104, R152): it is down,
and VF Enable, NumVFs and the PTM enable of its PF are at reset; the mode, the keepers and the Holding Store stay. A link trains, sleeps
and reports errors (R151, R159, R161, R162, R164). -/
def Obligations.LinksComeAndGo : Prop :=
  (∀ (s : State) (l : Link), (s.link l).perst = false →
    Completes (.perstAssert l) s ((s.loseLink l).modLink l (fun x => { x with perst := true }))) ∧
  (∀ (s : State) (l : Link), Completes (.perstDeassert l) s (s.modLink l (fun x => { x with perst := false }))) ∧
  (∀ (s : State) (l : Link), (s.link l).up = true → Completes (.linkDown l false) s (s.loseLink l)) ∧
  (∀ (s : State) (l : Link), (s.link l).up = true → (s.mode = .standby ∨ s.mode = .night) →
    Completes (.linkDown l true) s (s.modLink l (fun x => { x with up := false, l1 := false, l12 := false, l2 := true }))) ∧
  (∀ (s : State) (l : Link), (s.link l).up = true →
    Completes (.refclkLoss l) s (({ s with clk := { s.clk with refclkOk := s.clk.refclkOk.set l.idx false } } : State).loseLink l)) ∧
  (∀ (s : State) (l : Link),
    Completes (.refclkRestore l) s { s with clk := { s.clk with refclkOk := s.clk.refclkOk.set l.idx true } }) ∧
  (∀ (s : State) (l : Link),
     ((s.loseLink l).link l).up = false ∧ ((s.loseLink l).link l).vfEnable = false ∧ ((s.loseLink l).link l).numVFs = 0 ∧
       ((s.loseLink l).link l).ptmEnable = false ∧ (s.loseLink l).mode = s.mode ∧ (s.loseLink l).kpr = s.kpr ∧
       (s.loseLink l).hst = s.hst) ∧
  (∀ (s : State) (l : Link) (speed : Fin 3) (width : Bool), s.mayTrain l = true → (s.link l).up = false → (s.link l).wakeDrive = false →
    Completes (.linkUp l speed width) s
      (((s.modLink l (fun x => { x with up := true, speed := speed.val + 1, width := if width then 2 else 1, l1 := false, l12 := false,
                                        l2 := false, wakeDrive := false })).reportLtr l).resumeLink l)) ∧
  (∀ (s : State) (x : L1Entry) (d3 : Bool), (s.link x.link).up = true → d3 = (s.lnk.msix[msixIdx x.link 0 (by omega)]).d3hot →
    (d3 = true ∨ s.mayL2 = true ∧ (s.link x.link).aspmEnable = true) →
    Completes (.aspmL1Entry x) s
      (s.modLink x.link (fun y => { y with l1 := true, l12 := x.clkreq && bitOf y.cfg.l1ss1 (if d3 then 0 else 2) }))) ∧
  (∀ (s : State) (l : Link) (e : LinkErrorSeen), (s.link l).up = true →
    Completes (.linkErrorDetected l e) s (s.modLink l (fun x => x.noteError e.kind e.header))) ∧
  (∀ (s : State) (l : Link) (bm d3 : Bool), s.linkOpen l = true →
    Completes (.masteringChange (.mgrCfg l) bm d3) s ((s.wakeLink l).setMastering l 0 bm d3)) ∧
  (∀ (s : State) (l : Link) (i : Fin 15) (bm d3 : Bool), s.pathLive (.slotCfg l i) = true →
    Completes (.masteringChange (.slotCfg l i) bm d3) s ((s.wakeLink l).setMastering l ⟨i.val + 1, by omega⟩ bm false))

/-- Function-level resets (R105, R158, R183, R486): a Manager function's, a present Buoy's, an empty slot's configuration, and VF Enable
cleared, which resets every Buoy presented on the link. A function that is reset holds its function state at the reset values: no ring
open, no transfer tag in use, no held message (R105, R178, R183). -/
def Obligations.FunctionsAreReset : Prop :=
  (∀ (s : State) (l : Link), s.linkOpen l = true →
    Completes (.functionLevelReset (.mgrCfg l)) s ((s.wakeLink l).managerReset l)) ∧
  (∀ (s : State) (l : Link) (i : Fin 15), s.pathLive (.slotCfg l i) = true → s.slotState l i = 1 →
    Completes (.functionLevelReset (.slotCfg l i)) s ((s.wakeLink l).resetFunction (.buoy i))) ∧
  (∀ (s : State) (l : Link) (i : Fin 15), s.pathLive (.slotCfg l i) = true → s.slotState l i ≠ 1 →
    Completes (.functionLevelReset (.slotCfg l i)) s ((s.wakeLink l).resetSlot (msixIdx l (i.val + 1) (by omega)))) ∧
  (∀ (s : State) (l : Link), s.linkOpen l = true → (s.link l).vfEnable = true →
    Completes (.vfEnableClear l) s ((s.wakeLink l).vfClear l)) ∧
  (∀ (s : State) (f : Func), (s.resetFunction f).fn f = {} ∧ (s.resetFunction f).mode = s.mode ∧ (s.resetFunction f).kpr = s.kpr ∧
     (s.resetFunction f).hst = s.hst)

/-- Fairway and port resets asked for by the primary manager (R106, R107, R108). The self-test ends a reset (R106, R107, R302, R303): the
reset is no longer in progress, and the fairway or the port has failed exactly when its self-test did; a fairway that fails so records
cause 2. -/
def Obligations.ElementsAreReset : Prop :=
  (∀ (s s1 : State) (p : Path) (r : Requester) (n : Fin 4), s.Brings p r → s1 = s.arrived p r 0x0200C → s1.isPrimary r = true →
    s1.portResetOn n = false → (portsOf n).any (fun i => s1.portFit i) = true →
    ∃ t, exec (.fairwayReset p n) s = .next t ∧ bitOf t.clk.fwyOn n.val = true) ∧
  (∀ (s s1 : State) (p : Path) (r : Requester) (n : Fin 16), s.Brings p r → s1 = s.arrived p r 0x0200C → s1.isPrimary r = true →
    s1.portFit n = true → ∃ t, exec (.portReset p n) s = .next t ∧ bitOf t.clk.portOn n.val = true) ∧
  (∀ (s : State) (n : Fin 4) (pass : Bool), bitOf s.clk.fwyOn n.val = true →
    ∃ t, exec (.fairwayResetEnd n pass) s = .next t ∧ bitOf t.clk.fwyOn n.val = false ∧ bitOf t.clk.fwyAsked n.val = false) ∧
  (∀ (s : State) (n : Fin 4) (pass : Bool), bitOf s.clk.fwyOn n.val = true →
    Completes (.fairwayResetEnd n pass) s (s.endFairwayReset n pass) ∧
    ((s.endFairwayReset n pass).fairway n).failed = !pass ∧ ((s.endFairwayReset n pass).fairway n).resetting = false ∧
      (pass = false → ((s.endFairwayReset n pass).fairway n).failCause = 2)) ∧
  (∀ (s : State) (n : Fin 16) (pass mooring : Bool), bitOf s.clk.portOn n.val = true →
    Completes (.portResetEnd n pass mooring) s (s.endPortReset n pass mooring) ∧
    bitOf (s.endPortReset n pass mooring).clk.portOn n.val = false ∧ ((s.endPortReset n pass mooring).port n).failed = !pass)

/-- TRST_N resets the JTAG TAP controller and nothing else (R109). -/
def Obligations.TrstResetsTheTapOnly : Prop :=
  ∀ s : State, Completes .trst s { s with clk := { s.clk with tapReset := true } }

/-- Assignments by the primary manager (R170 to R173): a Buoy is homed on a link where its slot exists, ports change owner together, and a
grant replaces the one before. BAR2 (R154): in SERVICE and UPDATE the primary manager's write reaches the Holding Store with good parity.
BUOY_HOME, PORT_ASSIGN and KEEPER_GRANT from any other function complete NOT_OWNER and change nothing else (R170). -/
def Obligations.AssignmentsByThePrimary : Prop :=
  (∀ (s s1 : State) (f : Func) (i : Half) (e : Entry) (b : Fin 15) (l : Link), s.Issues f 0x20 i e s1 → s1.isPrimaryFn f = true →
    buoyParam e = some b → fieldNat e[0] 10 22 = 0 → fieldNat e[0] 4 4 = 0 → paramsZero e [1, 2, 3, 4, 5] = true →
    fieldNat e[0] 8 2 = (if l = .b then 1 else 0) → s1.slotExists l b = true → s1.linkFit l = true → (s1.buoy b).home = none →
    Completes (.buoyHome f) s
      (((s1.modBuoy b (fun x => { x with home := some l })).slotEvents b).completeCmd f i e .success 0 0)) ∧
  (∀ (s s1 : State) (f : Func) (i : Half) (e : Entry) (b : Fin 15), s.Issues f 0x20 i e s1 → s1.isPrimaryFn f = true →
    buoyParam e = some b → fieldNat e[0] 10 22 = 0 → fieldNat e[0] 4 4 = 0 → paramsZero e [1, 2, 3, 4, 5] = true →
    fieldNat e[0] 8 2 = 3 → (s1.buoy b).home.isSome = true →
    Completes (.buoyHome f) s
      ((s1.releaseBuoy b).modFn f (fun x => { x with cmd := some { tag := cmdTag e, index := i, entry := e } })) ∧
    ∀ n : Fin 16, (s1.releaseBuoy b).fwy.owner[n] = if s1.fwy.owner[n] = .buoy b then s1.primaryMf else s1.fwy.owner[n]) ∧
  (∀ (s : State) (b : Fin 15), ((s.finishRelease b).buoy b).home = none ∧ ((s.finishRelease b).buoy b).grant = 0 ∧
    (s.finishRelease b).fn (.buoy b) = {}) ∧
  (∀ (s s1 : State) (f : Func) (i : Half) (e : Entry) (o : Func), s.Issues f 0x21 i e s1 → s1.isPrimaryFn f = true → ownerParam e = some o →
    fieldNat e[0] 16 16 = 0 → e[0] ≠ 0 → fieldNat e[1] 8 24 = 0 → paramsZero e [2, 3, 4, 5] = true →
    ((List.finRange 16).filter (fun n => bitOf e[0] n.val)).isEmpty = false →
    s1.assignGone ((List.finRange 16).filter (fun n => bitOf e[0] n.val)) o = false →
    ∃ u : State, exec (.portAssign f) s = .next (s.after u) ∧ ∀ n : Fin 16, u.fwy.owner[n] = if bitOf e[0] n.val then o else s1.fwy.owner[n]) ∧
  (∀ (s s1 : State) (f : Func) (i : Half) (e : Entry) (b : Fin 15), s.Issues f 0x22 i e s1 → s1.isPrimaryFn f = true →
    buoyParam e = some b → fieldNat e[0] 4 28 = 0 → fieldNat e[1] 12 20 = 0 → paramsZero e [2, 3, 4, 5] = true →
    Completes (.keeperGrant f) s
      (((s1.modBuoy b (fun x => { x with grant := e[1].setWidth 12 })).postFnEvent (.buoy b) 0x0C (e[1] &&& 0xFFF) 0 0
        ).completeCmd f i e .success 0 0)) ∧
  (∀ (s : State) (l : Link) (addr : Nat) (bytes : List Byte), s.pathLive (.bar2 l) = true → s.bar2Open = true →
     s.isPrimary (Func.manager l).requester = true → addr + bytes.length ≤ 2 * storeWords →
     Completes (.bar2Write l addr bytes) s { s.wakeLink l with hst := s.hst.writeBytes addr (bytes.map (fun b => (b, false))) }) ∧
  (∀ (s s1 : State) (f : Func) (i : Half) (e : Entry),
     (s.Issues f 0x20 i e s1 → s1.isPrimaryFn f = false → Completes (.buoyHome f) s (s1.completeCmd f i e .notOwner 0 0)) ∧
     (s.Issues f 0x21 i e s1 → s1.isPrimaryFn f = false → Completes (.portAssign f) s (s1.completeCmd f i e .notOwner 0 0)) ∧
     (s.Issues f 0x22 i e s1 → s1.isPrimaryFn f = false → Completes (.keeperGrant f) s (s1.completeCmd f i e .notOwner 0 0)))

/-- A register write of a whole dword reaches the block that owns its offset, for the requester of its path (R117, R123, R155); a
configuration write reaches the function of its path, and a write to an MSI-X table its slot (R160). Two dwords at a multiple of 8 are
applied low first (R123). A refused write changes no register of the block it names: it is counted once, with its requester, its reason
and its offset (R123, R130, R147). A write of another width is refused wherever it lands but at the Push Window, which discards it (R202),
and no write of the SMBus port is counted (R118). That it is a write elsewhere to the Keyhole is the model's choice (log 15). -/
def Obligations.RegisterWritesAreTakenOrRefused : Prop :=
  (∀ (s : State) (p : Path) (r : Requester) (off : Nat) (v : DWord), s.Brings p r → off % 4 = 0 → off < 0x100000 → off ≠ 0x01000 →
    off ≠ 0x03000 → off ≠ 0x04000 → off ≠ 0xA0000 →
    Completes (.registerWrite p off ⟨v, none⟩) s ((s.arrived p r off).writeBar0 r off v)) ∧
  (∀ (s : State) (p : Path) (off : Nat) (v w : DWord), s.pathLive p = true → off % 8 = 0 →
    Completes (.registerWrite p off ⟨v, some w⟩) s ((s.registerWrite p off v).registerWrite p (off + 4) w)) ∧
  (∀ (s : State) (l : Link) (i : Fin 15) (off : Nat) (v : DWord), s.pathLive (.slot l i) = true → s.slotState l i = 1 → off % 4 = 0 →
    off < 0x8000 →
    Completes (.registerWrite (.slot l i) off ⟨v, none⟩) s ((s.arrived (.slot l i) (.buoy i) off).writeSlot (.buoy i) i off v)) ∧
  (∀ (s : State) (l : Link) (i : Fin 15) (off : Nat) (v : DWord), s.pathLive (.slot l i) = true → off % 4 = 0 → 0x8000 ≤ off →
    off < 0x8040 →
    Completes (.registerWrite (.slot l i) off ⟨v, none⟩) s ((s.wakeLink l).writeMsix l (i.val + 1) (by omega) (off - 0x8000) v)) ∧
  (∀ (s : State) (l : Link) (off : Nat) (v : DWord), s.pathLive (.mgrMsix l) = true → off % 4 = 0 → off < 0x40 →
    Completes (.registerWrite (.mgrMsix l) off ⟨v, none⟩) s ((s.wakeLink l).writeMsix l 0 (by omega) off v)) ∧
  (∀ (s : State) (l : Link) (off : Nat) (v : DWord), s.linkOpen l = true → off % 4 = 0 →
    Completes (.registerWrite (.mgrCfg l) off ⟨v, none⟩) s ((s.wakeLink l).writeConfig l 0 off v)) ∧
  (∀ (s : State) (l : Link) (i : Fin 15) (off : Nat) (v : DWord), s.pathLive (.slotCfg l i) = true → off % 4 = 0 →
    Completes (.registerWrite (.slotCfg l i) off ⟨v, none⟩) s ((s.wakeLink l).writeConfig l ⟨i.val + 1, by omega⟩ off v)) ∧
  (∀ (s : State) (p : Path) (r : Requester) (off : Nat) (v : DWord), s.Brings p r → off % 4 ≠ 0 → inPushWindow p off = false →
    Completes (.registerWrite p off ⟨v, none⟩) s ((s.arrived p r off).refuse r 4 off)) ∧
  (∀ (s : State) (p : Path) (r : Requester) (off : Nat) (v w : DWord), s.Brings p r → off % 8 ≠ 0 → inPushWindow p off = false →
    Completes (.registerWrite p off ⟨v, some w⟩) s ((s.arrived p r off).refuse r 4 off)) ∧
  (∀ (s : State) (p : Path) (off : Nat) (v : DWord), s.pathLive p = true → off % 4 ≠ 0 → inPushWindow p off = true →
    Completes (.registerWrite p off ⟨v, none⟩) s s) ∧
  (∀ (s : State) (r : Requester) (reason off : Nat), r ≠ .smbus →
    s.refuse r reason off =
      { s with reg := { s.reg with refuse := s.reg.refuse.bump
                                   refuseLast := putField r.code 24 8 ||| putField reason 20 4 ||| putField (off / 4 * 4) 0 20 } }) ∧
  (∀ (s : State) (reason off : Nat), s.refuse .smbus reason off = s) ∧
  (∀ (s : State) (off : Nat) (v : DWord), off ≠ 0x01000 → off ≠ 0x03000 → off ≠ 0x04000 → off ≠ 0xA0000 →
    Completes (.registerWrite .smbus off ⟨v, none⟩) s s)

/-- Registers of the sealed class (R131, R132): the requester is judged first, then the seal, and only then does the write act; it makes
the Daymark reference stale (R143). SEAL_SET (R133): the primary manager sets the bits it writes 1 and clears none; any other requester is
refused with reason 2. -/
def Obligations.SealedRegistersAreGuarded : Prop :=
  (∀ (s : State) (r : Requester) (off group : Nat) (act : State → State),
     ((s.isPrimary r || s.kindleWindow r) = false → s.sealedWrite r off group act = s.refuse r 2 off) ∧
     ((s.isPrimary r || s.kindleWindow r) = true → s.isSealed group = true → s.sealedWrite r off group act = s.refuse r 1 off) ∧
     ((s.isPrimary r || s.kindleWindow r) = true → s.isSealed group = false →
       s.sealedWrite r off group act = act (s.sealedAccepted off) ∧ (s.sealedAccepted off).reg.day.stale = true ∧
         (s.sealedAccepted off).reg.day.mismatch = false)) ∧
  (∀ (s s1 : State) (p : Path) (r : Requester) (v : DWord), s.Brings p r → s1 = s.arrived p r 0x05000 → s1.isPrimary r = true →
    ∃ t, exec (.sealSetWrite p v) s = .next t ∧ t.reg.sealSet = s.reg.sealSet ||| v.setWidth 6) ∧
  (∀ (s s1 : State) (p : Path) (r : Requester) (v : DWord), s.Brings p r → s1 = s.arrived p r 0x05000 → s1.isPrimary r = false →
    Completes (.sealSetWrite p v) s (s1.refuse r 2 0x05000))

/-- The Keyhole (R136, R137, Table 5.5): the two key values in turn open it, another value after the first re-arms it with one fault of
reason 1, a write by another requester is refused and counted in both registers with reason 2, and an opening that is not used expires
after eight ticks with reason 6. A guarded write without an open Keyhole is refused with reason 3 and is one Keyhole fault (R135). -/
def Obligations.KeyholeGuardsItsRegisters : Prop :=
  (∀ (s : State) (p : Path) (r : Requester), s.Brings p r → (s.isPrimary r = true ∨ r = .bootRom) → (s.arrive p).keyState r = .armed →
    Completes (.keyHoleWrite p 0x4B56) s ((s.arrive p).setKeyhole r { state := .half })) ∧
  (∀ (s : State) (p : Path) (r : Requester), s.Brings p r → (s.isPrimary r = true ∨ r = .bootRom) → (s.arrive p).keyState r = .half →
    Completes (.keyHoleWrite p 0xB4A9) s ((s.arrive p).setKeyhole r { state := .opened })) ∧
  (∀ (s : State) (p : Path) (r : Requester) (v : DWord), s.Brings p r → (s.isPrimary r = true ∨ r = .bootRom) →
    (s.arrive p).keyState r = .half → v ≠ 0xB4A9 → v ≠ 0x4B56 →
    Completes (.keyHoleWrite p v) s (((s.arrive p).keyFaultAt r 1 0x04000).setKeyhole r {})) ∧
  (∀ (s : State) (p : Path) (r : Requester) (v : DWord), s.Brings p r → s.isPrimary r = false → r ≠ .bootRom →
    Completes (.keyHoleWrite p v) s (((s.arrive p).refuse r 2 0x04000).keyFaultAt r 2 0x04000)) ∧
  (∀ (s : State) (r : Requester) (k : Keyhole), s.keyhole r = some k → k.state ≠ .armed → 8 ≤ k.ticks →
    Completes (.keyholeExpiry r) s ((s.keyFaultAt r 6 0x04000).setKeyhole r {})) ∧
  (∀ (s : State) (r : Requester) (off : Nat) (act : State → State), s.keyState r ≠ .opened → r ≠ .smbus →
     s.guarded r off act = ((s.refuse r 3 off).setKeyhole r {}).keyFaultAt r 3 off)

/-- DAY_COMMIT behind an open Keyhole (R142): a CAPTURE begins to wait, and with it the reference is stale and no longer mismatched (R144,
log 30), and a LOAD takes DAY_REF_IN at once, leaves the reference not stale and clears the mismatch count. A Daymark pass (R139, R141 to
R144) reads its registers one after another; a pass that is compared matches when its result is the reference and no register failed
parity, and a captured pass is the new reference, not stale, with a mismatch count of 0, and a mismatch only by a parity failure of its
own. -/
def Obligations.DaymarkChecksTheRegisters : Prop :=
  (∀ (s : State) (p : Path) (r : Requester) (v : DWord), s.Brings p r → s.KeyOpen p r 0x03000 →
    Completes (.dayCommitCapture p v) s (s.unlocked p r 0x03000).capture ∧ ∃ t, exec (.dayCommitCapture p v) s = .next t ∧ t.reg.day.capturing = true ∧
      t.reg.day.stale = true ∧ t.reg.day.mismatch = false) ∧
  (∀ (s : State) (p : Path) (r : Requester) (v : DWord), s.Brings p r → s.KeyOpen p r 0x03000 →
    Completes (.dayCommitLoad p v) s (s.unlocked p r 0x03000).loadRef ∧
    ∃ t, exec (.dayCommitLoad p v) s = .next t ∧ t.reg.day.ref = s.reg.day.refIn ∧ t.reg.day.stale = false ∧ t.reg.day.capturing = false ∧
      t.reg.day.mismatchCnt = 0) ∧
  (∀ s : State, Completes .daymarkRegisterRead s (s.modDay (fun d => { d with pass := d.pass.map s.passRead }))) ∧
  (∀ (d : Daymark) (p : DayPass), d.capturing = false → d.stale = false → p.comparable = true →
    (d.ended p).last = ~~~p.crc ∧ (d.ended p).mismatch = !(decide (~~~p.crc = d.ref) && p.parityAt.isNone) ∧
      (d.ended p).ref = d.ref ∧ (d.ended p).stale = false ∧
      (d.ended p).parity = p.parityAt.isSome ∧
      (d.ended p).mismatchCnt = if (d.ended p).mismatch then min (d.mismatchCnt + 1) 0xFF else d.mismatchCnt) ∧
  (∀ (d : Daymark) (p : DayPass), d.captured p = true →
    (d.ended p).ref = ~~~p.crc ∧ (d.ended p).stale = false ∧ (d.ended p).capturing = false ∧ (d.ended p).mismatchCnt = 0 ∧
      (d.ended p).mismatch = p.parityAt.isSome)

/-- The shadow slot (R127): a read of the low dword of a 64-bit value answers it, and the high dword read after it is the one of that
moment. A host's read of two dwords is of one instant and leaves the slot alone (R123), and a keeper and the boot ROM read by words
(R124). The low dword of a 64-bit register is staged by its writer (R129), and a keeper stages the low word of any register (R124); a word
of bad parity is refused with reason 6. A bus timeout resets the SMBus port's protocol state (R536). -/
def Obligations.RegistersAreAccessedInParts : Prop :=
  (∀ (s : State) (p : Path) (off : Nat), s.pathLive p = true → low64 p off = true → (∀ k, p ≠ .keeper k) → p ≠ .bootRom →
    s.poisonedReg off = false →
    Completes (.shadowLowRead p ⟨off, 1⟩) s ((s.readDWord p off).2.emit (.readData p off ((s.arrive p).readPath p off)))) ∧
  (∀ (s : State) (l : Link) (p : Path) (off : Nat), s.pathLive p = true → pathLink p = some l → p ≠ .bar2 l → off % 8 = 0 →
    s.poisonedReg off = false →
    Completes (.shadowLowRead p ⟨off, 2⟩) s ((s.wakeLink l).emitAll
      [.readData p off ((s.wakeLink l).readPath p off), .readData p (off + 4) ((s.wakeLink l).readPath p (off + 4))])) ∧
  (∀ (s : State) (k : Fin 12) (off : Nat), s.pathLive (.keeper k) = true → low64 (.keeper k) off = true →
    Completes (.shadowLowRead (.keeper k) ⟨off, 1⟩) s
      ((s.readWord16 k off).2.emit (.readData (.keeper k) off ((s.readWord16 k off).1.setWidth 32)))) ∧
  (∀ (s : State) (off : Nat), s.pathLive .bootRom = true → low64 .bootRom off = true →
    Completes (.shadowLowRead .bootRom ⟨off, 1⟩) s
      ((s.readWord16 0 off).2.emit (.readData .bootRom off ((s.readWord16 0 off).1.setWidth 32)))) ∧
  (∀ (s : State) (p : Path) (off : Nat), s.pathLive p = true → low64 p off = true → (∀ k, p ≠ .keeper k) → p ≠ .bootRom →
    s.poisonedReg (off + 4) = false →
    Completes (.shadowHighRead p (off + 4)) s ((s.readDWord p (off + 4)).2.emit (.readData p (off + 4) (s.readDWord p (off + 4)).1))) ∧
  (∀ (s : State) (k : Fin 12) (off : Nat), s.pathLive (.keeper k) = true → low64 (.keeper k) off = true → off % 4 = 0 →
    Completes (.shadowHighRead (.keeper k) (off + 2)) s
      ((s.readWord16 k (off + 2)).2.emit (.readData (.keeper k) (off + 2) ((s.readWord16 k (off + 2)).1.setWidth 32)))) ∧
  (∀ (s : State) (p : Path) (r : Requester) (off : Nat), s.requesterOf p = some r → (s.arrive p).requesterOf p = some r →
    low64 p off = true → low64 p (off + 4) = false → (∀ k, p ≠ .keeper k) →
    ((s.readDWord p off).2.readDWord p (off + 4)).1 = (s.arrive p).readPath p (off + 4)) ∧
  (∀ (s s1 : State) (p : Path) (r : Requester) (n : Fin 32) (v : DWord), s.Brings p r → low64 p (0x10400 + 0x10 * n.val) = true →
    s1 = s.arrived p r (0x10400 + 0x10 * n.val) → s1.isPrimary r = true → s1.isSealed 4 = false →
    Completes (.stagedLowWrite p (0x10400 + 0x10 * n.val) v) s
      ((s1.sealedAccepted (0x10400 + 0x10 * n.val)).stageLow r (0x10400 + 0x10 * n.val) (v &&& 0xFFFFF000))) ∧
  (∀ (s : State) (k : Fin 12) (off : Nat) (w : Half), s.pathLive (.keeper k) = true → off % 4 = 0 → off < 0x100000 →
    Completes (.keeperLowWordWrite k off w false) s (s.modReq (.keeper k) (fun x => { x with stagedWord := some (off, w) })) ∧
    Completes (.keeperLowWordWrite k off w true) s (s.refuse (.keeper k) 6 off) ∧
    Completes (.keeperHighWordWrite k off w true) s (s.refuse (.keeper k) 6 off)) ∧
  (∀ (s : State) (k : Fin 12) (off : Nat) (w lo : Half), s.pathLive (.keeper k) = true → off % 4 = 0 → off < 0x100000 →
    (s.reqState (.keeper k)).stagedWord = some (off, lo) →
    Completes (.keeperHighWordWrite k off w false) s
      ((s.modReq (.keeper k) (fun x => { x with stagedWord := none })).writeRegister (.keeper k) off (ofHalves w lo))) ∧
  (∀ (s : State) (k : Fin 12) (off : Nat) (w : Half), s.pathLive (.keeper k) = true → off % 4 = 0 → off < 0x100000 →
    (s.reqState (.keeper k)).stagedWord = none →
    Completes (.keeperHighWordWrite k off w false) s
      (s.writeRegister (.keeper k) off (ofHalves w (loHalf (s.readBar0 (.keeper k) off))))) ∧
  (∀ s : State, Completes .smbClockTimeout s { s with smbBusy := false })

/-- The management SMBus port reads every register of manager BAR0 at its strapped address (R53), each 64-bit value through its shadow
slot; every write it makes is refused and changes nothing; JTAG reaches the register file only in SERVICE (R118). -/
def Obligations.SmbusOnlyReads : Prop :=
  (∀ (s : State) (off : Nat), s.mode ≠ .dark → s.mode ≠ .wick → off % 4 = 0 → off < 0x100000 →
    Completes (.smbRegRead ⟨s.smbAddress, off⟩) s ((s.readDWord .smbus off).2.emit (.smbData (some (s.readDWord .smbus off).1)))) ∧
  (∀ (s : State) (off : Nat), low64 .smbus off = true ∨ off < 4 ∨ low64 .smbus (off - 4) = false →
    (s.readDWord .smbus off).1 = s.readBar0 .smbus off) ∧
  (∀ (s : State) (off : Nat) (v : DWord), s.mode ≠ .dark → s.mode ≠ .wick → Completes (.smbRegWrite ⟨s.smbAddress, off⟩ v) s s) ∧
  (∀ s : State, s.smbAddress = 0x58 + BitVec.ofNat 7 s.pins.smbAdr) ∧
  (∀ (s : State) (a : SmbTarget) (v : DWord), a.adr ≠ s.smbAddress →
    Completes (.smbRegRead a) s s ∧ Completes (.smbRegWrite a v) s s) ∧
  (∀ s : State, s.pathLive .jtag = true ↔ s.mode = .service)

/-- A Logbook (R488, R492): EN = 1 starts logging into map A when its set-up is in range and its Buoy has a home, and is refused while it
logs already (the model's choice, log 29); EN = 0 ends it. -/
def Obligations.LogbookStartsAndEnds : Prop :=
  (∀ (s s1 : State) (p : Path) (r : Requester) (b : Fin 15) (v : DWord), s.Brings p r → s1 = s.arrived p r (logCtlOff b) →
    s1.isPrimary r = true → bitOf v 31 = true → (s1.log b).logging = false → (s1.log b).inRange = true → (s1.buoy b).home.isSome = true →
    Completes (.logEnable p b v) s
      (s1.modLog b (fun x => { x with en := true, logging := true, mapB := false, dirty := [], ending := false }))) ∧
  (∀ (s s1 : State) (p : Path) (r : Requester) (b : Fin 15) (v : DWord), s.Brings p r → s1 = s.arrived p r (logCtlOff b) →
    s1.isPrimary r = true → bitOf v 31 = true → (s1.log b).logging = true → Completes (.logEnable p b v) s (s1.refuse r 2 (logCtlOff b))) ∧
  (∀ (s s1 : State) (p : Path) (r : Requester) (b : Fin 15) (v : DWord), s.Brings p r → s1 = s.arrived p r (logCtlOff b) →
    s1.isPrimary r = true → bitOf v 31 = false →
    Completes (.logDisable p b v) s (s1.modLog b (fun x => { x with en := false, fault := false, ending := x.logging })))

/-- The tick (R97, R249 to R253): where the Beacon runs, it performs Table 9.2, and BCN_COUNT counts microframes from 0 on, eight at a
time at the frame rate. Decrements, watches, messages and Keyholes that fall due outside a tick act by the same rules (R137, R219, R409,
R414). An epoch counter is decremented once in a microframe whose number is a multiple of its period (R409), and not again at the same
count. PTM (R165, R273): a request goes out only on a link in L0 whose capability is enabled, a dialog that completes makes the link's
time valid, and BCN_PTM_CTL chooses the link and the capture. -/
def Obligations.BeaconCountsAndPairs : Prop :=
  (∀ (s : State) (env : TickEnv), s.bcn.rate ≠ .stopped → Completes (.beaconTick env) s (s.tick env)) ∧
  (∀ s : State, s.countTick.bcn.count = (if s.bcn.started then s.bcn.count + (if s.bcn.rate = .frame then 8 else 1) else 0) ∧
    s.countTick.bcn.started = true) ∧
  (∀ s : State, s.tenderOn = true → s.tnd.epochAt ≠ some s.bcn.count →
    Completes .epochDecrement s
      ((s.tnd.counters.filter (fun c => c.2.epochEn && decide (c.2.state ≠ .poisoned) && s.bcn.count.toNat % 2 ^ c.2.epochExp == 0)).foldl
        (fun s1 c => (s1.decrement c.1 (0xE5000000 ||| (s.bcn.count &&& 0xFFFF))).2)
        (s.modTnd (fun t => { t with epochAt := some s.bcn.count })))) ∧
  (∀ (s : State) (k : Fin 12) (i : Nat) (x : Item), (s.keeper k).run = .item i → s.item i = some x → s.watchDue x = true →
    Completes (.watchExpiry k) s (s.endOnKeeper k .watchExpired)) ∧
  (∀ (s : State) (f : Func) (n : Fin 4), (s.evRing f n).opened = true → s.isFrozen f = false → (s.evRing f n).armed = true →
    ((s.evRing f n).actInterval = 0 ∨ (s.evRing f n).actCount ≠ 0 ∧ (s.evRing f n).actCount ≤ (s.evRing f n).sinceMsg ∨
      (s.evRing f n).tickDue = true) → s.canMaster f = true →
    Completes (.moderationExpiry f n) s (s.sendMessage f n)) ∧
  (∀ (s : State) (n : DWord), s.tnd.epochAt = some n → s.epochAt n = s) ∧
  (∀ (s : State) (l : Link), s.ptmOn l = true →
    Completes (.ptmRequest l) s { (s.emit (.ptmRequest l)) with bcn := { s.bcn with ptmAsked := s.bcn.ptmAsked.set l.idx true } }) ∧
  (∀ (s : State) (l : Link), s.ptmOn l = true → s.bcn.ptmAsked[l.idx] = true →
    Completes (.ptmDialogComplete l) s
      { s with bcn := { s.bcn with ptmAsked := s.bcn.ptmAsked.set l.idx false, ptmValid := s.bcn.ptmValid.set l.idx true } }) ∧
  (∀ (s : State) (l : Link), Completes (.ptmValidExpiry l) s { s with bcn := { s.bcn with ptmValid := s.bcn.ptmValid.set l.idx false } }) ∧
  (∀ (s s1 : State) (p : Path) (r : Requester) (v : DWord), s.Brings p r → s1 = s.arrived p r 0x30040 → s1.isPrimary r = true →
    fieldNat v 0 2 = 2 →
    Completes (.ptmCaptureRequest p v) s
      { s1 with bcn := { s1.bcn with ptmLink := Link.ofBool (bitOf v 8), ptmCapture := s1.bcn.ptmCapture || bitOf v 4, ptmMode := 2 } })

/-- A doorbell (R192 to R194): a producer index within the ring's window moves PI up to it; one outside the window is a ring fault of kind
2 and changes nothing else; a consumer index within the written events moves the host's CI and lets held events follow; a doorbell with a
reserved bit set is a ring fault of kind 1. PI never moves back (R192): an accepted index no further from CI than PI leaves PI. -/
def Obligations.DoorbellsMoveIndices : Prop :=
  (∀ (s s1 : State) (p : Path) (f : Func) (ring : Fin 65) (v : DWord), s.RingsAt p f 0 s1 → fieldNat v 8 8 = 0 →
    ringOf f (fieldNat v 0 8) = some ring → (s1.ring f ring).opened = true → idxDist (hiHalf v) (s1.ring f ring).ci ≤ 2 ^ (s1.ring f ring).size →
    Completes (.doorbellProducer p v) s (s1.modRing f ring (fun r => r.advance (hiHalf v)))) ∧
  (∀ (s s1 : State) (p : Path) (f : Func) (ring : Fin 65) (v : DWord), s.RingsAt p f 0 s1 → fieldNat v 8 8 = 0 →
    ringOf f (fieldNat v 0 8) = some ring → (s1.ring f ring).opened = true → 2 ^ (s1.ring f ring).size < idxDist (hiHalf v) (s1.ring f ring).ci →
    Completes (.doorbellProducer p v) s (s1.ringFault f ring.val 2 (hiHalf v))) ∧
  (∀ (s s1 : State) (p : Path) (f : Func) (n : Fin 4) (v : DWord), s.RingsAt p f 0 s1 → fieldNat v 8 8 = 0 →
    fieldNat v 0 8 = 0xE0 + n.val → (s1.evRing f n).opened = true →
    idxDist (hiHalf v) (s1.evRing f n).hci ≤ idxDist (s1.evRing f n).ep (s1.evRing f n).hci →
    Completes (.doorbellConsumer p v) s
      ((((s1.modEvRing f n (fun x => { x with hci := hiHalf v })).evFullUpdate f n).flushHeld f n (s1.evRing f n).held.length).flushUnservedFn f)) ∧
  (∀ (s s1 : State) (p : Path) (f : Func) (v : DWord), s.RingsAt p f 0 s1 → fieldNat v 8 8 ≠ 0 →
    Completes (.doorbellProducer p v) s (s1.ringFault f (fieldNat v 0 8) 1 (hiHalf v))) ∧
  (∀ (r : Ring) (d : BitVec 16), (r.advance d).ci = r.ci ∧
     idxDist (r.advance d).pi r.ci = max (idxDist r.pi r.ci) (idxDist d r.ci))

/-- The Push Window (R202 to R204): its dwords are the function's own, and RNG_PUSH_DB pushes entries of an open ring and moves PI; a
count of 0 or above 4 is a ring fault of kind 3. Rings are set up while they are closed (R188, R189, R219): a write with OPEN = 1 whose
fields are all in range opens the ring empty, and a set-up write to an open ring is refused with reason 2; an open Event Ring takes new
moderation only. A ring-entry read (R163, R197 to R200): an entry whose Cycle bit is that of its index is staged; one whose bit is not is
a ring fault of kind 4 and stops the reads until the next doorbell; a poisoned one is staged as such, and each poisoned completion is
counted once at the link, whatever it carries. -/
def Obligations.EntriesReachTheirRings : Prop :=
  (∀ (s s1 : State) (p : Path) (f : Func) (w : Fin 32) (v : DWord), s.RingsAt p f (0x1000 + 4 * w.val) s1 → f ≠ .bridge →
    Completes (.pushWindowWrite p w v) s (s1.modFn f (fun x => { x with push := x.push.set w v }))) ∧
  (∀ (s s1 : State) (p : Path) (f : Func) (ring : Fin 65) (v : DWord), s.RingsAt p f 4 s1 → f ≠ .bridge → fieldNat v 11 5 = 0 →
    ringOf f (fieldNat v 0 8) = some ring → (s1.ring f ring).opened = true → fieldNat v 8 3 = 1 →
    idxDist (hiHalf v) (s1.ring f ring).ci ≤ 2 ^ (s1.ring f ring).size →
    Completes (.pushDoorbell p v) s
      ((s1.modRing f ring (fun r => r.advance (hiHalf v))).holdPush f ring (hiHalf v - 1) (pushSlot (s1.fn f) 0))) ∧
  (∀ (s s1 : State) (p : Path) (f : Func) (ring : Fin 65) (v : DWord), s.RingsAt p f 4 s1 → f ≠ .bridge → fieldNat v 11 5 = 0 →
    ringOf f (fieldNat v 0 8) = some ring → (s1.ring f ring).opened = true → (fieldNat v 8 3 = 0 ∨ 4 < fieldNat v 8 3) →
    Completes (.pushDoorbell p v) s (s1.ringFault f (fieldNat v 0 8) 3 (hiHalf v))) ∧
  (∀ (s s1 : State) (p : Path) (f : Func) (r : Fin 65) (v : DWord), s.RingsAt p f (0x2008 + 0x20 * r.val) s1 → r.val ≤ lastRing f →
    (s1.ring f r).opened = false → bitOf v 31 = true → 4 ≤ fieldNat v 24 4 → fieldNat v 24 4 ≤ 12 → fieldNat v 16 2 ≤ 1 → fieldNat v 8 2 = 0 →
    baseOk f (s1.ring f r).baseLo (s1.ring f r).baseHi (fieldNat v 24 4) = true → (s1.evRing f 0).opened = true →
    Completes (.ringOpen p r v) s (s1.modRing f r (fun x =>
      { x with opened := true, size := fieldNat v 24 4, swell := fieldNat v 16 2 == 1, evt := 0, pi := 0, ci := 0, lostTo := none
               staged := [], waitDoorbell := false, spec := none }))) ∧
  (∀ (s s1 : State) (p : Path) (f : Func) (r : Fin 65) (v : DWord), s.RingsAt p f (0x2008 + 0x20 * r.val) s1 → r.val ≤ lastRing f →
    (s1.ring f r).opened = true →
    Completes (.ringOpen p r v) s (s1.refuse f.requester 2 (0x2008 + 0x20 * r.val + (ringPage p).getD 0))) ∧
  (∀ (s s1 : State) (p : Path) (f : Func) (n : Fin 4) (v : DWord), s.RingsAt p f (0x2A08 + 0x20 * n.val) s1 → (s1.evRing f n).opened = true →
    Completes (.eventRingCfgWrite p n v) s
      (s1.modEvRing f n (fun x => { x with modInterval := fieldNat v 8 8, modCount := fieldNat v 0 8 }))) ∧
  (∀ (s s1 : State) (p : Path) (f : Func) (n : Fin 4) (v : DWord), s.RingsAt p f (0x2A08 + 0x20 * n.val) s1 → f ≠ .bridge →
    (s1.evRing f n).opened = false → bitOf v 31 = true → 4 ≤ fieldNat v 24 4 → fieldNat v 24 4 ≤ 12 →
    baseOk f (s1.evRing f n).baseLo (s1.evRing f n).baseHi (fieldNat v 24 4) = true →
    Completes (.eventRingCfgWrite p n v) s ((s1.modEvRing f n (fun x =>
      { x with opened := true, size := fieldNat v 24 4, modInterval := fieldNat v 8 8, modCount := fieldNat v 0 8
               actInterval := fieldNat v 8 8, actCount := fieldNat v 0 8, ep := 0, hci := 0, ticksMsg := 0, sinceMsg := 0, tickDue := false })).restateRing f n)) ∧
  (∀ (s : State) (f : Func) (r : Fin 65) (i : Half) (e : Entry), s.mayFetch f r = true → f ≠ .bridge → (s.ring f r).wanted = some i →
    ecycle e = cycleAt (s.ring f r).size i →
    Completes (.ringFetchComplete f r [.entry e]) s (s.modRing f r (fun x => x.stage i (some e) .memory))) ∧
  (∀ (s : State) (f : Func) (r : Fin 65) (i : Half) (e : Entry), s.mayFetch f r = true → f ≠ .bridge → (s.ring f r).wanted = some i →
    ecycle e ≠ cycleAt (s.ring f r).size i →
    Completes (.ringFetchComplete f r [.entry e]) s
      ((s.ringFault f r.val 4 i).modRing f r (fun x => { x with waitDoorbell := true }))) ∧
  (∀ (s : State) (f : Func) (r : Fin 65) (i : Half), s.mayFetch f r = true → f ≠ .bridge → (s.ring f r).wanted = some i →
    Completes (.ringFetchComplete f r [.poisoned false]) s
      ((s.fnReadFault f 4 ((s.ring f r).entryAddr i)).modRing f r (fun x => x.stage i none .memory))) ∧
  (∀ (s : State) (f : Func) (r : Fin 65) (i : Half), s.mayFetch f r = true → f ≠ .bridge → (s.ring f r).wanted = some i →
    Completes (.ringFetchComplete f r [.poisoned true]) s (s.modRing f r (fun x => x.stage i none .memory)))

/-- NOOP (R213) has all parameters reserved, and completes SUCCESS with both results zero. -/
def Obligations.NoopSucceeds : Prop :=
  ∀ (s s1 : State) (f : Func) (i : Half) (e : Entry), s.Issues f 0x01 i e s1 →
    (paramsZero e [0, 1, 2, 3, 4, 5] = true → Completes (.noop f) s (s1.completeCmd f i e .success 0 0)) ∧
    (paramsZero e [0, 1, 2, 3, 4, 5] = false → Completes (.noop f) s (s1.completeCmd f i e .malformed 0 0))

/-- Command Ring entries that carry out nothing (R205, R207, R210, R211): a poisoned one completes POISONED, an undefined TYPE or ACTION
MALFORMED, and a tag still in the window of the last 32 DUPLICATE with the earlier status. REBIND (R209, R215): it parks with the drain
mark at PI and the binding it asks for, and its end comes when the ring has drained to the mark. -/
def Obligations.CommandRingEntriesEnd : Prop :=
  (∀ (s : State) (f : Func) (i : Half) (k : CopyKind), s.cmdHead f = some { index := i, entry := none, kind := k } →
    Completes (.undefinedCommand f) s ((s.consume f 0 1).postEvent f 0 (cmdEvent i 0 0 .poisoned 0 0))) ∧
  (∀ (s s1 : State) (f : Func) (i : Half) (e : Entry), s.Issues f (etype e) i e s1 → cmdDefined e = false →
    Completes (.undefinedCommand f) s (s1.completeCmd f i e .malformed 0 0)) ∧
  (∀ (s : State) (f : Func) (i : Half) (e : Entry) (k : CopyKind) (st : Nat), s.cmdHead f = some { index := i, entry := some e, kind := k } →
    etype e = 0x01 → (s.fn f).tagStatus (cmdTag e) = some st →
    Completes (.noop f) s ((s.consume f 0 1).postEvent f 0 (cmdEvent i (cmdTag e) 0x01 .duplicate (BitVec.ofNat 32 st) 0))) ∧
  (∀ (s s1 : State) (f : Func) (i : Half) (e : Entry) (ring : Fin 65), s.Issues f 0x02 i e s1 → ringOf f (fieldNat e[0] 0 8) = some ring →
    fieldNat e[0] 8 24 = 0 → e[1] &&& ~~~bindMask = 0 → paramsZero e [2, 3, 4, 5] = true → ring.val ≠ 0 → s1.carriesLamp f ring = false →
    (s1.ring f ring).rebind = none →
    ∃ u : State, exec (.rebind f) s = .next (s.after u) ∧ (u.fn f).parkedTags = (s1.fn f).parkedTags ++ [cmdTag e] ∧
      ((u.ring f ring).rebind.map (fun b => (b.tag, b.mark, b.newBind))) = some (cmdTag e, (s1.ring f ring).pi, e[1])) ∧
  (∀ (s : State) (f : Func) (ring : Fin 65) (b : Rebind), (s.ring f ring).rebind = some b → (s.ring f ring).drained b.mark = true →
    s.isHeld f = false → Completes (.rebindDrained f ring) s (s.rebindEnd f ring b))

/-- Mailboxes (R176, R177, R180): a send or an acknowledgement at the tenant's, the manager's or a Manager function's own registers is one
of that side; an accepted send delivers its payload and arrives as Table 6.7 says, any other records its RESULT and delivers nothing; an
acknowledgement of the delivered SEQ sets ACKED, and one of any other value has no effect. -/
def Obligations.MailboxesDeliver : Prop :=
  (∀ (s s1 : State) (l : Link) (b : Fin 15) (v : DWord), s.pathLive (.slot l b) = true → s.slotState l b = 1 →
    s1 = s.arrived (.slot l b) (.buoy b) 0x3040 → Completes (.mailboxSend (.slot l b) 0x3040 v) s (s1.mailboxSend (.tenant b) v)) ∧
  (∀ (s s1 : State) (p : Path) (r : Requester) (b : Fin 15) (v : DWord), s.Brings p r → s1 = s.arrived p r (0xC8040 + 0x100 * b.val) →
    s1.isPrimary r = true → Completes (.mailboxSend p (0xC8040 + 0x100 * b.val) v) s (s1.mailboxSend (.manager b) v)) ∧
  (∀ (s s1 : State) (l : Link) (b : Fin 15) (v : DWord), s.pathLive (.slot l b) = true → s.slotState l b = 1 →
    s1 = s.arrived (.slot l b) (.buoy b) 0x30C4 → Completes (.mailboxAck (.slot l b) 0x30C4 v) s (s1.mailboxAck (.tenant b) v)) ∧
  (∀ (s s1 : State) (p : Path) (r : Requester) (b : Fin 15) (v : DWord), s.Brings p r → s1 = s.arrived p r (0xC80C4 + 0x100 * b.val) →
    s1.isPrimary r = true → Completes (.mailboxAck p (0xC80C4 + 0x100 * b.val) v) s (s1.mailboxAck (.manager b) v)) ∧
  (∀ (s : State) (x : MboxSide) (v : DWord), sendResult (s.sends x) (hiHalf v) (fieldNat v 0 5) ≠ 1 →
    s.mailboxSend x v = s.modSends x (fun d =>
      { d with outSeq := v &&& 0xFFFF001F, result := sendResult (s.sends x) (hiHalf v) (fieldNat v 0 5) })) ∧
  (∀ (s : State) (x : MboxSide) (v : DWord), sendResult (s.sends x) (hiHalf v) (fieldNat v 0 5) = 1 →
    s.mailboxSend x v = (s.modSends x (fun d =>
      ({ d with outSeq := v &&& 0xFFFF001F, result := 1 } : MboxDir).delivered (hiHalf v) (fieldNat v 0 5))).mailboxArrives x (hiHalf v)) ∧
  (∀ (s s1 : State) (l : Link) (v : DWord), s.Brings (.mgr l) (Func.manager l).requester →
    s1 = s.arrived (.mgr l) (Func.manager l).requester 0xC9040 →
    Completes (.mailboxSend (.mgr l) 0xC9040 v) s (s1.mailboxSend (.cross l) v)) ∧
  (∀ (s s1 : State) (l : Link) (v : DWord), s.Brings (.mgr l) (Func.manager l).requester →
    s1 = s.arrived (.mgr l) (Func.manager l).requester 0xC90C4 →
    Completes (.mailboxAck (.mgr l) 0xC90C4 v) s (s1.mailboxAck (.cross l) v)) ∧
  (∀ (s : State) (x : MboxSide) (v : DWord),
    (loHalf v = (s.sends x.peer).inSeq → ((s.mailboxAck x v).sends x.peer).acked = (s.sends x.peer).inSeq) ∧
    (loHalf v ≠ (s.sends x.peer).inSeq → s.mailboxAck x v = s))

/-- The walk and the Bulk Circuit (R257, R268): in a microframe in which the fairway's engine works, the walk takes its next step until no
Lamp is due, and only then is a ring of the Bulk Circuit visited, in turn. LAMP_ADMIT, LAMP_REMOVE and BEACON_SAMPLE (R262, R263, R265,
R266): a new Lamp whose placement passes every limit is admitted with its number, its phase and its charge; a removal waits for the next
tick; a sample reads the Beacon count. -/
def Obligations.LampsAndWalks : Prop :=
  (∀ (s : State) (t : ServeTime), s.engineOn t.fa = true → s.bcn.walked[t.fa] = false →
    (s.walkFrom t.fa t.ns (s.walkOrder t.fa)).2 = true →
    Completes (.lightListWalk t) s (s.walkFrom t.fa t.ns (s.walkOrder t.fa)).1) ∧
  (∀ (s : State) (t : ServeTime), s.engineOn t.fa = true → s.bcn.walked[t.fa] = false → s.lamps t.fa = [] →
    Completes (.lightListWalk t) s { s with bcn := { s.bcn with walked := s.bcn.walked.set t.fa true } }) ∧
  (∀ (s : State) (t : ServeTime), s.engineOn t.fa = true → s.bcn.walked[t.fa] = true →
    Completes (.bulkCircuitVisit t) s (s.bulkFrom t.fa t.ns (s.bulkOrder t.fa))) ∧
  (∀ (s : State) (t : ServeTime), s.engineOn t.fa = true → s.bcn.walked[t.fa] = false → Completes (.bulkCircuitVisit t) s s) ∧
  (∀ (s s1 : State) (f : Func) (i : Half) (e : Entry) (ring : Fin 65) (d : DevRec) (er : EpRec) (n : Nat) (p : Placement),
    s.Issues f 0x30 i e s1 → ringOf f (fieldNat e[0] 0 8) = some ring → ring.val ≠ 0 → fieldNat e[0] 8 24 = 0 → fieldNat e[1] 28 3 = 0 →
    fieldNat e[1] 4 12 = 0 → fieldNat e[2] 16 16 = 0 → paramsZero e [3, 4, 5] = true → fieldNat e[1] 0 4 ≤ 12 → bitOf e[1] 31 = false →
    fieldNat e[1] 16 12 < 2 ^ fieldNat e[1] 0 4 → (s1.ring f ring).opened = true → s1.carriesLamp f ring = false →
    (s1.ring f ring).rebind = none → (s1.ring f ring).bound = true → (s1.ring f ring).xtype ≠ 0 → (s1.ring f ring).xtype ≠ 2 →
    s1.boundEp (s1.ring f ring) = some (d, er) → d.speed = .high → d.isSplit = false → s1.portOwner d.port = f →
    s1.lampOn (s1.ring f ring).dev (s1.ring f ring).ep (s1.ring f ring).dirIn = none → s1.freeLamp (handleFa (s1.ring f ring).dev) = some n →
    s1.choose (handleFa (s1.ring f ring).dev)
      (s1.lampFor f ring d er (fieldNat e[1] 0 4) (fieldNat e[1] 16 12) (fieldNat e[2] 0 16)) false (fieldNat e[1] 16 12) = some p →
    p.failure = none →
    ∃ x : Lamp, x.phase = p.phase ∧ x.ring = ring.val ∧ x.owner = f ∧
      Completes (.lampAdmit f) s ((s1.putLamp (handleFa (s1.ring f ring).dev) n x).completeCmd f i e .success
        (lampResult (handleFa (s1.ring f ring).dev) p.phase n) (putField p.worstBus 16 16 ||| putField x.charge 0 16))) ∧
  (∀ (s s1 : State) (f : Func) (i : Half) (e : Entry) (ring : Fin 65) (fa : Fin 4) (n : Nat) (x : Lamp), s.Issues f 0x31 i e s1 →
    ringOf f (fieldNat e[0] 0 8) = some ring → fieldNat e[0] 8 24 = 0 → paramsZero e [1, 2, 3, 4, 5] = true → ring.val ≠ 0 →
    s1.lampOf f ring = some (fa, n, x) →
    ∃ u : State, exec (.lampRemove f) s = .next (s.after u) ∧ (u.fn f).cmd = some { tag := cmdTag e, index := i, entry := e } ∧
      (assocGet (u.lamps fa) n).map (fun y => y.removing) = (assocGet (s1.lamps fa) n).map (fun y => y.removing ++ [f])) ∧
  (∀ (s s1 : State) (f : Func) (i : Half) (e : Entry) (ns : Nat), s.Issues f 0x32 i e s1 → paramsZero e [0, 1, 2, 3, 4, 5] = true →
    Completes (.beaconSample f ns) s (s1.completeCmd f i e .success s1.bcn.count (putField ns 0 20)))

/-- A transfer starts (R222, R232, R245): the head of a running ring either completes with the first status that applies, or, on a bulk or
control ring, starts when its endpoint is free, its port carries transactions and its function masters. A NOOP or WORK_POST descriptor at
the head completes SUCCESS (R230). A transaction ends (R234 to R237, R241): STALL ends the transfer with that status, and a NAK, an error,
a split error, a data packet and an acknowledgement each move the transfer by their own rule, a NAK of an isochronous endpoint as a PID
that is not allowed there; a transfer whose device has left ends GONE. The removals that waited follow (R265). Reads of transfer data
(R163, R229, R240, R243): the data of the next OUT packet is taken, a poisoned or failed read ends the transfer POISONED or DMA_ERROR, and
a LINK list with an element that R229 forbids ends it MALFORMED. -/
def Obligations.TransfersRunAndEnd : Prop :=
  (∀ (s s1 : State) (f : Func) (r : Fin 65) (l : List Staged) (st : Status) (sub : Nat), s1 = (s.flushUnserved f r).resumeParked f r →
    s1.ringRuns f r = true → (s1.ring f r).head = some l → markerSeq (l.filterMap (fun x => x.entry)) = false →
    s1.judge f r l = some (st, sub) → Completes (.transferStart f r) s (s1.completeHead f r l st sub)) ∧
  (∀ (s s1 : State) (f : Func) (r : Fin 65) (l : List Staged) (d : DevRec) (e : EpRec), s1 = (s.flushUnserved f r).resumeParked f r →
    s1.ringRuns f r = true → (s1.ring f r).head = some l → markerSeq (l.filterMap (fun x => x.entry)) = false → s1.judge f r l = none →
    s1.boundEp (s1.ring f r) = some (d, e) → (s1.ring f r).xtype % 2 = 0 → s1.canMaster f = true → s1.portCarries d.port = true →
    s1.endpointBusy f r = false → Completes (.transferStart f r) s (s1.startTransfer f r l e.maxp)) ∧
  (∀ (s s1 : State) (f : Func) (r : Fin 65) (l : List Staged), s1 = s.flushUnserved f r → s1.ringRuns f r = true →
    (s1.ring f r).head = some l → headType l = some 7 → s1.judge f r l = none →
    Completes (.noopDescriptor f r) s (s1.completeHead f r l .success 0)) ∧
  (∀ (s s1 : State) (f : Func) (r : Fin 65) (l : List Staged), s1 = s.flushUnserved f r → s1.ringRuns f r = true →
    (s1.ring f r).head = some l → headType l = some 8 → s1.judge f r l = none →
    Completes (.workPost f r) s (s1.completeHead f r l .success 0)) ∧
  (∀ (s s1 : State) (f : Func) (r : Fin 65) (t : Transfer) (d : DevRec) (ep : EpRec), (s.ring f r).cur = some t → t.onBus = true →
     s.bcn.orphans.any (fun x => x.isOf f r) = false → s1 = s.modCur f r (fun t => { t with onBus := false, split := false }) →
     (∀ sub : Nat, t.goneSub = some sub → Completes (.transactionEnd f r .stall) s (s1.endTransfer f r .gone sub).finishRemovals) ∧
     (s.boundEp (s.ring f r) = some (d, ep) → t.goneSub = none → t.disowned = false →
       Completes (.transactionEnd f r .stall) s (s1.endTransfer f r .stall 0).finishRemovals ∧
       ((s.ring f r).xtype ≠ 1 → Completes (.transactionEnd f r .nak) s (s1.nakked f r).finishRemovals) ∧
       ((s.ring f r).xtype = 1 → Completes (.transactionEnd f r .nak) s (s1.xactError f r t .xactError 4).finishRemovals) ∧
       (∀ k : Fin 4, Completes (.transactionEnd f r (.error k)) s (s1.xactError f r t .xactError (k.val + 1)).finishRemovals) ∧
       (∀ k : Fin 3, Completes (.transactionEnd f r (.splitErr k)) s (s1.xactError f r t .splitError (k.val + 1)).finishRemovals) ∧
       (∀ (bytes : List Byte) (toggle : Bool) (bad : List Nat), t.tokenIn (s.ring f r) = true → d.isSplit = false →
         Completes (.transactionEnd f r (.data bytes toggle bad)) s (s1.dataIn f r t ep bytes toggle bad).finishRemovals) ∧
       (t.tokenIn (s.ring f r) = false → ep.ping = false → d.isSplit = false →
         Completes (.transactionEnd f r .ack) s (s1.dataOut f r t ep false).finishRemovals))) ∧
  (∀ (s : State) (f : Func) (r : Fin 65) (t : Transfer) (d : DevRec) (ep : EpRec), (s.ring f r).cur = some t →
    s.boundEp (s.ring f r) = some (d, ep) → f ≠ .bridge → t.stage = .data → t.asked = true → t.outData = none → s.canMaster f = true →
    (∀ bytes : List Byte, bytes.length = t.packetLen ep.maxp →
      Completes (.dataReadCompletion (.outData f r) (.data bytes [])) s
        (s.modCur f r (fun t => { t with outData := some (bytes, false) }))) ∧
    (∃ a : QWord, Completes (.dataReadCompletion (.outData f r) .poisoned) s ((s.fnReadFault f 4 a).endTransfer f r .poisoned 3))) ∧
  (∀ (s : State) (f : Func) (r : Fin 65) (t : Transfer) (d : DevRec) (ep : EpRec) (x : Entry) (rest : List Entry) (bytes : List Byte),
    (s.ring f r).cur = some t → s.boundEp (s.ring f r) = some (d, ep) → f ≠ .bridge → s.canMaster f = true → t.stage = .lists →
    t.asked = true → t.todo = x :: rest → listElements false bytes (fieldNat x[2] 0 7) = none →
    Completes (.dataReadCompletion (.linkList f r) (.data bytes [])) s (s.endTransfer f r .malformed 0))

/-- TND_COUNTER (R407, R421): a function that may decrement a counter loads, decrements, frees and reads it; the answer holds the
counter's view, its owner and the OUTCOME, and any other function gets NOT_OWNER. TND_POST and TND_CANCEL (R421): a post answers its item
number and OUTCOME, and a WAITING or READY item of the issuer that carries the named tag is freed. -/
def Obligations.CountersAndItemsAreCommanded : Prop :=
  (∀ (s s1 : State) (f : Func) (i : Half) (e : Entry), s.Issues f 0x40 i e s1 → fieldNat e[0] 28 4 = 1 → counterParamsOk e = true →
    s1.mayDecrement f (ctrParam e) = true → s1.waitingLinked (ctrParam e) = false →
    Completes (.tndCounterLoad f) s (State.cmdEnd f i e ((s1.counterLoad f (ctrParam e) e[1]).counterAnswer (ctrParam e) 0))) ∧
  (∀ (s s1 : State) (f : Func) (i : Half) (e : Entry), s.Issues f 0x40 i e s1 → fieldNat e[0] 28 4 = 2 → counterParamsOk e = true →
    s1.mayDecrement f (ctrParam e) = true →
    Completes (.tndCounterDec f) s (State.cmdEnd f i e
      ((s1.decrementBy f (ctrParam e) e[1]).2.counterAnswer (ctrParam e) (s1.decrementBy f (ctrParam e) e[1]).1))) ∧
  (∀ (s s1 : State) (f : Func) (i : Half) (e : Entry), s.Issues f 0x40 i e s1 → fieldNat e[0] 28 4 = 3 → counterParamsOk e = true →
    s1.mayDecrement f (ctrParam e) = true → s1.waitingLinked (ctrParam e) = false →
    Completes (.tndCounterFree f) s (State.cmdEnd f i e ((s1.counterFree (ctrParam e)).counterAnswer (ctrParam e) 0))) ∧
  (∀ (s : State) (c : Nat), keysRise (s.tnd.counters.map Prod.fst) = true → (s.counterFree c).ctr c = none) ∧
  (∀ (s s1 : State) (f : Func) (i : Half) (e : Entry), s.Issues f 0x40 i e s1 → fieldNat e[0] 28 4 = 4 → counterParamsOk e = true →
    s1.mayDecrement f (ctrParam e) = true → Completes (.tndCounterRead f) s (State.cmdEnd f i e (s1.counterAnswer (ctrParam e) 0))) ∧
  (∀ (s s1 : State) (f : Func) (i : Half) (e : Entry), s.Issues f 0x40 i e s1 → fieldNat e[0] 28 4 = 4 → counterParamsOk e = true →
    s1.mayDecrement f (ctrParam e) = false → Completes (.tndCounterRead f) s (s1.completeCmd f i e .notOwner 0 0)) ∧
  (∀ (s s1 : State) (f : Func) (i : Half) (e : Entry), s.Issues f 0x41 i e s1 → (s1.postItem f (descriptorOf e)).1.status = .success →
    Completes (.tndPost f) s ((s1.postItem f (descriptorOf e)).2.completeCmd f i e .success
      (putField (s1.postItem f (descriptorOf e)).1.item 0 12) (putField (s1.postItem f (descriptorOf e)).1.outcome 0 8))) ∧
  (∀ (s s1 : State) (f : Func) (i : Half) (e : Entry) (x : Item), s.Issues f 0x42 i e s1 → fieldNat e[0] 12 20 = 0 →
    paramsZero e [2, 3, 4, 5] = true → s1.item (fieldNat e[0] 0 12) = some x → x.owner = f → x.tag = e[1] → x.state ≠ .running →
    Completes (.tndCancel f) s ((s1.freeItem (fieldNat e[0] 0 12)).completeCmd f i e .success 0 0)) ∧
  (∀ (s s1 : State) (f : Func) (i : Half) (e : Entry) (x : Item), s.Issues f 0x42 i e s1 → fieldNat e[0] 12 20 = 0 →
    paramsZero e [2, 3, 4, 5] = true → s1.item (fieldNat e[0] 0 12) = some x → x.owner ≠ f → s1.isPrimaryFn f = false →
    Completes (.tndCancel f) s (s1.completeCmd f i e .notOwner 0 0))

/-- Keeper firmware posts and decrements for the owner of its item (R24, R408, R422): with the owner's grant the post's answer stands in
its result register, and a decrement without an item decrements nothing and is a Tender fault of kind 2. The Tender dispatches the first
ready item that an idle keeper may run (R411, R442), and an item whose record fails parity ends POISONED (R419). Fences and revives (R416,
R418): a keeper whose register file or pipeline fails parity is fenced, the primary manager revives one behind its Keyhole, and the
self-test decides. -/
def Obligations.KeepersAndTheTender : Prop :=
  (∀ (s s1 : State) (k : Fin 12) (v : DWord) (f : Func), s.pathLive (.keeper k) = true →
    s1 = s.arrived (.keeper k) (.keeper k) 0x90218 → descriptorOk (s1.tnd.kpost[k]).post = true → s1.keeperOwner k = some f →
    s1.granted k f = true → (s1.postItem f (s1.tnd.kpost[k]).post).1.status = .success →
    (s1.postItem f (s1.tnd.kpost[k]).post).1.outcome = 0 →
    Completes (.keeperPost k v) s ((s1.postItem f (s1.tnd.kpost[k]).post).2.modKpost k (fun x =>
      { x with result := putField Status.success.code 24 8 ||| putField 0 16 8 |||
                          putField (s1.postItem f (s1.tnd.kpost[k]).post).1.item 0 12 }))) ∧
  (∀ (s s1 : State) (k : Fin 12) (v : DWord) (f : Func), s.pathLive (.keeper k) = true →
    s1 = s.arrived (.keeper k) (.keeper k) 0x90224 → 0x40 ≤ fieldNat (s1.tnd.kpost[k]).decTag 24 8 →
    fieldNat (s1.tnd.kpost[k]).decTag 24 8 ≤ 0xDF → s1.keeperOwner k = some f → s1.granted k f = true →
    Completes (.keeperDecrement k v) s (s1.decrementBy f (fieldNat v 0 11) (s1.tnd.kpost[k]).decTag).2) ∧
  (∀ (s s1 : State) (k : Fin 12) (v : DWord), s.pathLive (.keeper k) = true → s1 = s.arrived (.keeper k) (.keeper k) 0x90224 →
    0x40 ≤ fieldNat (s1.tnd.kpost[k]).decTag 24 8 → fieldNat (s1.tnd.kpost[k]).decTag 24 8 ≤ 0xDF → s1.keeperOwner k = none →
    Completes (.keeperDecrement k v) s (s1.tndFault 2 (fieldNat v 0 11) (fieldNat (s1.tnd.kpost[k]).decTag 24 8))) ∧
  (∀ (s : State) (i : Nat) (k : Fin 12) (x : Item), s.tenderOn = true → s.nextDispatch = some (i, k) → s.item i = some x → x.badHead = false →
    x.badBody = false → Completes .dispatch s (s.startItem i k)) ∧
  (∀ (s : State) (i : Nat) (k : Fin 12) (x : Item), s.tenderOn = true → s.nextDispatch = some (i, k) → s.item i = some x → x.badHead = false →
    x.badBody = true → Completes .dispatch s (s.endItem i .poisoned)) ∧
  (∀ (s : State) (i : Nat) (k : Fin 12) (x : Item), s.item i = some x →
    ((s.startItem i k).keeper k).run = .item i ∧ ((s.startItem i k).keeper k).trapped = false ∧
      ((s.startItem i k).keeper k).held = 1 ∧ ((s.startItem i k).keeper k).storeBuf = []) ∧
  (∀ (s : State) (k : Fin 12) (pipe : Bool), s.cdRuns (39 + k.val) = true →
    Completes (.keeperFence k pipe) s (s.fence k (if pipe then 2 else 1))) ∧
  (∀ (s : State) (k : Fin 12) (c : Nat), (s.keeper k).fenced = false → ((s.fence k c).keeper k).fenced = true) ∧
  (∀ (s s1 : State) (p : Path) (r : Requester) (v : DWord) (k : Fin 12), s.Brings p r → s.KeyOpen p r 0xA0000 →
    s1 = s.unlocked p r 0xA0000 → s1.isPrimary r = true → fieldNat v 0 4 = k.val → (s1.keeper k).fenced = true →
    s1.tnd.revivePending = false →
    Completes (.kprRevive p v) s (s1.modTnd (fun t => { t with revivePending := true, reviveKeeper := k.val }))) ∧
  (∀ (s : State) (k : Fin 12), s.tnd.revivePending = true → s.tnd.reviveKeeper = k.val → s.reviveClock k = true →
    Completes (.reviveSelfTest true) s ((s.modTnd (fun t => { t with revivePending := false })).unfence k) ∧
    Completes (.reviveSelfTest false) s
      ((s.modTnd (fun t => { t with revivePending := false })).modTnd (fun t =>
        { t with fenceLast := putField 3 28 4 ||| putField k.val 24 4 ||| putField s.bcn.count.toNat 0 16 })))

/-- The register and immediate instructions (R427, R433): the destination register holds the result, G0 stays zero, and the keeper goes on
two words further; nothing else changes. -/
def Obligations.KeeperArithmetic : Prop :=
  (∀ (s s1 : State) (k : Fin 12) (w : DWord) (a b : Half), s.Fetches k w s1 → kOp w = 0x01 → fieldNat w 0 6 = 0 → kA w < 0x18 → kB w < 0x18 →
    kC w < 0x18 → a = (s1.keeper k).reg (kB w) → b = (s1.keeper k).reg (kC w) →
    (kFn w = 0x00 → Completes (.kprAdd k) s (s1.kwrite k (kA w) (a + b))) ∧
    (kFn w = 0x01 → Completes (.kprSub k) s (s1.kwrite k (kA w) (a - b))) ∧
    (kFn w = 0x02 → Completes (.kprAnd k) s (s1.kwrite k (kA w) (a &&& b))) ∧
    (kFn w = 0x03 → Completes (.kprOr k) s (s1.kwrite k (kA w) (a ||| b))) ∧
    (kFn w = 0x04 → Completes (.kprXor k) s (s1.kwrite k (kA w) (a ^^^ b))) ∧
    (kFn w = 0x05 → Completes (.kprSll k) s (s1.kwrite k (kA w) (a <<< fieldNat b 0 4))) ∧
    (kFn w = 0x06 → Completes (.kprSrl k) s (s1.kwrite k (kA w) (a >>> fieldNat b 0 4))) ∧
    (kFn w = 0x07 → Completes (.kprSra k) s (s1.kwrite k (kA w) (a.sshiftRight (fieldNat b 0 4)))) ∧
    (kFn w = 0x08 → Completes (.kprMul k) s (s1.kwrite k (kA w) (a * b))) ∧
    (kFn w = 0x09 → Completes (.kprMulhu k) s (s1.kwrite k (kA w) (BitVec.ofNat 16 (a.toNat * b.toNat / 65536)))) ∧
    (kFn w = 0x0A → Completes (.kprSltu k) s (s1.kwrite k (kA w) (if a.toNat < b.toNat then 1 else 0))) ∧
    (kFn w = 0x0B → Completes (.kprSlt k) s (s1.kwrite k (kA w) (if a.toInt < b.toInt then 1 else 0)))) ∧
  (∀ (s s1 : State) (k : Fin 12) (w : DWord) (a : Half), s.Fetches k w s1 → kA w < 0x18 → kB w < 0x18 → a = (s1.keeper k).reg (kB w) →
    (kOp w = 0x02 → Completes (.kprAddi k) s (s1.kwrite k (kA w) (a + kImm w))) ∧
    (kOp w = 0x03 → Completes (.kprAndi k) s (s1.kwrite k (kA w) (a &&& kImm w))) ∧
    (kOp w = 0x04 → Completes (.kprOri k) s (s1.kwrite k (kA w) (a ||| kImm w))) ∧
    (kOp w = 0x05 → Completes (.kprXori k) s (s1.kwrite k (kA w) (a ^^^ kImm w))) ∧
    (kOp w = 0x06 → fieldNat w 4 12 = 0 → Completes (.kprSlli k) s (s1.kwrite k (kA w) (a <<< fieldNat w 0 4))) ∧
    (kOp w = 0x07 → fieldNat w 4 12 = 0 → Completes (.kprSrli k) s (s1.kwrite k (kA w) (a >>> fieldNat w 0 4))) ∧
    (kOp w = 0x08 → fieldNat w 4 12 = 0 → Completes (.kprSrai k) s (s1.kwrite k (kA w) (a.sshiftRight (fieldNat w 0 4)))) ∧
    (kOp w = 0x09 → kB w = 0 → Completes (.kprMovi k) s (s1.kwrite k (kA w) (kImm w))) ∧
    (kOp w = 0x0A → Completes (.kprSltui k) s (s1.kwrite k (kA w) (if a.toNat < (kImm w).toNat then 1 else 0))) ∧
    (kOp w = 0x0B → Completes (.kprSlti k) s (s1.kwrite k (kA w) (if a.toInt < (kImm w).toInt then 1 else 0)))) ∧
  (∀ (x : Keeper) (v : Half), (x.setReg 0 v).reg 0 = 0 ∧ x.setReg 0 v = x)

/-- An instruction with a reserved bit set or an undefined register code traps ILLEGAL_INSTRUCTION (R433, Table 15.8); so does an opcode
that Table 15.5 does not list, and an instruction that cannot be fetched traps as it says. -/
def Obligations.IllegalInstructionsTrap : Prop :=
  (∀ (s s1 : State) (k : Fin 12) (w : DWord), s.Fetches k w s1 → kOp w = 0x01 → kFn w = 0x00 →
    (fieldNat w 0 6 ≠ 0 ∨ 0x18 ≤ kA w ∨ 0x18 ≤ kB w ∨ 0x18 ≤ kC w) → Completes (.kprAdd k) s (s1.takeTrap k 0x03 0)) ∧
  (∀ (s s1 : State) (k : Fin 12) (w : DWord), s.Fetches k w s1 → opListed w = false →
    Completes (.illegalInstruction k) s (s1.takeTrap k 0x03 0)) ∧
  (∀ (s s1 : State) (k : Fin 12) (c : Nat), s.kprRuns k = true → s.fetchInstr k = .trap c s1 →
    Completes (.illegalInstruction k) s (s1.takeTrap k c (s.keeper k).pc.toNat)) ∧
  (∀ (s : State) (k : Fin 12) (i a : Nat), (s.keeper k).run = .item i → (s.keeper k).trapped = false →
    s.takeTrap k 0x03 a = (s.modKeeper k (fun x => x.recordTrap 0x03 a i .malformed)).endOnKeeper k .malformed)

/-- Branches and jumps (R433): a branch taken goes to its own address and the signed displacement, in instructions of two words. Windows
(R436, R438): a call takes the next window and links the following instruction, and a return gives it back; with eight held a call traps
WINDOW_OVERFLOW, and with one held and none parked a return traps WINDOW_EMPTY. -/
def Obligations.KeeperControlFlow : Prop :=
  (∀ (s s1 : State) (k : Fin 12) (w : DWord) (a b : Half) (go : BitVec 24), s.Fetches k w s1 → kA w < 0x18 → kB w < 0x18 →
    a = (s1.keeper k).reg (kA w) → b = (s1.keeper k).reg (kB w) → go = (s1.keeper k).pc + 2 * (kImm w).signExtend 24 →
    (kOp w = 0x20 → Completes (.kprBeq k) s (if a = b then s1.kgoto k go else s1.kstep k)) ∧
    (kOp w = 0x21 → Completes (.kprBne k) s (if a = b then s1.kstep k else s1.kgoto k go)) ∧
    (kOp w = 0x22 → Completes (.kprBltu k) s (if a.toNat < b.toNat then s1.kgoto k go else s1.kstep k)) ∧
    (kOp w = 0x23 → Completes (.kprBgeu k) s (if a.toNat < b.toNat then s1.kstep k else s1.kgoto k go)) ∧
    (kOp w = 0x24 → Completes (.kprBlt k) s (if a.toInt < b.toInt then s1.kgoto k go else s1.kstep k)) ∧
    (kOp w = 0x25 → Completes (.kprBge k) s (if a.toInt < b.toInt then s1.kstep k else s1.kgoto k go))) ∧
  (∀ (s s1 : State) (k : Fin 12) (w : DWord), s.Fetches k w s1 → kOp w = 0x28 → fieldNat w 24 2 = 0 →
    Completes (.kprJmp k) s (s1.kgoto k (w.setWidth 24))) ∧
  (∀ (s s1 : State) (k : Fin 12) (w : DWord), s.Fetches k w s1 → kOp w = 0x29 → fieldNat w 0 16 = 0 → kB w < 0x18 →
    Completes (.kprJr k) s (s1.kgoto k (((s1.keeper k).pc &&& 0xFF0000) ||| ((s1.keeper k).reg (kB w)).setWidth 24))) ∧
  (∀ (s s1 : State) (k : Fin 12) (w : DWord), s.Fetches k w s1 → (s1.keeper k).trapped = false → (s1.keeper k).held < 8 →
    (kOp w = 0x2A → fieldNat w 24 2 = 0 →
      ∃ u : State, exec (.kprCallw k) s = .next (s.after u) ∧ (u.keeper k).active = (s1.keeper k).active + 1 ∧ (u.keeper k).held = (s1.keeper k).held + 1 ∧
        ((u.keeper k).win[(u.keeper k).active]).link = (s1.keeper k).pc + 2 ∧ (u.keeper k).pc = w.setWidth 24 ∧ u.hst = s1.hst) ∧
    (kOp w = 0x2B → fieldNat w 0 16 = 0 → kB w < 0x18 →
      ∃ u : State, exec (.kprCallwr k) s = .next (s.after u) ∧ (u.keeper k).active = (s1.keeper k).active + 1 ∧
        (u.keeper k).held = (s1.keeper k).held + 1 ∧ ((u.keeper k).win[(u.keeper k).active]).link = (s1.keeper k).pc + 2 ∧
        (u.keeper k).pc = (s1.keeper k).regTarget (kB w) ∧ u.hst = s1.hst)) ∧
  (∀ (s s1 : State) (k : Fin 12) (w : DWord), s.Fetches k w s1 → (s1.keeper k).trapped = false → kOp w = 0x2C → fieldNat w 0 26 = 0 →
    1 < (s1.keeper k).held →
    ∃ u : State, exec (.kprBackw k) s = .next (s.after u) ∧ (u.keeper k).active = (s1.keeper k).active - 1 ∧ (u.keeper k).held = (s1.keeper k).held - 1 ∧
      (u.keeper k).pc = ((s1.keeper k).win[(s1.keeper k).active]).link ∧ u.hst = s1.hst) ∧
  (∀ (s s1 : State) (k : Fin 12) (w : DWord), s.Fetches k w s1 → (s1.keeper k).trapped = false → kOp w = 0x2A → fieldNat w 24 2 = 0 →
    8 ≤ (s1.keeper k).held → Completes (.kprCallw k) s (s1.modKeeper k (fun x => x.enterHandler 0x04))) ∧
  (∀ (s s1 : State) (k : Fin 12) (w : DWord), s.Fetches k w s1 → (s1.keeper k).trapped = false → kOp w = 0x2C → fieldNat w 0 26 = 0 →
    (s1.keeper k).held ≤ 1 → (s1.keeper k).parked = 0 → Completes (.kprBackw k) s (s1.takeTrap k 0x06 0))

/-- The trap window's own instructions (R437, R438): RESUME runs the trapping instruction again; WGET and WPUT reach a named window; PARKW
stores a window's fourteen words and FETCHW loads them, where every word may be. Special registers (R429): those that may be read are
read, and SEG, and in the trap window WINSTAT and PARKED, are written. -/
def Obligations.KeeperSystemInstructions : Prop :=
  (∀ (s s1 : State) (k : Fin 12) (w : DWord), s.Fetches k w s1 → (s1.keeper k).trapped = true →
    (kOp w = 0x34 → fieldNat w 0 26 = 0 →
      Completes (.kprResume k) s (s1.modKeeper k (fun x => { x with trapped := false, pc := x.trapPc }))) ∧
    (kOp w = 0x32 → fieldNat w 12 4 = 0 → fieldNat w 0 8 = 0 → kA w < 0x18 → ∀ v : Half,
      (s1.keeper k).winReg ((s1.keeper k).named (fieldNat w 8 3) (bitOf w 11)) (kB w) = some v →
      Completes (.kprWget k) s (s1.kwrite k (kA w) v)) ∧
    (kOp w = 0x33 → fieldNat w 12 4 = 0 → fieldNat w 0 8 = 0 → kA w < 0x18 → ∀ y : Keeper,
      (s1.keeper k).setWinReg ((s1.keeper k).named (fieldNat w 8 3) (bitOf w 11)) (kB w) ((s1.keeper k).reg (kA w)) = some y →
      Completes (.kprWput k) s ((s1.modKeeper k (fun _ => y)).kstep k)) ∧
    (kOp w = 0x35 → kB w < 0x18 → (∀ a ∈ addrsFrom ((s1.keeper k).frameAddr w) 14, (s1.placeOf a).store = true ∧ s1.placeOf a ≠ .reg ∧
        s1.placeOf a ≠ .slot) →
      ∃ u : State, exec (.kprParkw k) s = .next (s.after (u.kstep k)) ∧ u.hst = (addrsFrom ((s1.keeper k).frameAddr w) 14 |>.zip
        ((s1.keeper k).win[(s1.keeper k).frameWin w]).frame).foldl (fun h x => h.writeWords x.1 [(x.2, false)]) (s1.drainStores k).hst) ∧
    (kOp w = 0x36 → kB w < 0x18 → (∀ a ∈ addrsFrom ((s1.keeper k).frameAddr w) 14, (s1.placeOf a).load = true) → ∀ (ws : List Half) (u : State),
      (s1.drainStores k).kloads k (addrsFrom ((s1.keeper k).frameAddr w) 14) = ((ws, none), u) →
      Completes (.kprFetchw k) s
        ((u.modKeeper k (fun x => { x with win := x.win.set (x.frameWin w) (frameWindow ws) })).kstep k))) ∧
  (∀ (s s1 u : State) (k : Fin 12) (w : DWord) (v : Half), s.Fetches k w s1 → kOp w = 0x30 → formatSOk w = true →
    s1.readSpecial k (fieldNat w 8 8) = some (v, u) → Completes (.kprMovfs k) s (u.kwrite k (kA w) v)) ∧
  (∀ (s s1 : State) (k : Fin 12) (w : DWord) (y : Keeper), s.Fetches k w s1 → kOp w = 0x31 → formatSOk w = true →
    (s1.keeper k).writeSpecial (fieldNat w 8 8) ((s1.keeper k).reg (kA w)) = some y →
    Completes (.kprMovts k) s ((s1.modKeeper k (fun _ => y)).kstep k)) ∧
  (∀ (x : Keeper) (v : Half), (x.writeSpecial 0x08 v).isSome = (x.trapped && decide (1 ≤ fieldNat v 4 4) && decide (fieldNat v 4 4 ≤ 8)) ∧
    x.writeSpecial 0x00 v = none ∧ x.writeSpecial 0x0A v = none ∧ (x.writeSpecial 0x04 v).map (fun y => y.seg[0]) = some (v &&& 0xFF))

/-- Loads and stores (R430 to R432, R444): a load gives the keeper's own newest store to the word, a poisoned word traps and never enters
the register, a store of the Holding Store waits in the buffer of four until it is drained, one to a device register or an idle DMA slot
acts at once, and an address that Table 15.3 forbids traps ADDRESS. POST, FENCE, DWAIT, DONE and DMA (R442 to R450): a post answers 1, 2
or 3 in its register; the others wait for their slots, and a DMA goes out through a window that permits it. -/
def Obligations.KeeperMemoryAndItems : Prop :=
  (∀ (s s1 : State) (k : Fin 12) (w : DWord) (a : Nat), s.Fetches k w s1 → 0x10 ≤ kOp w → kOp w < 0x14 → kA w < 0x18 → kB w < 0x18 →
    a = (s1.keeper k).effective (segOf w) (kB w) ((kImm w).signExtend 32) →
    ((s1.placeOf a).load = true → (s1.kload k a).1.2 = false →
      Completes (.kprLd k) s ((s1.kload k a).2.kwrite k (kA w) (s1.kload k a).1.1)) ∧
    ((s1.placeOf a).load = true → (s1.kload k a).1.2 = true → Completes (.kprLd k) s ((s1.kload k a).2.takeTrap k 0x08 a)) ∧
    ((s1.placeOf a).load = false → Completes (.kprLd k) s (s1.takeTrap k 0x07 a))) ∧
  (∀ (s s1 : State) (k : Fin 12) (w : DWord) (a : Nat), s.Fetches k w s1 → 0x14 ≤ kOp w → kOp w < 0x18 → kA w < 0x18 → kB w < 0x18 →
    a = (s1.keeper k).effective (segOf w) (kB w) ((kImm w).signExtend 32) →
    ((s1.placeOf a).store = true → s1.placeOf a ≠ .reg → s1.placeOf a ≠ .slot → (s1.keeper k).storeBuf.length < 4 →
      Completes (.kprSt k) s
        ((s1.modKeeper k (fun x => { x with storeBuf := x.storeBuf ++ [(a, (s1.keeper k).reg (kA w))] })).kstep k)) ∧
    (∀ (n : Fin 4) (h : a % 8 < 6), s1.placeOf a = .slot → n.val = (a - 0xC00000) / 8 % 4 →
      (((s1.drainStores k).keeper k).dma[n]).busy = false →
      Completes (.kprSt k) s (((s1.drainStores k).modSlot k n (fun d =>
        { d with words := d.words.set (a % 8) ((s1.keeper k).reg (kA w)) h, bad := d.bad.set (a % 8) false h })).kstep k)) ∧
    (∀ n : Fin 4, a % 8 < 6 → s1.placeOf a = .slot → n.val = (a - 0xC00000) / 8 % 4 → (((s1.drainStores k).keeper k).dma[n]).busy = true →
      Completes (.kprSt k) s ((s1.drainStores k).takeTrap k 0x0A a)) ∧
    (∀ u : State, s1.placeOf a = .reg → (s1.drainStores k).storeReg k a ((s1.keeper k).reg (kA w)) = (u, false) →
      (u.keeper k).run = (s1.keeper k).run → Completes (.kprSt k) s (u.kstep k)) ∧
    ((s1.placeOf a).store = false → Completes (.kprSt k) s (s1.takeTrap k 0x07 a))) ∧
  (∀ (s : State) (k : Fin 12) (a : Nat) (v : Half) (rest : List (Nat × Half)), (s.keeper k).storeBuf = (a, v) :: rest →
    Completes (.storeBufferDrain k) s
      ((({ s with hst := s.hst.writeWords a [(v, false)] } : State)).modKeeper k (fun x => { x with storeBuf := rest }))) ∧
  (∀ (x : Keeper) (a : Nat) (v : Half), ({ x with storeBuf := x.storeBuf ++ [(a, v)] } : Keeper).forwarded a = some v) ∧
  (∀ (s s1 u : State) (k : Fin 12) (w : DWord) (i : Nat) (x : Item) (as_ : List Nat) (ws : List Half), s.Fetches k w s1 → 0x18 ≤ kOp w →
    kOp w < 0x1C → kA w < 0x18 → kB w < 0x18 → (s1.keeper k).run = .item i → s1.item i = some x →
    as_ = addrsFrom ((s1.keeper k).effective (segOf w) (kB w) ((kImm w).signExtend 32)) 8 →
    (∀ a ∈ as_, (s1.placeOf a).load = true) → (s1.drainStores k).kloads k as_ = ((ws, none), u) → u.granted k x.owner = true →
    Completes (.kprPost k) s
      ((u.postFor x.owner x.evt (postEntry i k x ws)).2.kwrite k (kA w) (u.postFor x.owner x.evt (postEntry i k x ws)).1)) ∧
  (∀ (s s1 : State) (k : Fin 12) (w : DWord), s.Fetches k w s1 → kOp w = 0x38 → fieldNat w 0 26 = 0 →
    (s1.keeper k).dma.toList.any (fun d => d.busy && d.toHost && !d.issued) = false →
    Completes (.kprFence k) s ((s1.drainStores k).kstep k)) ∧
  (∀ (s s1 : State) (k : Fin 12) (w : DWord) (n : Fin 4), s.Fetches k w s1 → kOp w = 0x3A → fieldNat w 2 19 = 0 → kA w < 0x18 →
    fieldNat w 0 2 = n.val → ((s1.keeper k).dma[n]).busy = false →
    Completes (.kprDwait k) s (s1.kwrite k (kA w) ((s1.keeper k).dma[n]).word6)) ∧
  (∀ (s s1 : State) (k : Fin 12) (w : DWord) (i : Nat), s.Fetches k w s1 → kOp w = 0x3B → fieldNat w 0 26 = 0 →
    (s1.keeper k).run = .item i → (s1.keeper k).dma.toList.all DmaSlot.idle = true →
    Completes (.kprDone k) s (s1.endOnKeeper k .success)) ∧
  (∀ (s s1 s2 : State) (k : Fin 12) (w : DWord) (n : Fin 4) (f : Func), s.Fetches k w s1 → kOp w = 0x39 → fieldNat w 2 24 = 0 →
    fieldNat w 0 2 = n.val → s2 = s1.drainStores k → ((s2.keeper k).dma[n]).busy = false → s2.slotOk (s2.keeper k).dma[n] = true →
    s2.slotFuncOf (s2.keeper k).dma[n] = some f → bitOf (s2.lnk.win[((s2.keeper k).dma[n]).win]).ctl k.val = true → s2.granted k f = true →
    (s2.modSlot k n (fun d => { d with busy := true, issued := false, sub := 0, status := 0 })).dmaGoes f = true →
    Completes (.kprDma k) s
      (((s2.modSlot k n (fun d => { d with busy := true, issued := false, sub := 0, status := 0 })).issueSlot k n f).kstep k)) ∧
  (∀ (s : State) (k : Fin 12) (n : Fin 4) (e : DmaEnd), ((s.keeper k).dma[n]).busy = true → ((s.keeper k).dma[n]).issued = true →
    Completes (.dmaSlotComplete k n e) s (s.dmaComplete k n e))

/-- PORT_CTL (R279, R280, R297, R300, Table 10.2): for the port's owner each ACTION does its part from the states that allow it, at once
or with what it starts; a RESET from a state that does not allow it ends with OUTCOME 1 and changes nothing. A PORT_CTL STATUS of a
function that does not own the port completes NOT_OWNER, and one for a port that is not fitted or has failed GONE (R290). -/
def Obligations.PortsAreControlled : Prop :=
  (∀ (s s1 : State) (f : Func) (i : Half) (e : Entry) (n : Fin 16), s.Issues f 0x14 i e s1 → portCtlOk e = true → n = portParam e →
     s1.portGone n = false → s1.portOwner n = f →
     (fieldNat e[0] 4 4 = 0 → Completes (.portCtlStatus f) s (s1.completeCmd f i e .success (s1.prtStatus n) 0)) ∧
     (fieldNat e[0] 4 4 = 1 → (s1.port n).mayReset = true →
       Completes (.portCtlReset f) s (State.cmdEnd f i e (.started (s1.startReset f n)))) ∧
     (fieldNat e[0] 4 4 = 1 → (s1.port n).mayReset = false →
       Completes (.portCtlReset f) s (s1.completeCmd f i e .success (s1.prtStatus n) 1)) ∧
     (fieldNat e[0] 4 4 = 2 → (s1.port n).state = .enabled →
       Completes (.portCtlSuspend f) s
         (State.cmdEnd f i e (.started (s1.modPort n (fun p =>
           { p with wait := if p.wait = .none then .suspendTick else p.wait, cmd := p.cmd ++ [f] }))))) ∧
     (fieldNat e[0] 4 4 = 3 → (s1.port n).state = .suspended → (s1.port n).suspMode = false →
       Completes (.portCtlResume f) s
         (State.cmdEnd f i e (.started (s1.modPort n (fun p => { p with state := .resuming, suspMode := true, wait := .resume, cmd := p.cmd ++ [f] }))))) ∧
     (fieldNat e[0] 4 4 = 4 → (s1.port n).mayDisable = true →
       Completes (.portCtlDisable f) s (State.cmdEnd f i e ((((s1.releasePort n 2).modPort n (fun p =>
         { p with state := .disabled, disCause := 2, suspMode := false, wait := .none })).finishPort n 2).portDone n 0))) ∧
     (∀ (d : DevRec) (h : Nat), fieldNat e[0] 4 4 = 5 → (s1.port n).state = .enabled → s1.rootDev n = some h →
       s1.dev h = some d → d.hub = false → s1.lampServes n = false → ∀ u : State,
       u = ((s1.emit (.usbLpm n (fieldNat e[1] 0 4) (bitOf e[1] 8))).modPort n (fun p =>
         { p with lpmResp := 1, lpmRwe := bitOf e[1] 8, lpmBesl := fieldNat e[1] 0 4, state := .l1, wait := .none })).finishPort n 1 →
       Completes (.portCtlL1 f .ack) s (u.completeCmd f i e .success (u.prtStatus n) 0))) ∧
  (∀ (s s1 : State) (f : Func) (i : Half) (e : Entry) (n : Fin 16), s.Issues f 0x14 i e s1 → portCtlOk e = true → n = portParam e →
     fieldNat e[0] 4 4 = 0 →
     (s1.portGone n = true → Completes (.portCtlStatus f) s (s1.completeCmd f i e .gone 0 0)) ∧
     (s1.portGone n = false → s1.portOwner n ≠ f → Completes (.portCtlStatus f) s (s1.completeCmd f i e .notOwner 0 0)))

/-- A reset, a suspend and a resume end (R280, R297, R299, R300): at the speed that the reset finds, with the port ENABLED or DISABLED;
SUSPENDED; ENABLED, or SUSPENDED again in a mode that has stopped the buses; and the command in progress completes. A root port's
connection (R277, R288, R298, R302, R303): a pull-up is debounced and attaches, a disconnect releases the devices and ends the command in
progress, remote wake starts a resume, and a failure of the port or its fairway is kept. The wakes of R85: an enabled source is latched in
STANDBY and NIGHT, in NIGHT it also wakes the device, and a source that is not enabled does nothing. -/
def Obligations.PortsFollowTheirBus : Prop :=
  (∀ (s : State) (n : Fin 16) (v : Speed), (s.port n).state = .resetting → (s.port n).wait = .se0 →
    Completes (.busResetSe0End n (some v)) s
      (s.modPort n (fun p => { p with speed := (s.port n).foundSpeed (some v), wait := .recovery }))) ∧
  (∀ (s : State) (n : Fin 16), (s.port n).state = .resetting → (s.port n).wait = .se0 →
    Completes (.busResetSe0End n none) s
      ((s.modPort n (fun p => { p with state := .disabled, disCause := 3, speed := none, wait := .none, chg := p.chg.bump })).finishPort n 0)) ∧
  (∀ (s : State) (n : Fin 16), (s.port n).state = .resetting → (s.port n).wait = .recovery →
    Completes (.resetRecoveryEnd n) s
      ((s.modPort n (fun p => { p with state := .enabled, suspMode := false, wait := .none, chg := p.chg.bump })).finishPort n 0)) ∧
  (∀ (s : State) (n : Fin 16), (s.port n).state = .enabled → (s.port n).wait = .suspendWait →
    Completes (.suspendWaitEnd n) s ((s.modPort n (fun p => { p with state := .suspended, suspMode := false, wait := .none })).finishPort n 0)) ∧
  (∀ (s : State) (n : Fin 16), (s.port n).state = .resuming → s.busesWake = true →
    Completes (.resumeSignalEnd n) s ((s.modPort n (fun p => { p with state := .enabled, suspMode := false, wait := .none })).finishPort n 0)) ∧
  (∀ (s : State) (n : Fin 16), (s.port n).state = .resuming → s.busesWake = false →
    Completes (.resumeSignalEnd n) s ((s.modPort n (fun p => { p with state := .suspended, wait := .none })).finishPort n 0)) ∧
  (∀ (s : State) (n : Fin 16), (s.port n).state = .l1 → (s.port n).lpmRwe = true →
    Completes (.l1Exit n) s (s.modPort n (fun p => { p with state := .resuming, suspMode := true, wait := .resume }))) ∧
  (∀ (s : State) (n : Fin 16) (low : Bool), (s.port n).state = .disconnected →
    Completes (.pullupSeen n low) s (s.modPort n (fun p => { p with state := .debounce, conn := true, connLow := low }))) ∧
  (∀ (s : State) (n : Fin 16), (s.port n).state = .debounce → Completes (.attachDebounceEnd n) s (s.modPort n (fun p => { p with state := .attached }))) ∧
  (∀ (s : State) (n : Fin 16), (s.port n).connected = true →
    Completes (.rootDisconnect n) s (((s.releasePort n 1).modPort n (fun p => p.disconnected .disconnected)).finishPort n 2)) ∧
  (∀ (s : State) (n : Fin 16), (s.port n).state = .suspended →
    Completes (.portRemoteWake n) s
      ((s.modPort n (fun p => { p with state := .resuming, wait := .resume, chg := p.chg.bump })).wakeSource 18)) ∧
  (∀ (s : State) (n : Fin 16) (c : Nat), s.mode ≠ .dark → (s.port n).failed = false →
    Completes (.portFail n c) s (((s.releasePort n 2).modPort n (fun p => { p.disconnected .failed with failed := true })).finishPort n 2)) ∧
  (∀ (s : State) (fa : Fin 4) (c : Fin 3), s.mode ≠ .dark → (s.fairway fa).failed = false →
    Completes (.fairwayFail fa (c.val + 1)) s (s.modFairway fa (fun x => { x with failed := true, failCause := c.val + 1 }))) ∧
  (∀ (s : State) (b : Nat),
     (bitOf s.md.wakeCfg b = false → s.wakeSource b = s) ∧
     (bitOf s.md.wakeCfg b = true → s.mode = .night →
       (s.wakeSource b).md = { s.md with wakeSrc := s.md.wakeSrc ||| putBit true b, wakeHeld := true }) ∧
     (bitOf s.md.wakeCfg b = true → s.mode = .standby → (s.wakeSource b).md = { s.md with wakeSrc := s.md.wakeSrc ||| putBit true b }))

/-- DEV_ADDRESS (R281 to R283): on an ENABLED root port of its issuer whose fairway has no other in progress, it takes the lowest free
address, or the one asked for, a new attach instance and the packet size that the device answers; a device that answers STALL or not at
all ends it with that status, an exchange that goes on holds address 0, and an address that is taken gives OUTCOME 1. DEV_HUB, EP_CONFIG
and DEV_RELEASE (R284 to R287, R290): they change the record of a device on a port of their issuer, and complete GONE where no device
holds the handle. -/
def Obligations.DevicesAreAddressedAndConfigured : Prop :=
  (∀ (s s1 s2 : State) (f : Func) (i : Half) (e : Entry) (n : Fin 16) (d : DevRec), s.Issues f 0x10 i e s1 → parentParam e = 0 →
     addressParamsOk e = true → n = portParam e → d = s1.newDev e none → s1.portGone n = false → s1.portOwner n = f →
     s.addressingOf f = none → (s.fairway (fairwayOf n)).addressing = none →
     s2 = s1.emit (.usbControl (fairwayOf n) 0 getDescriptor8) →
     (∀ a : Nat, (s1.fairway (fairwayOf n)).takeAddr (fieldNat e[0] 8 7) = some a → s1.addressReady d = true →
       (∀ maxp : Nat, maxpOk d.speed 0 1 maxp = true →
         ∃ u : State, exec (.devAddress f (.ok maxp)) s = .next (s.after (u.completeCmd f i e .success
             (putField (nextInst (s1.devInst (handleOf (fairwayOf n) a))) 16 8 ||| putField (handleOf (fairwayOf n) a) 0 12)
             (putField d.speed.code 8 2 ||| putField maxp 0 8))) ∧
           (assocGet (u.fairway (fairwayOf n)).devs a).map (fun x => (x.inst, x.eps)) =
             some (nextInst (s1.devInst (handleOf (fairwayOf n) a)), [(0, { xtype := 0, mult := 1, maxp := maxp })])) ∧
       Completes (.devAddress f .pending) s (State.cmdEnd f i e (.started
         (s2.modFairway (fairwayOf n) (fun x => { x with addressing := some { fn := f, dev := d, addr := a } })))) ∧
       Completes (.devAddress f (.stall false)) s (s2.completeCmd f i e .stall 0 0) ∧
       Completes (.devAddress f (.error false)) s
         ((s2.modFairway (fairwayOf n) (fun x => { x with xerr := x.xerr.bump })).completeCmd f i e .xactError 0 0)) ∧
     (∀ ans : AddressAnswer, (s1.fairway (fairwayOf n)).takeAddr (fieldNat e[0] 8 7) = none → ∃ (u : State) (x : DWord),
       exec (.devAddress f ans) s = .next (s.after (u.completeCmd f i e .success 0 (putField 1 16 8 ||| (x &&& 0x3FF)))))) ∧
  (∀ (s s1 : State) (f : Func) (i : Half) (e : Entry) (d : DevRec), s.Issues f 0x11 i e s1 → fieldNat e[0] 12 20 = 0 → fieldNat e[1] 8 24 = 0 →
    fieldNat e[1] 4 1 = 0 → fieldNat e[1] 0 4 ≠ 0 → paramsZero e [2, 3, 4, 5] = true → s1.dev (devParam e) = some d →
    s1.hubRangeOk (devParam e) e[1] d = true → s1.portGone d.port = false → s1.portOwner d.port = f →
    Completes (.devHub f) s ((s1.putDev (devParam e)
      { d with hub := true, think := fieldNat e[1] 6 2, mtt := bitOf e[1] 5, hubPorts := fieldNat e[1] 0 4 }).completeCmd f i e .success 0 0)) ∧
  (∀ (s s1 : State) (f : Func) (i : Half) (e : Entry) (d : DevRec), s.Issues f 0x12 i e s1 → epParamsOk e = true →
    s1.dev (fieldNat e[0] 16 12) = some d → maxpOk d.speed (fieldNat e[0] 4 2) (fieldNat e[1] 11 2) (fieldNat e[1] 0 11) = true →
    s1.epHasLamp (fieldNat e[0] 16 12) (fieldNat e[0] 8 4) (bitOf e[0] 7) = false → s1.portGone d.port = false → s1.portOwner d.port = f →
    Completes (.epConfig f) s ((s1.writeEp (fieldNat e[0] 16 12) d e).completeCmd f i e .success 0 0)) ∧
  (∀ (s s1 : State) (f : Func) (i : Half) (e : Entry) (d : DevRec), s.Issues f 0x13 i e s1 → fieldNat e[0] 12 20 = 0 →
    paramsZero e [1, 2, 3, 4, 5] = true → s1.dev (devParam e) = some d → s1.portGone d.port = false → s1.portOwner d.port = f →
    Completes (.devRelease f) s ((s1.release (devParam e) 1).completeCmd f i e .success 0 0)) ∧
  (∀ (s s1 : State) (f : Func) (i : Half) (e : Entry), s.Issues f 0x13 i e s1 → fieldNat e[0] 12 20 = 0 →
    paramsZero e [1, 2, 3, 4, 5] = true → s1.dev (devParam e) = none → Completes (.devRelease f) s (s1.completeCmd f i e .gone 0 0))

/-- The Type-C machine moves while its terminations are applied (R309, R310, R316): a termination is seen and debounced, the toggle turns,
and with no partner it is Unattached again. ATTACHED_SRC needs a debounced sink and permitted power (R310); on entry the gate is on, the
engine is source and DFP, and an implicit contract of 5 V stands (R311, R314). A termination that is not permitted power does not attach.
-/
def Obligations.TypeCPartnersAttach : Prop :=
  (∀ (s : State) (e : Fin 17) (o ra : Bool), s.ccActive e = true → (s.eng e).state = .unattSrc →
    Completes (.ccAttachDetect e (.sink o ra)) s
      (s.modEng e (fun x => { x with state := .waitSrc, partner := 1, orient := o, ra := ra, debounced := false }))) ∧
  (∀ (s : State) (e : Fin 17) (o : Bool) (rp : Nat), s.ccActive e = true → (s.eng e).state = .unattSnk → rp ≤ 3 →
    Completes (.ccAttachDetect e (.source o rp)) s
      (s.modEng e (fun x => { x with state := .waitSnk, partner := 2, orient := o, rpSeen := rp, debounced := false }))) ∧
  (∀ (s : State) (e : Fin 17) (o ra : Bool), s.ccActive e = true → (s.eng e).state = .waitSrc → (s.eng e).preferSnk = false →
    (s.eng e).known = true →
    Completes (.ccDebounceExpiry e (some (.sink o ra))) s
      (s.modEng e (fun x => { x with partner := 1, orient := o, ra := ra, debounced := true }))) ∧
  (∀ (s : State) (e : Fin 17), s.ccActive e = true → (s.eng e).state = .waitSnk →
    Completes (.ccDebounceExpiry e none) s (s.partnerGone e)) ∧
  (∀ (s : State) (e : Fin 17), s.ccActive e = true → (s.eng e).state = .unattSrc →
    Completes (.drpToggleExpiry e) s
      (s.modEng e (fun x => { x with state := .unattSnk, preferSnk := decide (e = pu) && !s.sup.vinValid }))) ∧
  (∀ (s : State) (e : Fin 17), s.ccActive e = true → (s.eng e).state = .trySrc →
    Completes (.drpToggleExpiry e) s (s.modEng e (fun x => { x with state := .tryWaitSnk, debounced := false }))) ∧
  (∀ (s : State) (e : Fin 17), s.maySource e = true →
    Completes (.attachedSrcEntry e) s (s.attachSrc e) ∧ ((s.attachSrc e).eng e).state = .attSrc ∧ ((s.attachSrc e).eng e).source = true ∧
      ((s.attachSrc e).eng e).dfp = true ∧ ((s.attachSrc e).eng e).kind = 1 ∧ ((s.attachSrc e).eng e).volt = 250 ∧
      ((s.attachSrc e).moor e).gate = true) ∧
  (∀ (s : State) (e : Fin 17), s.maySource e = false → Completes (.attachedSrcEntry e) s s) ∧
  (∀ (s : State) (e : Fin 17), s.maySource e = true → s.permit e = true ∧ (s.eng e).debounced = true)

/-- Leaving a partner (R309, R313, R319): VCONN and the gate turn off, contract, EPR mode, cable record and MessageIDs are cleared, and
the engine is in the state it goes to; ERROR_RECOVERY ends in an Unattached state. VCONN turns off at its over-current limit, which is
latched and counted (R317); CCP_e_CFG is written by the primary manager and by keeper firmware alone, and RP 0b00 leaves that field (R308,
Table 11.10). -/
def Obligations.TypeCPartnersLeave : Prop :=
  (∀ (s : State) (e : Fin 17), s.ccActive e = true → (s.eng e).state = .attSrc → Completes (.ccDetach e) s (s.partnerGone e)) ∧
  (∀ (s : State) (e : Fin 17), (s.eng e).state = .recovery → Completes (.errorRecoveryExpiry e) s (s.unattach e)) ∧
  (∀ (s : State) (e : Fin 17) (st : TcState),
    ((s.leavePartner e st).eng e).state = st ∧ ((s.leavePartner e st).eng e).vconnOn = false ∧ ((s.leavePartner e st).eng e).kind = 0 ∧
      ((s.leavePartner e st).eng e).epr = false ∧ ((s.leavePartner e st).eng e).cable = 0 ∧
      ((s.leavePartner e st).eng e).msgId = Vector.replicate 3 0 ∧ ((s.leavePartner e st).moor e).gate = false) ∧
  (∀ (s : State) (e : Fin 17), (s.eng e).vconnOn = true →
    Completes (.vconnOvercurrent e) s ((s.modEng e (fun x => { x with vconnOn := false, vconnOc := true })).ccChange e)) ∧
  (∀ (s s1 : State) (p : Path) (r : Requester) (e : Fin 17) (v : DWord), s.Brings p r → s1 = s.arrived p r (ccpOff e 0) →
    (s1.isPrimary r || r.isKeeper) = true → (s1.eng e).kind ≠ 1 →
    Completes (.ccpCfgWrite p e v) s ((s1.modEng e (fun x => { x with cfg := ccpCfgWritten x.cfg v })).followVconn e)) ∧
  (∀ old v : DWord, fieldNat v 24 2 = 0 → fieldNat (ccpCfgWritten old v) 24 2 = fieldNat old 24 2 ∧
    bitOf (ccpCfgWritten old v) 31 = bitOf v 31) ∧
  (∀ (s s1 : State) (p : Path) (r : Requester) (e : Fin 17) (v : DWord), s.Brings p r → s1 = s.arrived p r (ccpOff e 0) →
    (s1.isPrimary r || r.isKeeper) = false → Completes (.ccpCfgWrite p e v) s (s1.refuse r 2 (ccpOff e 0)))

/-- The message layer receives (R320, R334): a message on SOP that is not the duplicate of the last is answered with GoodCRC and acted on;
a duplicate is answered and discarded; one that needs a slot when none is free is not answered; GoodCRC of the awaited MessageID ends the
transmission with SENT and advances the counter. An own transmission without GoodCRC is sent again, and after its last retry it ends
NO_GOODCRC with the MessageID advanced (R320); an initiator waits tSinkTx first (R322); a receiver that is not asked on drops its chunks
(R321). A sink follows the source's Rp (R322, Table 11.4): SinkTxOK lets its waiting message go. Firmware releases items by ACK, and an
ACK beyond what has been received is ignored (R334). -/
def Obligations.PdMessagesAreHandled : Prop :=
  (∀ (s : State) (e : Fin 17) (h : Half) (b : List Byte), (s.eng e).attached = true → s.pdOn e = true → (s.eng e).txStage = .idle →
    isControl h ctlGoodCrc = false → isControl h ctlSoftReset = false → (s.eng e).lastId[0] = some (pdId h) →
    Completes (.pdMessageReceived e 0 h b) s (s.emit (.pdGoodCrc e 0 (pdId h)))) ∧
  (∀ (s : State) (e : Fin 17) (h : Half) (b : List Byte), (s.eng e).attached = true → s.pdOn e = true → (s.eng e).txStage = .idle →
    isControl h ctlGoodCrc = false → (s.eng e).lastId[0] ≠ some (pdId h) → s.needsSlot e h b = true → (s.eng e).slotFree = false →
    Completes (.pdMessageReceived e 0 h b) s s) ∧
  (∀ (s : State) (e : Fin 17) (h : Half) (b : List Byte), (s.eng e).attached = true → s.pdOn e = true → (s.eng e).txStage = .idle →
    isControl h ctlGoodCrc = false → (s.eng e).lastId[0] ≠ some (pdId h) → pdExt h = false → s.holding e = false →
    (s.eng e).slotFree = true →
    Completes (.pdMessageReceived e 0 h b) s ((s.acceptRx e 0 h).wholeMessage e 0 h (b.take (4 * pdCount h)))) ∧
  (∀ (s : State) (e : Fin 17) (h : Half) (m : TxMsg) (t : Nat), (s.eng e).attached = true → s.pdOn e = true →
    isControl h ctlGoodCrc = true → (s.eng e).tx = some m → m.kind = 0 → (s.eng e).txStage = .goodCrc t 0 → m.hasChunk 1 = false →
    (s.eng e).msgId[0] = pdId h →
    Completes (.pdMessageReceived e 0 h []) s
      (((s.modEng e (fun x => { x with msgId := x.msgId.set 0 (pdId h + 1), pdSeen := true })).endTx e 1).onAcked e m)) ∧
  (∀ (s : State) (e : Fin 17) (m : TxMsg) (t c : Nat), (s.eng e).tx = some m → (s.eng e).txStage = .goodCrc t c → t < 2 →
    Completes (.goodcrcTimeout e) s (s.putOnLine e m c (t + 1))) ∧
  (∀ (s : State) (e : Fin 17) (m : TxMsg) (c : Nat), (s.eng e).tx = some m → (s.eng e).txStage = .goodCrc 2 c → m.kind = 0 →
    Completes (.goodcrcTimeout e) s ((s.modEng e (fun x => { x with msgId := x.msgId.set 0 (x.msgId[0] + 1) })).endTx e 2)) ∧
  (∀ (s : State) (e : Fin 17) (m : TxMsg), (s.eng e).tx = some m → (s.eng e).txStage = .sinkTx → Completes (.sinkTxWaitEnd e) s (s.sendNow e m)) ∧
  (∀ (s : State) (e : Fin 17), (s.eng e).txStage = .idle →
    Completes (.chunkTimeout e) s (s.modEng e (fun x => { x with chunkRx := none }))) ∧
  (∀ (s : State) (e : Fin 17) (rp : Fin 4), (s.eng e).state = .attSnk → e ≠ pu → rp ≠ 3 → (s.eng e).hr = .none →
    Completes (.ccRpChange e rp) s (s.modEng e (fun x => { x with rpSeen := rp.val }))) ∧
  (∀ (s : State) (e : Fin 17) (m : TxMsg), (s.eng e).state = .attSnk → e ≠ pu → (s.eng e).hr = .none → (s.eng e).tx = some m →
    (s.eng e).txStage = .sinkHold → Completes (.ccRpChange e 3) s ((s.modEng e (fun x => { x with rpSeen := 3 })).sendNow e m)) ∧
  (∀ (s s1 : State) (k : Fin 12) (e : Fin 17) (v : DWord), s.Brings (.keeper k) (.keeper k) →
    s1 = s.arrived (.keeper k) (.keeper k) (ccpOff e 0x1C) →
    idxDist (loHalf v) (s1.eng e).rxAck ≤ idxDist (s1.eng e).rxSeq (s1.eng e).rxAck → (s1.eng e).waiting = [] →
    Completes (.rxRelease (.keeper k) e v) s (s1.modEng e (fun x => { x with rxAck := loHalf v }))) ∧
  (∀ (s s1 : State) (k : Fin 12) (e : Fin 17) (v : DWord), s.Brings (.keeper k) (.keeper k) →
    s1 = s.arrived (.keeper k) (.keeper k) (ccpOff e 0x1C) →
    idxDist (s1.eng e).rxSeq (s1.eng e).rxAck < idxDist (loHalf v) (s1.eng e).rxAck → Completes (.rxRelease (.keeper k) e v) s s1)

/-- Firmware asks for a message, a Hard Reset or a Cable Reset through CCP_e_TXCTL (R323, R326, R335): a new SEQ takes the command and
starts the slot's message or sends the reset, and a Hard Reset asked for by a requester that is no keeper is refused. A Cable Reset clears
the MessageID counters of SOP' and SOP'' and leaves SOP's (R326; that it also forgets the last IDs received on them is the model's choice,
log 47); a received one is placed for firmware (R323) and discards a transmission that waits (R322), and one that firmware asks for goes
out from a DFP with VCONN_ON = 1 alone: from any other engine the command ends with result 4. -/
def Obligations.PdTransmitsForFirmware : Prop :=
  (∀ (s s1 s2 : State) (k : Fin 12) (e : Fin 17) (v : DWord) (vb : Nat), s.Brings (.keeper k) (.keeper k) →
    s1 = s.arrived (.keeper k) (.keeper k) (ccpOff e 0x20) → s1.mode ≠ .safe → s1.mode ≠ .relight → s1.mode ≠ .update → (s1.eng e).txEn = true → (s1.eng e).tx = none →
    hiHalf v ≠ (s1.eng e).txSeq → s2 = s1.modEng e (fun x => { x with txctl := v &&& 0xFFFFF800, txSeq := hiHalf v, txResult := 0 }) →
    (fieldNat v 13 3 ≠ 3 → fieldNat v 13 3 ≠ 4 →
      Completes (.pdTransmit (.keeper k) e v vb) s (s2.transmitSlot e (fieldNat v 13 3) (bitOf v 12) (bitOf v 11) vb)) ∧
    (fieldNat v 13 3 = 3 → Completes (.pdSendHardReset (.keeper k) e v) s (s2.transmitReset e true (bitOf v 11))) ∧
    (fieldNat v 13 3 = 4 → Completes (.pdSendCableReset (.keeper k) e v) s (s2.transmitReset e false (bitOf v 11)))) ∧
  (∀ (s s1 : State) (p : Path) (r : Requester) (e : Fin 17) (v : DWord), s.Brings p r → r.isKeeper = false →
    s1 = s.arrived p r (ccpOff e 0x20) → fieldNat v 13 3 = 3 → Completes (.pdSendHardReset p e v) s (s1.refuse r 2 (ccpOff e 0x20))) ∧
  (∀ (s : State) (e : Fin 17), s.cableReset e = s.modEng e (fun x =>
    { x with msgId := (x.msgId.set 1 0).set 2 0, lastId := (x.lastId.set 1 none).set 2 none })) ∧
  (∀ (s : State) (e : Fin 17), (s.eng e).attached = true → s.pdOn e = true →
    Completes (.cableResetReceived e) s (((s.preempt e false).cableReset e).offerItem e 4 0)) ∧
  (∀ (s : State) (e : Fin 17) (last : Bool), (s.eng e).attached = true → s.pdOn e = true → ((s.eng e).dfp && (s.eng e).vconnOn) = true →
    s.transmitReset e false last =
      (((s.emit (.pdCableReset e)).cableReset e).modEng e (fun x =>
        { x with tx := some { kind := 3, header := 0, payload := [], firmware := true, amsEnd := last } })).endTx e 1) ∧
  (∀ (s : State) (e : Fin 17) (last : Bool), (s.eng e).attached = true → s.pdOn e = true → ((s.eng e).dfp && (s.eng e).vconnOn) = false →
    s.transmitReset e false last = (s.modEng e (fun x =>
      { x with tx := some { kind := 3, header := 0, payload := [], firmware := true, amsEnd := last } })).endTx e 4)

/-- A Hard Reset (R323 to R325): pending contracts, EPR mode and messages are dropped and the counters are 0. A source turns power and
VCONN off after tPSHardReset, waits for vSafe0V and tSrcRecover, and attaches again with an implicit contract where power is permitted, or
recovers from the error; a sink that sees no VBUS detaches. The limits of EPR mode and of PPS send a Hard Reset (R331, R332), and the
holding responder says PS_RDY to the Request it accepted (R336). -/
def Obligations.HardResetsAndLimits : Prop :=
  (∀ (s : State) (e : Fin 17), (s.eng e).attached = true → s.pdOn e = true →
    Completes (.hardResetReceived e) s ((s.hardReset e).offerItem e 3 0)) ∧
  (∀ (s : State) (e : Fin 17), ((s.hardReset e).eng e).pend = none ∧ ((s.hardReset e).eng e).epr = false ∧
    ((s.hardReset e).eng e).msgId = Vector.replicate 3 0 ∧ ((s.hardReset e).eng e).hr = (if (s.eng e).source then .psWait else .sinkWait)) ∧
  (∀ (s : State) (e : Fin 17), (s.eng e).hr = .psWait → (s.moor e).vsafe0v = false →
    Completes (.psHardResetExpiry e) s ((s.gateOff e).modEng e (fun x => { x with vconnOn := false, hr := .discharge }))) ∧
  (∀ (s : State) (e : Fin 17), (s.moor e).gate = false → (s.eng e).hr = .discharge → (s.eng e).swapping = none → (s.moor e).cmd = [] →
    Completes (.vbusAtVsafe0v e) s
      ((s.modMoor e (fun m => { m with vsafe0v := true })).modEng e (fun x => { x with hr := .recover }))) ∧
  (∀ (s : State) (e : Fin 17), (s.eng e).hr = .recover → s.permit e = true →
    Completes (.srcRecoverExpiry e) s ((((s.modEng e (fun x => { x with hr := .none })).gateOn e).implicitSource e).followVconn e)) ∧
  (∀ (s : State) (e : Fin 17), (s.eng e).hr = .recover → s.permit e = false →
    Completes (.srcRecoverExpiry e) s (s.leavePartner e .recovery)) ∧
  (∀ (s : State) (e : Fin 17), (s.eng e).hr = .sinkWait → (s.eng e).state = .attSnk →
    Completes (.sinkHardResetTimeout e) s (s.partnerGone e)) ∧
  (∀ (s : State) (e : Fin 17), (s.eng e).epr = true → Completes (.eprKeepaliveTimeout e) s (s.sendHardReset e)) ∧
  (∀ (s : State) (e : Fin 17), (s.eng e).eprExit = true → (s.eng e).kind = 4 ∨ (s.eng e).kind = 5 →
    Completes (.eprExitLimit e) s (s.sendHardReset e)) ∧
  (∀ (s : State) (e : Fin 17), (s.eng e).eprExit = true → (s.eng e).kind < 4 →
    Completes (.eprExitLimit e) s (s.modEng e (fun x => { x with eprExit := false }))) ∧
  (∀ (s : State) (e : Fin 17), (s.eng e).source = true → (s.eng e).kind = 3 → Completes (.ppsTimeout e) s (s.sendHardReset e)) ∧
  (∀ (s : State) (e : Fin 17), (s.eng e).holdReady = true → (s.eng e).tx = none →
    Completes (.holdingPsRdy e) s ((s.modEng e (fun x => { x with holdReady := false })).sendNow e (controlMsg ctlPsRdy)))

/-- A trip (R347 to R349): the gate and VCONN turn off, the engine recovers from the error, the trip is counted with its kind, and the
port waits its retry gap, or is latched where RUN would exceed RETRIES. A path that is off does not trip, nor does a ganged port by its
own shunt; a slow over-current trips where no PPS contract stands. After a trip (R349, R356, R359): the retry gap ends, RUN returns to 0
with 10 s of power, the latch clears when the CC lines show no partner, a path that fails loses its gate and its terminations, and PU's
bad VBUS is recorded while it is powered. -/
def Obligations.TripsAreTakenAndLeft : Prop :=
  (∀ (s : State) (p : Fin 17), s.shunted p = true → Completes (.fastOvercurrent p) s (s.trip p 1)) ∧
  (∀ (s : State) (p : Fin 17), s.shunted p = true → (s.eng p).kind ≠ 3 → Completes (.slowOvercurrent p) s (s.trip p 2)) ∧
  (∀ (s : State) (p : Fin 17), (s.moor p).gate = true → Completes (.overvoltageTrip p) s (s.trip p 3)) ∧
  (∀ (s : State) (p : Fin 17), s.shunted p = true → Completes (.reverseCurrentTrip p) s (s.trip p 4)) ∧
  (∀ (s : State) (p : Fin 17) (k : Nat), (s.moor p).gate = true →
    ((s.trip p k).eng p).state = .recovery ∧ ((s.trip p k).eng p).vconnOn = false ∧ ((s.trip p k).moor p).gate = false ∧
      ((s.trip p k).moor p).tripKind = k ∧ ((s.trip p k).moor p).trip = (s.moor p).trip.bump ∧
      ((s.trip p k).moor p).latched = decide ((s.moor p).retries < (s.moor p).run + 1) ∧
      ((s.trip p k).moor p).gap = !decide ((s.moor p).retries < (s.moor p).run + 1)) ∧
  (∀ (s : State) (p : Fin 17) (k : Nat), (s.moor p).gate = false → s.trip p k = s ∧ Completes (.overvoltageTrip p) s s) ∧
  (∀ (s : State) (p : Fin 17), s.ganged p = true → Completes (.fastOvercurrent p) s s) ∧
  (∀ (s : State) (p : Fin 17), Completes (.retryGapExpiry p) s (s.modMoor p (fun m => { m with gap := false }))) ∧
  (∀ (s : State) (n : Fin 16), (s.moor (pathOf n)).gate = true →
    Completes (.tripRunClear (pathOf n)) s
      ((s.modMoor (pathOf n) (fun m => { m with run := 0 })).modSector (sectorOf n) (fun x => { x with run := 0 }))) ∧
  (∀ (s : State) (p : Fin 17), (s.eng p).partner = 0 →
    Completes (.latchClearNoPartner p) s
      ((s.modMoor p (fun m => { m with latched := false })).modEng p (fun x => { x with known := false }))) ∧
  (∀ (s : State) (p : Fin 17), s.mode ≠ .dark → s.pathFailed p = false → (s.moor p).gate = true →
    Completes (.mooringFail p 4) s (s.failPath p 4)) ∧
  (∀ (s : State) (n : Fin 16), ((s.failPath (pathOf n) 4).port n).failed = true ∧ ((s.failPath (pathOf n) 4).port n).state = .failed) ∧
  (∀ s : State, (s.moor pu).gate = true → Completes .puVbusBadExpiry s (s.modMoor pu (fun m => { m with vbad := true })))

/-- SEC_s_TARGET (R353): a write that passes every test starts a ramp and sets REFUSE to 0; one that fails a test leaves TARGET unchanged
with that test's code in REFUSE; a value outside the range and the sector's VMAX has code 1; and a requester that is neither the primary
manager nor a keeper is refused with reason 2. -/
def Obligations.TargetsAreTested : Prop :=
  (∀ (s s1 : State) (p : Path) (r : Requester) (q : Fin 4) (v : DWord), s.Brings p r → s1 = s.arrived p r (targetOff q) →
    (s1.isPrimary r || r.isKeeper) = true → s1.mode ≠ .safe → s1.mode ≠ .relight → s1.mode ≠ .update →
    s1.targetCode q (fieldNat v 0 13) ≠ 0 →
    Completes (.secTargetWrite p q v) s (s1.modSector q (fun x => { x with refuse := s1.targetCode q (fieldNat v 0 13) }))) ∧
  (∀ (s s1 : State) (p : Path) (r : Requester) (q : Fin 4) (v : DWord), s.Brings p r → s1 = s.arrived p r (targetOff q) →
    (s1.isPrimary r || r.isKeeper) = true → s1.mode ≠ .safe → s1.mode ≠ .relight → s1.mode ≠ .update →
    s1.targetCode q (fieldNat v 0 13) = 0 → (s1.sector q).en = true → (s1.sector q).moving = false →
    Completes (.secTargetWrite p q v) s ((s1.ppsRelease q).modSector q (fun x =>
      { x with refuse := 0, target := fieldNat v 0 13, moving := true, atLevel := false, ppsCl := false }))) ∧
  (∀ (s s1 : State) (p : Path) (r : Requester) (q : Fin 4) (v : DWord), s.Brings p r → s1 = s.arrived p r (targetOff q) →
    (s1.isPrimary r || r.isKeeper) = false → Completes (.secTargetWrite p q v) s (s1.refuse r 2 (targetOff q))) ∧
  (∀ (s : State) (q : Fin 4) (v : Nat), v < 500 ∨ 4900 < v ∨ 10 * (s.sector q).vmax < v → s.targetCode q v = 1)

/-- A sector (R352, R353): it is enabled at 5 V when its conditions hold, PG rises, its ramp ends at TARGET and it reaches its level. A
sector fault (R354): the gates of the quad turn off, SECs_EN falls and TARGET is 500; the cause is recorded, and the sector is latched
where RUN would exceed RETRIES. The gap ends, and the current loop of a PPS contract that no longer limits is not shown (R350). -/
def Obligations.SectorsRiseAndFault : Prop :=
  (∀ (s : State) (q : Fin 4),
     (s.sectorWanted q = true → (s.sector q).en = false →
       Completes (.sectorEnable q) s (s.modSector q (fun x =>
         { x with en := true, pg := false, moving := false, atLevel := false, ppsCl := false, target := 500, level := 500, oc := false }))) ∧
     (s.sectorWanted q = false → Completes (.sectorEnable q) s s) ∧
     ((s.sector q).en = true → Completes (.sectorPgRise q) s (s.modSector q (fun x => { x with pg := true }))) ∧
     ((s.sector q).moving = true →
       Completes (.sectorRampEnd q) s (s.modSector q (fun x => { x with moving := false, level := x.target }))) ∧
     ((s.sector q).en = true → (s.sector q).moving = false →
       Completes (.sectorAtLevel q) s (s.modSector q (fun x => { x with atLevel := true })))) ∧
  (∀ (s : State) (q : Fin 4) (c : Nat), (s.sector q).mayFault c = true → Completes (.sectorFault q c) s (s.failSector q c)) ∧
  (∀ (s : State) (q : Fin 4) (c : Nat), ((s.failSector q c).sector q).en = false ∧ ((s.failSector q c).sector q).target = 500 ∧
    ((s.failSector q c).sector q).faultCause = c ∧
    ((s.failSector q c).sector q).latched = decide ((s.sector q).retries < (s.sector q).run + 1)) ∧
  (∀ (s : State) (q : Fin 4) (c : Nat) (n : Fin 16), n ∈ portsOf q → ((s.failSector q c).moor (pathOf n)).gate = false) ∧
  (∀ (s : State) (q : Fin 4), Completes (.sectorRetryGapExpiry q) s (s.modSector q (fun x => { x with gap := false }))) ∧
  (∀ (s : State) (q : Fin 4) (n : Fin 16), s.ppsPort q = some n → (s.sector q).en = true → (s.sector q).moving = false →
    Completes (.ppsCurrentLimit q false) s ((s.modMoor (pathOf n) (fun m => { m with ppsCl := false })).modSector q (fun x =>
      { x with ppsCl := false, level := x.target })))

/-- Shedding (R357): in SHED, while VIN sags, each interval sheds a group; after SHED each interval restores one, and the intervals end
when nothing is shed. A path of PRIO 7 is never shed. PORT_POWER and PORT_MEASURE (R360 to R362): status and measurement complete at once,
OFF turns power off as a trip does, sets OFF_CMD and completes at vSafe0V, ON clears OFF_CMD, the latch, RUN and the gap, CYCLE is OFF
then ON; a port that is not fitted or has failed is GONE, and an issuer that is neither its owner nor the primary manager gets NOT_OWNER.
-/
def Obligations.PowerIsShedAndCommanded : Prop :=
  (∀ s : State, s.pwr.shedTimer = true → s.mode = .shed → s.vinSag = true → Completes .shedStep s s.shedGroup) ∧
  (∀ s : State, s.pwr.shedTimer = true → s.mode ≠ .shed → Completes .shedStep s s.restoreGroup) ∧
  (∀ s : State, s.pwr.shedTimer = true → s.mode ≠ .shed → (∀ p : Fin 17, (s.moor p).shed = false) →
    Completes .shedStep s { s with pwr := { s.pwr with shedTimer := false } }) ∧
  (∀ (s : State) (p : Fin 17), (s.moor p).prio = 7 → (s.moor p).shed = false → (s.shedGroup.moor p).shed = false) ∧
  (∀ (s s1 : State) (f : Func) (i : Half) (e : Entry) (n : Fin 16), s.Issues f 0x60 i e s1 → powerOk e = true → n = portParam e →
    s1.portFit n = true → (s1.port n).failed = false → s1.portOwner n = f ∨ f = s1.primary →
    (fieldNat e[0] 4 4 = 0 → Completes (.portPowerStatus f) s (s1.completeCmd f i e .success (s1.morStatus (pathOf n)) 0)) ∧
    (fieldNat e[0] 4 4 = 1 → (s1.moor (pathOf n)).vsafe0v = false →
      Completes (.portPowerOff f) s (State.cmdEnd f i e (.started ((s1.leavePartner (pathOf n) .recovery).modMoor (pathOf n)
        (fun m => { m with offCmd := true, cmd := m.cmd ++ [(f, false)] }))))) ∧
    (fieldNat e[0] 4 4 = 1 → (s1.moor (pathOf n)).vsafe0v = true → ∀ u : State,
      u = (s1.leavePartner (pathOf n) .recovery).modMoor (pathOf n) (fun m => { m with offCmd := true }) →
      Completes (.portPowerOff f) s (u.completeCmd f i e .success (u.morStatus (pathOf n)) 0)) ∧
    (fieldNat e[0] 4 4 = 2 → ∀ u : State, u = s1.powerOn f n →
      Completes (.portPowerOn f) s (u.completeCmd f i e .success (u.morStatus (pathOf n)) 0)) ∧
    (fieldNat e[0] 4 4 = 3 → (s1.moor (pathOf n)).vsafe0v = false →
      Completes (.portPowerCycle f) s (State.cmdEnd f i e (.started ((s1.leavePartner (pathOf n) .recovery).modMoor (pathOf n)
        (fun m => { m with offCmd := true, cmd := m.cmd ++ [(f, true)] })))))) ∧
  (∀ (s s1 : State) (f : Func) (i : Half) (e : Entry) (n : Fin 16), s.Issues f 0x61 i e s1 → fieldNat e[0] 4 28 = 0 →
    paramsZero e [1, 2, 3, 4, 5] = true → n = portParam e → s1.portFit n = true → (s1.port n).failed = false →
    s1.portOwner n = f ∨ f = s1.primary →
    Completes (.portMeasure f) s (s1.completeCmd f i e .success (s1.moor (pathOf n)).meas (s1.morLimits (pathOf n)))) ∧
  (∀ (s s1 : State) (f : Func) (i : Half) (e : Entry) (n : Fin 16), s.Issues f 0x60 i e s1 → powerOk e = true → n = portParam e →
    fieldNat e[0] 4 4 = 2 →
    (s1.portFit n = false → Completes (.portPowerOn f) s (s1.completeCmd f i e .gone 0 0)) ∧
    (s1.portFit n = true → (s1.port n).failed = false → s1.portOwner n ≠ f → f ≠ s1.primary →
      Completes (.portPowerOn f) s (s1.completeCmd f i e .notOwner 0 0)))

/-- The Lantern's connection (R367, R369, R371, R372): LAN_CONNECT is written by the primary manager and by firmware, the pull-up goes on
when every condition holds and off when one fails, and a bus reset starts at address 0 with every armed buffer ABORTED. Buffers and
endpoints (R374, R376, R379): firmware arms a buffer of a length in range, enables an endpoint direction whose blocks are free, and halts
one; a length that is out of range arms nothing and counts a fault of kind 3. -/
def Obligations.LanternConnects : Prop :=
  (∀ (s s1 : State) (p : Path) (r : Requester) (v : DWord), s.Brings p r → s1 = s.arrived p r 0x80000 →
    (s1.isPrimary r || r.firmware) = true → s1.lan.pullup = true →
    Completes (.lanConnectWrite p v) s (s1.modLan (fun x => { x with en := bitOf v 0, fsOnly := bitOf v 4 }))) ∧
  (∀ (s s1 : State) (p : Path) (r : Requester) (v : DWord), s.Brings p r → s1 = s.arrived p r 0x80000 →
    (s1.isPrimary r || r.firmware) = false → Completes (.lanConnectWrite p v) s (s1.refuse r 2 0x80000)) ∧
  (∀ s : State, s.lanMay = true → s.lan.pullup = false →
    Completes .lanternConnect s (s.modLan (fun x => { x with pullup := true, state := .powered, high := false, sofValid := false }))) ∧
  (∀ s : State, s.lan.pullup = true → s.lanMay = false →
    Completes .lanternDisconnect s (s.lanClear.modLan (fun x =>
      { x with pullup := false, state := x.idleState, high := false, sofValid := false, ibp := { x.ibp with waiting := [] } }))) ∧
  (∀ (s : State) (high : Bool), s.lan.pullup = true → ∃ u : State, Completes (.lanBusReset high) s u ∧ u.lan.state = .default ∧
    u.lan.addr = 0 ∧ u.lan.rweHost = false ∧ u.lan.reset = s.lan.reset.bump ∧ (u.lan.high = true → high = true ∧ s.lan.fsOnly = false) ∧
    ∀ i : Fin 32, u.lan.ep[i].halted = false ∧ u.lan.ep[i].toggle = false ∧ u.lan.ep[i].buf0.armed = false ∧
      u.lan.ep[i].buf1.armed = false) ∧
  (∀ (s s1 : State) (p : Path) (r : Requester) (i : Fin 32) (v : DWord), s.Brings p r → s1 = s.arrived p r (epOff i 8) → r.firmware = true →
    4 ≤ i.val → bitOf v 31 = true → (s1.lanEp i).buf0.armed = false →
    (s1.lanLenOk i (fieldNat v 0 17) = true →
      ∃ u : State, Completes (.bufferArm p i false v) s u ∧ (u.lanEp i).buf0.armed = true ∧ (u.lanEp i).buf0.len = fieldNat v 0 17 ∧
        (u.lanEp i).buf0.count = 0 ∧ (u.lanEp i).buf0.done = false ∧ (u.lanEp i).buf1 = (s1.lanEp i).buf1) ∧
    (s1.lanLenOk i (fieldNat v 0 17) = false → Completes (.bufferArm p i false v) s (s1.lanFault 3 i))) ∧
  (∀ (s s1 : State) (p : Path) (r : Requester) (i : Fin 32) (v : DWord), s.Brings p r → s1 = s.arrived p r (epOff i 0) → r.firmware = true →
    4 ≤ i.val → bitOf v 31 = true → (s1.lanEp i).en = false → s1.carve i ((s1.lanEp i).written i v) = 0 →
    Completes (.epEnable p i v) s (s1.modEp i (fun x => { x.written i v with en := true }))) ∧
  (∀ (s s1 : State) (p : Path) (r : Requester) (i : Fin 32) (v : DWord), s.Brings p r → s1 = s.arrived p r (epOff i 0) → r.firmware = true →
    4 ≤ i.val → bitOf v 31 = false → bitOf v 29 = true → (s1.lanEp i).en = false →
    ∃ u : State, Completes (.epStall p i v) s u ∧ (u.lanEp i).halted = true ∧ (u.lanEp i).en = false)

/-- A token to an endpoint direction whose EN is 0 is answered STALL; EP0 is always enabled while the pull-up is on (R375, R379). An armed
buffer answers and an unarmed one NAKs (R377, R378); a PING is answered ACK where the OUT buffer is armed and NAK where it is not. A SETUP
packet (R380): EP0's armed buffers end, its halt clears, and the packet is held and counted. An address that firmware writes takes effect
at the status stage of SET_ADDRESS (R372). -/
def Obligations.TokensAreAnswered : Prop :=
  (∀ (s : State) (e : Fin 16), s.lan.live = true → s.ibpRuns = false →
     (∀ acked : Bool, e ≠ 0 → (s.lanEp (epIn e)).en = false → Completes (.lanInToken e acked) s (s.emit (.lanStall e))) ∧
     (∀ (t : Bool) (b : List (Byte × Bool)), e ≠ 0 → (s.lanEp (epOut e)).en = false → b.length ≤ s.lan.maxp (epOut e) →
       Completes (.lanOutToken e t b) s (s.emit (.lanStall e))) ∧
     (e ≠ 0 → s.lan.high = true → (s.lanEp (epOut e)).en = false → Completes (.lanPing e) s (s.emit (.lanStall e))) ∧
     (∀ acked : Bool, (s.lanEp (epIn e)).en = true ∨ e = 0 → (s.lanEp (epIn e)).halted = false →
       (((s.lanEp (epIn e)).buf (s.lanEp (epIn e)).next).armed = false → Completes (.lanInToken e acked) s (s.emit (.lanNak e))) ∧
       (((s.lanEp (epIn e)).buf (s.lanEp (epIn e)).next).armed = true → Completes (.lanInToken e acked) s (s.bufferIn e acked))) ∧
     (∀ (t : Bool) (b : List (Byte × Bool)), (s.lanEp (epOut e)).en = true ∨ e = 0 → (s.lanEp (epOut e)).halted = false →
       b.length ≤ s.lan.maxp (epOut e) →
       (((s.lanEp (epOut e)).buf (s.lanEp (epOut e)).next).armed = false → Completes (.lanOutToken e t b) s (s.emit (.lanNak e))) ∧
       (((s.lanEp (epOut e)).buf (s.lanEp (epOut e)).next).armed = true → t = (s.lanEp (epOut e)).toggle →
         Completes (.lanOutToken e t b) s (s.bufferOut e b))) ∧
     (s.lan.high = true → (s.lanEp (epOut e)).en = true ∨ e = 0 → (s.lanEp (epOut e)).halted = false →
       Completes (.lanPing e) s (s.emit (if ((s.lanEp (epOut e)).buf (s.lanEp (epOut e)).next).armed then .lanAck e else .lanNak e)))) ∧
  (∀ (s : State) (b : Vector Byte 8), s.lan.live = true → Completes (.lanSetup b) s (s.lanSetup b)) ∧
  (∀ (s : State) (b : Vector Byte 8), s.ibpRuns = false →
    (s.lanSetup b).lan.setupLo = dwordOfBytes (b.toList.take 4) ∧ (s.lanSetup b).lan.setupHi = dwordOfBytes (b.toList.drop 4) ∧
      (s.lanSetup b).lan.setup = s.lan.setup.bump ∧ (s.lanSetup b).lan.ep[0].halted = false ∧ (s.lanSetup b).lan.ep[1].halted = false ∧
      (s.lanSetup b).lan.ep[0].buf0.armed = false ∧ (s.lanSetup b).lan.ep[1].buf0.armed = false) ∧
  (∀ (s s1 : State) (p : Path) (r : Requester) (v : DWord), s.Brings p r → s1 = s.arrived p r 0x80008 → r.firmware = true →
    s1.ibpRuns = false →
    Completes (.lanAddrWrite p v) s (s1.modLan (fun x => { x with addrReg := fieldNat v 0 7, addrPend := some (fieldNat v 0 7) }))) ∧
  (∀ (s : State) (a n : Nat), s.ibpRuns = false → s.lan.request = .setAddress n → s.lan.addrPend = some a →
    s.statusDone.lan.addr = a ∧ s.statusDone.lan.addrPend = none)

/-- Suspend, L1, resume and remote wake (R383 to R385), and the start-of-frame stamp and its errors (R386). -/
def Obligations.LanternFollowsTheBus : Prop :=
  (∀ s : State, s.lan.live = true → Completes .lanSuspend s (s.modLan (fun x => { x with state := .suspended, before := x.state }))) ∧
  (∀ s : State, s.lan.state = .suspended →
    Completes .lanResume s ((s.modLan (fun x => { x with state := x.before })).sendWaitingNotes).flushReply) ∧
  (∀ (s : State) (link besl : Fin 16) (rwe : Bool), s.lan.live = true → s.lan.lpmEnTaken = true → link = 1 →
    s.lan.beslTaken ≤ besl.val → s.lan.partlyUsed = false →
    Completes (.lanLpm link besl rwe) s
      ((s.modLan (fun x => { x with lpmResp := 1, lpmRwe := rwe, lpmBesl := besl.val, state := .l1 })).emit (.lanAck 0))) ∧
  (∀ (s : State) (link besl : Fin 16) (rwe : Bool), s.lan.live = true → s.lan.lpmEnTaken = false ∨ link ≠ 1 →
    Completes (.lanLpm link besl rwe) s
      ((s.modLan (fun x => { x with lpmResp := 3, lpmRwe := rwe, lpmBesl := besl.val })).emit (.lanStall 0))) ∧
  (∀ (s s1 : State) (p : Path) (r : Requester) (v : DWord) (idle : Bool), s.Brings p r → s1 = s.arrived p r 0x80020 → r.firmware = true →
    bitOf v 0 = true → s1.lan.mayWake idle = true → Completes (.lanWakeRequest p v idle) s (s1.modLan (fun x => { x with wakeReq := true }))) ∧
  (∀ s : State, Completes .lanWakeEnd s (s.modLan (fun x => { x with wakeReq := false }))) ∧
  (∀ (s : State) (frame : Fin 2048) (offset : Nat), s.lan.live = true → ∃ u : State, Completes (.lanSof frame offset) s u ∧
    u.lan.sofFrame = frame.val ∧ u.lan.sofValid = true ∧ fieldNat u.lan.sofStamp 16 16 = s.bcn.count.toNat % 65536 ∧
    (s.lan.sofValid = true → s.lan.sofNext / 8 = frame.val → u.lan.sofErr = s.lan.sofErr) ∧
    (s.lan.sofValid = true → s.lan.sofNext / 8 ≠ frame.val → u.lan.sofErr = s.lan.sofErr.bump)) ∧
  (∀ s : State, s.lan.pullup = true → s.lan.state = .addressed → s.lan.sofValid = true →
    Completes .lanSofMissing s (s.modLan (fun x => { x with sofErr := x.sofErr.bump, sofNext := x.sofStep x.sofNext })))

/-- The Ibley Bridge Protocol (R389): while the engine's endpoints are open, a request of the next SEQ and a good form is executed and
answered, and LAST_SEQ advances with an OK; a request of the last SEQ is answered with the stored response and executed no more; any other
SEQ is answered BAD_SEQ, and a bad form BAD_MESSAGE, with no effect. HELLO is executed whatever its SEQ. What the requests reach (R392,
R393, R394, R397, Table 13.10): a range outside the mode's subset is NOT_PERMITTED with no effect, a memory write in range is stored, a
firmware message waits for the acknowledgement of the one before, and a reply of firmware in form is taken. -/
def Obligations.IbpRequestsAreExecuted : Prop :=
  (∀ (s : State) (m : IbpMsg), s.ibpOpen = true → m.flags = 0 → m.a0 = 0 → m.a1 = 0 → m.payload = [] →
    Completes (.ibpHello m) s (State.ibpSend 0x01 m (ibpOk s.hello s.helloData)).flushReply) ∧
  (∀ (s : State) (m : IbpMsg), s.ibpOpen = true → m.seq = s.lan.ibp.lastSeq + 1 → m.flags = 0 →
    (m.payload = [] → ibpRange m.a0.toNat m.a1.toNat = true → Completes (.ibpRegRead m) s (State.ibpSend 0x02 m (s.ibpRegRead m))) ∧
    (m.a1 = 0 → m.payload.length % 4 = 0 → ibpRange m.a0.toNat (m.payload.length / 4) = true →
      Completes (.ibpRegWrite m) s (State.ibpSend 0x03 m (s.ibpRegWrite m))) ∧
    (m.payload = [] → ibpBytes m.a1.toNat = true → Completes (.ibpMemRead m) s (State.ibpSend 0x04 m (s.ibpMemRead m))) ∧
    (m.a1 = 0 → ibpBytes m.payload.length = true → Completes (.ibpMemWrite m) s (State.ibpSend 0x05 m (s.ibpMemWrite m))) ∧
    (m.a0 = 0 → m.a1 = 0 → m.payload.length % 4 = 0 → 4 ≤ m.payload.length → m.payload.length ≤ 64 →
      Completes (.ibpDoorbell m) s (State.ibpSend 0x06 m (s.ibpDoorbells m))) ∧
    (m.a0 = 0 → m.a1 = 0 → m.payload.length % 4 = 0 → 4 ≤ m.payload.length → m.payload.length ≤ 4080 →
      Completes (.ibpFwMsg m) s (State.ibpSend 0x07 m (s.ibpFwMsg m)))) ∧
  (∀ (s : State) (m : IbpMsg) (type : BitVec 8), s.ibpOpen = true → m.payload.length ≤ 4080 →
    (m.seq = s.lan.ibp.lastSeq + 1 → Completes (.ibpBadMessage type m) s (State.ibpSend type.toNat m (ibpNo s 2))) ∧
    (m.seq = s.lan.ibp.lastSeq → Completes (.ibpBadMessage type m) s (s.ibpReplay type.toNat m.seq)) ∧
    (m.seq ≠ s.lan.ibp.lastSeq → m.seq ≠ s.lan.ibp.lastSeq + 1 →
      Completes (.ibpBadMessage type m) s (State.ibpSend type.toNat m (ibpNo s 3)) ∧
      Completes (.ibpRegWrite m) s (State.ibpSend 0x03 m (ibpNo s 3)))) ∧
  (∀ (s : State) (m : IbpMsg), s.ibpOpen = true → m.seq = s.lan.ibp.lastSeq → Completes (.ibpRegWrite m) s (s.ibpReplay 0x03 m.seq)) ∧
  (∀ (type : Nat) (m : IbpMsg) (a : IbpAnswer),
    (State.ibpSend type m a).lan.ibp.lastSeq = if a.status = 2 ∨ a.status = 3 ∨ a.status = 5 then a.after.lan.ibp.lastSeq else m.seq) ∧
  (∀ (s : State) (m : IbpMsg), s.ibpMem m.a0.toNat (m.payload.length / 2) = false → s.ibpMemWrite m = ibpNo s 1) ∧
  (∀ (s : State) (m : IbpMsg), s.ibpMem m.a0.toNat (m.payload.length / 2) = true →
    s.ibpMemWrite m = ibpOk { s with hst := s.hst.writeBytes (2 * m.a0.toNat) (m.payload.map (fun b => (b, false))) } []) ∧
  (∀ (s : State) (m : IbpMsg) (o : Nat), o ∈ ibpOffsets m.a0.toNat m.a1.toNat → ibpReads s.ibpSubset o = false →
    s.ibpRegRead m = ibpNo s 1) ∧
  (∀ (s : State) (m : IbpMsg), s.ibpSubset = 5 → 4 ≤ m.payload.length → s.ibpRegWrite m = ibpNo s 1) ∧
  (∀ (s : State) (m : IbpMsg), s.ibpNotifies = false → s.ibpDoorbells m = ibpNo s 1) ∧
  (∀ (s : State) (m : IbpMsg), s.ibpSubset = 1 ∨ s.ibpSubset = 5 → s.boxOk = true → s.lan.ibp.inSeq ≠ s.lan.ibp.inAck →
    s.ibpFwMsg m = ibpNo s 5) ∧
  (∀ (s s1 : State) (p : Path) (r : Requester) (v : DWord), s.Brings p r → s1 = s.arrived p r 0x82018 → r.firmware = true →
    s1.ibpRuns = true → s1.boxOk = true → hiHalf v ≠ s1.lan.ibp.outSeq → s1.lan.ibp.outBusy = false → fieldNat v 0 12 % 4 = 0 →
    4 ≤ fieldNat v 0 12 → fieldNat v 0 12 ≤ 4080 →
    Completes (.fwReply p v) s
      (s1.modLan (fun x => { x with ibp := { x.ibp with outSeq := hiHalf v, outLen := fieldNat v 0 12, outBusy := true } })).flushReply)

/-- The Holding Store's engines (R467, R474 to R476): a merge-buffer entry drains into its row, the scrubber is started, reads one row at
a time, and is stopped; a requester that is neither the primary manager nor a keeper is refused. A bit that flips of itself (R28, R146,
R419, R469): in the store it changes that word alone, in a sealed register its parity fails with it; a word of a counter record is read as
it flips (the model's choice, log 3), and where its parity fails the counter is POISONED; where there is no such counter the word flips as
it is stored; in DARK nothing is held. -/
def Obligations.StoreEnginesAndUpsets : Prop :=
  (∀ (s : State) (row : Fin 0x40000) (e : MergeEntry), s.hst.mergeOf row.val = some e →
    Completes (.mergeDrain row) s (s.modHst (fun h => h.drain e))) ∧
  (∀ (s : State) (row : Fin 0x40000), s.hst.mergeOf row.val = none → Completes (.mergeDrain row) s s) ∧
  (∀ (s s1 : State) (p : Path) (r : Requester) (v : DWord), s.Brings p r → s1 = s.arrived p r 0xB0108 → s1.mayScrub r = true →
    s1.hst.scrub.busy = false →
    Completes (.scrubGo p v) s (s1.modHst (fun h => { h with scrub := ({ h.scrub with pace := fieldNat v 0 8 } : Scrubber).go s1.wick }))) ∧
  (∀ (s s1 : State) (p : Path) (r : Requester) (v : DWord), s.Brings p r → s1 = s.arrived p r 0xB0108 → s1.mayScrub r = true →
    s1.hst.scrub.busy = true →
    Completes (.scrubStop p v) s (s1.modHst (fun h => { h with scrub := { h.scrub with pace := fieldNat v 0 8, stopping := true } }))) ∧
  (∀ (s s1 : State) (p : Path) (r : Requester) (v : DWord), s.Brings p r → s1 = s.arrived p r 0xB0108 → s1.mayScrub r = false →
    Completes (.scrubGo p v) s (s1.refuse r 2 0xB0108)) ∧
  (∀ s : State, Completes .scrubRow s (s.modHst HoldingStore.scrubRow)) ∧
  (∀ s : State, s.hst.scrub.busy = false → Completes .scrubRow s s) ∧
  (∀ (s : State) (w : Fin 0x100000) (bit : Fin 18), s.mode ≠ .dark →
    Completes (.upset (.store w bit)) s (s.modHst (fun h => h.flipArray w.val bit.val))) ∧
  (∀ (s : State) (u : UpsetAt), s.mode = .dark → Completes (.upset u) s s) ∧
  (∀ (s s1 : State) (c : Nat) (x : Counter) (w : Fin 0x100000) (bit : Fin 18), s.mode ≠ .dark → s.ctr c = some x →
    s1 = (s.strike 0x16 w bit).2.modTnd (fun t => { t with struckCtr := (c, w.val) :: t.struckCtr }) →
    ((s.strike 0x16 w bit).1 = true → Completes (.upset (.counter c w bit)) s (s1.poisonCounter c x)) ∧
    ((s.strike 0x16 w bit).1 = false → Completes (.upset (.counter c w bit)) s s1)) ∧
  (∀ (s : State) (c : Nat) (w : Fin 0x100000) (bit : Fin 18), s.mode ≠ .dark → s.ctr c = none →
    Completes (.upset (.counter c w bit)) s (s.modHst (fun h => h.flipStored w.val bit.val))) ∧
  (∀ (s : State) (off : Nat) (byte : Fin 4), s.mode ≠ .dark → sealedOffsets.contains off = true →
    s.reg.parityBad.contains (off + byte.val) = false →
    Completes (.upset (.sealedByte off byte 8)) s
      (s.modReg (fun x => { x with parityBad := setInsert x.parityBad (off + byte.val) })))

/-- Freezing and thawing a Buoy (R482, R483, R485, R504): a freeze starts and is reported, it ends when nothing of the Buoy is in flight
any more, with the count, and the thaw runs the Buoy again. A thaw by a function that is not the primary manager gets NOT_OWNER, and a
freeze of a Buoy without a home OUTCOME 1. -/
def Obligations.BuoysFreezeAndThaw : Prop :=
  (∀ (s s1 : State) (f : Func) (i : Half) (e : Entry) (b : Fin 15), s.Issues f 0x50 i e s1 → s.migBusy = false → migPlain e = some b →
    s1.isPrimaryFn f = true → (s1.buoy b).home.isSome = true → (s1.migr b).phase = .running →
    Completes (.buoyFreeze f) s (State.cmdEnd f i e (.started
      (((s1.modMigr b (fun _ => { phase := .freezing, cmd := some f })).forgetRequester (.buoy b)).postFnEvent (.buoy b) 0x09 s1.bcn.count
        0 0)))) ∧
  (∀ (s : State) (b : Fin 15) (g : Func), s.mayBeFrozen b = true → (s.migr b).cmd = some g →
    Completes (.buoyFrozen b) s
      ((s.modMigr b (fun m => { m with phase := .frozen, cmd := none })).finishCmd g .success s.bcn.count 0)) ∧
  (∀ (s : State) (b : Fin 15), s.mayBeFrozen b = false → Completes (.buoyFrozen b) s s) ∧
  (∀ (s s1 : State) (f : Func) (i : Half) (e : Entry) (b : Fin 15), s.Issues f 0x51 i e s1 → s.migBusy = false → migPlain e = some b →
    s.canMaster (.buoy b) = true → s1.isPrimaryFn f = true → (s1.buoy b).home.isSome = true → (s1.migr b).phase = .frozen →
    Completes (.buoyThaw f) s
      ((s1.thaw b).completeCmd f i e .success (s1.frozenFor b) (putField (s1.missedCount b) 16 16))) ∧
  (∀ (s s1 : State) (f : Func) (i : Half) (e : Entry) (b : Fin 15), s.Issues f 0x51 i e s1 → s.migBusy = false → migPlain e = some b →
    s.canMaster (.buoy b) = true → s1.isPrimaryFn f = false → Completes (.buoyThaw f) s (s1.completeCmd f i e .notOwner 0 0)) ∧
  (∀ (s s1 : State) (f : Func) (i : Half) (e : Entry) (b : Fin 15), s.Issues f 0x50 i e s1 → s.migBusy = false → migPlain e = some b →
    s1.isPrimaryFn f = true → (s1.buoy b).home = none → Completes (.buoyFreeze f) s (s1.completeCmd f i e .success 0 1))

/-- Saving, restoring and re-homing a frozen Buoy (R496, R498, R501, R504): the image is written to its slot with a CRC that the command
reports; a restore checks the slot's form and CRC before it replaces anything; a save of a Buoy that is not frozen gives OUTCOME 3; a
re-homed Buoy is on the other link; LOG_SWAP swaps the maps of a Logbook that logs, and gives OUTCOME 8 for one that does not. -/
def Obligations.BuoysAreSavedAndMoved : Prop :=
  (∀ (s s1 : State) (f : Func) (i : Half) (e : Entry) (b : Fin 15), s.Issues f 0x52 i e s1 → s.migBusy = false → migAddr f e = some (b, none) →
    s1.isPrimaryFn f = true → (s1.buoy b).home.isSome = true → (s1.migr b).phase = .frozen →
    (s1.fn (.buoy b)).pushedCopies.length ≤ 128 → (s1.fn (.buoy b)).heldEvents.length ≤ 32 →
    Completes (.buoySave f none) s
      (({ s1 with hst := s1.hst.writeWords (imageBase b) ((s1.imageOf b).map (fun w => (w, false))) } : State).completeCmd f i e .success
        (recDWord (s1.imageOf b) 14)
        (putField (s1.fn (.buoy b)).pushedCopies.length 16 16 ||| putField (s1.fn (.buoy b)).heldEvents.length 8 8))) ∧
  (∀ (s s1 : State) (f : Func) (i : Half) (e : Entry) (b : Fin 15) (o : Option QWord), s.Issues f 0x52 i e s1 → s.migBusy = false →
    migAddr f e = some (b, o) → s.canMaster f = true → s1.isPrimaryFn f = true → (s1.buoy b).home.isSome = true →
    (s1.migr b).phase ≠ .frozen → Completes (.buoySave f none) s (s1.completeCmd f i e .success 0 3)) ∧
  (∀ (s s1 : State) (f : Func) (i : Half) (e : Entry) (b : Fin 15), s.Issues f 0x53 i e s1 → s.migBusy = false → migAddr f e = some (b, none) →
    s1.isPrimaryFn f = true → (s1.buoy b).home.isSome = true → (s1.migr b).phase = .frozen →
    Completes (.buoyRestore f []) s (State.cmdEnd f i e (s1.restoreSlot b false false))) ∧
  (∀ (s : State) (b : Fin 15) (ws : List Half) (h : HoldingStore), s.hst.readWords 0x1C (imageBase b) imageWords = (ws.map (fun w => (w, false)), h) →
    s.restoreSlot b false false =
      if imageOk ws = false then ({ s with hst := h } : State).migOutcome 5
      else if imageCrc ws ≠ recDWord ws 14 then ({ s with hst := h } : State).migOutcome 6
      else ({ s with hst := h } : State).restoreImage b ws) ∧
  (∀ (s s1 : State) (f : Func) (i : Half) (e : Entry) (b : Fin 15) (l : Link), s.Issues f 0x54 i e s1 → s.migBusy = false →
    migPlain e = some b → s1.isPrimaryFn f = true → (s1.buoy b).home = some l → s1.slotExists l.other b = true →
    s1.linkFit l.other = true → (s1.migr b).phase = .frozen → (s1.log b).logging = false →
    ∃ u : State, Completes (.buoyRehome f) s (u.completeCmd f i e .success (BitVec.ofNat 32 l.other.idx.val) 0) ∧
      (u.buoy b).home = some l.other ∧ (u.migr b).rehomed = true) ∧
  (∀ (s s1 : State) (f : Func) (i : Half) (e : Entry) (b : Fin 15), s.Issues f 0x55 i e s1 → s.migBusy = false → migPlain e = some b →
    s1.isPrimaryFn f = true → (s1.buoy b).home.isSome = true →
    ((s1.log b).logging = true →
      Completes (.logSwap f) s (State.cmdEnd f i e (.started (s1.modLog b (fun x => { x with mapB := !x.mapB, swapCmd := some f }))))) ∧
    ((s1.log b).logging = false → Completes (.logSwap f) s (s1.completeCmd f i e .success 0 8)))

/-- An event produced for an open Event Ring (R159, R217, R218): with room and mastering it is written to host memory at EP with the Cycle
bit of EP, and EP advances; otherwise it is held, in order, and nothing is written. A ring that is not open gets none. -/
def Obligations.EventsAreWrittenOrHeld : Prop :=
  (∀ (s : State) (f : Func) (n : Fin 4) (e : EventEntry), (s.evRing f n).opened = true → (s.evRing f n).held = [] →
    (s.evRing f n).noRoom = false → s.canMaster f = true → s.isFrozen f = false →
    s.postEvent f n e = s.writeEvent f n e ∧ ((s.writeEvent f n e).evRing f n).ep = (s.evRing f n).ep + 1 ∧
    (f ≠ .bridge → ∃ rest, (s.writeEvent f n e).out = s.out ++ Output.hostWrite f
      (ofDWords (s.evRing f n).baseHi (s.evRing f n).baseLo + BitVec.ofNat 64 (32 * ((s.evRing f n).ep.toNat % 2 ^ (s.evRing f n).size)))
      (entryBytes (e.dwords.set 7 (e.dwords[7] ||| putBit (cycleAt (s.evRing f n).size (s.evRing f n).ep) 0))) false :: rest)) ∧
  (∀ (s : State) (f : Func) (n : Fin 4) (e : EventEntry), (s.evRing f n).opened = true →
    (s.evRing f n).noRoom = true ∨ s.canMaster f = false ∨ s.isFrozen f = true →
    s.postEvent f n e = s.modEvRing f n (fun x => { x with held := x.held ++ [e] })) ∧
  (∀ (s : State) (f : Func) (n : Fin 4) (e : EventEntry), (s.evRing f n).opened = false → s.postEvent f n e = s)

/-- The event sources (R85, R510, R511, Table 18.1): after every command the device has seen every level, a masked source produces no
entry and drives no ALERT_N, EV293 drives it whatever its mask says, a closing tick delivers what has risen or fallen and starts over, and
no entry is produced in DARK, WICK and KINDLE. -/
def Obligations.LevelsMakeEvents : Prop :=
  (∀ s : State, s.settle.evt.high = s.highNow) ∧
  (∀ (s : State) (e : Nat), s.masked e = true → s.deliverSource e = s) ∧
  (∀ (s : State) (e : Nat), s.masked e = true → e ≠ 293 → s.alerting e = false) ∧
  (∀ s : State, s.alerting 293 = s.level 293) ∧
  (∀ s : State, s.deliverAll.evt.edges = [] ∧ s.deliverAll.evt.restate = []) ∧
  (∀ s : State, s.mode = .dark ∨ s.mode = .wick ∨ s.mode = .kindle → s.deliverAll.rng = s.rng ∧ s.deliverAll.out = s.out) ∧
  (∀ (s : State) (e : Nat), e < 300 → s.mode ≠ .dark → s.mode ≠ .wick → s.mode ≠ .kindle → s.evt.edges = [] → s.level e = true →
    s.evt.high.contains e = false → assocGet s.settle.evt.edges e = some (1, 0))

/-- A step runs the command at the front of the queue with the queue's rest; on an empty queue the block idles (the model's choice, log
6). Every command completes in every state, and a step always answers a next state, since the spec lets each command end in an effect, a
refusal that it counts, or nothing. -/
def Obligations.StepRunsTheFront : Prop :=
  (∀ (s : State) (c : Instr) (rest : List Instr), s.pending = c :: rest → step s = exec c { s with pending := rest }) ∧
  (∀ s : State, s.pending = [] → step s = .next s) ∧
  (∀ (i : Instr) (s : State), ∃ t : State, exec i s = .next t) ∧ (∀ s : State, SafeStep s)

/-- What follows every command (`State.after`: engines, sectors, ports, event levels and restatements) leaves the supply, the boot,
UPDATE, the pins, the clocks, the register file but for what the requesters hold, the Beacon but for its Lamps and the transactions that
outlive their function, the keepers, the SMBus port, the queue and the mode as the command left them: with the completion statements, this
is the frame of every command over these parts of the state. -/
def Obligations.CommandsFrame : Prop :=
  ∀ s0 s : State,
    (s0.after s).sup = s.sup ∧ (s0.after s).boot = s.boot ∧ (s0.after s).upd = s.upd ∧ (s0.after s).pins = s.pins ∧
    (s0.after s).clk = s.clk ∧ (s0.after s).reg = { s.reg with req := (s0.after s).reg.req } ∧
    (s0.after s).bcn = { s.bcn with lists := (s0.after s).bcn.lists, orphans := (s0.after s).bcn.orphans } ∧ (s0.after s).kpr = s.kpr ∧
    (s0.after s).smbBusy = s.smbBusy ∧ (s0.after s).pending = s.pending ∧ (s0.after s).mode = s.mode ∧
    (s0.after s).md = { s.md with lgArmed := (s0.after s).md.lgArmed, sag := (s0.after s).md.sag }

/-- The block after reset: DARK (R44, R75), no command waiting, nothing sent, no group sealed, every port OFF and its gate off, every
sector off with TARGET 500, no keeper running, no Buoy homed, the Lantern's pull-up off, and the Holding Store in its canonical form. -/
def Obligations.ResetLeavesTheBlockDark : Prop :=
  State.reset.mode = .dark ∧ State.reset.pending = [] ∧ State.reset.out = [] ∧ State.reset.hst.wf = true ∧ State.reset.reg.sealSet = 0 ∧
    (∀ n : Fin 16, (State.reset.port n).state = .off) ∧ (∀ p : Fin 17, (State.reset.moor p).gate = false) ∧
    (∀ q : Fin 4, (State.reset.sector q).en = false ∧ (State.reset.sector q).target = 500) ∧
    (∀ k : Fin 12, State.reset.kprRuns k = false) ∧ (∀ b : Fin 15, (State.reset.buoy b).home = none) ∧ State.reset.lan.pullup = false

/-- The queue is first in, first out: a step takes one command off its front, and no command puts one in or takes another out. -/
def Obligations.QueueIsFifo : Prop :=
  ∀ (s t : State) (c : Instr) (rest : List Instr), s.pending = c :: rest → step s = .next t → t.pending = rest

/-- The Holding Store's canonical form is an invariant of every step: the listed cells and spare rows stay in rising order, within the
array, and none of them reads as an unlisted one does. -/
def Obligations.StoreFormIsKept : Prop :=
   ∀ s t : State, s.hst.wf = true → step s = .next t → t.hst.wf = true
end

