-- ==== Sys2Proof/Laws/State.lean ====
section
/-! SUPPORT. Each update of one element of the state, once and for all: what it writes, and every part that it leaves alone. No later proof
unfolds a record update. -/

namespace Sys2Proof.Machine

@[simp] theorem State.emit_sup (s : State) (o : Output) : (s.emit o).sup = s.sup := rfl
@[simp] theorem State.emit_md (s : State) (o : Output) : (s.emit o).md = s.md := rfl
@[simp] theorem State.emit_boot (s : State) (o : Output) : (s.emit o).boot = s.boot := rfl
@[simp] theorem State.emit_upd (s : State) (o : Output) : (s.emit o).upd = s.upd := rfl
@[simp] theorem State.emit_pins (s : State) (o : Output) : (s.emit o).pins = s.pins := rfl
@[simp] theorem State.emit_clk (s : State) (o : Output) : (s.emit o).clk = s.clk := rfl
@[simp] theorem State.emit_reg (s : State) (o : Output) : (s.emit o).reg = s.reg := rfl
@[simp] theorem State.emit_lnk (s : State) (o : Output) : (s.emit o).lnk = s.lnk := rfl
@[simp] theorem State.emit_rng (s : State) (o : Output) : (s.emit o).rng = s.rng := rfl
@[simp] theorem State.emit_bcn (s : State) (o : Output) : (s.emit o).bcn = s.bcn := rfl
@[simp] theorem State.emit_fwy (s : State) (o : Output) : (s.emit o).fwy = s.fwy := rfl
@[simp] theorem State.emit_ccp (s : State) (o : Output) : (s.emit o).ccp = s.ccp := rfl
@[simp] theorem State.emit_pwr (s : State) (o : Output) : (s.emit o).pwr = s.pwr := rfl
@[simp] theorem State.emit_lan (s : State) (o : Output) : (s.emit o).lan = s.lan := rfl
@[simp] theorem State.emit_tnd (s : State) (o : Output) : (s.emit o).tnd = s.tnd := rfl
@[simp] theorem State.emit_kpr (s : State) (o : Output) : (s.emit o).kpr = s.kpr := rfl
@[simp] theorem State.emit_hst (s : State) (o : Output) : (s.emit o).hst = s.hst := rfl
@[simp] theorem State.emit_mig (s : State) (o : Output) : (s.emit o).mig = s.mig := rfl
@[simp] theorem State.emit_evt (s : State) (o : Output) : (s.emit o).evt = s.evt := rfl
@[simp] theorem State.emit_smbBusy (s : State) (o : Output) : (s.emit o).smbBusy = s.smbBusy := rfl
@[simp] theorem State.emit_freeSeq (s : State) (o : Output) : (s.emit o).freeSeq = s.freeSeq := rfl
@[simp] theorem State.emit_pending (s : State) (o : Output) : (s.emit o).pending = s.pending := rfl
@[simp] theorem State.emit_mode (s : State) (o : Output) : (s.emit o).mode = s.mode := rfl
@[simp] theorem State.emit_fn (s : State) (o : Output) (k : Func) : (s.emit o).fn k = s.fn k := rfl
@[simp] theorem State.emit_ring (s : State) (o : Output) (k : Func) (j : Fin 65) : (s.emit o).ring k j = s.ring k j := rfl
@[simp] theorem State.emit_evRing (s : State) (o : Output) (k : Func) (j : Fin 4) : (s.emit o).evRing k j = s.evRing k j := rfl
@[simp] theorem State.emit_link (s : State) (o : Output) (k : Link) : (s.emit o).link k = s.link k := rfl
@[simp] theorem State.emit_buoy (s : State) (o : Output) (k : Fin 15) : (s.emit o).buoy k = s.buoy k := rfl
@[simp] theorem State.emit_mboxOf (s : State) (o : Output) (k : Fin 15) : (s.emit o).mboxOf k = s.mboxOf k := rfl
@[simp] theorem State.emit_migr (s : State) (o : Output) (k : Fin 15) : (s.emit o).migr k = s.migr k := rfl
@[simp] theorem State.emit_log (s : State) (o : Output) (k : Fin 15) : (s.emit o).log k = s.log k := rfl
@[simp] theorem State.emit_port (s : State) (o : Output) (k : Fin 16) : (s.emit o).port k = s.port k := rfl
@[simp] theorem State.emit_fairway (s : State) (o : Output) (k : Fin 4) : (s.emit o).fairway k = s.fairway k := rfl
@[simp] theorem State.emit_dev (s : State) (o : Output) (k : Nat) : (s.emit o).dev k = s.dev k := rfl
@[simp] theorem State.emit_eng (s : State) (o : Output) (k : Fin 17) : (s.emit o).eng k = s.eng k := rfl
@[simp] theorem State.emit_moor (s : State) (o : Output) (k : Fin 17) : (s.emit o).moor k = s.moor k := rfl
@[simp] theorem State.emit_sector (s : State) (o : Output) (k : Fin 4) : (s.emit o).sector k = s.sector k := rfl
@[simp] theorem State.emit_keeper (s : State) (o : Output) (k : Fin 12) : (s.emit o).keeper k = s.keeper k := rfl
@[simp] theorem State.emit_reqState (s : State) (o : Output) (k : Requester) : (s.emit o).reqState k = s.reqState k := rfl
@[simp] theorem State.emit_lamps (s : State) (o : Output) (k : Fin 4) : (s.emit o).lamps k = s.lamps k := rfl
@[simp] theorem State.emit_lanEp (s : State) (o : Output) (k : Fin 32) : (s.emit o).lanEp k = s.lanEp k := rfl
@[simp] theorem State.emit_item (s : State) (o : Output) (k : Nat) : (s.emit o).item k = s.item k := rfl
@[simp] theorem State.emit_ctr (s : State) (o : Output) (k : Nat) : (s.emit o).ctr k = s.ctr k := rfl
@[simp] theorem State.emit_out (s : State) (o : Output) : (s.emit o).out = s.out ++ [o] := rfl
@[simp] theorem State.modFn_sup (s : State) (f : Func) (g : FuncState → FuncState) : (s.modFn f g).sup = s.sup := rfl
@[simp] theorem State.modFn_md (s : State) (f : Func) (g : FuncState → FuncState) : (s.modFn f g).md = s.md := rfl
@[simp] theorem State.modFn_boot (s : State) (f : Func) (g : FuncState → FuncState) : (s.modFn f g).boot = s.boot := rfl
@[simp] theorem State.modFn_upd (s : State) (f : Func) (g : FuncState → FuncState) : (s.modFn f g).upd = s.upd := rfl
@[simp] theorem State.modFn_pins (s : State) (f : Func) (g : FuncState → FuncState) : (s.modFn f g).pins = s.pins := rfl
@[simp] theorem State.modFn_clk (s : State) (f : Func) (g : FuncState → FuncState) : (s.modFn f g).clk = s.clk := rfl
@[simp] theorem State.modFn_reg (s : State) (f : Func) (g : FuncState → FuncState) : (s.modFn f g).reg = s.reg := rfl
@[simp] theorem State.modFn_lnk (s : State) (f : Func) (g : FuncState → FuncState) : (s.modFn f g).lnk = s.lnk := rfl
@[simp] theorem State.modFn_bcn (s : State) (f : Func) (g : FuncState → FuncState) : (s.modFn f g).bcn = s.bcn := rfl
@[simp] theorem State.modFn_fwy (s : State) (f : Func) (g : FuncState → FuncState) : (s.modFn f g).fwy = s.fwy := rfl
@[simp] theorem State.modFn_ccp (s : State) (f : Func) (g : FuncState → FuncState) : (s.modFn f g).ccp = s.ccp := rfl
@[simp] theorem State.modFn_pwr (s : State) (f : Func) (g : FuncState → FuncState) : (s.modFn f g).pwr = s.pwr := rfl
@[simp] theorem State.modFn_lan (s : State) (f : Func) (g : FuncState → FuncState) : (s.modFn f g).lan = s.lan := rfl
@[simp] theorem State.modFn_tnd (s : State) (f : Func) (g : FuncState → FuncState) : (s.modFn f g).tnd = s.tnd := rfl
@[simp] theorem State.modFn_kpr (s : State) (f : Func) (g : FuncState → FuncState) : (s.modFn f g).kpr = s.kpr := rfl
@[simp] theorem State.modFn_hst (s : State) (f : Func) (g : FuncState → FuncState) : (s.modFn f g).hst = s.hst := rfl
@[simp] theorem State.modFn_mig (s : State) (f : Func) (g : FuncState → FuncState) : (s.modFn f g).mig = s.mig := rfl
@[simp] theorem State.modFn_evt (s : State) (f : Func) (g : FuncState → FuncState) : (s.modFn f g).evt = s.evt := rfl
@[simp] theorem State.modFn_smbBusy (s : State) (f : Func) (g : FuncState → FuncState) : (s.modFn f g).smbBusy = s.smbBusy := rfl
@[simp] theorem State.modFn_out (s : State) (f : Func) (g : FuncState → FuncState) : (s.modFn f g).out = s.out := rfl
@[simp] theorem State.modFn_freeSeq (s : State) (f : Func) (g : FuncState → FuncState) : (s.modFn f g).freeSeq = s.freeSeq := rfl
@[simp] theorem State.modFn_pending (s : State) (f : Func) (g : FuncState → FuncState) : (s.modFn f g).pending = s.pending := rfl
@[simp] theorem State.modFn_mode (s : State) (f : Func) (g : FuncState → FuncState) : (s.modFn f g).mode = s.mode := rfl
@[simp] theorem State.modFn_link (s : State) (f : Func) (g : FuncState → FuncState) (k : Link) : (s.modFn f g).link k = s.link k := rfl
@[simp] theorem State.modFn_buoy (s : State) (f : Func) (g : FuncState → FuncState) (k : Fin 15) : (s.modFn f g).buoy k = s.buoy k := rfl
@[simp] theorem State.modFn_mboxOf (s : State) (f : Func) (g : FuncState → FuncState) (k : Fin 15) : (s.modFn f g).mboxOf k = s.mboxOf k := rfl
@[simp] theorem State.modFn_migr (s : State) (f : Func) (g : FuncState → FuncState) (k : Fin 15) : (s.modFn f g).migr k = s.migr k := rfl
@[simp] theorem State.modFn_log (s : State) (f : Func) (g : FuncState → FuncState) (k : Fin 15) : (s.modFn f g).log k = s.log k := rfl
@[simp] theorem State.modFn_port (s : State) (f : Func) (g : FuncState → FuncState) (k : Fin 16) : (s.modFn f g).port k = s.port k := rfl
@[simp] theorem State.modFn_fairway (s : State) (f : Func) (g : FuncState → FuncState) (k : Fin 4) : (s.modFn f g).fairway k = s.fairway k := rfl
@[simp] theorem State.modFn_dev (s : State) (f : Func) (g : FuncState → FuncState) (k : Nat) : (s.modFn f g).dev k = s.dev k := rfl
@[simp] theorem State.modFn_eng (s : State) (f : Func) (g : FuncState → FuncState) (k : Fin 17) : (s.modFn f g).eng k = s.eng k := rfl
@[simp] theorem State.modFn_moor (s : State) (f : Func) (g : FuncState → FuncState) (k : Fin 17) : (s.modFn f g).moor k = s.moor k := rfl
@[simp] theorem State.modFn_sector (s : State) (f : Func) (g : FuncState → FuncState) (k : Fin 4) : (s.modFn f g).sector k = s.sector k := rfl
@[simp] theorem State.modFn_keeper (s : State) (f : Func) (g : FuncState → FuncState) (k : Fin 12) : (s.modFn f g).keeper k = s.keeper k := rfl
@[simp] theorem State.modFn_reqState (s : State) (f : Func) (g : FuncState → FuncState) (k : Requester) : (s.modFn f g).reqState k = s.reqState k := rfl
@[simp] theorem State.modFn_lamps (s : State) (f : Func) (g : FuncState → FuncState) (k : Fin 4) : (s.modFn f g).lamps k = s.lamps k := rfl
@[simp] theorem State.modFn_lanEp (s : State) (f : Func) (g : FuncState → FuncState) (k : Fin 32) : (s.modFn f g).lanEp k = s.lanEp k := rfl
@[simp] theorem State.modFn_item (s : State) (f : Func) (g : FuncState → FuncState) (k : Nat) : (s.modFn f g).item k = s.item k := rfl
@[simp] theorem State.modFn_ctr (s : State) (f : Func) (g : FuncState → FuncState) (k : Nat) : (s.modFn f g).ctr k = s.ctr k := rfl
@[simp] theorem State.modFn_fn_self (s : State) (f : Func) (g : FuncState → FuncState) : (s.modFn f g).fn f = g (s.fn f) := by simp [State.modFn, State.fn]
@[simp] theorem State.modFn_modFn (s : State) (f : Func) (g : FuncState → FuncState) (h : FuncState → FuncState) : (s.modFn f g).modFn f h = s.modFn f (fun x => h (g x)) := by
  simp [State.modFn, State.fn]
@[simp] theorem State.modRing_sup (s : State) (f : Func) (r : Fin 65) (g : Ring → Ring) : (s.modRing f r g).sup = s.sup := rfl
@[simp] theorem State.modRing_md (s : State) (f : Func) (r : Fin 65) (g : Ring → Ring) : (s.modRing f r g).md = s.md := rfl
@[simp] theorem State.modRing_boot (s : State) (f : Func) (r : Fin 65) (g : Ring → Ring) : (s.modRing f r g).boot = s.boot := rfl
@[simp] theorem State.modRing_upd (s : State) (f : Func) (r : Fin 65) (g : Ring → Ring) : (s.modRing f r g).upd = s.upd := rfl
@[simp] theorem State.modRing_pins (s : State) (f : Func) (r : Fin 65) (g : Ring → Ring) : (s.modRing f r g).pins = s.pins := rfl
@[simp] theorem State.modRing_clk (s : State) (f : Func) (r : Fin 65) (g : Ring → Ring) : (s.modRing f r g).clk = s.clk := rfl
@[simp] theorem State.modRing_reg (s : State) (f : Func) (r : Fin 65) (g : Ring → Ring) : (s.modRing f r g).reg = s.reg := rfl
@[simp] theorem State.modRing_lnk (s : State) (f : Func) (r : Fin 65) (g : Ring → Ring) : (s.modRing f r g).lnk = s.lnk := rfl
@[simp] theorem State.modRing_bcn (s : State) (f : Func) (r : Fin 65) (g : Ring → Ring) : (s.modRing f r g).bcn = s.bcn := rfl
@[simp] theorem State.modRing_fwy (s : State) (f : Func) (r : Fin 65) (g : Ring → Ring) : (s.modRing f r g).fwy = s.fwy := rfl
@[simp] theorem State.modRing_ccp (s : State) (f : Func) (r : Fin 65) (g : Ring → Ring) : (s.modRing f r g).ccp = s.ccp := rfl
@[simp] theorem State.modRing_pwr (s : State) (f : Func) (r : Fin 65) (g : Ring → Ring) : (s.modRing f r g).pwr = s.pwr := rfl
@[simp] theorem State.modRing_lan (s : State) (f : Func) (r : Fin 65) (g : Ring → Ring) : (s.modRing f r g).lan = s.lan := rfl
@[simp] theorem State.modRing_tnd (s : State) (f : Func) (r : Fin 65) (g : Ring → Ring) : (s.modRing f r g).tnd = s.tnd := rfl
@[simp] theorem State.modRing_kpr (s : State) (f : Func) (r : Fin 65) (g : Ring → Ring) : (s.modRing f r g).kpr = s.kpr := rfl
@[simp] theorem State.modRing_hst (s : State) (f : Func) (r : Fin 65) (g : Ring → Ring) : (s.modRing f r g).hst = s.hst := rfl
@[simp] theorem State.modRing_mig (s : State) (f : Func) (r : Fin 65) (g : Ring → Ring) : (s.modRing f r g).mig = s.mig := rfl
@[simp] theorem State.modRing_evt (s : State) (f : Func) (r : Fin 65) (g : Ring → Ring) : (s.modRing f r g).evt = s.evt := rfl
@[simp] theorem State.modRing_smbBusy (s : State) (f : Func) (r : Fin 65) (g : Ring → Ring) : (s.modRing f r g).smbBusy = s.smbBusy := rfl
@[simp] theorem State.modRing_out (s : State) (f : Func) (r : Fin 65) (g : Ring → Ring) : (s.modRing f r g).out = s.out := rfl
@[simp] theorem State.modRing_freeSeq (s : State) (f : Func) (r : Fin 65) (g : Ring → Ring) : (s.modRing f r g).freeSeq = s.freeSeq := rfl
@[simp] theorem State.modRing_pending (s : State) (f : Func) (r : Fin 65) (g : Ring → Ring) : (s.modRing f r g).pending = s.pending := rfl
@[simp] theorem State.modRing_mode (s : State) (f : Func) (r : Fin 65) (g : Ring → Ring) : (s.modRing f r g).mode = s.mode := rfl
@[simp] theorem State.modRing_link (s : State) (f : Func) (r : Fin 65) (g : Ring → Ring) (k : Link) : (s.modRing f r g).link k = s.link k := rfl
@[simp] theorem State.modRing_buoy (s : State) (f : Func) (r : Fin 65) (g : Ring → Ring) (k : Fin 15) : (s.modRing f r g).buoy k = s.buoy k := rfl
@[simp] theorem State.modRing_mboxOf (s : State) (f : Func) (r : Fin 65) (g : Ring → Ring) (k : Fin 15) : (s.modRing f r g).mboxOf k = s.mboxOf k := rfl
@[simp] theorem State.modRing_migr (s : State) (f : Func) (r : Fin 65) (g : Ring → Ring) (k : Fin 15) : (s.modRing f r g).migr k = s.migr k := rfl
@[simp] theorem State.modRing_log (s : State) (f : Func) (r : Fin 65) (g : Ring → Ring) (k : Fin 15) : (s.modRing f r g).log k = s.log k := rfl
@[simp] theorem State.modRing_port (s : State) (f : Func) (r : Fin 65) (g : Ring → Ring) (k : Fin 16) : (s.modRing f r g).port k = s.port k := rfl
@[simp] theorem State.modRing_fairway (s : State) (f : Func) (r : Fin 65) (g : Ring → Ring) (k : Fin 4) : (s.modRing f r g).fairway k = s.fairway k := rfl
@[simp] theorem State.modRing_dev (s : State) (f : Func) (r : Fin 65) (g : Ring → Ring) (k : Nat) : (s.modRing f r g).dev k = s.dev k := rfl
@[simp] theorem State.modRing_eng (s : State) (f : Func) (r : Fin 65) (g : Ring → Ring) (k : Fin 17) : (s.modRing f r g).eng k = s.eng k := rfl
@[simp] theorem State.modRing_moor (s : State) (f : Func) (r : Fin 65) (g : Ring → Ring) (k : Fin 17) : (s.modRing f r g).moor k = s.moor k := rfl
@[simp] theorem State.modRing_sector (s : State) (f : Func) (r : Fin 65) (g : Ring → Ring) (k : Fin 4) : (s.modRing f r g).sector k = s.sector k := rfl
@[simp] theorem State.modRing_keeper (s : State) (f : Func) (r : Fin 65) (g : Ring → Ring) (k : Fin 12) : (s.modRing f r g).keeper k = s.keeper k := rfl
@[simp] theorem State.modRing_reqState (s : State) (f : Func) (r : Fin 65) (g : Ring → Ring) (k : Requester) : (s.modRing f r g).reqState k = s.reqState k := rfl
@[simp] theorem State.modRing_lamps (s : State) (f : Func) (r : Fin 65) (g : Ring → Ring) (k : Fin 4) : (s.modRing f r g).lamps k = s.lamps k := rfl
@[simp] theorem State.modRing_lanEp (s : State) (f : Func) (r : Fin 65) (g : Ring → Ring) (k : Fin 32) : (s.modRing f r g).lanEp k = s.lanEp k := rfl
@[simp] theorem State.modRing_item (s : State) (f : Func) (r : Fin 65) (g : Ring → Ring) (k : Nat) : (s.modRing f r g).item k = s.item k := rfl
@[simp] theorem State.modRing_ctr (s : State) (f : Func) (r : Fin 65) (g : Ring → Ring) (k : Nat) : (s.modRing f r g).ctr k = s.ctr k := rfl
@[simp] theorem State.modEvRing_sup (s : State) (f : Func) (n : Fin 4) (g : EventRing → EventRing) : (s.modEvRing f n g).sup = s.sup := rfl
@[simp] theorem State.modEvRing_md (s : State) (f : Func) (n : Fin 4) (g : EventRing → EventRing) : (s.modEvRing f n g).md = s.md := rfl
@[simp] theorem State.modEvRing_boot (s : State) (f : Func) (n : Fin 4) (g : EventRing → EventRing) : (s.modEvRing f n g).boot = s.boot := rfl
@[simp] theorem State.modEvRing_upd (s : State) (f : Func) (n : Fin 4) (g : EventRing → EventRing) : (s.modEvRing f n g).upd = s.upd := rfl
@[simp] theorem State.modEvRing_pins (s : State) (f : Func) (n : Fin 4) (g : EventRing → EventRing) : (s.modEvRing f n g).pins = s.pins := rfl
@[simp] theorem State.modEvRing_clk (s : State) (f : Func) (n : Fin 4) (g : EventRing → EventRing) : (s.modEvRing f n g).clk = s.clk := rfl
@[simp] theorem State.modEvRing_reg (s : State) (f : Func) (n : Fin 4) (g : EventRing → EventRing) : (s.modEvRing f n g).reg = s.reg := rfl
@[simp] theorem State.modEvRing_lnk (s : State) (f : Func) (n : Fin 4) (g : EventRing → EventRing) : (s.modEvRing f n g).lnk = s.lnk := rfl
@[simp] theorem State.modEvRing_bcn (s : State) (f : Func) (n : Fin 4) (g : EventRing → EventRing) : (s.modEvRing f n g).bcn = s.bcn := rfl
@[simp] theorem State.modEvRing_fwy (s : State) (f : Func) (n : Fin 4) (g : EventRing → EventRing) : (s.modEvRing f n g).fwy = s.fwy := rfl
@[simp] theorem State.modEvRing_ccp (s : State) (f : Func) (n : Fin 4) (g : EventRing → EventRing) : (s.modEvRing f n g).ccp = s.ccp := rfl
@[simp] theorem State.modEvRing_pwr (s : State) (f : Func) (n : Fin 4) (g : EventRing → EventRing) : (s.modEvRing f n g).pwr = s.pwr := rfl
@[simp] theorem State.modEvRing_lan (s : State) (f : Func) (n : Fin 4) (g : EventRing → EventRing) : (s.modEvRing f n g).lan = s.lan := rfl
@[simp] theorem State.modEvRing_tnd (s : State) (f : Func) (n : Fin 4) (g : EventRing → EventRing) : (s.modEvRing f n g).tnd = s.tnd := rfl
@[simp] theorem State.modEvRing_kpr (s : State) (f : Func) (n : Fin 4) (g : EventRing → EventRing) : (s.modEvRing f n g).kpr = s.kpr := rfl
@[simp] theorem State.modEvRing_hst (s : State) (f : Func) (n : Fin 4) (g : EventRing → EventRing) : (s.modEvRing f n g).hst = s.hst := rfl
@[simp] theorem State.modEvRing_mig (s : State) (f : Func) (n : Fin 4) (g : EventRing → EventRing) : (s.modEvRing f n g).mig = s.mig := rfl
@[simp] theorem State.modEvRing_evt (s : State) (f : Func) (n : Fin 4) (g : EventRing → EventRing) : (s.modEvRing f n g).evt = s.evt := rfl
@[simp] theorem State.modEvRing_smbBusy (s : State) (f : Func) (n : Fin 4) (g : EventRing → EventRing) : (s.modEvRing f n g).smbBusy = s.smbBusy := rfl
@[simp] theorem State.modEvRing_out (s : State) (f : Func) (n : Fin 4) (g : EventRing → EventRing) : (s.modEvRing f n g).out = s.out := rfl
@[simp] theorem State.modEvRing_freeSeq (s : State) (f : Func) (n : Fin 4) (g : EventRing → EventRing) : (s.modEvRing f n g).freeSeq = s.freeSeq := rfl
@[simp] theorem State.modEvRing_pending (s : State) (f : Func) (n : Fin 4) (g : EventRing → EventRing) : (s.modEvRing f n g).pending = s.pending := rfl
@[simp] theorem State.modEvRing_mode (s : State) (f : Func) (n : Fin 4) (g : EventRing → EventRing) : (s.modEvRing f n g).mode = s.mode := rfl
@[simp] theorem State.modEvRing_link (s : State) (f : Func) (n : Fin 4) (g : EventRing → EventRing) (k : Link) : (s.modEvRing f n g).link k = s.link k := rfl
@[simp] theorem State.modEvRing_buoy (s : State) (f : Func) (n : Fin 4) (g : EventRing → EventRing) (k : Fin 15) : (s.modEvRing f n g).buoy k = s.buoy k := rfl
@[simp] theorem State.modEvRing_mboxOf (s : State) (f : Func) (n : Fin 4) (g : EventRing → EventRing) (k : Fin 15) : (s.modEvRing f n g).mboxOf k = s.mboxOf k := rfl
@[simp] theorem State.modEvRing_migr (s : State) (f : Func) (n : Fin 4) (g : EventRing → EventRing) (k : Fin 15) : (s.modEvRing f n g).migr k = s.migr k := rfl
@[simp] theorem State.modEvRing_log (s : State) (f : Func) (n : Fin 4) (g : EventRing → EventRing) (k : Fin 15) : (s.modEvRing f n g).log k = s.log k := rfl
@[simp] theorem State.modEvRing_port (s : State) (f : Func) (n : Fin 4) (g : EventRing → EventRing) (k : Fin 16) : (s.modEvRing f n g).port k = s.port k := rfl
@[simp] theorem State.modEvRing_fairway (s : State) (f : Func) (n : Fin 4) (g : EventRing → EventRing) (k : Fin 4) : (s.modEvRing f n g).fairway k = s.fairway k := rfl
@[simp] theorem State.modEvRing_dev (s : State) (f : Func) (n : Fin 4) (g : EventRing → EventRing) (k : Nat) : (s.modEvRing f n g).dev k = s.dev k := rfl
@[simp] theorem State.modEvRing_eng (s : State) (f : Func) (n : Fin 4) (g : EventRing → EventRing) (k : Fin 17) : (s.modEvRing f n g).eng k = s.eng k := rfl
@[simp] theorem State.modEvRing_moor (s : State) (f : Func) (n : Fin 4) (g : EventRing → EventRing) (k : Fin 17) : (s.modEvRing f n g).moor k = s.moor k := rfl
@[simp] theorem State.modEvRing_sector (s : State) (f : Func) (n : Fin 4) (g : EventRing → EventRing) (k : Fin 4) : (s.modEvRing f n g).sector k = s.sector k := rfl
@[simp] theorem State.modEvRing_keeper (s : State) (f : Func) (n : Fin 4) (g : EventRing → EventRing) (k : Fin 12) : (s.modEvRing f n g).keeper k = s.keeper k := rfl
@[simp] theorem State.modEvRing_reqState (s : State) (f : Func) (n : Fin 4) (g : EventRing → EventRing) (k : Requester) : (s.modEvRing f n g).reqState k = s.reqState k := rfl
@[simp] theorem State.modEvRing_lamps (s : State) (f : Func) (n : Fin 4) (g : EventRing → EventRing) (k : Fin 4) : (s.modEvRing f n g).lamps k = s.lamps k := rfl
@[simp] theorem State.modEvRing_lanEp (s : State) (f : Func) (n : Fin 4) (g : EventRing → EventRing) (k : Fin 32) : (s.modEvRing f n g).lanEp k = s.lanEp k := rfl
@[simp] theorem State.modEvRing_item (s : State) (f : Func) (n : Fin 4) (g : EventRing → EventRing) (k : Nat) : (s.modEvRing f n g).item k = s.item k := rfl
@[simp] theorem State.modEvRing_ctr (s : State) (f : Func) (n : Fin 4) (g : EventRing → EventRing) (k : Nat) : (s.modEvRing f n g).ctr k = s.ctr k := rfl
@[simp] theorem State.modLink_sup (s : State) (l : Link) (g : LinkState → LinkState) : (s.modLink l g).sup = s.sup := rfl
@[simp] theorem State.modLink_md (s : State) (l : Link) (g : LinkState → LinkState) : (s.modLink l g).md = s.md := rfl
@[simp] theorem State.modLink_boot (s : State) (l : Link) (g : LinkState → LinkState) : (s.modLink l g).boot = s.boot := rfl
@[simp] theorem State.modLink_upd (s : State) (l : Link) (g : LinkState → LinkState) : (s.modLink l g).upd = s.upd := rfl
@[simp] theorem State.modLink_pins (s : State) (l : Link) (g : LinkState → LinkState) : (s.modLink l g).pins = s.pins := rfl
@[simp] theorem State.modLink_clk (s : State) (l : Link) (g : LinkState → LinkState) : (s.modLink l g).clk = s.clk := rfl
@[simp] theorem State.modLink_reg (s : State) (l : Link) (g : LinkState → LinkState) : (s.modLink l g).reg = s.reg := rfl
@[simp] theorem State.modLink_rng (s : State) (l : Link) (g : LinkState → LinkState) : (s.modLink l g).rng = s.rng := rfl
@[simp] theorem State.modLink_bcn (s : State) (l : Link) (g : LinkState → LinkState) : (s.modLink l g).bcn = s.bcn := rfl
@[simp] theorem State.modLink_fwy (s : State) (l : Link) (g : LinkState → LinkState) : (s.modLink l g).fwy = s.fwy := rfl
@[simp] theorem State.modLink_ccp (s : State) (l : Link) (g : LinkState → LinkState) : (s.modLink l g).ccp = s.ccp := rfl
@[simp] theorem State.modLink_pwr (s : State) (l : Link) (g : LinkState → LinkState) : (s.modLink l g).pwr = s.pwr := rfl
@[simp] theorem State.modLink_lan (s : State) (l : Link) (g : LinkState → LinkState) : (s.modLink l g).lan = s.lan := rfl
@[simp] theorem State.modLink_tnd (s : State) (l : Link) (g : LinkState → LinkState) : (s.modLink l g).tnd = s.tnd := rfl
@[simp] theorem State.modLink_kpr (s : State) (l : Link) (g : LinkState → LinkState) : (s.modLink l g).kpr = s.kpr := rfl
@[simp] theorem State.modLink_hst (s : State) (l : Link) (g : LinkState → LinkState) : (s.modLink l g).hst = s.hst := rfl
@[simp] theorem State.modLink_mig (s : State) (l : Link) (g : LinkState → LinkState) : (s.modLink l g).mig = s.mig := rfl
@[simp] theorem State.modLink_evt (s : State) (l : Link) (g : LinkState → LinkState) : (s.modLink l g).evt = s.evt := rfl
@[simp] theorem State.modLink_smbBusy (s : State) (l : Link) (g : LinkState → LinkState) : (s.modLink l g).smbBusy = s.smbBusy := rfl
@[simp] theorem State.modLink_out (s : State) (l : Link) (g : LinkState → LinkState) : (s.modLink l g).out = s.out := rfl
@[simp] theorem State.modLink_freeSeq (s : State) (l : Link) (g : LinkState → LinkState) : (s.modLink l g).freeSeq = s.freeSeq := rfl
@[simp] theorem State.modLink_pending (s : State) (l : Link) (g : LinkState → LinkState) : (s.modLink l g).pending = s.pending := rfl
@[simp] theorem State.modLink_mode (s : State) (l : Link) (g : LinkState → LinkState) : (s.modLink l g).mode = s.mode := rfl
@[simp] theorem State.modLink_fn (s : State) (l : Link) (g : LinkState → LinkState) (k : Func) : (s.modLink l g).fn k = s.fn k := rfl
@[simp] theorem State.modLink_ring (s : State) (l : Link) (g : LinkState → LinkState) (k : Func) (j : Fin 65) : (s.modLink l g).ring k j = s.ring k j := rfl
@[simp] theorem State.modLink_evRing (s : State) (l : Link) (g : LinkState → LinkState) (k : Func) (j : Fin 4) : (s.modLink l g).evRing k j = s.evRing k j := rfl
@[simp] theorem State.modLink_buoy (s : State) (l : Link) (g : LinkState → LinkState) (k : Fin 15) : (s.modLink l g).buoy k = s.buoy k := rfl
@[simp] theorem State.modLink_mboxOf (s : State) (l : Link) (g : LinkState → LinkState) (k : Fin 15) : (s.modLink l g).mboxOf k = s.mboxOf k := rfl
@[simp] theorem State.modLink_migr (s : State) (l : Link) (g : LinkState → LinkState) (k : Fin 15) : (s.modLink l g).migr k = s.migr k := rfl
@[simp] theorem State.modLink_log (s : State) (l : Link) (g : LinkState → LinkState) (k : Fin 15) : (s.modLink l g).log k = s.log k := rfl
@[simp] theorem State.modLink_port (s : State) (l : Link) (g : LinkState → LinkState) (k : Fin 16) : (s.modLink l g).port k = s.port k := rfl
@[simp] theorem State.modLink_fairway (s : State) (l : Link) (g : LinkState → LinkState) (k : Fin 4) : (s.modLink l g).fairway k = s.fairway k := rfl
@[simp] theorem State.modLink_dev (s : State) (l : Link) (g : LinkState → LinkState) (k : Nat) : (s.modLink l g).dev k = s.dev k := rfl
@[simp] theorem State.modLink_eng (s : State) (l : Link) (g : LinkState → LinkState) (k : Fin 17) : (s.modLink l g).eng k = s.eng k := rfl
@[simp] theorem State.modLink_moor (s : State) (l : Link) (g : LinkState → LinkState) (k : Fin 17) : (s.modLink l g).moor k = s.moor k := rfl
@[simp] theorem State.modLink_sector (s : State) (l : Link) (g : LinkState → LinkState) (k : Fin 4) : (s.modLink l g).sector k = s.sector k := rfl
@[simp] theorem State.modLink_keeper (s : State) (l : Link) (g : LinkState → LinkState) (k : Fin 12) : (s.modLink l g).keeper k = s.keeper k := rfl
@[simp] theorem State.modLink_reqState (s : State) (l : Link) (g : LinkState → LinkState) (k : Requester) : (s.modLink l g).reqState k = s.reqState k := rfl
@[simp] theorem State.modLink_lamps (s : State) (l : Link) (g : LinkState → LinkState) (k : Fin 4) : (s.modLink l g).lamps k = s.lamps k := rfl
@[simp] theorem State.modLink_lanEp (s : State) (l : Link) (g : LinkState → LinkState) (k : Fin 32) : (s.modLink l g).lanEp k = s.lanEp k := rfl
@[simp] theorem State.modLink_item (s : State) (l : Link) (g : LinkState → LinkState) (k : Nat) : (s.modLink l g).item k = s.item k := rfl
@[simp] theorem State.modLink_ctr (s : State) (l : Link) (g : LinkState → LinkState) (k : Nat) : (s.modLink l g).ctr k = s.ctr k := rfl
@[simp] theorem State.modLink_link_self (s : State) (l : Link) (g : LinkState → LinkState) : (s.modLink l g).link l = g (s.link l) := by simp [State.modLink, State.link]
@[simp] theorem State.modLink_modLink (s : State) (l : Link) (g : LinkState → LinkState) (h : LinkState → LinkState) : (s.modLink l g).modLink l h = s.modLink l (fun x => h (g x)) := by
  simp [State.modLink, State.link]
@[simp] theorem State.modBuoy_sup (s : State) (b : Fin 15) (g : BuoyState → BuoyState) : (s.modBuoy b g).sup = s.sup := rfl
@[simp] theorem State.modBuoy_md (s : State) (b : Fin 15) (g : BuoyState → BuoyState) : (s.modBuoy b g).md = s.md := rfl
@[simp] theorem State.modBuoy_boot (s : State) (b : Fin 15) (g : BuoyState → BuoyState) : (s.modBuoy b g).boot = s.boot := rfl
@[simp] theorem State.modBuoy_upd (s : State) (b : Fin 15) (g : BuoyState → BuoyState) : (s.modBuoy b g).upd = s.upd := rfl
@[simp] theorem State.modBuoy_pins (s : State) (b : Fin 15) (g : BuoyState → BuoyState) : (s.modBuoy b g).pins = s.pins := rfl
@[simp] theorem State.modBuoy_clk (s : State) (b : Fin 15) (g : BuoyState → BuoyState) : (s.modBuoy b g).clk = s.clk := rfl
@[simp] theorem State.modBuoy_reg (s : State) (b : Fin 15) (g : BuoyState → BuoyState) : (s.modBuoy b g).reg = s.reg := rfl
@[simp] theorem State.modBuoy_rng (s : State) (b : Fin 15) (g : BuoyState → BuoyState) : (s.modBuoy b g).rng = s.rng := rfl
@[simp] theorem State.modBuoy_bcn (s : State) (b : Fin 15) (g : BuoyState → BuoyState) : (s.modBuoy b g).bcn = s.bcn := rfl
@[simp] theorem State.modBuoy_fwy (s : State) (b : Fin 15) (g : BuoyState → BuoyState) : (s.modBuoy b g).fwy = s.fwy := rfl
@[simp] theorem State.modBuoy_ccp (s : State) (b : Fin 15) (g : BuoyState → BuoyState) : (s.modBuoy b g).ccp = s.ccp := rfl
@[simp] theorem State.modBuoy_pwr (s : State) (b : Fin 15) (g : BuoyState → BuoyState) : (s.modBuoy b g).pwr = s.pwr := rfl
@[simp] theorem State.modBuoy_lan (s : State) (b : Fin 15) (g : BuoyState → BuoyState) : (s.modBuoy b g).lan = s.lan := rfl
@[simp] theorem State.modBuoy_tnd (s : State) (b : Fin 15) (g : BuoyState → BuoyState) : (s.modBuoy b g).tnd = s.tnd := rfl
@[simp] theorem State.modBuoy_kpr (s : State) (b : Fin 15) (g : BuoyState → BuoyState) : (s.modBuoy b g).kpr = s.kpr := rfl
@[simp] theorem State.modBuoy_hst (s : State) (b : Fin 15) (g : BuoyState → BuoyState) : (s.modBuoy b g).hst = s.hst := rfl
@[simp] theorem State.modBuoy_mig (s : State) (b : Fin 15) (g : BuoyState → BuoyState) : (s.modBuoy b g).mig = s.mig := rfl
@[simp] theorem State.modBuoy_evt (s : State) (b : Fin 15) (g : BuoyState → BuoyState) : (s.modBuoy b g).evt = s.evt := rfl
@[simp] theorem State.modBuoy_smbBusy (s : State) (b : Fin 15) (g : BuoyState → BuoyState) : (s.modBuoy b g).smbBusy = s.smbBusy := rfl
@[simp] theorem State.modBuoy_out (s : State) (b : Fin 15) (g : BuoyState → BuoyState) : (s.modBuoy b g).out = s.out := rfl
@[simp] theorem State.modBuoy_freeSeq (s : State) (b : Fin 15) (g : BuoyState → BuoyState) : (s.modBuoy b g).freeSeq = s.freeSeq := rfl
@[simp] theorem State.modBuoy_pending (s : State) (b : Fin 15) (g : BuoyState → BuoyState) : (s.modBuoy b g).pending = s.pending := rfl
@[simp] theorem State.modBuoy_mode (s : State) (b : Fin 15) (g : BuoyState → BuoyState) : (s.modBuoy b g).mode = s.mode := rfl
@[simp] theorem State.modBuoy_fn (s : State) (b : Fin 15) (g : BuoyState → BuoyState) (k : Func) : (s.modBuoy b g).fn k = s.fn k := rfl
@[simp] theorem State.modBuoy_ring (s : State) (b : Fin 15) (g : BuoyState → BuoyState) (k : Func) (j : Fin 65) : (s.modBuoy b g).ring k j = s.ring k j := rfl
@[simp] theorem State.modBuoy_evRing (s : State) (b : Fin 15) (g : BuoyState → BuoyState) (k : Func) (j : Fin 4) : (s.modBuoy b g).evRing k j = s.evRing k j := rfl
@[simp] theorem State.modBuoy_link (s : State) (b : Fin 15) (g : BuoyState → BuoyState) (k : Link) : (s.modBuoy b g).link k = s.link k := rfl
@[simp] theorem State.modBuoy_mboxOf (s : State) (b : Fin 15) (g : BuoyState → BuoyState) (k : Fin 15) : (s.modBuoy b g).mboxOf k = s.mboxOf k := rfl
@[simp] theorem State.modBuoy_migr (s : State) (b : Fin 15) (g : BuoyState → BuoyState) (k : Fin 15) : (s.modBuoy b g).migr k = s.migr k := rfl
@[simp] theorem State.modBuoy_log (s : State) (b : Fin 15) (g : BuoyState → BuoyState) (k : Fin 15) : (s.modBuoy b g).log k = s.log k := rfl
@[simp] theorem State.modBuoy_port (s : State) (b : Fin 15) (g : BuoyState → BuoyState) (k : Fin 16) : (s.modBuoy b g).port k = s.port k := rfl
@[simp] theorem State.modBuoy_fairway (s : State) (b : Fin 15) (g : BuoyState → BuoyState) (k : Fin 4) : (s.modBuoy b g).fairway k = s.fairway k := rfl
@[simp] theorem State.modBuoy_dev (s : State) (b : Fin 15) (g : BuoyState → BuoyState) (k : Nat) : (s.modBuoy b g).dev k = s.dev k := rfl
@[simp] theorem State.modBuoy_eng (s : State) (b : Fin 15) (g : BuoyState → BuoyState) (k : Fin 17) : (s.modBuoy b g).eng k = s.eng k := rfl
@[simp] theorem State.modBuoy_moor (s : State) (b : Fin 15) (g : BuoyState → BuoyState) (k : Fin 17) : (s.modBuoy b g).moor k = s.moor k := rfl
@[simp] theorem State.modBuoy_sector (s : State) (b : Fin 15) (g : BuoyState → BuoyState) (k : Fin 4) : (s.modBuoy b g).sector k = s.sector k := rfl
@[simp] theorem State.modBuoy_keeper (s : State) (b : Fin 15) (g : BuoyState → BuoyState) (k : Fin 12) : (s.modBuoy b g).keeper k = s.keeper k := rfl
@[simp] theorem State.modBuoy_reqState (s : State) (b : Fin 15) (g : BuoyState → BuoyState) (k : Requester) : (s.modBuoy b g).reqState k = s.reqState k := rfl
@[simp] theorem State.modBuoy_lamps (s : State) (b : Fin 15) (g : BuoyState → BuoyState) (k : Fin 4) : (s.modBuoy b g).lamps k = s.lamps k := rfl
@[simp] theorem State.modBuoy_lanEp (s : State) (b : Fin 15) (g : BuoyState → BuoyState) (k : Fin 32) : (s.modBuoy b g).lanEp k = s.lanEp k := rfl
@[simp] theorem State.modBuoy_item (s : State) (b : Fin 15) (g : BuoyState → BuoyState) (k : Nat) : (s.modBuoy b g).item k = s.item k := rfl
@[simp] theorem State.modBuoy_ctr (s : State) (b : Fin 15) (g : BuoyState → BuoyState) (k : Nat) : (s.modBuoy b g).ctr k = s.ctr k := rfl
@[simp] theorem State.modBuoy_buoy_self (s : State) (b : Fin 15) (g : BuoyState → BuoyState) : (s.modBuoy b g).buoy b = g (s.buoy b) := by simp [State.modBuoy, State.buoy]
theorem State.modBuoy_buoy_ne (s : State) (b : Fin 15) (g : BuoyState → BuoyState) (k : Fin 15) (h : k ≠ b) : (s.modBuoy b g).buoy k = s.buoy k := by
  have h' : b.val ≠ k.val := fun x => h (Fin.ext x.symm)
  simp [State.modBuoy, State.buoy, h']
@[simp] theorem State.modBuoy_modBuoy (s : State) (b : Fin 15) (g : BuoyState → BuoyState) (h : BuoyState → BuoyState) : (s.modBuoy b g).modBuoy b h = s.modBuoy b (fun x => h (g x)) := by
  simp [State.modBuoy, State.buoy]
@[simp] theorem State.modMbox_sup (s : State) (b : Fin 15) (g : Mailbox → Mailbox) : (s.modMbox b g).sup = s.sup := rfl
@[simp] theorem State.modMbox_md (s : State) (b : Fin 15) (g : Mailbox → Mailbox) : (s.modMbox b g).md = s.md := rfl
@[simp] theorem State.modMbox_boot (s : State) (b : Fin 15) (g : Mailbox → Mailbox) : (s.modMbox b g).boot = s.boot := rfl
@[simp] theorem State.modMbox_upd (s : State) (b : Fin 15) (g : Mailbox → Mailbox) : (s.modMbox b g).upd = s.upd := rfl
@[simp] theorem State.modMbox_pins (s : State) (b : Fin 15) (g : Mailbox → Mailbox) : (s.modMbox b g).pins = s.pins := rfl
@[simp] theorem State.modMbox_clk (s : State) (b : Fin 15) (g : Mailbox → Mailbox) : (s.modMbox b g).clk = s.clk := rfl
@[simp] theorem State.modMbox_reg (s : State) (b : Fin 15) (g : Mailbox → Mailbox) : (s.modMbox b g).reg = s.reg := rfl
@[simp] theorem State.modMbox_rng (s : State) (b : Fin 15) (g : Mailbox → Mailbox) : (s.modMbox b g).rng = s.rng := rfl
@[simp] theorem State.modMbox_bcn (s : State) (b : Fin 15) (g : Mailbox → Mailbox) : (s.modMbox b g).bcn = s.bcn := rfl
@[simp] theorem State.modMbox_fwy (s : State) (b : Fin 15) (g : Mailbox → Mailbox) : (s.modMbox b g).fwy = s.fwy := rfl
@[simp] theorem State.modMbox_ccp (s : State) (b : Fin 15) (g : Mailbox → Mailbox) : (s.modMbox b g).ccp = s.ccp := rfl
@[simp] theorem State.modMbox_pwr (s : State) (b : Fin 15) (g : Mailbox → Mailbox) : (s.modMbox b g).pwr = s.pwr := rfl
@[simp] theorem State.modMbox_lan (s : State) (b : Fin 15) (g : Mailbox → Mailbox) : (s.modMbox b g).lan = s.lan := rfl
@[simp] theorem State.modMbox_tnd (s : State) (b : Fin 15) (g : Mailbox → Mailbox) : (s.modMbox b g).tnd = s.tnd := rfl
@[simp] theorem State.modMbox_kpr (s : State) (b : Fin 15) (g : Mailbox → Mailbox) : (s.modMbox b g).kpr = s.kpr := rfl
@[simp] theorem State.modMbox_hst (s : State) (b : Fin 15) (g : Mailbox → Mailbox) : (s.modMbox b g).hst = s.hst := rfl
@[simp] theorem State.modMbox_mig (s : State) (b : Fin 15) (g : Mailbox → Mailbox) : (s.modMbox b g).mig = s.mig := rfl
@[simp] theorem State.modMbox_evt (s : State) (b : Fin 15) (g : Mailbox → Mailbox) : (s.modMbox b g).evt = s.evt := rfl
@[simp] theorem State.modMbox_smbBusy (s : State) (b : Fin 15) (g : Mailbox → Mailbox) : (s.modMbox b g).smbBusy = s.smbBusy := rfl
@[simp] theorem State.modMbox_out (s : State) (b : Fin 15) (g : Mailbox → Mailbox) : (s.modMbox b g).out = s.out := rfl
@[simp] theorem State.modMbox_freeSeq (s : State) (b : Fin 15) (g : Mailbox → Mailbox) : (s.modMbox b g).freeSeq = s.freeSeq := rfl
@[simp] theorem State.modMbox_pending (s : State) (b : Fin 15) (g : Mailbox → Mailbox) : (s.modMbox b g).pending = s.pending := rfl
@[simp] theorem State.modMbox_mode (s : State) (b : Fin 15) (g : Mailbox → Mailbox) : (s.modMbox b g).mode = s.mode := rfl
@[simp] theorem State.modMbox_fn (s : State) (b : Fin 15) (g : Mailbox → Mailbox) (k : Func) : (s.modMbox b g).fn k = s.fn k := rfl
@[simp] theorem State.modMbox_ring (s : State) (b : Fin 15) (g : Mailbox → Mailbox) (k : Func) (j : Fin 65) : (s.modMbox b g).ring k j = s.ring k j := rfl
@[simp] theorem State.modMbox_evRing (s : State) (b : Fin 15) (g : Mailbox → Mailbox) (k : Func) (j : Fin 4) : (s.modMbox b g).evRing k j = s.evRing k j := rfl
@[simp] theorem State.modMbox_link (s : State) (b : Fin 15) (g : Mailbox → Mailbox) (k : Link) : (s.modMbox b g).link k = s.link k := rfl
@[simp] theorem State.modMbox_buoy (s : State) (b : Fin 15) (g : Mailbox → Mailbox) (k : Fin 15) : (s.modMbox b g).buoy k = s.buoy k := rfl
@[simp] theorem State.modMbox_migr (s : State) (b : Fin 15) (g : Mailbox → Mailbox) (k : Fin 15) : (s.modMbox b g).migr k = s.migr k := rfl
@[simp] theorem State.modMbox_log (s : State) (b : Fin 15) (g : Mailbox → Mailbox) (k : Fin 15) : (s.modMbox b g).log k = s.log k := rfl
@[simp] theorem State.modMbox_port (s : State) (b : Fin 15) (g : Mailbox → Mailbox) (k : Fin 16) : (s.modMbox b g).port k = s.port k := rfl
@[simp] theorem State.modMbox_fairway (s : State) (b : Fin 15) (g : Mailbox → Mailbox) (k : Fin 4) : (s.modMbox b g).fairway k = s.fairway k := rfl
@[simp] theorem State.modMbox_dev (s : State) (b : Fin 15) (g : Mailbox → Mailbox) (k : Nat) : (s.modMbox b g).dev k = s.dev k := rfl
@[simp] theorem State.modMbox_eng (s : State) (b : Fin 15) (g : Mailbox → Mailbox) (k : Fin 17) : (s.modMbox b g).eng k = s.eng k := rfl
@[simp] theorem State.modMbox_moor (s : State) (b : Fin 15) (g : Mailbox → Mailbox) (k : Fin 17) : (s.modMbox b g).moor k = s.moor k := rfl
@[simp] theorem State.modMbox_sector (s : State) (b : Fin 15) (g : Mailbox → Mailbox) (k : Fin 4) : (s.modMbox b g).sector k = s.sector k := rfl
@[simp] theorem State.modMbox_keeper (s : State) (b : Fin 15) (g : Mailbox → Mailbox) (k : Fin 12) : (s.modMbox b g).keeper k = s.keeper k := rfl
@[simp] theorem State.modMbox_reqState (s : State) (b : Fin 15) (g : Mailbox → Mailbox) (k : Requester) : (s.modMbox b g).reqState k = s.reqState k := rfl
@[simp] theorem State.modMbox_lamps (s : State) (b : Fin 15) (g : Mailbox → Mailbox) (k : Fin 4) : (s.modMbox b g).lamps k = s.lamps k := rfl
@[simp] theorem State.modMbox_lanEp (s : State) (b : Fin 15) (g : Mailbox → Mailbox) (k : Fin 32) : (s.modMbox b g).lanEp k = s.lanEp k := rfl
@[simp] theorem State.modMbox_item (s : State) (b : Fin 15) (g : Mailbox → Mailbox) (k : Nat) : (s.modMbox b g).item k = s.item k := rfl
@[simp] theorem State.modMbox_ctr (s : State) (b : Fin 15) (g : Mailbox → Mailbox) (k : Nat) : (s.modMbox b g).ctr k = s.ctr k := rfl
@[simp] theorem State.modMbox_mboxOf_self (s : State) (b : Fin 15) (g : Mailbox → Mailbox) : (s.modMbox b g).mboxOf b = g (s.mboxOf b) := by simp [State.modMbox, State.mboxOf]
theorem State.modMbox_mboxOf_ne (s : State) (b : Fin 15) (g : Mailbox → Mailbox) (k : Fin 15) (h : k ≠ b) : (s.modMbox b g).mboxOf k = s.mboxOf k := by
  have h' : b.val ≠ k.val := fun x => h (Fin.ext x.symm)
  simp [State.modMbox, State.mboxOf, h']
@[simp] theorem State.modMbox_modMbox (s : State) (b : Fin 15) (g : Mailbox → Mailbox) (h : Mailbox → Mailbox) : (s.modMbox b g).modMbox b h = s.modMbox b (fun x => h (g x)) := by
  simp [State.modMbox, State.mboxOf]
@[simp] theorem State.modMsix_sup (s : State) (i : Fin 32) (g : MsixTable → MsixTable) : (s.modMsix i g).sup = s.sup := rfl
@[simp] theorem State.modMsix_md (s : State) (i : Fin 32) (g : MsixTable → MsixTable) : (s.modMsix i g).md = s.md := rfl
@[simp] theorem State.modMsix_boot (s : State) (i : Fin 32) (g : MsixTable → MsixTable) : (s.modMsix i g).boot = s.boot := rfl
@[simp] theorem State.modMsix_upd (s : State) (i : Fin 32) (g : MsixTable → MsixTable) : (s.modMsix i g).upd = s.upd := rfl
@[simp] theorem State.modMsix_pins (s : State) (i : Fin 32) (g : MsixTable → MsixTable) : (s.modMsix i g).pins = s.pins := rfl
@[simp] theorem State.modMsix_clk (s : State) (i : Fin 32) (g : MsixTable → MsixTable) : (s.modMsix i g).clk = s.clk := rfl
@[simp] theorem State.modMsix_reg (s : State) (i : Fin 32) (g : MsixTable → MsixTable) : (s.modMsix i g).reg = s.reg := rfl
@[simp] theorem State.modMsix_rng (s : State) (i : Fin 32) (g : MsixTable → MsixTable) : (s.modMsix i g).rng = s.rng := rfl
@[simp] theorem State.modMsix_bcn (s : State) (i : Fin 32) (g : MsixTable → MsixTable) : (s.modMsix i g).bcn = s.bcn := rfl
@[simp] theorem State.modMsix_fwy (s : State) (i : Fin 32) (g : MsixTable → MsixTable) : (s.modMsix i g).fwy = s.fwy := rfl
@[simp] theorem State.modMsix_ccp (s : State) (i : Fin 32) (g : MsixTable → MsixTable) : (s.modMsix i g).ccp = s.ccp := rfl
@[simp] theorem State.modMsix_pwr (s : State) (i : Fin 32) (g : MsixTable → MsixTable) : (s.modMsix i g).pwr = s.pwr := rfl
@[simp] theorem State.modMsix_lan (s : State) (i : Fin 32) (g : MsixTable → MsixTable) : (s.modMsix i g).lan = s.lan := rfl
@[simp] theorem State.modMsix_tnd (s : State) (i : Fin 32) (g : MsixTable → MsixTable) : (s.modMsix i g).tnd = s.tnd := rfl
@[simp] theorem State.modMsix_kpr (s : State) (i : Fin 32) (g : MsixTable → MsixTable) : (s.modMsix i g).kpr = s.kpr := rfl
@[simp] theorem State.modMsix_hst (s : State) (i : Fin 32) (g : MsixTable → MsixTable) : (s.modMsix i g).hst = s.hst := rfl
@[simp] theorem State.modMsix_mig (s : State) (i : Fin 32) (g : MsixTable → MsixTable) : (s.modMsix i g).mig = s.mig := rfl
@[simp] theorem State.modMsix_evt (s : State) (i : Fin 32) (g : MsixTable → MsixTable) : (s.modMsix i g).evt = s.evt := rfl
@[simp] theorem State.modMsix_smbBusy (s : State) (i : Fin 32) (g : MsixTable → MsixTable) : (s.modMsix i g).smbBusy = s.smbBusy := rfl
@[simp] theorem State.modMsix_out (s : State) (i : Fin 32) (g : MsixTable → MsixTable) : (s.modMsix i g).out = s.out := rfl
@[simp] theorem State.modMsix_freeSeq (s : State) (i : Fin 32) (g : MsixTable → MsixTable) : (s.modMsix i g).freeSeq = s.freeSeq := rfl
@[simp] theorem State.modMsix_pending (s : State) (i : Fin 32) (g : MsixTable → MsixTable) : (s.modMsix i g).pending = s.pending := rfl
@[simp] theorem State.modMsix_mode (s : State) (i : Fin 32) (g : MsixTable → MsixTable) : (s.modMsix i g).mode = s.mode := rfl
@[simp] theorem State.modMsix_fn (s : State) (i : Fin 32) (g : MsixTable → MsixTable) (k : Func) : (s.modMsix i g).fn k = s.fn k := rfl
@[simp] theorem State.modMsix_ring (s : State) (i : Fin 32) (g : MsixTable → MsixTable) (k : Func) (j : Fin 65) : (s.modMsix i g).ring k j = s.ring k j := rfl
@[simp] theorem State.modMsix_evRing (s : State) (i : Fin 32) (g : MsixTable → MsixTable) (k : Func) (j : Fin 4) : (s.modMsix i g).evRing k j = s.evRing k j := rfl
@[simp] theorem State.modMsix_link (s : State) (i : Fin 32) (g : MsixTable → MsixTable) (k : Link) : (s.modMsix i g).link k = s.link k := rfl
@[simp] theorem State.modMsix_buoy (s : State) (i : Fin 32) (g : MsixTable → MsixTable) (k : Fin 15) : (s.modMsix i g).buoy k = s.buoy k := rfl
@[simp] theorem State.modMsix_mboxOf (s : State) (i : Fin 32) (g : MsixTable → MsixTable) (k : Fin 15) : (s.modMsix i g).mboxOf k = s.mboxOf k := rfl
@[simp] theorem State.modMsix_migr (s : State) (i : Fin 32) (g : MsixTable → MsixTable) (k : Fin 15) : (s.modMsix i g).migr k = s.migr k := rfl
@[simp] theorem State.modMsix_log (s : State) (i : Fin 32) (g : MsixTable → MsixTable) (k : Fin 15) : (s.modMsix i g).log k = s.log k := rfl
@[simp] theorem State.modMsix_port (s : State) (i : Fin 32) (g : MsixTable → MsixTable) (k : Fin 16) : (s.modMsix i g).port k = s.port k := rfl
@[simp] theorem State.modMsix_fairway (s : State) (i : Fin 32) (g : MsixTable → MsixTable) (k : Fin 4) : (s.modMsix i g).fairway k = s.fairway k := rfl
@[simp] theorem State.modMsix_dev (s : State) (i : Fin 32) (g : MsixTable → MsixTable) (k : Nat) : (s.modMsix i g).dev k = s.dev k := rfl
@[simp] theorem State.modMsix_eng (s : State) (i : Fin 32) (g : MsixTable → MsixTable) (k : Fin 17) : (s.modMsix i g).eng k = s.eng k := rfl
@[simp] theorem State.modMsix_moor (s : State) (i : Fin 32) (g : MsixTable → MsixTable) (k : Fin 17) : (s.modMsix i g).moor k = s.moor k := rfl
@[simp] theorem State.modMsix_sector (s : State) (i : Fin 32) (g : MsixTable → MsixTable) (k : Fin 4) : (s.modMsix i g).sector k = s.sector k := rfl
@[simp] theorem State.modMsix_keeper (s : State) (i : Fin 32) (g : MsixTable → MsixTable) (k : Fin 12) : (s.modMsix i g).keeper k = s.keeper k := rfl
@[simp] theorem State.modMsix_reqState (s : State) (i : Fin 32) (g : MsixTable → MsixTable) (k : Requester) : (s.modMsix i g).reqState k = s.reqState k := rfl
@[simp] theorem State.modMsix_lamps (s : State) (i : Fin 32) (g : MsixTable → MsixTable) (k : Fin 4) : (s.modMsix i g).lamps k = s.lamps k := rfl
@[simp] theorem State.modMsix_lanEp (s : State) (i : Fin 32) (g : MsixTable → MsixTable) (k : Fin 32) : (s.modMsix i g).lanEp k = s.lanEp k := rfl
@[simp] theorem State.modMsix_item (s : State) (i : Fin 32) (g : MsixTable → MsixTable) (k : Nat) : (s.modMsix i g).item k = s.item k := rfl
@[simp] theorem State.modMsix_ctr (s : State) (i : Fin 32) (g : MsixTable → MsixTable) (k : Nat) : (s.modMsix i g).ctr k = s.ctr k := rfl
@[simp] theorem State.modMigr_sup (s : State) (b : Fin 15) (g : BuoyMig → BuoyMig) : (s.modMigr b g).sup = s.sup := rfl
@[simp] theorem State.modMigr_md (s : State) (b : Fin 15) (g : BuoyMig → BuoyMig) : (s.modMigr b g).md = s.md := rfl
@[simp] theorem State.modMigr_boot (s : State) (b : Fin 15) (g : BuoyMig → BuoyMig) : (s.modMigr b g).boot = s.boot := rfl
@[simp] theorem State.modMigr_upd (s : State) (b : Fin 15) (g : BuoyMig → BuoyMig) : (s.modMigr b g).upd = s.upd := rfl
@[simp] theorem State.modMigr_pins (s : State) (b : Fin 15) (g : BuoyMig → BuoyMig) : (s.modMigr b g).pins = s.pins := rfl
@[simp] theorem State.modMigr_clk (s : State) (b : Fin 15) (g : BuoyMig → BuoyMig) : (s.modMigr b g).clk = s.clk := rfl
@[simp] theorem State.modMigr_reg (s : State) (b : Fin 15) (g : BuoyMig → BuoyMig) : (s.modMigr b g).reg = s.reg := rfl
@[simp] theorem State.modMigr_lnk (s : State) (b : Fin 15) (g : BuoyMig → BuoyMig) : (s.modMigr b g).lnk = s.lnk := rfl
@[simp] theorem State.modMigr_rng (s : State) (b : Fin 15) (g : BuoyMig → BuoyMig) : (s.modMigr b g).rng = s.rng := rfl
@[simp] theorem State.modMigr_bcn (s : State) (b : Fin 15) (g : BuoyMig → BuoyMig) : (s.modMigr b g).bcn = s.bcn := rfl
@[simp] theorem State.modMigr_fwy (s : State) (b : Fin 15) (g : BuoyMig → BuoyMig) : (s.modMigr b g).fwy = s.fwy := rfl
@[simp] theorem State.modMigr_ccp (s : State) (b : Fin 15) (g : BuoyMig → BuoyMig) : (s.modMigr b g).ccp = s.ccp := rfl
@[simp] theorem State.modMigr_pwr (s : State) (b : Fin 15) (g : BuoyMig → BuoyMig) : (s.modMigr b g).pwr = s.pwr := rfl
@[simp] theorem State.modMigr_lan (s : State) (b : Fin 15) (g : BuoyMig → BuoyMig) : (s.modMigr b g).lan = s.lan := rfl
@[simp] theorem State.modMigr_tnd (s : State) (b : Fin 15) (g : BuoyMig → BuoyMig) : (s.modMigr b g).tnd = s.tnd := rfl
@[simp] theorem State.modMigr_kpr (s : State) (b : Fin 15) (g : BuoyMig → BuoyMig) : (s.modMigr b g).kpr = s.kpr := rfl
@[simp] theorem State.modMigr_hst (s : State) (b : Fin 15) (g : BuoyMig → BuoyMig) : (s.modMigr b g).hst = s.hst := rfl
@[simp] theorem State.modMigr_evt (s : State) (b : Fin 15) (g : BuoyMig → BuoyMig) : (s.modMigr b g).evt = s.evt := rfl
@[simp] theorem State.modMigr_smbBusy (s : State) (b : Fin 15) (g : BuoyMig → BuoyMig) : (s.modMigr b g).smbBusy = s.smbBusy := rfl
@[simp] theorem State.modMigr_out (s : State) (b : Fin 15) (g : BuoyMig → BuoyMig) : (s.modMigr b g).out = s.out := rfl
@[simp] theorem State.modMigr_freeSeq (s : State) (b : Fin 15) (g : BuoyMig → BuoyMig) : (s.modMigr b g).freeSeq = s.freeSeq := rfl
@[simp] theorem State.modMigr_pending (s : State) (b : Fin 15) (g : BuoyMig → BuoyMig) : (s.modMigr b g).pending = s.pending := rfl
@[simp] theorem State.modMigr_mode (s : State) (b : Fin 15) (g : BuoyMig → BuoyMig) : (s.modMigr b g).mode = s.mode := rfl
@[simp] theorem State.modMigr_fn (s : State) (b : Fin 15) (g : BuoyMig → BuoyMig) (k : Func) : (s.modMigr b g).fn k = s.fn k := rfl
@[simp] theorem State.modMigr_ring (s : State) (b : Fin 15) (g : BuoyMig → BuoyMig) (k : Func) (j : Fin 65) : (s.modMigr b g).ring k j = s.ring k j := rfl
@[simp] theorem State.modMigr_evRing (s : State) (b : Fin 15) (g : BuoyMig → BuoyMig) (k : Func) (j : Fin 4) : (s.modMigr b g).evRing k j = s.evRing k j := rfl
@[simp] theorem State.modMigr_link (s : State) (b : Fin 15) (g : BuoyMig → BuoyMig) (k : Link) : (s.modMigr b g).link k = s.link k := rfl
@[simp] theorem State.modMigr_buoy (s : State) (b : Fin 15) (g : BuoyMig → BuoyMig) (k : Fin 15) : (s.modMigr b g).buoy k = s.buoy k := rfl
@[simp] theorem State.modMigr_mboxOf (s : State) (b : Fin 15) (g : BuoyMig → BuoyMig) (k : Fin 15) : (s.modMigr b g).mboxOf k = s.mboxOf k := rfl
@[simp] theorem State.modMigr_log (s : State) (b : Fin 15) (g : BuoyMig → BuoyMig) (k : Fin 15) : (s.modMigr b g).log k = s.log k := rfl
@[simp] theorem State.modMigr_port (s : State) (b : Fin 15) (g : BuoyMig → BuoyMig) (k : Fin 16) : (s.modMigr b g).port k = s.port k := rfl
@[simp] theorem State.modMigr_fairway (s : State) (b : Fin 15) (g : BuoyMig → BuoyMig) (k : Fin 4) : (s.modMigr b g).fairway k = s.fairway k := rfl
@[simp] theorem State.modMigr_dev (s : State) (b : Fin 15) (g : BuoyMig → BuoyMig) (k : Nat) : (s.modMigr b g).dev k = s.dev k := rfl
@[simp] theorem State.modMigr_eng (s : State) (b : Fin 15) (g : BuoyMig → BuoyMig) (k : Fin 17) : (s.modMigr b g).eng k = s.eng k := rfl
@[simp] theorem State.modMigr_moor (s : State) (b : Fin 15) (g : BuoyMig → BuoyMig) (k : Fin 17) : (s.modMigr b g).moor k = s.moor k := rfl
@[simp] theorem State.modMigr_sector (s : State) (b : Fin 15) (g : BuoyMig → BuoyMig) (k : Fin 4) : (s.modMigr b g).sector k = s.sector k := rfl
@[simp] theorem State.modMigr_keeper (s : State) (b : Fin 15) (g : BuoyMig → BuoyMig) (k : Fin 12) : (s.modMigr b g).keeper k = s.keeper k := rfl
@[simp] theorem State.modMigr_reqState (s : State) (b : Fin 15) (g : BuoyMig → BuoyMig) (k : Requester) : (s.modMigr b g).reqState k = s.reqState k := rfl
@[simp] theorem State.modMigr_lamps (s : State) (b : Fin 15) (g : BuoyMig → BuoyMig) (k : Fin 4) : (s.modMigr b g).lamps k = s.lamps k := rfl
@[simp] theorem State.modMigr_lanEp (s : State) (b : Fin 15) (g : BuoyMig → BuoyMig) (k : Fin 32) : (s.modMigr b g).lanEp k = s.lanEp k := rfl
@[simp] theorem State.modMigr_item (s : State) (b : Fin 15) (g : BuoyMig → BuoyMig) (k : Nat) : (s.modMigr b g).item k = s.item k := rfl
@[simp] theorem State.modMigr_ctr (s : State) (b : Fin 15) (g : BuoyMig → BuoyMig) (k : Nat) : (s.modMigr b g).ctr k = s.ctr k := rfl
@[simp] theorem State.modMigr_migr_self (s : State) (b : Fin 15) (g : BuoyMig → BuoyMig) : (s.modMigr b g).migr b = g (s.migr b) := by simp [State.modMigr, State.migr]
theorem State.modMigr_migr_ne (s : State) (b : Fin 15) (g : BuoyMig → BuoyMig) (k : Fin 15) (h : k ≠ b) : (s.modMigr b g).migr k = s.migr k := by
  have h' : b.val ≠ k.val := fun x => h (Fin.ext x.symm)
  simp [State.modMigr, State.migr, h']
@[simp] theorem State.modMigr_modMigr (s : State) (b : Fin 15) (g : BuoyMig → BuoyMig) (h : BuoyMig → BuoyMig) : (s.modMigr b g).modMigr b h = s.modMigr b (fun x => h (g x)) := by
  simp [State.modMigr, State.migr]
@[simp] theorem State.modLog_sup (s : State) (b : Fin 15) (g : Logbook → Logbook) : (s.modLog b g).sup = s.sup := rfl
@[simp] theorem State.modLog_md (s : State) (b : Fin 15) (g : Logbook → Logbook) : (s.modLog b g).md = s.md := rfl
@[simp] theorem State.modLog_boot (s : State) (b : Fin 15) (g : Logbook → Logbook) : (s.modLog b g).boot = s.boot := rfl
@[simp] theorem State.modLog_upd (s : State) (b : Fin 15) (g : Logbook → Logbook) : (s.modLog b g).upd = s.upd := rfl
@[simp] theorem State.modLog_pins (s : State) (b : Fin 15) (g : Logbook → Logbook) : (s.modLog b g).pins = s.pins := rfl
@[simp] theorem State.modLog_clk (s : State) (b : Fin 15) (g : Logbook → Logbook) : (s.modLog b g).clk = s.clk := rfl
@[simp] theorem State.modLog_reg (s : State) (b : Fin 15) (g : Logbook → Logbook) : (s.modLog b g).reg = s.reg := rfl
@[simp] theorem State.modLog_lnk (s : State) (b : Fin 15) (g : Logbook → Logbook) : (s.modLog b g).lnk = s.lnk := rfl
@[simp] theorem State.modLog_rng (s : State) (b : Fin 15) (g : Logbook → Logbook) : (s.modLog b g).rng = s.rng := rfl
@[simp] theorem State.modLog_bcn (s : State) (b : Fin 15) (g : Logbook → Logbook) : (s.modLog b g).bcn = s.bcn := rfl
@[simp] theorem State.modLog_fwy (s : State) (b : Fin 15) (g : Logbook → Logbook) : (s.modLog b g).fwy = s.fwy := rfl
@[simp] theorem State.modLog_ccp (s : State) (b : Fin 15) (g : Logbook → Logbook) : (s.modLog b g).ccp = s.ccp := rfl
@[simp] theorem State.modLog_pwr (s : State) (b : Fin 15) (g : Logbook → Logbook) : (s.modLog b g).pwr = s.pwr := rfl
@[simp] theorem State.modLog_lan (s : State) (b : Fin 15) (g : Logbook → Logbook) : (s.modLog b g).lan = s.lan := rfl
@[simp] theorem State.modLog_tnd (s : State) (b : Fin 15) (g : Logbook → Logbook) : (s.modLog b g).tnd = s.tnd := rfl
@[simp] theorem State.modLog_kpr (s : State) (b : Fin 15) (g : Logbook → Logbook) : (s.modLog b g).kpr = s.kpr := rfl
@[simp] theorem State.modLog_hst (s : State) (b : Fin 15) (g : Logbook → Logbook) : (s.modLog b g).hst = s.hst := rfl
@[simp] theorem State.modLog_evt (s : State) (b : Fin 15) (g : Logbook → Logbook) : (s.modLog b g).evt = s.evt := rfl
@[simp] theorem State.modLog_smbBusy (s : State) (b : Fin 15) (g : Logbook → Logbook) : (s.modLog b g).smbBusy = s.smbBusy := rfl
@[simp] theorem State.modLog_out (s : State) (b : Fin 15) (g : Logbook → Logbook) : (s.modLog b g).out = s.out := rfl
@[simp] theorem State.modLog_freeSeq (s : State) (b : Fin 15) (g : Logbook → Logbook) : (s.modLog b g).freeSeq = s.freeSeq := rfl
@[simp] theorem State.modLog_pending (s : State) (b : Fin 15) (g : Logbook → Logbook) : (s.modLog b g).pending = s.pending := rfl
@[simp] theorem State.modLog_mode (s : State) (b : Fin 15) (g : Logbook → Logbook) : (s.modLog b g).mode = s.mode := rfl
@[simp] theorem State.modLog_fn (s : State) (b : Fin 15) (g : Logbook → Logbook) (k : Func) : (s.modLog b g).fn k = s.fn k := rfl
@[simp] theorem State.modLog_ring (s : State) (b : Fin 15) (g : Logbook → Logbook) (k : Func) (j : Fin 65) : (s.modLog b g).ring k j = s.ring k j := rfl
@[simp] theorem State.modLog_evRing (s : State) (b : Fin 15) (g : Logbook → Logbook) (k : Func) (j : Fin 4) : (s.modLog b g).evRing k j = s.evRing k j := rfl
@[simp] theorem State.modLog_link (s : State) (b : Fin 15) (g : Logbook → Logbook) (k : Link) : (s.modLog b g).link k = s.link k := rfl
@[simp] theorem State.modLog_buoy (s : State) (b : Fin 15) (g : Logbook → Logbook) (k : Fin 15) : (s.modLog b g).buoy k = s.buoy k := rfl
@[simp] theorem State.modLog_mboxOf (s : State) (b : Fin 15) (g : Logbook → Logbook) (k : Fin 15) : (s.modLog b g).mboxOf k = s.mboxOf k := rfl
@[simp] theorem State.modLog_migr (s : State) (b : Fin 15) (g : Logbook → Logbook) (k : Fin 15) : (s.modLog b g).migr k = s.migr k := rfl
@[simp] theorem State.modLog_port (s : State) (b : Fin 15) (g : Logbook → Logbook) (k : Fin 16) : (s.modLog b g).port k = s.port k := rfl
@[simp] theorem State.modLog_fairway (s : State) (b : Fin 15) (g : Logbook → Logbook) (k : Fin 4) : (s.modLog b g).fairway k = s.fairway k := rfl
@[simp] theorem State.modLog_dev (s : State) (b : Fin 15) (g : Logbook → Logbook) (k : Nat) : (s.modLog b g).dev k = s.dev k := rfl
@[simp] theorem State.modLog_eng (s : State) (b : Fin 15) (g : Logbook → Logbook) (k : Fin 17) : (s.modLog b g).eng k = s.eng k := rfl
@[simp] theorem State.modLog_moor (s : State) (b : Fin 15) (g : Logbook → Logbook) (k : Fin 17) : (s.modLog b g).moor k = s.moor k := rfl
@[simp] theorem State.modLog_sector (s : State) (b : Fin 15) (g : Logbook → Logbook) (k : Fin 4) : (s.modLog b g).sector k = s.sector k := rfl
@[simp] theorem State.modLog_keeper (s : State) (b : Fin 15) (g : Logbook → Logbook) (k : Fin 12) : (s.modLog b g).keeper k = s.keeper k := rfl
@[simp] theorem State.modLog_reqState (s : State) (b : Fin 15) (g : Logbook → Logbook) (k : Requester) : (s.modLog b g).reqState k = s.reqState k := rfl
@[simp] theorem State.modLog_lamps (s : State) (b : Fin 15) (g : Logbook → Logbook) (k : Fin 4) : (s.modLog b g).lamps k = s.lamps k := rfl
@[simp] theorem State.modLog_lanEp (s : State) (b : Fin 15) (g : Logbook → Logbook) (k : Fin 32) : (s.modLog b g).lanEp k = s.lanEp k := rfl
@[simp] theorem State.modLog_item (s : State) (b : Fin 15) (g : Logbook → Logbook) (k : Nat) : (s.modLog b g).item k = s.item k := rfl
@[simp] theorem State.modLog_ctr (s : State) (b : Fin 15) (g : Logbook → Logbook) (k : Nat) : (s.modLog b g).ctr k = s.ctr k := rfl
@[simp] theorem State.modLog_log_self (s : State) (b : Fin 15) (g : Logbook → Logbook) : (s.modLog b g).log b = g (s.log b) := by simp [State.modLog, State.log]
theorem State.modLog_log_ne (s : State) (b : Fin 15) (g : Logbook → Logbook) (k : Fin 15) (h : k ≠ b) : (s.modLog b g).log k = s.log k := by
  have h' : b.val ≠ k.val := fun x => h (Fin.ext x.symm)
  simp [State.modLog, State.log, h']
@[simp] theorem State.modLog_modLog (s : State) (b : Fin 15) (g : Logbook → Logbook) (h : Logbook → Logbook) : (s.modLog b g).modLog b h = s.modLog b (fun x => h (g x)) := by
  simp [State.modLog, State.log]
@[simp] theorem State.modPort_sup (s : State) (n : Fin 16) (g : Port → Port) : (s.modPort n g).sup = s.sup := rfl
@[simp] theorem State.modPort_md (s : State) (n : Fin 16) (g : Port → Port) : (s.modPort n g).md = s.md := rfl
@[simp] theorem State.modPort_boot (s : State) (n : Fin 16) (g : Port → Port) : (s.modPort n g).boot = s.boot := rfl
@[simp] theorem State.modPort_upd (s : State) (n : Fin 16) (g : Port → Port) : (s.modPort n g).upd = s.upd := rfl
@[simp] theorem State.modPort_pins (s : State) (n : Fin 16) (g : Port → Port) : (s.modPort n g).pins = s.pins := rfl
@[simp] theorem State.modPort_clk (s : State) (n : Fin 16) (g : Port → Port) : (s.modPort n g).clk = s.clk := rfl
@[simp] theorem State.modPort_reg (s : State) (n : Fin 16) (g : Port → Port) : (s.modPort n g).reg = s.reg := rfl
@[simp] theorem State.modPort_lnk (s : State) (n : Fin 16) (g : Port → Port) : (s.modPort n g).lnk = s.lnk := rfl
@[simp] theorem State.modPort_rng (s : State) (n : Fin 16) (g : Port → Port) : (s.modPort n g).rng = s.rng := rfl
@[simp] theorem State.modPort_bcn (s : State) (n : Fin 16) (g : Port → Port) : (s.modPort n g).bcn = s.bcn := rfl
@[simp] theorem State.modPort_ccp (s : State) (n : Fin 16) (g : Port → Port) : (s.modPort n g).ccp = s.ccp := rfl
@[simp] theorem State.modPort_pwr (s : State) (n : Fin 16) (g : Port → Port) : (s.modPort n g).pwr = s.pwr := rfl
@[simp] theorem State.modPort_lan (s : State) (n : Fin 16) (g : Port → Port) : (s.modPort n g).lan = s.lan := rfl
@[simp] theorem State.modPort_tnd (s : State) (n : Fin 16) (g : Port → Port) : (s.modPort n g).tnd = s.tnd := rfl
@[simp] theorem State.modPort_kpr (s : State) (n : Fin 16) (g : Port → Port) : (s.modPort n g).kpr = s.kpr := rfl
@[simp] theorem State.modPort_hst (s : State) (n : Fin 16) (g : Port → Port) : (s.modPort n g).hst = s.hst := rfl
@[simp] theorem State.modPort_mig (s : State) (n : Fin 16) (g : Port → Port) : (s.modPort n g).mig = s.mig := rfl
@[simp] theorem State.modPort_evt (s : State) (n : Fin 16) (g : Port → Port) : (s.modPort n g).evt = s.evt := rfl
@[simp] theorem State.modPort_smbBusy (s : State) (n : Fin 16) (g : Port → Port) : (s.modPort n g).smbBusy = s.smbBusy := rfl
@[simp] theorem State.modPort_out (s : State) (n : Fin 16) (g : Port → Port) : (s.modPort n g).out = s.out := rfl
@[simp] theorem State.modPort_freeSeq (s : State) (n : Fin 16) (g : Port → Port) : (s.modPort n g).freeSeq = s.freeSeq := rfl
@[simp] theorem State.modPort_pending (s : State) (n : Fin 16) (g : Port → Port) : (s.modPort n g).pending = s.pending := rfl
@[simp] theorem State.modPort_mode (s : State) (n : Fin 16) (g : Port → Port) : (s.modPort n g).mode = s.mode := rfl
@[simp] theorem State.modPort_fn (s : State) (n : Fin 16) (g : Port → Port) (k : Func) : (s.modPort n g).fn k = s.fn k := rfl
@[simp] theorem State.modPort_ring (s : State) (n : Fin 16) (g : Port → Port) (k : Func) (j : Fin 65) : (s.modPort n g).ring k j = s.ring k j := rfl
@[simp] theorem State.modPort_evRing (s : State) (n : Fin 16) (g : Port → Port) (k : Func) (j : Fin 4) : (s.modPort n g).evRing k j = s.evRing k j := rfl
@[simp] theorem State.modPort_link (s : State) (n : Fin 16) (g : Port → Port) (k : Link) : (s.modPort n g).link k = s.link k := rfl
@[simp] theorem State.modPort_buoy (s : State) (n : Fin 16) (g : Port → Port) (k : Fin 15) : (s.modPort n g).buoy k = s.buoy k := rfl
@[simp] theorem State.modPort_mboxOf (s : State) (n : Fin 16) (g : Port → Port) (k : Fin 15) : (s.modPort n g).mboxOf k = s.mboxOf k := rfl
@[simp] theorem State.modPort_migr (s : State) (n : Fin 16) (g : Port → Port) (k : Fin 15) : (s.modPort n g).migr k = s.migr k := rfl
@[simp] theorem State.modPort_log (s : State) (n : Fin 16) (g : Port → Port) (k : Fin 15) : (s.modPort n g).log k = s.log k := rfl
@[simp] theorem State.modPort_fairway (s : State) (n : Fin 16) (g : Port → Port) (k : Fin 4) : (s.modPort n g).fairway k = s.fairway k := rfl
@[simp] theorem State.modPort_dev (s : State) (n : Fin 16) (g : Port → Port) (k : Nat) : (s.modPort n g).dev k = s.dev k := rfl
@[simp] theorem State.modPort_eng (s : State) (n : Fin 16) (g : Port → Port) (k : Fin 17) : (s.modPort n g).eng k = s.eng k := rfl
@[simp] theorem State.modPort_moor (s : State) (n : Fin 16) (g : Port → Port) (k : Fin 17) : (s.modPort n g).moor k = s.moor k := rfl
@[simp] theorem State.modPort_sector (s : State) (n : Fin 16) (g : Port → Port) (k : Fin 4) : (s.modPort n g).sector k = s.sector k := rfl
@[simp] theorem State.modPort_keeper (s : State) (n : Fin 16) (g : Port → Port) (k : Fin 12) : (s.modPort n g).keeper k = s.keeper k := rfl
@[simp] theorem State.modPort_reqState (s : State) (n : Fin 16) (g : Port → Port) (k : Requester) : (s.modPort n g).reqState k = s.reqState k := rfl
@[simp] theorem State.modPort_lamps (s : State) (n : Fin 16) (g : Port → Port) (k : Fin 4) : (s.modPort n g).lamps k = s.lamps k := rfl
@[simp] theorem State.modPort_lanEp (s : State) (n : Fin 16) (g : Port → Port) (k : Fin 32) : (s.modPort n g).lanEp k = s.lanEp k := rfl
@[simp] theorem State.modPort_item (s : State) (n : Fin 16) (g : Port → Port) (k : Nat) : (s.modPort n g).item k = s.item k := rfl
@[simp] theorem State.modPort_ctr (s : State) (n : Fin 16) (g : Port → Port) (k : Nat) : (s.modPort n g).ctr k = s.ctr k := rfl
@[simp] theorem State.modPort_port_self (s : State) (n : Fin 16) (g : Port → Port) : (s.modPort n g).port n = g (s.port n) := by simp [State.modPort, State.port]
theorem State.modPort_port_ne (s : State) (n : Fin 16) (g : Port → Port) (k : Fin 16) (h : k ≠ n) : (s.modPort n g).port k = s.port k := by
  have h' : n.val ≠ k.val := fun x => h (Fin.ext x.symm)
  simp [State.modPort, State.port, h']
@[simp] theorem State.modPort_modPort (s : State) (n : Fin 16) (g : Port → Port) (h : Port → Port) : (s.modPort n g).modPort n h = s.modPort n (fun x => h (g x)) := by
  simp [State.modPort, State.port]
@[simp] theorem State.modFairway_sup (s : State) (n : Fin 4) (g : Fairway → Fairway) : (s.modFairway n g).sup = s.sup := rfl
@[simp] theorem State.modFairway_md (s : State) (n : Fin 4) (g : Fairway → Fairway) : (s.modFairway n g).md = s.md := rfl
@[simp] theorem State.modFairway_boot (s : State) (n : Fin 4) (g : Fairway → Fairway) : (s.modFairway n g).boot = s.boot := rfl
@[simp] theorem State.modFairway_upd (s : State) (n : Fin 4) (g : Fairway → Fairway) : (s.modFairway n g).upd = s.upd := rfl
@[simp] theorem State.modFairway_pins (s : State) (n : Fin 4) (g : Fairway → Fairway) : (s.modFairway n g).pins = s.pins := rfl
@[simp] theorem State.modFairway_clk (s : State) (n : Fin 4) (g : Fairway → Fairway) : (s.modFairway n g).clk = s.clk := rfl
@[simp] theorem State.modFairway_reg (s : State) (n : Fin 4) (g : Fairway → Fairway) : (s.modFairway n g).reg = s.reg := rfl
@[simp] theorem State.modFairway_lnk (s : State) (n : Fin 4) (g : Fairway → Fairway) : (s.modFairway n g).lnk = s.lnk := rfl
@[simp] theorem State.modFairway_rng (s : State) (n : Fin 4) (g : Fairway → Fairway) : (s.modFairway n g).rng = s.rng := rfl
@[simp] theorem State.modFairway_bcn (s : State) (n : Fin 4) (g : Fairway → Fairway) : (s.modFairway n g).bcn = s.bcn := rfl
@[simp] theorem State.modFairway_ccp (s : State) (n : Fin 4) (g : Fairway → Fairway) : (s.modFairway n g).ccp = s.ccp := rfl
@[simp] theorem State.modFairway_pwr (s : State) (n : Fin 4) (g : Fairway → Fairway) : (s.modFairway n g).pwr = s.pwr := rfl
@[simp] theorem State.modFairway_lan (s : State) (n : Fin 4) (g : Fairway → Fairway) : (s.modFairway n g).lan = s.lan := rfl
@[simp] theorem State.modFairway_tnd (s : State) (n : Fin 4) (g : Fairway → Fairway) : (s.modFairway n g).tnd = s.tnd := rfl
@[simp] theorem State.modFairway_kpr (s : State) (n : Fin 4) (g : Fairway → Fairway) : (s.modFairway n g).kpr = s.kpr := rfl
@[simp] theorem State.modFairway_hst (s : State) (n : Fin 4) (g : Fairway → Fairway) : (s.modFairway n g).hst = s.hst := rfl
@[simp] theorem State.modFairway_mig (s : State) (n : Fin 4) (g : Fairway → Fairway) : (s.modFairway n g).mig = s.mig := rfl
@[simp] theorem State.modFairway_evt (s : State) (n : Fin 4) (g : Fairway → Fairway) : (s.modFairway n g).evt = s.evt := rfl
@[simp] theorem State.modFairway_smbBusy (s : State) (n : Fin 4) (g : Fairway → Fairway) : (s.modFairway n g).smbBusy = s.smbBusy := rfl
@[simp] theorem State.modFairway_out (s : State) (n : Fin 4) (g : Fairway → Fairway) : (s.modFairway n g).out = s.out := rfl
@[simp] theorem State.modFairway_freeSeq (s : State) (n : Fin 4) (g : Fairway → Fairway) : (s.modFairway n g).freeSeq = s.freeSeq := rfl
@[simp] theorem State.modFairway_pending (s : State) (n : Fin 4) (g : Fairway → Fairway) : (s.modFairway n g).pending = s.pending := rfl
@[simp] theorem State.modFairway_mode (s : State) (n : Fin 4) (g : Fairway → Fairway) : (s.modFairway n g).mode = s.mode := rfl
@[simp] theorem State.modFairway_fn (s : State) (n : Fin 4) (g : Fairway → Fairway) (k : Func) : (s.modFairway n g).fn k = s.fn k := rfl
@[simp] theorem State.modFairway_ring (s : State) (n : Fin 4) (g : Fairway → Fairway) (k : Func) (j : Fin 65) : (s.modFairway n g).ring k j = s.ring k j := rfl
@[simp] theorem State.modFairway_evRing (s : State) (n : Fin 4) (g : Fairway → Fairway) (k : Func) (j : Fin 4) : (s.modFairway n g).evRing k j = s.evRing k j := rfl
@[simp] theorem State.modFairway_link (s : State) (n : Fin 4) (g : Fairway → Fairway) (k : Link) : (s.modFairway n g).link k = s.link k := rfl
@[simp] theorem State.modFairway_buoy (s : State) (n : Fin 4) (g : Fairway → Fairway) (k : Fin 15) : (s.modFairway n g).buoy k = s.buoy k := rfl
@[simp] theorem State.modFairway_mboxOf (s : State) (n : Fin 4) (g : Fairway → Fairway) (k : Fin 15) : (s.modFairway n g).mboxOf k = s.mboxOf k := rfl
@[simp] theorem State.modFairway_migr (s : State) (n : Fin 4) (g : Fairway → Fairway) (k : Fin 15) : (s.modFairway n g).migr k = s.migr k := rfl
@[simp] theorem State.modFairway_log (s : State) (n : Fin 4) (g : Fairway → Fairway) (k : Fin 15) : (s.modFairway n g).log k = s.log k := rfl
@[simp] theorem State.modFairway_port (s : State) (n : Fin 4) (g : Fairway → Fairway) (k : Fin 16) : (s.modFairway n g).port k = s.port k := rfl
@[simp] theorem State.modFairway_eng (s : State) (n : Fin 4) (g : Fairway → Fairway) (k : Fin 17) : (s.modFairway n g).eng k = s.eng k := rfl
@[simp] theorem State.modFairway_moor (s : State) (n : Fin 4) (g : Fairway → Fairway) (k : Fin 17) : (s.modFairway n g).moor k = s.moor k := rfl
@[simp] theorem State.modFairway_sector (s : State) (n : Fin 4) (g : Fairway → Fairway) (k : Fin 4) : (s.modFairway n g).sector k = s.sector k := rfl
@[simp] theorem State.modFairway_keeper (s : State) (n : Fin 4) (g : Fairway → Fairway) (k : Fin 12) : (s.modFairway n g).keeper k = s.keeper k := rfl
@[simp] theorem State.modFairway_reqState (s : State) (n : Fin 4) (g : Fairway → Fairway) (k : Requester) : (s.modFairway n g).reqState k = s.reqState k := rfl
@[simp] theorem State.modFairway_lamps (s : State) (n : Fin 4) (g : Fairway → Fairway) (k : Fin 4) : (s.modFairway n g).lamps k = s.lamps k := rfl
@[simp] theorem State.modFairway_lanEp (s : State) (n : Fin 4) (g : Fairway → Fairway) (k : Fin 32) : (s.modFairway n g).lanEp k = s.lanEp k := rfl
@[simp] theorem State.modFairway_item (s : State) (n : Fin 4) (g : Fairway → Fairway) (k : Nat) : (s.modFairway n g).item k = s.item k := rfl
@[simp] theorem State.modFairway_ctr (s : State) (n : Fin 4) (g : Fairway → Fairway) (k : Nat) : (s.modFairway n g).ctr k = s.ctr k := rfl
@[simp] theorem State.modFairway_fairway_self (s : State) (n : Fin 4) (g : Fairway → Fairway) : (s.modFairway n g).fairway n = g (s.fairway n) := by simp [State.modFairway, State.fairway]
theorem State.modFairway_fairway_ne (s : State) (n : Fin 4) (g : Fairway → Fairway) (k : Fin 4) (h : k ≠ n) : (s.modFairway n g).fairway k = s.fairway k := by
  have h' : n.val ≠ k.val := fun x => h (Fin.ext x.symm)
  simp [State.modFairway, State.fairway, h']
@[simp] theorem State.modFairway_modFairway (s : State) (n : Fin 4) (g : Fairway → Fairway) (h : Fairway → Fairway) : (s.modFairway n g).modFairway n h = s.modFairway n (fun x => h (g x)) := by
  simp [State.modFairway, State.fairway]
@[simp] theorem State.modEng_sup (s : State) (e : Fin 17) (g : Engine → Engine) : (s.modEng e g).sup = s.sup := rfl
@[simp] theorem State.modEng_md (s : State) (e : Fin 17) (g : Engine → Engine) : (s.modEng e g).md = s.md := rfl
@[simp] theorem State.modEng_boot (s : State) (e : Fin 17) (g : Engine → Engine) : (s.modEng e g).boot = s.boot := rfl
@[simp] theorem State.modEng_upd (s : State) (e : Fin 17) (g : Engine → Engine) : (s.modEng e g).upd = s.upd := rfl
@[simp] theorem State.modEng_pins (s : State) (e : Fin 17) (g : Engine → Engine) : (s.modEng e g).pins = s.pins := rfl
@[simp] theorem State.modEng_clk (s : State) (e : Fin 17) (g : Engine → Engine) : (s.modEng e g).clk = s.clk := rfl
@[simp] theorem State.modEng_reg (s : State) (e : Fin 17) (g : Engine → Engine) : (s.modEng e g).reg = s.reg := rfl
@[simp] theorem State.modEng_lnk (s : State) (e : Fin 17) (g : Engine → Engine) : (s.modEng e g).lnk = s.lnk := rfl
@[simp] theorem State.modEng_rng (s : State) (e : Fin 17) (g : Engine → Engine) : (s.modEng e g).rng = s.rng := rfl
@[simp] theorem State.modEng_bcn (s : State) (e : Fin 17) (g : Engine → Engine) : (s.modEng e g).bcn = s.bcn := rfl
@[simp] theorem State.modEng_fwy (s : State) (e : Fin 17) (g : Engine → Engine) : (s.modEng e g).fwy = s.fwy := rfl
@[simp] theorem State.modEng_pwr (s : State) (e : Fin 17) (g : Engine → Engine) : (s.modEng e g).pwr = s.pwr := rfl
@[simp] theorem State.modEng_lan (s : State) (e : Fin 17) (g : Engine → Engine) : (s.modEng e g).lan = s.lan := rfl
@[simp] theorem State.modEng_tnd (s : State) (e : Fin 17) (g : Engine → Engine) : (s.modEng e g).tnd = s.tnd := rfl
@[simp] theorem State.modEng_kpr (s : State) (e : Fin 17) (g : Engine → Engine) : (s.modEng e g).kpr = s.kpr := rfl
@[simp] theorem State.modEng_hst (s : State) (e : Fin 17) (g : Engine → Engine) : (s.modEng e g).hst = s.hst := rfl
@[simp] theorem State.modEng_mig (s : State) (e : Fin 17) (g : Engine → Engine) : (s.modEng e g).mig = s.mig := rfl
@[simp] theorem State.modEng_evt (s : State) (e : Fin 17) (g : Engine → Engine) : (s.modEng e g).evt = s.evt := rfl
@[simp] theorem State.modEng_smbBusy (s : State) (e : Fin 17) (g : Engine → Engine) : (s.modEng e g).smbBusy = s.smbBusy := rfl
@[simp] theorem State.modEng_out (s : State) (e : Fin 17) (g : Engine → Engine) : (s.modEng e g).out = s.out := rfl
@[simp] theorem State.modEng_freeSeq (s : State) (e : Fin 17) (g : Engine → Engine) : (s.modEng e g).freeSeq = s.freeSeq := rfl
@[simp] theorem State.modEng_pending (s : State) (e : Fin 17) (g : Engine → Engine) : (s.modEng e g).pending = s.pending := rfl
@[simp] theorem State.modEng_mode (s : State) (e : Fin 17) (g : Engine → Engine) : (s.modEng e g).mode = s.mode := rfl
@[simp] theorem State.modEng_fn (s : State) (e : Fin 17) (g : Engine → Engine) (k : Func) : (s.modEng e g).fn k = s.fn k := rfl
@[simp] theorem State.modEng_ring (s : State) (e : Fin 17) (g : Engine → Engine) (k : Func) (j : Fin 65) : (s.modEng e g).ring k j = s.ring k j := rfl
@[simp] theorem State.modEng_evRing (s : State) (e : Fin 17) (g : Engine → Engine) (k : Func) (j : Fin 4) : (s.modEng e g).evRing k j = s.evRing k j := rfl
@[simp] theorem State.modEng_link (s : State) (e : Fin 17) (g : Engine → Engine) (k : Link) : (s.modEng e g).link k = s.link k := rfl
@[simp] theorem State.modEng_buoy (s : State) (e : Fin 17) (g : Engine → Engine) (k : Fin 15) : (s.modEng e g).buoy k = s.buoy k := rfl
@[simp] theorem State.modEng_mboxOf (s : State) (e : Fin 17) (g : Engine → Engine) (k : Fin 15) : (s.modEng e g).mboxOf k = s.mboxOf k := rfl
@[simp] theorem State.modEng_migr (s : State) (e : Fin 17) (g : Engine → Engine) (k : Fin 15) : (s.modEng e g).migr k = s.migr k := rfl
@[simp] theorem State.modEng_log (s : State) (e : Fin 17) (g : Engine → Engine) (k : Fin 15) : (s.modEng e g).log k = s.log k := rfl
@[simp] theorem State.modEng_port (s : State) (e : Fin 17) (g : Engine → Engine) (k : Fin 16) : (s.modEng e g).port k = s.port k := rfl
@[simp] theorem State.modEng_fairway (s : State) (e : Fin 17) (g : Engine → Engine) (k : Fin 4) : (s.modEng e g).fairway k = s.fairway k := rfl
@[simp] theorem State.modEng_dev (s : State) (e : Fin 17) (g : Engine → Engine) (k : Nat) : (s.modEng e g).dev k = s.dev k := rfl
@[simp] theorem State.modEng_moor (s : State) (e : Fin 17) (g : Engine → Engine) (k : Fin 17) : (s.modEng e g).moor k = s.moor k := rfl
@[simp] theorem State.modEng_sector (s : State) (e : Fin 17) (g : Engine → Engine) (k : Fin 4) : (s.modEng e g).sector k = s.sector k := rfl
@[simp] theorem State.modEng_keeper (s : State) (e : Fin 17) (g : Engine → Engine) (k : Fin 12) : (s.modEng e g).keeper k = s.keeper k := rfl
@[simp] theorem State.modEng_reqState (s : State) (e : Fin 17) (g : Engine → Engine) (k : Requester) : (s.modEng e g).reqState k = s.reqState k := rfl
@[simp] theorem State.modEng_lamps (s : State) (e : Fin 17) (g : Engine → Engine) (k : Fin 4) : (s.modEng e g).lamps k = s.lamps k := rfl
@[simp] theorem State.modEng_lanEp (s : State) (e : Fin 17) (g : Engine → Engine) (k : Fin 32) : (s.modEng e g).lanEp k = s.lanEp k := rfl
@[simp] theorem State.modEng_item (s : State) (e : Fin 17) (g : Engine → Engine) (k : Nat) : (s.modEng e g).item k = s.item k := rfl
@[simp] theorem State.modEng_ctr (s : State) (e : Fin 17) (g : Engine → Engine) (k : Nat) : (s.modEng e g).ctr k = s.ctr k := rfl
@[simp] theorem State.modEng_eng_self (s : State) (e : Fin 17) (g : Engine → Engine) : (s.modEng e g).eng e = g (s.eng e) := by simp [State.modEng, State.eng]
theorem State.modEng_eng_ne (s : State) (e : Fin 17) (g : Engine → Engine) (k : Fin 17) (h : k ≠ e) : (s.modEng e g).eng k = s.eng k := by
  have h' : e.val ≠ k.val := fun x => h (Fin.ext x.symm)
  simp [State.modEng, State.eng, h']
@[simp] theorem State.modEng_modEng (s : State) (e : Fin 17) (g : Engine → Engine) (h : Engine → Engine) : (s.modEng e g).modEng e h = s.modEng e (fun x => h (g x)) := by
  simp [State.modEng, State.eng]
@[simp] theorem State.modMoor_sup (s : State) (p : Fin 17) (g : Mooring → Mooring) : (s.modMoor p g).sup = s.sup := rfl
@[simp] theorem State.modMoor_md (s : State) (p : Fin 17) (g : Mooring → Mooring) : (s.modMoor p g).md = s.md := rfl
@[simp] theorem State.modMoor_boot (s : State) (p : Fin 17) (g : Mooring → Mooring) : (s.modMoor p g).boot = s.boot := rfl
@[simp] theorem State.modMoor_upd (s : State) (p : Fin 17) (g : Mooring → Mooring) : (s.modMoor p g).upd = s.upd := rfl
@[simp] theorem State.modMoor_pins (s : State) (p : Fin 17) (g : Mooring → Mooring) : (s.modMoor p g).pins = s.pins := rfl
@[simp] theorem State.modMoor_clk (s : State) (p : Fin 17) (g : Mooring → Mooring) : (s.modMoor p g).clk = s.clk := rfl
@[simp] theorem State.modMoor_reg (s : State) (p : Fin 17) (g : Mooring → Mooring) : (s.modMoor p g).reg = s.reg := rfl
@[simp] theorem State.modMoor_lnk (s : State) (p : Fin 17) (g : Mooring → Mooring) : (s.modMoor p g).lnk = s.lnk := rfl
@[simp] theorem State.modMoor_rng (s : State) (p : Fin 17) (g : Mooring → Mooring) : (s.modMoor p g).rng = s.rng := rfl
@[simp] theorem State.modMoor_bcn (s : State) (p : Fin 17) (g : Mooring → Mooring) : (s.modMoor p g).bcn = s.bcn := rfl
@[simp] theorem State.modMoor_fwy (s : State) (p : Fin 17) (g : Mooring → Mooring) : (s.modMoor p g).fwy = s.fwy := rfl
@[simp] theorem State.modMoor_ccp (s : State) (p : Fin 17) (g : Mooring → Mooring) : (s.modMoor p g).ccp = s.ccp := rfl
@[simp] theorem State.modMoor_lan (s : State) (p : Fin 17) (g : Mooring → Mooring) : (s.modMoor p g).lan = s.lan := rfl
@[simp] theorem State.modMoor_tnd (s : State) (p : Fin 17) (g : Mooring → Mooring) : (s.modMoor p g).tnd = s.tnd := rfl
@[simp] theorem State.modMoor_kpr (s : State) (p : Fin 17) (g : Mooring → Mooring) : (s.modMoor p g).kpr = s.kpr := rfl
@[simp] theorem State.modMoor_hst (s : State) (p : Fin 17) (g : Mooring → Mooring) : (s.modMoor p g).hst = s.hst := rfl
@[simp] theorem State.modMoor_mig (s : State) (p : Fin 17) (g : Mooring → Mooring) : (s.modMoor p g).mig = s.mig := rfl
@[simp] theorem State.modMoor_evt (s : State) (p : Fin 17) (g : Mooring → Mooring) : (s.modMoor p g).evt = s.evt := rfl
@[simp] theorem State.modMoor_smbBusy (s : State) (p : Fin 17) (g : Mooring → Mooring) : (s.modMoor p g).smbBusy = s.smbBusy := rfl
@[simp] theorem State.modMoor_out (s : State) (p : Fin 17) (g : Mooring → Mooring) : (s.modMoor p g).out = s.out := rfl
@[simp] theorem State.modMoor_freeSeq (s : State) (p : Fin 17) (g : Mooring → Mooring) : (s.modMoor p g).freeSeq = s.freeSeq := rfl
@[simp] theorem State.modMoor_pending (s : State) (p : Fin 17) (g : Mooring → Mooring) : (s.modMoor p g).pending = s.pending := rfl
@[simp] theorem State.modMoor_mode (s : State) (p : Fin 17) (g : Mooring → Mooring) : (s.modMoor p g).mode = s.mode := rfl
@[simp] theorem State.modMoor_fn (s : State) (p : Fin 17) (g : Mooring → Mooring) (k : Func) : (s.modMoor p g).fn k = s.fn k := rfl
@[simp] theorem State.modMoor_ring (s : State) (p : Fin 17) (g : Mooring → Mooring) (k : Func) (j : Fin 65) : (s.modMoor p g).ring k j = s.ring k j := rfl
@[simp] theorem State.modMoor_evRing (s : State) (p : Fin 17) (g : Mooring → Mooring) (k : Func) (j : Fin 4) : (s.modMoor p g).evRing k j = s.evRing k j := rfl
@[simp] theorem State.modMoor_link (s : State) (p : Fin 17) (g : Mooring → Mooring) (k : Link) : (s.modMoor p g).link k = s.link k := rfl
@[simp] theorem State.modMoor_buoy (s : State) (p : Fin 17) (g : Mooring → Mooring) (k : Fin 15) : (s.modMoor p g).buoy k = s.buoy k := rfl
@[simp] theorem State.modMoor_mboxOf (s : State) (p : Fin 17) (g : Mooring → Mooring) (k : Fin 15) : (s.modMoor p g).mboxOf k = s.mboxOf k := rfl
@[simp] theorem State.modMoor_migr (s : State) (p : Fin 17) (g : Mooring → Mooring) (k : Fin 15) : (s.modMoor p g).migr k = s.migr k := rfl
@[simp] theorem State.modMoor_log (s : State) (p : Fin 17) (g : Mooring → Mooring) (k : Fin 15) : (s.modMoor p g).log k = s.log k := rfl
@[simp] theorem State.modMoor_port (s : State) (p : Fin 17) (g : Mooring → Mooring) (k : Fin 16) : (s.modMoor p g).port k = s.port k := rfl
@[simp] theorem State.modMoor_fairway (s : State) (p : Fin 17) (g : Mooring → Mooring) (k : Fin 4) : (s.modMoor p g).fairway k = s.fairway k := rfl
@[simp] theorem State.modMoor_dev (s : State) (p : Fin 17) (g : Mooring → Mooring) (k : Nat) : (s.modMoor p g).dev k = s.dev k := rfl
@[simp] theorem State.modMoor_eng (s : State) (p : Fin 17) (g : Mooring → Mooring) (k : Fin 17) : (s.modMoor p g).eng k = s.eng k := rfl
@[simp] theorem State.modMoor_sector (s : State) (p : Fin 17) (g : Mooring → Mooring) (k : Fin 4) : (s.modMoor p g).sector k = s.sector k := rfl
@[simp] theorem State.modMoor_keeper (s : State) (p : Fin 17) (g : Mooring → Mooring) (k : Fin 12) : (s.modMoor p g).keeper k = s.keeper k := rfl
@[simp] theorem State.modMoor_reqState (s : State) (p : Fin 17) (g : Mooring → Mooring) (k : Requester) : (s.modMoor p g).reqState k = s.reqState k := rfl
@[simp] theorem State.modMoor_lamps (s : State) (p : Fin 17) (g : Mooring → Mooring) (k : Fin 4) : (s.modMoor p g).lamps k = s.lamps k := rfl
@[simp] theorem State.modMoor_lanEp (s : State) (p : Fin 17) (g : Mooring → Mooring) (k : Fin 32) : (s.modMoor p g).lanEp k = s.lanEp k := rfl
@[simp] theorem State.modMoor_item (s : State) (p : Fin 17) (g : Mooring → Mooring) (k : Nat) : (s.modMoor p g).item k = s.item k := rfl
@[simp] theorem State.modMoor_ctr (s : State) (p : Fin 17) (g : Mooring → Mooring) (k : Nat) : (s.modMoor p g).ctr k = s.ctr k := rfl
@[simp] theorem State.modMoor_moor_self (s : State) (p : Fin 17) (g : Mooring → Mooring) : (s.modMoor p g).moor p = g (s.moor p) := by simp [State.modMoor, State.moor]
theorem State.modMoor_moor_ne (s : State) (p : Fin 17) (g : Mooring → Mooring) (k : Fin 17) (h : k ≠ p) : (s.modMoor p g).moor k = s.moor k := by
  have h' : p.val ≠ k.val := fun x => h (Fin.ext x.symm)
  simp [State.modMoor, State.moor, h']
@[simp] theorem State.modMoor_modMoor (s : State) (p : Fin 17) (g : Mooring → Mooring) (h : Mooring → Mooring) : (s.modMoor p g).modMoor p h = s.modMoor p (fun x => h (g x)) := by
  simp [State.modMoor, State.moor]
@[simp] theorem State.modSector_sup (s : State) (q : Fin 4) (g : Sector → Sector) : (s.modSector q g).sup = s.sup := rfl
@[simp] theorem State.modSector_md (s : State) (q : Fin 4) (g : Sector → Sector) : (s.modSector q g).md = s.md := rfl
@[simp] theorem State.modSector_boot (s : State) (q : Fin 4) (g : Sector → Sector) : (s.modSector q g).boot = s.boot := rfl
@[simp] theorem State.modSector_upd (s : State) (q : Fin 4) (g : Sector → Sector) : (s.modSector q g).upd = s.upd := rfl
@[simp] theorem State.modSector_pins (s : State) (q : Fin 4) (g : Sector → Sector) : (s.modSector q g).pins = s.pins := rfl
@[simp] theorem State.modSector_clk (s : State) (q : Fin 4) (g : Sector → Sector) : (s.modSector q g).clk = s.clk := rfl
@[simp] theorem State.modSector_reg (s : State) (q : Fin 4) (g : Sector → Sector) : (s.modSector q g).reg = s.reg := rfl
@[simp] theorem State.modSector_lnk (s : State) (q : Fin 4) (g : Sector → Sector) : (s.modSector q g).lnk = s.lnk := rfl
@[simp] theorem State.modSector_rng (s : State) (q : Fin 4) (g : Sector → Sector) : (s.modSector q g).rng = s.rng := rfl
@[simp] theorem State.modSector_bcn (s : State) (q : Fin 4) (g : Sector → Sector) : (s.modSector q g).bcn = s.bcn := rfl
@[simp] theorem State.modSector_fwy (s : State) (q : Fin 4) (g : Sector → Sector) : (s.modSector q g).fwy = s.fwy := rfl
@[simp] theorem State.modSector_ccp (s : State) (q : Fin 4) (g : Sector → Sector) : (s.modSector q g).ccp = s.ccp := rfl
@[simp] theorem State.modSector_lan (s : State) (q : Fin 4) (g : Sector → Sector) : (s.modSector q g).lan = s.lan := rfl
@[simp] theorem State.modSector_tnd (s : State) (q : Fin 4) (g : Sector → Sector) : (s.modSector q g).tnd = s.tnd := rfl
@[simp] theorem State.modSector_kpr (s : State) (q : Fin 4) (g : Sector → Sector) : (s.modSector q g).kpr = s.kpr := rfl
@[simp] theorem State.modSector_hst (s : State) (q : Fin 4) (g : Sector → Sector) : (s.modSector q g).hst = s.hst := rfl
@[simp] theorem State.modSector_mig (s : State) (q : Fin 4) (g : Sector → Sector) : (s.modSector q g).mig = s.mig := rfl
@[simp] theorem State.modSector_evt (s : State) (q : Fin 4) (g : Sector → Sector) : (s.modSector q g).evt = s.evt := rfl
@[simp] theorem State.modSector_smbBusy (s : State) (q : Fin 4) (g : Sector → Sector) : (s.modSector q g).smbBusy = s.smbBusy := rfl
@[simp] theorem State.modSector_out (s : State) (q : Fin 4) (g : Sector → Sector) : (s.modSector q g).out = s.out := rfl
@[simp] theorem State.modSector_freeSeq (s : State) (q : Fin 4) (g : Sector → Sector) : (s.modSector q g).freeSeq = s.freeSeq := rfl
@[simp] theorem State.modSector_pending (s : State) (q : Fin 4) (g : Sector → Sector) : (s.modSector q g).pending = s.pending := rfl
@[simp] theorem State.modSector_mode (s : State) (q : Fin 4) (g : Sector → Sector) : (s.modSector q g).mode = s.mode := rfl
@[simp] theorem State.modSector_fn (s : State) (q : Fin 4) (g : Sector → Sector) (k : Func) : (s.modSector q g).fn k = s.fn k := rfl
@[simp] theorem State.modSector_ring (s : State) (q : Fin 4) (g : Sector → Sector) (k : Func) (j : Fin 65) : (s.modSector q g).ring k j = s.ring k j := rfl
@[simp] theorem State.modSector_evRing (s : State) (q : Fin 4) (g : Sector → Sector) (k : Func) (j : Fin 4) : (s.modSector q g).evRing k j = s.evRing k j := rfl
@[simp] theorem State.modSector_link (s : State) (q : Fin 4) (g : Sector → Sector) (k : Link) : (s.modSector q g).link k = s.link k := rfl
@[simp] theorem State.modSector_buoy (s : State) (q : Fin 4) (g : Sector → Sector) (k : Fin 15) : (s.modSector q g).buoy k = s.buoy k := rfl
@[simp] theorem State.modSector_mboxOf (s : State) (q : Fin 4) (g : Sector → Sector) (k : Fin 15) : (s.modSector q g).mboxOf k = s.mboxOf k := rfl
@[simp] theorem State.modSector_migr (s : State) (q : Fin 4) (g : Sector → Sector) (k : Fin 15) : (s.modSector q g).migr k = s.migr k := rfl
@[simp] theorem State.modSector_log (s : State) (q : Fin 4) (g : Sector → Sector) (k : Fin 15) : (s.modSector q g).log k = s.log k := rfl
@[simp] theorem State.modSector_port (s : State) (q : Fin 4) (g : Sector → Sector) (k : Fin 16) : (s.modSector q g).port k = s.port k := rfl
@[simp] theorem State.modSector_fairway (s : State) (q : Fin 4) (g : Sector → Sector) (k : Fin 4) : (s.modSector q g).fairway k = s.fairway k := rfl
@[simp] theorem State.modSector_dev (s : State) (q : Fin 4) (g : Sector → Sector) (k : Nat) : (s.modSector q g).dev k = s.dev k := rfl
@[simp] theorem State.modSector_eng (s : State) (q : Fin 4) (g : Sector → Sector) (k : Fin 17) : (s.modSector q g).eng k = s.eng k := rfl
@[simp] theorem State.modSector_moor (s : State) (q : Fin 4) (g : Sector → Sector) (k : Fin 17) : (s.modSector q g).moor k = s.moor k := rfl
@[simp] theorem State.modSector_keeper (s : State) (q : Fin 4) (g : Sector → Sector) (k : Fin 12) : (s.modSector q g).keeper k = s.keeper k := rfl
@[simp] theorem State.modSector_reqState (s : State) (q : Fin 4) (g : Sector → Sector) (k : Requester) : (s.modSector q g).reqState k = s.reqState k := rfl
@[simp] theorem State.modSector_lamps (s : State) (q : Fin 4) (g : Sector → Sector) (k : Fin 4) : (s.modSector q g).lamps k = s.lamps k := rfl
@[simp] theorem State.modSector_lanEp (s : State) (q : Fin 4) (g : Sector → Sector) (k : Fin 32) : (s.modSector q g).lanEp k = s.lanEp k := rfl
@[simp] theorem State.modSector_item (s : State) (q : Fin 4) (g : Sector → Sector) (k : Nat) : (s.modSector q g).item k = s.item k := rfl
@[simp] theorem State.modSector_ctr (s : State) (q : Fin 4) (g : Sector → Sector) (k : Nat) : (s.modSector q g).ctr k = s.ctr k := rfl
@[simp] theorem State.modSector_sector_self (s : State) (q : Fin 4) (g : Sector → Sector) : (s.modSector q g).sector q = g (s.sector q) := by simp [State.modSector, State.sector]
theorem State.modSector_sector_ne (s : State) (q : Fin 4) (g : Sector → Sector) (k : Fin 4) (h : k ≠ q) : (s.modSector q g).sector k = s.sector k := by
  have h' : q.val ≠ k.val := fun x => h (Fin.ext x.symm)
  simp [State.modSector, State.sector, h']
@[simp] theorem State.modSector_modSector (s : State) (q : Fin 4) (g : Sector → Sector) (h : Sector → Sector) : (s.modSector q g).modSector q h = s.modSector q (fun x => h (g x)) := by
  simp [State.modSector, State.sector]
@[simp] theorem State.modKeeper_sup (s : State) (n : Fin 12) (g : Keeper → Keeper) : (s.modKeeper n g).sup = s.sup := rfl
@[simp] theorem State.modKeeper_md (s : State) (n : Fin 12) (g : Keeper → Keeper) : (s.modKeeper n g).md = s.md := rfl
@[simp] theorem State.modKeeper_boot (s : State) (n : Fin 12) (g : Keeper → Keeper) : (s.modKeeper n g).boot = s.boot := rfl
@[simp] theorem State.modKeeper_upd (s : State) (n : Fin 12) (g : Keeper → Keeper) : (s.modKeeper n g).upd = s.upd := rfl
@[simp] theorem State.modKeeper_pins (s : State) (n : Fin 12) (g : Keeper → Keeper) : (s.modKeeper n g).pins = s.pins := rfl
@[simp] theorem State.modKeeper_clk (s : State) (n : Fin 12) (g : Keeper → Keeper) : (s.modKeeper n g).clk = s.clk := rfl
@[simp] theorem State.modKeeper_reg (s : State) (n : Fin 12) (g : Keeper → Keeper) : (s.modKeeper n g).reg = s.reg := rfl
@[simp] theorem State.modKeeper_lnk (s : State) (n : Fin 12) (g : Keeper → Keeper) : (s.modKeeper n g).lnk = s.lnk := rfl
@[simp] theorem State.modKeeper_rng (s : State) (n : Fin 12) (g : Keeper → Keeper) : (s.modKeeper n g).rng = s.rng := rfl
@[simp] theorem State.modKeeper_bcn (s : State) (n : Fin 12) (g : Keeper → Keeper) : (s.modKeeper n g).bcn = s.bcn := rfl
@[simp] theorem State.modKeeper_fwy (s : State) (n : Fin 12) (g : Keeper → Keeper) : (s.modKeeper n g).fwy = s.fwy := rfl
@[simp] theorem State.modKeeper_ccp (s : State) (n : Fin 12) (g : Keeper → Keeper) : (s.modKeeper n g).ccp = s.ccp := rfl
@[simp] theorem State.modKeeper_pwr (s : State) (n : Fin 12) (g : Keeper → Keeper) : (s.modKeeper n g).pwr = s.pwr := rfl
@[simp] theorem State.modKeeper_lan (s : State) (n : Fin 12) (g : Keeper → Keeper) : (s.modKeeper n g).lan = s.lan := rfl
@[simp] theorem State.modKeeper_tnd (s : State) (n : Fin 12) (g : Keeper → Keeper) : (s.modKeeper n g).tnd = s.tnd := rfl
@[simp] theorem State.modKeeper_hst (s : State) (n : Fin 12) (g : Keeper → Keeper) : (s.modKeeper n g).hst = s.hst := rfl
@[simp] theorem State.modKeeper_mig (s : State) (n : Fin 12) (g : Keeper → Keeper) : (s.modKeeper n g).mig = s.mig := rfl
@[simp] theorem State.modKeeper_evt (s : State) (n : Fin 12) (g : Keeper → Keeper) : (s.modKeeper n g).evt = s.evt := rfl
@[simp] theorem State.modKeeper_smbBusy (s : State) (n : Fin 12) (g : Keeper → Keeper) : (s.modKeeper n g).smbBusy = s.smbBusy := rfl
@[simp] theorem State.modKeeper_out (s : State) (n : Fin 12) (g : Keeper → Keeper) : (s.modKeeper n g).out = s.out := rfl
@[simp] theorem State.modKeeper_freeSeq (s : State) (n : Fin 12) (g : Keeper → Keeper) : (s.modKeeper n g).freeSeq = s.freeSeq := rfl
@[simp] theorem State.modKeeper_pending (s : State) (n : Fin 12) (g : Keeper → Keeper) : (s.modKeeper n g).pending = s.pending := rfl
@[simp] theorem State.modKeeper_mode (s : State) (n : Fin 12) (g : Keeper → Keeper) : (s.modKeeper n g).mode = s.mode := rfl
@[simp] theorem State.modKeeper_fn (s : State) (n : Fin 12) (g : Keeper → Keeper) (k : Func) : (s.modKeeper n g).fn k = s.fn k := rfl
@[simp] theorem State.modKeeper_ring (s : State) (n : Fin 12) (g : Keeper → Keeper) (k : Func) (j : Fin 65) : (s.modKeeper n g).ring k j = s.ring k j := rfl
@[simp] theorem State.modKeeper_evRing (s : State) (n : Fin 12) (g : Keeper → Keeper) (k : Func) (j : Fin 4) : (s.modKeeper n g).evRing k j = s.evRing k j := rfl
@[simp] theorem State.modKeeper_link (s : State) (n : Fin 12) (g : Keeper → Keeper) (k : Link) : (s.modKeeper n g).link k = s.link k := rfl
@[simp] theorem State.modKeeper_buoy (s : State) (n : Fin 12) (g : Keeper → Keeper) (k : Fin 15) : (s.modKeeper n g).buoy k = s.buoy k := rfl
@[simp] theorem State.modKeeper_mboxOf (s : State) (n : Fin 12) (g : Keeper → Keeper) (k : Fin 15) : (s.modKeeper n g).mboxOf k = s.mboxOf k := rfl
@[simp] theorem State.modKeeper_migr (s : State) (n : Fin 12) (g : Keeper → Keeper) (k : Fin 15) : (s.modKeeper n g).migr k = s.migr k := rfl
@[simp] theorem State.modKeeper_log (s : State) (n : Fin 12) (g : Keeper → Keeper) (k : Fin 15) : (s.modKeeper n g).log k = s.log k := rfl
@[simp] theorem State.modKeeper_port (s : State) (n : Fin 12) (g : Keeper → Keeper) (k : Fin 16) : (s.modKeeper n g).port k = s.port k := rfl
@[simp] theorem State.modKeeper_fairway (s : State) (n : Fin 12) (g : Keeper → Keeper) (k : Fin 4) : (s.modKeeper n g).fairway k = s.fairway k := rfl
@[simp] theorem State.modKeeper_dev (s : State) (n : Fin 12) (g : Keeper → Keeper) (k : Nat) : (s.modKeeper n g).dev k = s.dev k := rfl
@[simp] theorem State.modKeeper_eng (s : State) (n : Fin 12) (g : Keeper → Keeper) (k : Fin 17) : (s.modKeeper n g).eng k = s.eng k := rfl
@[simp] theorem State.modKeeper_moor (s : State) (n : Fin 12) (g : Keeper → Keeper) (k : Fin 17) : (s.modKeeper n g).moor k = s.moor k := rfl
@[simp] theorem State.modKeeper_sector (s : State) (n : Fin 12) (g : Keeper → Keeper) (k : Fin 4) : (s.modKeeper n g).sector k = s.sector k := rfl
@[simp] theorem State.modKeeper_reqState (s : State) (n : Fin 12) (g : Keeper → Keeper) (k : Requester) : (s.modKeeper n g).reqState k = s.reqState k := rfl
@[simp] theorem State.modKeeper_lamps (s : State) (n : Fin 12) (g : Keeper → Keeper) (k : Fin 4) : (s.modKeeper n g).lamps k = s.lamps k := rfl
@[simp] theorem State.modKeeper_lanEp (s : State) (n : Fin 12) (g : Keeper → Keeper) (k : Fin 32) : (s.modKeeper n g).lanEp k = s.lanEp k := rfl
@[simp] theorem State.modKeeper_item (s : State) (n : Fin 12) (g : Keeper → Keeper) (k : Nat) : (s.modKeeper n g).item k = s.item k := rfl
@[simp] theorem State.modKeeper_ctr (s : State) (n : Fin 12) (g : Keeper → Keeper) (k : Nat) : (s.modKeeper n g).ctr k = s.ctr k := rfl
@[simp] theorem State.modKeeper_keeper_self (s : State) (n : Fin 12) (g : Keeper → Keeper) : (s.modKeeper n g).keeper n = g (s.keeper n) := by simp [State.modKeeper, State.keeper]
theorem State.modKeeper_keeper_ne (s : State) (n : Fin 12) (g : Keeper → Keeper) (k : Fin 12) (h : k ≠ n) : (s.modKeeper n g).keeper k = s.keeper k := by
  have h' : n.val ≠ k.val := fun x => h (Fin.ext x.symm)
  simp [State.modKeeper, State.keeper, h']
@[simp] theorem State.modKeeper_modKeeper (s : State) (n : Fin 12) (g : Keeper → Keeper) (h : Keeper → Keeper) : (s.modKeeper n g).modKeeper n h = s.modKeeper n (fun x => h (g x)) := by
  simp [State.modKeeper, State.keeper]
@[simp] theorem State.modReq_sup (s : State) (r : Requester) (g : ReqState → ReqState) : (s.modReq r g).sup = s.sup := rfl
@[simp] theorem State.modReq_md (s : State) (r : Requester) (g : ReqState → ReqState) : (s.modReq r g).md = s.md := rfl
@[simp] theorem State.modReq_boot (s : State) (r : Requester) (g : ReqState → ReqState) : (s.modReq r g).boot = s.boot := rfl
@[simp] theorem State.modReq_upd (s : State) (r : Requester) (g : ReqState → ReqState) : (s.modReq r g).upd = s.upd := rfl
@[simp] theorem State.modReq_pins (s : State) (r : Requester) (g : ReqState → ReqState) : (s.modReq r g).pins = s.pins := rfl
@[simp] theorem State.modReq_clk (s : State) (r : Requester) (g : ReqState → ReqState) : (s.modReq r g).clk = s.clk := rfl
@[simp] theorem State.modReq_lnk (s : State) (r : Requester) (g : ReqState → ReqState) : (s.modReq r g).lnk = s.lnk := rfl
@[simp] theorem State.modReq_rng (s : State) (r : Requester) (g : ReqState → ReqState) : (s.modReq r g).rng = s.rng := rfl
@[simp] theorem State.modReq_bcn (s : State) (r : Requester) (g : ReqState → ReqState) : (s.modReq r g).bcn = s.bcn := rfl
@[simp] theorem State.modReq_fwy (s : State) (r : Requester) (g : ReqState → ReqState) : (s.modReq r g).fwy = s.fwy := rfl
@[simp] theorem State.modReq_ccp (s : State) (r : Requester) (g : ReqState → ReqState) : (s.modReq r g).ccp = s.ccp := rfl
@[simp] theorem State.modReq_pwr (s : State) (r : Requester) (g : ReqState → ReqState) : (s.modReq r g).pwr = s.pwr := rfl
@[simp] theorem State.modReq_lan (s : State) (r : Requester) (g : ReqState → ReqState) : (s.modReq r g).lan = s.lan := rfl
@[simp] theorem State.modReq_tnd (s : State) (r : Requester) (g : ReqState → ReqState) : (s.modReq r g).tnd = s.tnd := rfl
@[simp] theorem State.modReq_kpr (s : State) (r : Requester) (g : ReqState → ReqState) : (s.modReq r g).kpr = s.kpr := rfl
@[simp] theorem State.modReq_hst (s : State) (r : Requester) (g : ReqState → ReqState) : (s.modReq r g).hst = s.hst := rfl
@[simp] theorem State.modReq_mig (s : State) (r : Requester) (g : ReqState → ReqState) : (s.modReq r g).mig = s.mig := rfl
@[simp] theorem State.modReq_evt (s : State) (r : Requester) (g : ReqState → ReqState) : (s.modReq r g).evt = s.evt := rfl
@[simp] theorem State.modReq_smbBusy (s : State) (r : Requester) (g : ReqState → ReqState) : (s.modReq r g).smbBusy = s.smbBusy := rfl
@[simp] theorem State.modReq_out (s : State) (r : Requester) (g : ReqState → ReqState) : (s.modReq r g).out = s.out := rfl
@[simp] theorem State.modReq_freeSeq (s : State) (r : Requester) (g : ReqState → ReqState) : (s.modReq r g).freeSeq = s.freeSeq := rfl
@[simp] theorem State.modReq_pending (s : State) (r : Requester) (g : ReqState → ReqState) : (s.modReq r g).pending = s.pending := rfl
@[simp] theorem State.modReq_mode (s : State) (r : Requester) (g : ReqState → ReqState) : (s.modReq r g).mode = s.mode := rfl
@[simp] theorem State.modReq_fn (s : State) (r : Requester) (g : ReqState → ReqState) (k : Func) : (s.modReq r g).fn k = s.fn k := rfl
@[simp] theorem State.modReq_ring (s : State) (r : Requester) (g : ReqState → ReqState) (k : Func) (j : Fin 65) : (s.modReq r g).ring k j = s.ring k j := rfl
@[simp] theorem State.modReq_evRing (s : State) (r : Requester) (g : ReqState → ReqState) (k : Func) (j : Fin 4) : (s.modReq r g).evRing k j = s.evRing k j := rfl
@[simp] theorem State.modReq_link (s : State) (r : Requester) (g : ReqState → ReqState) (k : Link) : (s.modReq r g).link k = s.link k := rfl
@[simp] theorem State.modReq_buoy (s : State) (r : Requester) (g : ReqState → ReqState) (k : Fin 15) : (s.modReq r g).buoy k = s.buoy k := rfl
@[simp] theorem State.modReq_mboxOf (s : State) (r : Requester) (g : ReqState → ReqState) (k : Fin 15) : (s.modReq r g).mboxOf k = s.mboxOf k := rfl
@[simp] theorem State.modReq_migr (s : State) (r : Requester) (g : ReqState → ReqState) (k : Fin 15) : (s.modReq r g).migr k = s.migr k := rfl
@[simp] theorem State.modReq_log (s : State) (r : Requester) (g : ReqState → ReqState) (k : Fin 15) : (s.modReq r g).log k = s.log k := rfl
@[simp] theorem State.modReq_port (s : State) (r : Requester) (g : ReqState → ReqState) (k : Fin 16) : (s.modReq r g).port k = s.port k := rfl
@[simp] theorem State.modReq_fairway (s : State) (r : Requester) (g : ReqState → ReqState) (k : Fin 4) : (s.modReq r g).fairway k = s.fairway k := rfl
@[simp] theorem State.modReq_dev (s : State) (r : Requester) (g : ReqState → ReqState) (k : Nat) : (s.modReq r g).dev k = s.dev k := rfl
@[simp] theorem State.modReq_eng (s : State) (r : Requester) (g : ReqState → ReqState) (k : Fin 17) : (s.modReq r g).eng k = s.eng k := rfl
@[simp] theorem State.modReq_moor (s : State) (r : Requester) (g : ReqState → ReqState) (k : Fin 17) : (s.modReq r g).moor k = s.moor k := rfl
@[simp] theorem State.modReq_sector (s : State) (r : Requester) (g : ReqState → ReqState) (k : Fin 4) : (s.modReq r g).sector k = s.sector k := rfl
@[simp] theorem State.modReq_keeper (s : State) (r : Requester) (g : ReqState → ReqState) (k : Fin 12) : (s.modReq r g).keeper k = s.keeper k := rfl
@[simp] theorem State.modReq_lamps (s : State) (r : Requester) (g : ReqState → ReqState) (k : Fin 4) : (s.modReq r g).lamps k = s.lamps k := rfl
@[simp] theorem State.modReq_lanEp (s : State) (r : Requester) (g : ReqState → ReqState) (k : Fin 32) : (s.modReq r g).lanEp k = s.lanEp k := rfl
@[simp] theorem State.modReq_item (s : State) (r : Requester) (g : ReqState → ReqState) (k : Nat) : (s.modReq r g).item k = s.item k := rfl
@[simp] theorem State.modReq_ctr (s : State) (r : Requester) (g : ReqState → ReqState) (k : Nat) : (s.modReq r g).ctr k = s.ctr k := rfl
@[simp] theorem State.modReq_reqState_self (s : State) (r : Requester) (g : ReqState → ReqState) : (s.modReq r g).reqState r = g (s.reqState r) := by simp [State.modReq, State.reqState]
@[simp] theorem State.modReq_modReq (s : State) (r : Requester) (g : ReqState → ReqState) (h : ReqState → ReqState) : (s.modReq r g).modReq r h = s.modReq r (fun x => h (g x)) := by
  simp [State.modReq, State.reqState]
@[simp] theorem State.modReg_sup (s : State) (g : RegFile → RegFile) : (s.modReg g).sup = s.sup := rfl
@[simp] theorem State.modReg_md (s : State) (g : RegFile → RegFile) : (s.modReg g).md = s.md := rfl
@[simp] theorem State.modReg_boot (s : State) (g : RegFile → RegFile) : (s.modReg g).boot = s.boot := rfl
@[simp] theorem State.modReg_upd (s : State) (g : RegFile → RegFile) : (s.modReg g).upd = s.upd := rfl
@[simp] theorem State.modReg_pins (s : State) (g : RegFile → RegFile) : (s.modReg g).pins = s.pins := rfl
@[simp] theorem State.modReg_clk (s : State) (g : RegFile → RegFile) : (s.modReg g).clk = s.clk := rfl
@[simp] theorem State.modReg_lnk (s : State) (g : RegFile → RegFile) : (s.modReg g).lnk = s.lnk := rfl
@[simp] theorem State.modReg_rng (s : State) (g : RegFile → RegFile) : (s.modReg g).rng = s.rng := rfl
@[simp] theorem State.modReg_bcn (s : State) (g : RegFile → RegFile) : (s.modReg g).bcn = s.bcn := rfl
@[simp] theorem State.modReg_fwy (s : State) (g : RegFile → RegFile) : (s.modReg g).fwy = s.fwy := rfl
@[simp] theorem State.modReg_ccp (s : State) (g : RegFile → RegFile) : (s.modReg g).ccp = s.ccp := rfl
@[simp] theorem State.modReg_pwr (s : State) (g : RegFile → RegFile) : (s.modReg g).pwr = s.pwr := rfl
@[simp] theorem State.modReg_lan (s : State) (g : RegFile → RegFile) : (s.modReg g).lan = s.lan := rfl
@[simp] theorem State.modReg_tnd (s : State) (g : RegFile → RegFile) : (s.modReg g).tnd = s.tnd := rfl
@[simp] theorem State.modReg_kpr (s : State) (g : RegFile → RegFile) : (s.modReg g).kpr = s.kpr := rfl
@[simp] theorem State.modReg_hst (s : State) (g : RegFile → RegFile) : (s.modReg g).hst = s.hst := rfl
@[simp] theorem State.modReg_mig (s : State) (g : RegFile → RegFile) : (s.modReg g).mig = s.mig := rfl
@[simp] theorem State.modReg_evt (s : State) (g : RegFile → RegFile) : (s.modReg g).evt = s.evt := rfl
@[simp] theorem State.modReg_smbBusy (s : State) (g : RegFile → RegFile) : (s.modReg g).smbBusy = s.smbBusy := rfl
@[simp] theorem State.modReg_out (s : State) (g : RegFile → RegFile) : (s.modReg g).out = s.out := rfl
@[simp] theorem State.modReg_freeSeq (s : State) (g : RegFile → RegFile) : (s.modReg g).freeSeq = s.freeSeq := rfl
@[simp] theorem State.modReg_pending (s : State) (g : RegFile → RegFile) : (s.modReg g).pending = s.pending := rfl
@[simp] theorem State.modReg_mode (s : State) (g : RegFile → RegFile) : (s.modReg g).mode = s.mode := rfl
@[simp] theorem State.modReg_fn (s : State) (g : RegFile → RegFile) (k : Func) : (s.modReg g).fn k = s.fn k := rfl
@[simp] theorem State.modReg_ring (s : State) (g : RegFile → RegFile) (k : Func) (j : Fin 65) : (s.modReg g).ring k j = s.ring k j := rfl
@[simp] theorem State.modReg_evRing (s : State) (g : RegFile → RegFile) (k : Func) (j : Fin 4) : (s.modReg g).evRing k j = s.evRing k j := rfl
@[simp] theorem State.modReg_link (s : State) (g : RegFile → RegFile) (k : Link) : (s.modReg g).link k = s.link k := rfl
@[simp] theorem State.modReg_buoy (s : State) (g : RegFile → RegFile) (k : Fin 15) : (s.modReg g).buoy k = s.buoy k := rfl
@[simp] theorem State.modReg_mboxOf (s : State) (g : RegFile → RegFile) (k : Fin 15) : (s.modReg g).mboxOf k = s.mboxOf k := rfl
@[simp] theorem State.modReg_migr (s : State) (g : RegFile → RegFile) (k : Fin 15) : (s.modReg g).migr k = s.migr k := rfl
@[simp] theorem State.modReg_log (s : State) (g : RegFile → RegFile) (k : Fin 15) : (s.modReg g).log k = s.log k := rfl
@[simp] theorem State.modReg_port (s : State) (g : RegFile → RegFile) (k : Fin 16) : (s.modReg g).port k = s.port k := rfl
@[simp] theorem State.modReg_fairway (s : State) (g : RegFile → RegFile) (k : Fin 4) : (s.modReg g).fairway k = s.fairway k := rfl
@[simp] theorem State.modReg_dev (s : State) (g : RegFile → RegFile) (k : Nat) : (s.modReg g).dev k = s.dev k := rfl
@[simp] theorem State.modReg_eng (s : State) (g : RegFile → RegFile) (k : Fin 17) : (s.modReg g).eng k = s.eng k := rfl
@[simp] theorem State.modReg_moor (s : State) (g : RegFile → RegFile) (k : Fin 17) : (s.modReg g).moor k = s.moor k := rfl
@[simp] theorem State.modReg_sector (s : State) (g : RegFile → RegFile) (k : Fin 4) : (s.modReg g).sector k = s.sector k := rfl
@[simp] theorem State.modReg_keeper (s : State) (g : RegFile → RegFile) (k : Fin 12) : (s.modReg g).keeper k = s.keeper k := rfl
@[simp] theorem State.modReg_lamps (s : State) (g : RegFile → RegFile) (k : Fin 4) : (s.modReg g).lamps k = s.lamps k := rfl
@[simp] theorem State.modReg_lanEp (s : State) (g : RegFile → RegFile) (k : Fin 32) : (s.modReg g).lanEp k = s.lanEp k := rfl
@[simp] theorem State.modReg_item (s : State) (g : RegFile → RegFile) (k : Nat) : (s.modReg g).item k = s.item k := rfl
@[simp] theorem State.modReg_ctr (s : State) (g : RegFile → RegFile) (k : Nat) : (s.modReg g).ctr k = s.ctr k := rfl
@[simp] theorem State.modReg_reg (s : State) (g : RegFile → RegFile) : (s.modReg g).reg = g s.reg := rfl
@[simp] theorem State.modReg_modReg (s : State) (g : RegFile → RegFile) (h : RegFile → RegFile) : (s.modReg g).modReg h = s.modReg (fun x => h (g x)) := rfl
@[simp] theorem State.modLamps_sup (s : State) (fa : Fin 4) (g : List (Nat × Lamp) → List (Nat × Lamp)) : (s.modLamps fa g).sup = s.sup := rfl
@[simp] theorem State.modLamps_md (s : State) (fa : Fin 4) (g : List (Nat × Lamp) → List (Nat × Lamp)) : (s.modLamps fa g).md = s.md := rfl
@[simp] theorem State.modLamps_boot (s : State) (fa : Fin 4) (g : List (Nat × Lamp) → List (Nat × Lamp)) : (s.modLamps fa g).boot = s.boot := rfl
@[simp] theorem State.modLamps_upd (s : State) (fa : Fin 4) (g : List (Nat × Lamp) → List (Nat × Lamp)) : (s.modLamps fa g).upd = s.upd := rfl
@[simp] theorem State.modLamps_pins (s : State) (fa : Fin 4) (g : List (Nat × Lamp) → List (Nat × Lamp)) : (s.modLamps fa g).pins = s.pins := rfl
@[simp] theorem State.modLamps_clk (s : State) (fa : Fin 4) (g : List (Nat × Lamp) → List (Nat × Lamp)) : (s.modLamps fa g).clk = s.clk := rfl
@[simp] theorem State.modLamps_reg (s : State) (fa : Fin 4) (g : List (Nat × Lamp) → List (Nat × Lamp)) : (s.modLamps fa g).reg = s.reg := rfl
@[simp] theorem State.modLamps_lnk (s : State) (fa : Fin 4) (g : List (Nat × Lamp) → List (Nat × Lamp)) : (s.modLamps fa g).lnk = s.lnk := rfl
@[simp] theorem State.modLamps_rng (s : State) (fa : Fin 4) (g : List (Nat × Lamp) → List (Nat × Lamp)) : (s.modLamps fa g).rng = s.rng := rfl
@[simp] theorem State.modLamps_fwy (s : State) (fa : Fin 4) (g : List (Nat × Lamp) → List (Nat × Lamp)) : (s.modLamps fa g).fwy = s.fwy := rfl
@[simp] theorem State.modLamps_ccp (s : State) (fa : Fin 4) (g : List (Nat × Lamp) → List (Nat × Lamp)) : (s.modLamps fa g).ccp = s.ccp := rfl
@[simp] theorem State.modLamps_pwr (s : State) (fa : Fin 4) (g : List (Nat × Lamp) → List (Nat × Lamp)) : (s.modLamps fa g).pwr = s.pwr := rfl
@[simp] theorem State.modLamps_lan (s : State) (fa : Fin 4) (g : List (Nat × Lamp) → List (Nat × Lamp)) : (s.modLamps fa g).lan = s.lan := rfl
@[simp] theorem State.modLamps_tnd (s : State) (fa : Fin 4) (g : List (Nat × Lamp) → List (Nat × Lamp)) : (s.modLamps fa g).tnd = s.tnd := rfl
@[simp] theorem State.modLamps_kpr (s : State) (fa : Fin 4) (g : List (Nat × Lamp) → List (Nat × Lamp)) : (s.modLamps fa g).kpr = s.kpr := rfl
@[simp] theorem State.modLamps_hst (s : State) (fa : Fin 4) (g : List (Nat × Lamp) → List (Nat × Lamp)) : (s.modLamps fa g).hst = s.hst := rfl
@[simp] theorem State.modLamps_mig (s : State) (fa : Fin 4) (g : List (Nat × Lamp) → List (Nat × Lamp)) : (s.modLamps fa g).mig = s.mig := rfl
@[simp] theorem State.modLamps_evt (s : State) (fa : Fin 4) (g : List (Nat × Lamp) → List (Nat × Lamp)) : (s.modLamps fa g).evt = s.evt := rfl
@[simp] theorem State.modLamps_smbBusy (s : State) (fa : Fin 4) (g : List (Nat × Lamp) → List (Nat × Lamp)) : (s.modLamps fa g).smbBusy = s.smbBusy := rfl
@[simp] theorem State.modLamps_out (s : State) (fa : Fin 4) (g : List (Nat × Lamp) → List (Nat × Lamp)) : (s.modLamps fa g).out = s.out := rfl
@[simp] theorem State.modLamps_freeSeq (s : State) (fa : Fin 4) (g : List (Nat × Lamp) → List (Nat × Lamp)) : (s.modLamps fa g).freeSeq = s.freeSeq := rfl
@[simp] theorem State.modLamps_pending (s : State) (fa : Fin 4) (g : List (Nat × Lamp) → List (Nat × Lamp)) : (s.modLamps fa g).pending = s.pending := rfl
@[simp] theorem State.modLamps_mode (s : State) (fa : Fin 4) (g : List (Nat × Lamp) → List (Nat × Lamp)) : (s.modLamps fa g).mode = s.mode := rfl
@[simp] theorem State.modLamps_fn (s : State) (fa : Fin 4) (g : List (Nat × Lamp) → List (Nat × Lamp)) (k : Func) : (s.modLamps fa g).fn k = s.fn k := rfl
@[simp] theorem State.modLamps_ring (s : State) (fa : Fin 4) (g : List (Nat × Lamp) → List (Nat × Lamp)) (k : Func) (j : Fin 65) : (s.modLamps fa g).ring k j = s.ring k j := rfl
@[simp] theorem State.modLamps_evRing (s : State) (fa : Fin 4) (g : List (Nat × Lamp) → List (Nat × Lamp)) (k : Func) (j : Fin 4) : (s.modLamps fa g).evRing k j = s.evRing k j := rfl
@[simp] theorem State.modLamps_link (s : State) (fa : Fin 4) (g : List (Nat × Lamp) → List (Nat × Lamp)) (k : Link) : (s.modLamps fa g).link k = s.link k := rfl
@[simp] theorem State.modLamps_buoy (s : State) (fa : Fin 4) (g : List (Nat × Lamp) → List (Nat × Lamp)) (k : Fin 15) : (s.modLamps fa g).buoy k = s.buoy k := rfl
@[simp] theorem State.modLamps_mboxOf (s : State) (fa : Fin 4) (g : List (Nat × Lamp) → List (Nat × Lamp)) (k : Fin 15) : (s.modLamps fa g).mboxOf k = s.mboxOf k := rfl
@[simp] theorem State.modLamps_migr (s : State) (fa : Fin 4) (g : List (Nat × Lamp) → List (Nat × Lamp)) (k : Fin 15) : (s.modLamps fa g).migr k = s.migr k := rfl
@[simp] theorem State.modLamps_log (s : State) (fa : Fin 4) (g : List (Nat × Lamp) → List (Nat × Lamp)) (k : Fin 15) : (s.modLamps fa g).log k = s.log k := rfl
@[simp] theorem State.modLamps_port (s : State) (fa : Fin 4) (g : List (Nat × Lamp) → List (Nat × Lamp)) (k : Fin 16) : (s.modLamps fa g).port k = s.port k := rfl
@[simp] theorem State.modLamps_fairway (s : State) (fa : Fin 4) (g : List (Nat × Lamp) → List (Nat × Lamp)) (k : Fin 4) : (s.modLamps fa g).fairway k = s.fairway k := rfl
@[simp] theorem State.modLamps_dev (s : State) (fa : Fin 4) (g : List (Nat × Lamp) → List (Nat × Lamp)) (k : Nat) : (s.modLamps fa g).dev k = s.dev k := rfl
@[simp] theorem State.modLamps_eng (s : State) (fa : Fin 4) (g : List (Nat × Lamp) → List (Nat × Lamp)) (k : Fin 17) : (s.modLamps fa g).eng k = s.eng k := rfl
@[simp] theorem State.modLamps_moor (s : State) (fa : Fin 4) (g : List (Nat × Lamp) → List (Nat × Lamp)) (k : Fin 17) : (s.modLamps fa g).moor k = s.moor k := rfl
@[simp] theorem State.modLamps_sector (s : State) (fa : Fin 4) (g : List (Nat × Lamp) → List (Nat × Lamp)) (k : Fin 4) : (s.modLamps fa g).sector k = s.sector k := rfl
@[simp] theorem State.modLamps_keeper (s : State) (fa : Fin 4) (g : List (Nat × Lamp) → List (Nat × Lamp)) (k : Fin 12) : (s.modLamps fa g).keeper k = s.keeper k := rfl
@[simp] theorem State.modLamps_reqState (s : State) (fa : Fin 4) (g : List (Nat × Lamp) → List (Nat × Lamp)) (k : Requester) : (s.modLamps fa g).reqState k = s.reqState k := rfl
@[simp] theorem State.modLamps_lanEp (s : State) (fa : Fin 4) (g : List (Nat × Lamp) → List (Nat × Lamp)) (k : Fin 32) : (s.modLamps fa g).lanEp k = s.lanEp k := rfl
@[simp] theorem State.modLamps_item (s : State) (fa : Fin 4) (g : List (Nat × Lamp) → List (Nat × Lamp)) (k : Nat) : (s.modLamps fa g).item k = s.item k := rfl
@[simp] theorem State.modLamps_ctr (s : State) (fa : Fin 4) (g : List (Nat × Lamp) → List (Nat × Lamp)) (k : Nat) : (s.modLamps fa g).ctr k = s.ctr k := rfl
@[simp] theorem State.modLamps_lamps_self (s : State) (fa : Fin 4) (g : List (Nat × Lamp) → List (Nat × Lamp)) : (s.modLamps fa g).lamps fa = g (s.lamps fa) := by simp [State.modLamps, State.lamps]
theorem State.modLamps_lamps_ne (s : State) (fa : Fin 4) (g : List (Nat × Lamp) → List (Nat × Lamp)) (k : Fin 4) (h : k ≠ fa) : (s.modLamps fa g).lamps k = s.lamps k := by
  have h' : fa.val ≠ k.val := fun x => h (Fin.ext x.symm)
  simp [State.modLamps, State.lamps, h']
@[simp] theorem State.modLamps_modLamps (s : State) (fa : Fin 4) (g : List (Nat × Lamp) → List (Nat × Lamp)) (h : List (Nat × Lamp) → List (Nat × Lamp)) : (s.modLamps fa g).modLamps fa h = s.modLamps fa (fun x => h (g x)) := by
  simp [State.modLamps, State.lamps]
@[simp] theorem State.modLan_sup (s : State) (g : Lantern → Lantern) : (s.modLan g).sup = s.sup := rfl
@[simp] theorem State.modLan_md (s : State) (g : Lantern → Lantern) : (s.modLan g).md = s.md := rfl
@[simp] theorem State.modLan_boot (s : State) (g : Lantern → Lantern) : (s.modLan g).boot = s.boot := rfl
@[simp] theorem State.modLan_upd (s : State) (g : Lantern → Lantern) : (s.modLan g).upd = s.upd := rfl
@[simp] theorem State.modLan_pins (s : State) (g : Lantern → Lantern) : (s.modLan g).pins = s.pins := rfl
@[simp] theorem State.modLan_clk (s : State) (g : Lantern → Lantern) : (s.modLan g).clk = s.clk := rfl
@[simp] theorem State.modLan_reg (s : State) (g : Lantern → Lantern) : (s.modLan g).reg = s.reg := rfl
@[simp] theorem State.modLan_lnk (s : State) (g : Lantern → Lantern) : (s.modLan g).lnk = s.lnk := rfl
@[simp] theorem State.modLan_rng (s : State) (g : Lantern → Lantern) : (s.modLan g).rng = s.rng := rfl
@[simp] theorem State.modLan_bcn (s : State) (g : Lantern → Lantern) : (s.modLan g).bcn = s.bcn := rfl
@[simp] theorem State.modLan_fwy (s : State) (g : Lantern → Lantern) : (s.modLan g).fwy = s.fwy := rfl
@[simp] theorem State.modLan_ccp (s : State) (g : Lantern → Lantern) : (s.modLan g).ccp = s.ccp := rfl
@[simp] theorem State.modLan_pwr (s : State) (g : Lantern → Lantern) : (s.modLan g).pwr = s.pwr := rfl
@[simp] theorem State.modLan_tnd (s : State) (g : Lantern → Lantern) : (s.modLan g).tnd = s.tnd := rfl
@[simp] theorem State.modLan_kpr (s : State) (g : Lantern → Lantern) : (s.modLan g).kpr = s.kpr := rfl
@[simp] theorem State.modLan_hst (s : State) (g : Lantern → Lantern) : (s.modLan g).hst = s.hst := rfl
@[simp] theorem State.modLan_mig (s : State) (g : Lantern → Lantern) : (s.modLan g).mig = s.mig := rfl
@[simp] theorem State.modLan_evt (s : State) (g : Lantern → Lantern) : (s.modLan g).evt = s.evt := rfl
@[simp] theorem State.modLan_smbBusy (s : State) (g : Lantern → Lantern) : (s.modLan g).smbBusy = s.smbBusy := rfl
@[simp] theorem State.modLan_out (s : State) (g : Lantern → Lantern) : (s.modLan g).out = s.out := rfl
@[simp] theorem State.modLan_freeSeq (s : State) (g : Lantern → Lantern) : (s.modLan g).freeSeq = s.freeSeq := rfl
@[simp] theorem State.modLan_pending (s : State) (g : Lantern → Lantern) : (s.modLan g).pending = s.pending := rfl
@[simp] theorem State.modLan_mode (s : State) (g : Lantern → Lantern) : (s.modLan g).mode = s.mode := rfl
@[simp] theorem State.modLan_fn (s : State) (g : Lantern → Lantern) (k : Func) : (s.modLan g).fn k = s.fn k := rfl
@[simp] theorem State.modLan_ring (s : State) (g : Lantern → Lantern) (k : Func) (j : Fin 65) : (s.modLan g).ring k j = s.ring k j := rfl
@[simp] theorem State.modLan_evRing (s : State) (g : Lantern → Lantern) (k : Func) (j : Fin 4) : (s.modLan g).evRing k j = s.evRing k j := rfl
@[simp] theorem State.modLan_link (s : State) (g : Lantern → Lantern) (k : Link) : (s.modLan g).link k = s.link k := rfl
@[simp] theorem State.modLan_buoy (s : State) (g : Lantern → Lantern) (k : Fin 15) : (s.modLan g).buoy k = s.buoy k := rfl
@[simp] theorem State.modLan_mboxOf (s : State) (g : Lantern → Lantern) (k : Fin 15) : (s.modLan g).mboxOf k = s.mboxOf k := rfl
@[simp] theorem State.modLan_migr (s : State) (g : Lantern → Lantern) (k : Fin 15) : (s.modLan g).migr k = s.migr k := rfl
@[simp] theorem State.modLan_log (s : State) (g : Lantern → Lantern) (k : Fin 15) : (s.modLan g).log k = s.log k := rfl
@[simp] theorem State.modLan_port (s : State) (g : Lantern → Lantern) (k : Fin 16) : (s.modLan g).port k = s.port k := rfl
@[simp] theorem State.modLan_fairway (s : State) (g : Lantern → Lantern) (k : Fin 4) : (s.modLan g).fairway k = s.fairway k := rfl
@[simp] theorem State.modLan_dev (s : State) (g : Lantern → Lantern) (k : Nat) : (s.modLan g).dev k = s.dev k := rfl
@[simp] theorem State.modLan_eng (s : State) (g : Lantern → Lantern) (k : Fin 17) : (s.modLan g).eng k = s.eng k := rfl
@[simp] theorem State.modLan_moor (s : State) (g : Lantern → Lantern) (k : Fin 17) : (s.modLan g).moor k = s.moor k := rfl
@[simp] theorem State.modLan_sector (s : State) (g : Lantern → Lantern) (k : Fin 4) : (s.modLan g).sector k = s.sector k := rfl
@[simp] theorem State.modLan_keeper (s : State) (g : Lantern → Lantern) (k : Fin 12) : (s.modLan g).keeper k = s.keeper k := rfl
@[simp] theorem State.modLan_reqState (s : State) (g : Lantern → Lantern) (k : Requester) : (s.modLan g).reqState k = s.reqState k := rfl
@[simp] theorem State.modLan_lamps (s : State) (g : Lantern → Lantern) (k : Fin 4) : (s.modLan g).lamps k = s.lamps k := rfl
@[simp] theorem State.modLan_item (s : State) (g : Lantern → Lantern) (k : Nat) : (s.modLan g).item k = s.item k := rfl
@[simp] theorem State.modLan_ctr (s : State) (g : Lantern → Lantern) (k : Nat) : (s.modLan g).ctr k = s.ctr k := rfl
@[simp] theorem State.modLan_lan (s : State) (g : Lantern → Lantern) : (s.modLan g).lan = g s.lan := rfl
@[simp] theorem State.modLan_modLan (s : State) (g : Lantern → Lantern) (h : Lantern → Lantern) : (s.modLan g).modLan h = s.modLan (fun x => h (g x)) := rfl
@[simp] theorem State.modEp_sup (s : State) (i : Fin 32) (g : LanEp → LanEp) : (s.modEp i g).sup = s.sup := rfl
@[simp] theorem State.modEp_md (s : State) (i : Fin 32) (g : LanEp → LanEp) : (s.modEp i g).md = s.md := rfl
@[simp] theorem State.modEp_boot (s : State) (i : Fin 32) (g : LanEp → LanEp) : (s.modEp i g).boot = s.boot := rfl
@[simp] theorem State.modEp_upd (s : State) (i : Fin 32) (g : LanEp → LanEp) : (s.modEp i g).upd = s.upd := rfl
@[simp] theorem State.modEp_pins (s : State) (i : Fin 32) (g : LanEp → LanEp) : (s.modEp i g).pins = s.pins := rfl
@[simp] theorem State.modEp_clk (s : State) (i : Fin 32) (g : LanEp → LanEp) : (s.modEp i g).clk = s.clk := rfl
@[simp] theorem State.modEp_reg (s : State) (i : Fin 32) (g : LanEp → LanEp) : (s.modEp i g).reg = s.reg := rfl
@[simp] theorem State.modEp_lnk (s : State) (i : Fin 32) (g : LanEp → LanEp) : (s.modEp i g).lnk = s.lnk := rfl
@[simp] theorem State.modEp_rng (s : State) (i : Fin 32) (g : LanEp → LanEp) : (s.modEp i g).rng = s.rng := rfl
@[simp] theorem State.modEp_bcn (s : State) (i : Fin 32) (g : LanEp → LanEp) : (s.modEp i g).bcn = s.bcn := rfl
@[simp] theorem State.modEp_fwy (s : State) (i : Fin 32) (g : LanEp → LanEp) : (s.modEp i g).fwy = s.fwy := rfl
@[simp] theorem State.modEp_ccp (s : State) (i : Fin 32) (g : LanEp → LanEp) : (s.modEp i g).ccp = s.ccp := rfl
@[simp] theorem State.modEp_pwr (s : State) (i : Fin 32) (g : LanEp → LanEp) : (s.modEp i g).pwr = s.pwr := rfl
@[simp] theorem State.modEp_tnd (s : State) (i : Fin 32) (g : LanEp → LanEp) : (s.modEp i g).tnd = s.tnd := rfl
@[simp] theorem State.modEp_kpr (s : State) (i : Fin 32) (g : LanEp → LanEp) : (s.modEp i g).kpr = s.kpr := rfl
@[simp] theorem State.modEp_hst (s : State) (i : Fin 32) (g : LanEp → LanEp) : (s.modEp i g).hst = s.hst := rfl
@[simp] theorem State.modEp_mig (s : State) (i : Fin 32) (g : LanEp → LanEp) : (s.modEp i g).mig = s.mig := rfl
@[simp] theorem State.modEp_evt (s : State) (i : Fin 32) (g : LanEp → LanEp) : (s.modEp i g).evt = s.evt := rfl
@[simp] theorem State.modEp_smbBusy (s : State) (i : Fin 32) (g : LanEp → LanEp) : (s.modEp i g).smbBusy = s.smbBusy := rfl
@[simp] theorem State.modEp_out (s : State) (i : Fin 32) (g : LanEp → LanEp) : (s.modEp i g).out = s.out := rfl
@[simp] theorem State.modEp_freeSeq (s : State) (i : Fin 32) (g : LanEp → LanEp) : (s.modEp i g).freeSeq = s.freeSeq := rfl
@[simp] theorem State.modEp_pending (s : State) (i : Fin 32) (g : LanEp → LanEp) : (s.modEp i g).pending = s.pending := rfl
@[simp] theorem State.modEp_mode (s : State) (i : Fin 32) (g : LanEp → LanEp) : (s.modEp i g).mode = s.mode := rfl
@[simp] theorem State.modEp_fn (s : State) (i : Fin 32) (g : LanEp → LanEp) (k : Func) : (s.modEp i g).fn k = s.fn k := rfl
@[simp] theorem State.modEp_ring (s : State) (i : Fin 32) (g : LanEp → LanEp) (k : Func) (j : Fin 65) : (s.modEp i g).ring k j = s.ring k j := rfl
@[simp] theorem State.modEp_evRing (s : State) (i : Fin 32) (g : LanEp → LanEp) (k : Func) (j : Fin 4) : (s.modEp i g).evRing k j = s.evRing k j := rfl
@[simp] theorem State.modEp_link (s : State) (i : Fin 32) (g : LanEp → LanEp) (k : Link) : (s.modEp i g).link k = s.link k := rfl
@[simp] theorem State.modEp_buoy (s : State) (i : Fin 32) (g : LanEp → LanEp) (k : Fin 15) : (s.modEp i g).buoy k = s.buoy k := rfl
@[simp] theorem State.modEp_mboxOf (s : State) (i : Fin 32) (g : LanEp → LanEp) (k : Fin 15) : (s.modEp i g).mboxOf k = s.mboxOf k := rfl
@[simp] theorem State.modEp_migr (s : State) (i : Fin 32) (g : LanEp → LanEp) (k : Fin 15) : (s.modEp i g).migr k = s.migr k := rfl
@[simp] theorem State.modEp_log (s : State) (i : Fin 32) (g : LanEp → LanEp) (k : Fin 15) : (s.modEp i g).log k = s.log k := rfl
@[simp] theorem State.modEp_port (s : State) (i : Fin 32) (g : LanEp → LanEp) (k : Fin 16) : (s.modEp i g).port k = s.port k := rfl
@[simp] theorem State.modEp_fairway (s : State) (i : Fin 32) (g : LanEp → LanEp) (k : Fin 4) : (s.modEp i g).fairway k = s.fairway k := rfl
@[simp] theorem State.modEp_dev (s : State) (i : Fin 32) (g : LanEp → LanEp) (k : Nat) : (s.modEp i g).dev k = s.dev k := rfl
@[simp] theorem State.modEp_eng (s : State) (i : Fin 32) (g : LanEp → LanEp) (k : Fin 17) : (s.modEp i g).eng k = s.eng k := rfl
@[simp] theorem State.modEp_moor (s : State) (i : Fin 32) (g : LanEp → LanEp) (k : Fin 17) : (s.modEp i g).moor k = s.moor k := rfl
@[simp] theorem State.modEp_sector (s : State) (i : Fin 32) (g : LanEp → LanEp) (k : Fin 4) : (s.modEp i g).sector k = s.sector k := rfl
@[simp] theorem State.modEp_keeper (s : State) (i : Fin 32) (g : LanEp → LanEp) (k : Fin 12) : (s.modEp i g).keeper k = s.keeper k := rfl
@[simp] theorem State.modEp_reqState (s : State) (i : Fin 32) (g : LanEp → LanEp) (k : Requester) : (s.modEp i g).reqState k = s.reqState k := rfl
@[simp] theorem State.modEp_lamps (s : State) (i : Fin 32) (g : LanEp → LanEp) (k : Fin 4) : (s.modEp i g).lamps k = s.lamps k := rfl
@[simp] theorem State.modEp_item (s : State) (i : Fin 32) (g : LanEp → LanEp) (k : Nat) : (s.modEp i g).item k = s.item k := rfl
@[simp] theorem State.modEp_ctr (s : State) (i : Fin 32) (g : LanEp → LanEp) (k : Nat) : (s.modEp i g).ctr k = s.ctr k := rfl
@[simp] theorem State.modEp_lanEp_self (s : State) (i : Fin 32) (g : LanEp → LanEp) : (s.modEp i g).lanEp i = g (s.lanEp i) := by simp [State.modEp, State.lanEp, State.modLan]
theorem State.modEp_lanEp_ne (s : State) (i : Fin 32) (g : LanEp → LanEp) (k : Fin 32) (h : k ≠ i) : (s.modEp i g).lanEp k = s.lanEp k := by
  have h' : i.val ≠ k.val := fun x => h (Fin.ext x.symm)
  simp [State.modEp, State.lanEp, State.modLan, h']
@[simp] theorem State.modEp_modEp (s : State) (i : Fin 32) (g : LanEp → LanEp) (h : LanEp → LanEp) : (s.modEp i g).modEp i h = s.modEp i (fun x => h (g x)) := by
  simp [State.modEp, State.lanEp, State.modLan]
@[simp] theorem State.modMd_sup (s : State) (g : Modes → Modes) : (s.modMd g).sup = s.sup := rfl
@[simp] theorem State.modMd_boot (s : State) (g : Modes → Modes) : (s.modMd g).boot = s.boot := rfl
@[simp] theorem State.modMd_upd (s : State) (g : Modes → Modes) : (s.modMd g).upd = s.upd := rfl
@[simp] theorem State.modMd_pins (s : State) (g : Modes → Modes) : (s.modMd g).pins = s.pins := rfl
@[simp] theorem State.modMd_clk (s : State) (g : Modes → Modes) : (s.modMd g).clk = s.clk := rfl
@[simp] theorem State.modMd_reg (s : State) (g : Modes → Modes) : (s.modMd g).reg = s.reg := rfl
@[simp] theorem State.modMd_lnk (s : State) (g : Modes → Modes) : (s.modMd g).lnk = s.lnk := rfl
@[simp] theorem State.modMd_rng (s : State) (g : Modes → Modes) : (s.modMd g).rng = s.rng := rfl
@[simp] theorem State.modMd_bcn (s : State) (g : Modes → Modes) : (s.modMd g).bcn = s.bcn := rfl
@[simp] theorem State.modMd_fwy (s : State) (g : Modes → Modes) : (s.modMd g).fwy = s.fwy := rfl
@[simp] theorem State.modMd_ccp (s : State) (g : Modes → Modes) : (s.modMd g).ccp = s.ccp := rfl
@[simp] theorem State.modMd_pwr (s : State) (g : Modes → Modes) : (s.modMd g).pwr = s.pwr := rfl
@[simp] theorem State.modMd_lan (s : State) (g : Modes → Modes) : (s.modMd g).lan = s.lan := rfl
@[simp] theorem State.modMd_tnd (s : State) (g : Modes → Modes) : (s.modMd g).tnd = s.tnd := rfl
@[simp] theorem State.modMd_kpr (s : State) (g : Modes → Modes) : (s.modMd g).kpr = s.kpr := rfl
@[simp] theorem State.modMd_hst (s : State) (g : Modes → Modes) : (s.modMd g).hst = s.hst := rfl
@[simp] theorem State.modMd_mig (s : State) (g : Modes → Modes) : (s.modMd g).mig = s.mig := rfl
@[simp] theorem State.modMd_evt (s : State) (g : Modes → Modes) : (s.modMd g).evt = s.evt := rfl
@[simp] theorem State.modMd_smbBusy (s : State) (g : Modes → Modes) : (s.modMd g).smbBusy = s.smbBusy := rfl
@[simp] theorem State.modMd_out (s : State) (g : Modes → Modes) : (s.modMd g).out = s.out := rfl
@[simp] theorem State.modMd_freeSeq (s : State) (g : Modes → Modes) : (s.modMd g).freeSeq = s.freeSeq := rfl
@[simp] theorem State.modMd_pending (s : State) (g : Modes → Modes) : (s.modMd g).pending = s.pending := rfl
@[simp] theorem State.modMd_fn (s : State) (g : Modes → Modes) (k : Func) : (s.modMd g).fn k = s.fn k := rfl
@[simp] theorem State.modMd_ring (s : State) (g : Modes → Modes) (k : Func) (j : Fin 65) : (s.modMd g).ring k j = s.ring k j := rfl
@[simp] theorem State.modMd_evRing (s : State) (g : Modes → Modes) (k : Func) (j : Fin 4) : (s.modMd g).evRing k j = s.evRing k j := rfl
@[simp] theorem State.modMd_link (s : State) (g : Modes → Modes) (k : Link) : (s.modMd g).link k = s.link k := rfl
@[simp] theorem State.modMd_buoy (s : State) (g : Modes → Modes) (k : Fin 15) : (s.modMd g).buoy k = s.buoy k := rfl
@[simp] theorem State.modMd_mboxOf (s : State) (g : Modes → Modes) (k : Fin 15) : (s.modMd g).mboxOf k = s.mboxOf k := rfl
@[simp] theorem State.modMd_migr (s : State) (g : Modes → Modes) (k : Fin 15) : (s.modMd g).migr k = s.migr k := rfl
@[simp] theorem State.modMd_log (s : State) (g : Modes → Modes) (k : Fin 15) : (s.modMd g).log k = s.log k := rfl
@[simp] theorem State.modMd_port (s : State) (g : Modes → Modes) (k : Fin 16) : (s.modMd g).port k = s.port k := rfl
@[simp] theorem State.modMd_fairway (s : State) (g : Modes → Modes) (k : Fin 4) : (s.modMd g).fairway k = s.fairway k := rfl
@[simp] theorem State.modMd_dev (s : State) (g : Modes → Modes) (k : Nat) : (s.modMd g).dev k = s.dev k := rfl
@[simp] theorem State.modMd_eng (s : State) (g : Modes → Modes) (k : Fin 17) : (s.modMd g).eng k = s.eng k := rfl
@[simp] theorem State.modMd_moor (s : State) (g : Modes → Modes) (k : Fin 17) : (s.modMd g).moor k = s.moor k := rfl
@[simp] theorem State.modMd_sector (s : State) (g : Modes → Modes) (k : Fin 4) : (s.modMd g).sector k = s.sector k := rfl
@[simp] theorem State.modMd_keeper (s : State) (g : Modes → Modes) (k : Fin 12) : (s.modMd g).keeper k = s.keeper k := rfl
@[simp] theorem State.modMd_reqState (s : State) (g : Modes → Modes) (k : Requester) : (s.modMd g).reqState k = s.reqState k := rfl
@[simp] theorem State.modMd_lamps (s : State) (g : Modes → Modes) (k : Fin 4) : (s.modMd g).lamps k = s.lamps k := rfl
@[simp] theorem State.modMd_lanEp (s : State) (g : Modes → Modes) (k : Fin 32) : (s.modMd g).lanEp k = s.lanEp k := rfl
@[simp] theorem State.modMd_item (s : State) (g : Modes → Modes) (k : Nat) : (s.modMd g).item k = s.item k := rfl
@[simp] theorem State.modMd_ctr (s : State) (g : Modes → Modes) (k : Nat) : (s.modMd g).ctr k = s.ctr k := rfl
@[simp] theorem State.modMd_md (s : State) (g : Modes → Modes) : (s.modMd g).md = g s.md := rfl
@[simp] theorem State.modMd_modMd (s : State) (g : Modes → Modes) (h : Modes → Modes) : (s.modMd g).modMd h = s.modMd (fun x => h (g x)) := rfl
@[simp] theorem State.modSup_md (s : State) (g : Supply → Supply) : (s.modSup g).md = s.md := rfl
@[simp] theorem State.modSup_boot (s : State) (g : Supply → Supply) : (s.modSup g).boot = s.boot := rfl
@[simp] theorem State.modSup_upd (s : State) (g : Supply → Supply) : (s.modSup g).upd = s.upd := rfl
@[simp] theorem State.modSup_pins (s : State) (g : Supply → Supply) : (s.modSup g).pins = s.pins := rfl
@[simp] theorem State.modSup_clk (s : State) (g : Supply → Supply) : (s.modSup g).clk = s.clk := rfl
@[simp] theorem State.modSup_reg (s : State) (g : Supply → Supply) : (s.modSup g).reg = s.reg := rfl
@[simp] theorem State.modSup_lnk (s : State) (g : Supply → Supply) : (s.modSup g).lnk = s.lnk := rfl
@[simp] theorem State.modSup_rng (s : State) (g : Supply → Supply) : (s.modSup g).rng = s.rng := rfl
@[simp] theorem State.modSup_bcn (s : State) (g : Supply → Supply) : (s.modSup g).bcn = s.bcn := rfl
@[simp] theorem State.modSup_fwy (s : State) (g : Supply → Supply) : (s.modSup g).fwy = s.fwy := rfl
@[simp] theorem State.modSup_ccp (s : State) (g : Supply → Supply) : (s.modSup g).ccp = s.ccp := rfl
@[simp] theorem State.modSup_pwr (s : State) (g : Supply → Supply) : (s.modSup g).pwr = s.pwr := rfl
@[simp] theorem State.modSup_lan (s : State) (g : Supply → Supply) : (s.modSup g).lan = s.lan := rfl
@[simp] theorem State.modSup_tnd (s : State) (g : Supply → Supply) : (s.modSup g).tnd = s.tnd := rfl
@[simp] theorem State.modSup_kpr (s : State) (g : Supply → Supply) : (s.modSup g).kpr = s.kpr := rfl
@[simp] theorem State.modSup_hst (s : State) (g : Supply → Supply) : (s.modSup g).hst = s.hst := rfl
@[simp] theorem State.modSup_mig (s : State) (g : Supply → Supply) : (s.modSup g).mig = s.mig := rfl
@[simp] theorem State.modSup_evt (s : State) (g : Supply → Supply) : (s.modSup g).evt = s.evt := rfl
@[simp] theorem State.modSup_smbBusy (s : State) (g : Supply → Supply) : (s.modSup g).smbBusy = s.smbBusy := rfl
@[simp] theorem State.modSup_out (s : State) (g : Supply → Supply) : (s.modSup g).out = s.out := rfl
@[simp] theorem State.modSup_freeSeq (s : State) (g : Supply → Supply) : (s.modSup g).freeSeq = s.freeSeq := rfl
@[simp] theorem State.modSup_pending (s : State) (g : Supply → Supply) : (s.modSup g).pending = s.pending := rfl
@[simp] theorem State.modSup_mode (s : State) (g : Supply → Supply) : (s.modSup g).mode = s.mode := rfl
@[simp] theorem State.modSup_fn (s : State) (g : Supply → Supply) (k : Func) : (s.modSup g).fn k = s.fn k := rfl
@[simp] theorem State.modSup_ring (s : State) (g : Supply → Supply) (k : Func) (j : Fin 65) : (s.modSup g).ring k j = s.ring k j := rfl
@[simp] theorem State.modSup_evRing (s : State) (g : Supply → Supply) (k : Func) (j : Fin 4) : (s.modSup g).evRing k j = s.evRing k j := rfl
@[simp] theorem State.modSup_link (s : State) (g : Supply → Supply) (k : Link) : (s.modSup g).link k = s.link k := rfl
@[simp] theorem State.modSup_buoy (s : State) (g : Supply → Supply) (k : Fin 15) : (s.modSup g).buoy k = s.buoy k := rfl
@[simp] theorem State.modSup_mboxOf (s : State) (g : Supply → Supply) (k : Fin 15) : (s.modSup g).mboxOf k = s.mboxOf k := rfl
@[simp] theorem State.modSup_migr (s : State) (g : Supply → Supply) (k : Fin 15) : (s.modSup g).migr k = s.migr k := rfl
@[simp] theorem State.modSup_log (s : State) (g : Supply → Supply) (k : Fin 15) : (s.modSup g).log k = s.log k := rfl
@[simp] theorem State.modSup_port (s : State) (g : Supply → Supply) (k : Fin 16) : (s.modSup g).port k = s.port k := rfl
@[simp] theorem State.modSup_fairway (s : State) (g : Supply → Supply) (k : Fin 4) : (s.modSup g).fairway k = s.fairway k := rfl
@[simp] theorem State.modSup_dev (s : State) (g : Supply → Supply) (k : Nat) : (s.modSup g).dev k = s.dev k := rfl
@[simp] theorem State.modSup_eng (s : State) (g : Supply → Supply) (k : Fin 17) : (s.modSup g).eng k = s.eng k := rfl
@[simp] theorem State.modSup_moor (s : State) (g : Supply → Supply) (k : Fin 17) : (s.modSup g).moor k = s.moor k := rfl
@[simp] theorem State.modSup_sector (s : State) (g : Supply → Supply) (k : Fin 4) : (s.modSup g).sector k = s.sector k := rfl
@[simp] theorem State.modSup_keeper (s : State) (g : Supply → Supply) (k : Fin 12) : (s.modSup g).keeper k = s.keeper k := rfl
@[simp] theorem State.modSup_reqState (s : State) (g : Supply → Supply) (k : Requester) : (s.modSup g).reqState k = s.reqState k := rfl
@[simp] theorem State.modSup_lamps (s : State) (g : Supply → Supply) (k : Fin 4) : (s.modSup g).lamps k = s.lamps k := rfl
@[simp] theorem State.modSup_lanEp (s : State) (g : Supply → Supply) (k : Fin 32) : (s.modSup g).lanEp k = s.lanEp k := rfl
@[simp] theorem State.modSup_item (s : State) (g : Supply → Supply) (k : Nat) : (s.modSup g).item k = s.item k := rfl
@[simp] theorem State.modSup_ctr (s : State) (g : Supply → Supply) (k : Nat) : (s.modSup g).ctr k = s.ctr k := rfl
@[simp] theorem State.modSup_sup (s : State) (g : Supply → Supply) : (s.modSup g).sup = g s.sup := rfl
@[simp] theorem State.modSup_modSup (s : State) (g : Supply → Supply) (h : Supply → Supply) : (s.modSup g).modSup h = s.modSup (fun x => h (g x)) := rfl
@[simp] theorem State.modBoot_sup (s : State) (g : Boot → Boot) : (s.modBoot g).sup = s.sup := rfl
@[simp] theorem State.modBoot_md (s : State) (g : Boot → Boot) : (s.modBoot g).md = s.md := rfl
@[simp] theorem State.modBoot_upd (s : State) (g : Boot → Boot) : (s.modBoot g).upd = s.upd := rfl
@[simp] theorem State.modBoot_pins (s : State) (g : Boot → Boot) : (s.modBoot g).pins = s.pins := rfl
@[simp] theorem State.modBoot_clk (s : State) (g : Boot → Boot) : (s.modBoot g).clk = s.clk := rfl
@[simp] theorem State.modBoot_reg (s : State) (g : Boot → Boot) : (s.modBoot g).reg = s.reg := rfl
@[simp] theorem State.modBoot_lnk (s : State) (g : Boot → Boot) : (s.modBoot g).lnk = s.lnk := rfl
@[simp] theorem State.modBoot_rng (s : State) (g : Boot → Boot) : (s.modBoot g).rng = s.rng := rfl
@[simp] theorem State.modBoot_bcn (s : State) (g : Boot → Boot) : (s.modBoot g).bcn = s.bcn := rfl
@[simp] theorem State.modBoot_fwy (s : State) (g : Boot → Boot) : (s.modBoot g).fwy = s.fwy := rfl
@[simp] theorem State.modBoot_ccp (s : State) (g : Boot → Boot) : (s.modBoot g).ccp = s.ccp := rfl
@[simp] theorem State.modBoot_pwr (s : State) (g : Boot → Boot) : (s.modBoot g).pwr = s.pwr := rfl
@[simp] theorem State.modBoot_lan (s : State) (g : Boot → Boot) : (s.modBoot g).lan = s.lan := rfl
@[simp] theorem State.modBoot_tnd (s : State) (g : Boot → Boot) : (s.modBoot g).tnd = s.tnd := rfl
@[simp] theorem State.modBoot_kpr (s : State) (g : Boot → Boot) : (s.modBoot g).kpr = s.kpr := rfl
@[simp] theorem State.modBoot_hst (s : State) (g : Boot → Boot) : (s.modBoot g).hst = s.hst := rfl
@[simp] theorem State.modBoot_mig (s : State) (g : Boot → Boot) : (s.modBoot g).mig = s.mig := rfl
@[simp] theorem State.modBoot_evt (s : State) (g : Boot → Boot) : (s.modBoot g).evt = s.evt := rfl
@[simp] theorem State.modBoot_smbBusy (s : State) (g : Boot → Boot) : (s.modBoot g).smbBusy = s.smbBusy := rfl
@[simp] theorem State.modBoot_out (s : State) (g : Boot → Boot) : (s.modBoot g).out = s.out := rfl
@[simp] theorem State.modBoot_freeSeq (s : State) (g : Boot → Boot) : (s.modBoot g).freeSeq = s.freeSeq := rfl
@[simp] theorem State.modBoot_pending (s : State) (g : Boot → Boot) : (s.modBoot g).pending = s.pending := rfl
@[simp] theorem State.modBoot_mode (s : State) (g : Boot → Boot) : (s.modBoot g).mode = s.mode := rfl
@[simp] theorem State.modBoot_fn (s : State) (g : Boot → Boot) (k : Func) : (s.modBoot g).fn k = s.fn k := rfl
@[simp] theorem State.modBoot_ring (s : State) (g : Boot → Boot) (k : Func) (j : Fin 65) : (s.modBoot g).ring k j = s.ring k j := rfl
@[simp] theorem State.modBoot_evRing (s : State) (g : Boot → Boot) (k : Func) (j : Fin 4) : (s.modBoot g).evRing k j = s.evRing k j := rfl
@[simp] theorem State.modBoot_link (s : State) (g : Boot → Boot) (k : Link) : (s.modBoot g).link k = s.link k := rfl
@[simp] theorem State.modBoot_buoy (s : State) (g : Boot → Boot) (k : Fin 15) : (s.modBoot g).buoy k = s.buoy k := rfl
@[simp] theorem State.modBoot_mboxOf (s : State) (g : Boot → Boot) (k : Fin 15) : (s.modBoot g).mboxOf k = s.mboxOf k := rfl
@[simp] theorem State.modBoot_migr (s : State) (g : Boot → Boot) (k : Fin 15) : (s.modBoot g).migr k = s.migr k := rfl
@[simp] theorem State.modBoot_log (s : State) (g : Boot → Boot) (k : Fin 15) : (s.modBoot g).log k = s.log k := rfl
@[simp] theorem State.modBoot_port (s : State) (g : Boot → Boot) (k : Fin 16) : (s.modBoot g).port k = s.port k := rfl
@[simp] theorem State.modBoot_fairway (s : State) (g : Boot → Boot) (k : Fin 4) : (s.modBoot g).fairway k = s.fairway k := rfl
@[simp] theorem State.modBoot_dev (s : State) (g : Boot → Boot) (k : Nat) : (s.modBoot g).dev k = s.dev k := rfl
@[simp] theorem State.modBoot_eng (s : State) (g : Boot → Boot) (k : Fin 17) : (s.modBoot g).eng k = s.eng k := rfl
@[simp] theorem State.modBoot_moor (s : State) (g : Boot → Boot) (k : Fin 17) : (s.modBoot g).moor k = s.moor k := rfl
@[simp] theorem State.modBoot_sector (s : State) (g : Boot → Boot) (k : Fin 4) : (s.modBoot g).sector k = s.sector k := rfl
@[simp] theorem State.modBoot_keeper (s : State) (g : Boot → Boot) (k : Fin 12) : (s.modBoot g).keeper k = s.keeper k := rfl
@[simp] theorem State.modBoot_reqState (s : State) (g : Boot → Boot) (k : Requester) : (s.modBoot g).reqState k = s.reqState k := rfl
@[simp] theorem State.modBoot_lamps (s : State) (g : Boot → Boot) (k : Fin 4) : (s.modBoot g).lamps k = s.lamps k := rfl
@[simp] theorem State.modBoot_lanEp (s : State) (g : Boot → Boot) (k : Fin 32) : (s.modBoot g).lanEp k = s.lanEp k := rfl
@[simp] theorem State.modBoot_item (s : State) (g : Boot → Boot) (k : Nat) : (s.modBoot g).item k = s.item k := rfl
@[simp] theorem State.modBoot_ctr (s : State) (g : Boot → Boot) (k : Nat) : (s.modBoot g).ctr k = s.ctr k := rfl
@[simp] theorem State.modBoot_boot (s : State) (g : Boot → Boot) : (s.modBoot g).boot = g s.boot := rfl
@[simp] theorem State.modBoot_modBoot (s : State) (g : Boot → Boot) (h : Boot → Boot) : (s.modBoot g).modBoot h = s.modBoot (fun x => h (g x)) := rfl
@[simp] theorem State.modUpd_sup (s : State) (g : Update → Update) : (s.modUpd g).sup = s.sup := rfl
@[simp] theorem State.modUpd_md (s : State) (g : Update → Update) : (s.modUpd g).md = s.md := rfl
@[simp] theorem State.modUpd_boot (s : State) (g : Update → Update) : (s.modUpd g).boot = s.boot := rfl
@[simp] theorem State.modUpd_pins (s : State) (g : Update → Update) : (s.modUpd g).pins = s.pins := rfl
@[simp] theorem State.modUpd_clk (s : State) (g : Update → Update) : (s.modUpd g).clk = s.clk := rfl
@[simp] theorem State.modUpd_reg (s : State) (g : Update → Update) : (s.modUpd g).reg = s.reg := rfl
@[simp] theorem State.modUpd_lnk (s : State) (g : Update → Update) : (s.modUpd g).lnk = s.lnk := rfl
@[simp] theorem State.modUpd_rng (s : State) (g : Update → Update) : (s.modUpd g).rng = s.rng := rfl
@[simp] theorem State.modUpd_bcn (s : State) (g : Update → Update) : (s.modUpd g).bcn = s.bcn := rfl
@[simp] theorem State.modUpd_fwy (s : State) (g : Update → Update) : (s.modUpd g).fwy = s.fwy := rfl
@[simp] theorem State.modUpd_ccp (s : State) (g : Update → Update) : (s.modUpd g).ccp = s.ccp := rfl
@[simp] theorem State.modUpd_pwr (s : State) (g : Update → Update) : (s.modUpd g).pwr = s.pwr := rfl
@[simp] theorem State.modUpd_lan (s : State) (g : Update → Update) : (s.modUpd g).lan = s.lan := rfl
@[simp] theorem State.modUpd_tnd (s : State) (g : Update → Update) : (s.modUpd g).tnd = s.tnd := rfl
@[simp] theorem State.modUpd_kpr (s : State) (g : Update → Update) : (s.modUpd g).kpr = s.kpr := rfl
@[simp] theorem State.modUpd_hst (s : State) (g : Update → Update) : (s.modUpd g).hst = s.hst := rfl
@[simp] theorem State.modUpd_mig (s : State) (g : Update → Update) : (s.modUpd g).mig = s.mig := rfl
@[simp] theorem State.modUpd_evt (s : State) (g : Update → Update) : (s.modUpd g).evt = s.evt := rfl
@[simp] theorem State.modUpd_smbBusy (s : State) (g : Update → Update) : (s.modUpd g).smbBusy = s.smbBusy := rfl
@[simp] theorem State.modUpd_out (s : State) (g : Update → Update) : (s.modUpd g).out = s.out := rfl
@[simp] theorem State.modUpd_freeSeq (s : State) (g : Update → Update) : (s.modUpd g).freeSeq = s.freeSeq := rfl
@[simp] theorem State.modUpd_pending (s : State) (g : Update → Update) : (s.modUpd g).pending = s.pending := rfl
@[simp] theorem State.modUpd_mode (s : State) (g : Update → Update) : (s.modUpd g).mode = s.mode := rfl
@[simp] theorem State.modUpd_fn (s : State) (g : Update → Update) (k : Func) : (s.modUpd g).fn k = s.fn k := rfl
@[simp] theorem State.modUpd_ring (s : State) (g : Update → Update) (k : Func) (j : Fin 65) : (s.modUpd g).ring k j = s.ring k j := rfl
@[simp] theorem State.modUpd_evRing (s : State) (g : Update → Update) (k : Func) (j : Fin 4) : (s.modUpd g).evRing k j = s.evRing k j := rfl
@[simp] theorem State.modUpd_link (s : State) (g : Update → Update) (k : Link) : (s.modUpd g).link k = s.link k := rfl
@[simp] theorem State.modUpd_buoy (s : State) (g : Update → Update) (k : Fin 15) : (s.modUpd g).buoy k = s.buoy k := rfl
@[simp] theorem State.modUpd_mboxOf (s : State) (g : Update → Update) (k : Fin 15) : (s.modUpd g).mboxOf k = s.mboxOf k := rfl
@[simp] theorem State.modUpd_migr (s : State) (g : Update → Update) (k : Fin 15) : (s.modUpd g).migr k = s.migr k := rfl
@[simp] theorem State.modUpd_log (s : State) (g : Update → Update) (k : Fin 15) : (s.modUpd g).log k = s.log k := rfl
@[simp] theorem State.modUpd_port (s : State) (g : Update → Update) (k : Fin 16) : (s.modUpd g).port k = s.port k := rfl
@[simp] theorem State.modUpd_fairway (s : State) (g : Update → Update) (k : Fin 4) : (s.modUpd g).fairway k = s.fairway k := rfl
@[simp] theorem State.modUpd_dev (s : State) (g : Update → Update) (k : Nat) : (s.modUpd g).dev k = s.dev k := rfl
@[simp] theorem State.modUpd_eng (s : State) (g : Update → Update) (k : Fin 17) : (s.modUpd g).eng k = s.eng k := rfl
@[simp] theorem State.modUpd_moor (s : State) (g : Update → Update) (k : Fin 17) : (s.modUpd g).moor k = s.moor k := rfl
@[simp] theorem State.modUpd_sector (s : State) (g : Update → Update) (k : Fin 4) : (s.modUpd g).sector k = s.sector k := rfl
@[simp] theorem State.modUpd_keeper (s : State) (g : Update → Update) (k : Fin 12) : (s.modUpd g).keeper k = s.keeper k := rfl
@[simp] theorem State.modUpd_reqState (s : State) (g : Update → Update) (k : Requester) : (s.modUpd g).reqState k = s.reqState k := rfl
@[simp] theorem State.modUpd_lamps (s : State) (g : Update → Update) (k : Fin 4) : (s.modUpd g).lamps k = s.lamps k := rfl
@[simp] theorem State.modUpd_lanEp (s : State) (g : Update → Update) (k : Fin 32) : (s.modUpd g).lanEp k = s.lanEp k := rfl
@[simp] theorem State.modUpd_item (s : State) (g : Update → Update) (k : Nat) : (s.modUpd g).item k = s.item k := rfl
@[simp] theorem State.modUpd_ctr (s : State) (g : Update → Update) (k : Nat) : (s.modUpd g).ctr k = s.ctr k := rfl
@[simp] theorem State.modUpd_upd (s : State) (g : Update → Update) : (s.modUpd g).upd = g s.upd := rfl
@[simp] theorem State.modUpd_modUpd (s : State) (g : Update → Update) (h : Update → Update) : (s.modUpd g).modUpd h = s.modUpd (fun x => h (g x)) := rfl
@[simp] theorem State.modClk_sup (s : State) (g : Clocks → Clocks) : (s.modClk g).sup = s.sup := rfl
@[simp] theorem State.modClk_md (s : State) (g : Clocks → Clocks) : (s.modClk g).md = s.md := rfl
@[simp] theorem State.modClk_boot (s : State) (g : Clocks → Clocks) : (s.modClk g).boot = s.boot := rfl
@[simp] theorem State.modClk_upd (s : State) (g : Clocks → Clocks) : (s.modClk g).upd = s.upd := rfl
@[simp] theorem State.modClk_pins (s : State) (g : Clocks → Clocks) : (s.modClk g).pins = s.pins := rfl
@[simp] theorem State.modClk_reg (s : State) (g : Clocks → Clocks) : (s.modClk g).reg = s.reg := rfl
@[simp] theorem State.modClk_lnk (s : State) (g : Clocks → Clocks) : (s.modClk g).lnk = s.lnk := rfl
@[simp] theorem State.modClk_rng (s : State) (g : Clocks → Clocks) : (s.modClk g).rng = s.rng := rfl
@[simp] theorem State.modClk_bcn (s : State) (g : Clocks → Clocks) : (s.modClk g).bcn = s.bcn := rfl
@[simp] theorem State.modClk_fwy (s : State) (g : Clocks → Clocks) : (s.modClk g).fwy = s.fwy := rfl
@[simp] theorem State.modClk_ccp (s : State) (g : Clocks → Clocks) : (s.modClk g).ccp = s.ccp := rfl
@[simp] theorem State.modClk_pwr (s : State) (g : Clocks → Clocks) : (s.modClk g).pwr = s.pwr := rfl
@[simp] theorem State.modClk_lan (s : State) (g : Clocks → Clocks) : (s.modClk g).lan = s.lan := rfl
@[simp] theorem State.modClk_tnd (s : State) (g : Clocks → Clocks) : (s.modClk g).tnd = s.tnd := rfl
@[simp] theorem State.modClk_kpr (s : State) (g : Clocks → Clocks) : (s.modClk g).kpr = s.kpr := rfl
@[simp] theorem State.modClk_hst (s : State) (g : Clocks → Clocks) : (s.modClk g).hst = s.hst := rfl
@[simp] theorem State.modClk_mig (s : State) (g : Clocks → Clocks) : (s.modClk g).mig = s.mig := rfl
@[simp] theorem State.modClk_evt (s : State) (g : Clocks → Clocks) : (s.modClk g).evt = s.evt := rfl
@[simp] theorem State.modClk_smbBusy (s : State) (g : Clocks → Clocks) : (s.modClk g).smbBusy = s.smbBusy := rfl
@[simp] theorem State.modClk_out (s : State) (g : Clocks → Clocks) : (s.modClk g).out = s.out := rfl
@[simp] theorem State.modClk_freeSeq (s : State) (g : Clocks → Clocks) : (s.modClk g).freeSeq = s.freeSeq := rfl
@[simp] theorem State.modClk_pending (s : State) (g : Clocks → Clocks) : (s.modClk g).pending = s.pending := rfl
@[simp] theorem State.modClk_mode (s : State) (g : Clocks → Clocks) : (s.modClk g).mode = s.mode := rfl
@[simp] theorem State.modClk_fn (s : State) (g : Clocks → Clocks) (k : Func) : (s.modClk g).fn k = s.fn k := rfl
@[simp] theorem State.modClk_ring (s : State) (g : Clocks → Clocks) (k : Func) (j : Fin 65) : (s.modClk g).ring k j = s.ring k j := rfl
@[simp] theorem State.modClk_evRing (s : State) (g : Clocks → Clocks) (k : Func) (j : Fin 4) : (s.modClk g).evRing k j = s.evRing k j := rfl
@[simp] theorem State.modClk_link (s : State) (g : Clocks → Clocks) (k : Link) : (s.modClk g).link k = s.link k := rfl
@[simp] theorem State.modClk_buoy (s : State) (g : Clocks → Clocks) (k : Fin 15) : (s.modClk g).buoy k = s.buoy k := rfl
@[simp] theorem State.modClk_mboxOf (s : State) (g : Clocks → Clocks) (k : Fin 15) : (s.modClk g).mboxOf k = s.mboxOf k := rfl
@[simp] theorem State.modClk_migr (s : State) (g : Clocks → Clocks) (k : Fin 15) : (s.modClk g).migr k = s.migr k := rfl
@[simp] theorem State.modClk_log (s : State) (g : Clocks → Clocks) (k : Fin 15) : (s.modClk g).log k = s.log k := rfl
@[simp] theorem State.modClk_port (s : State) (g : Clocks → Clocks) (k : Fin 16) : (s.modClk g).port k = s.port k := rfl
@[simp] theorem State.modClk_fairway (s : State) (g : Clocks → Clocks) (k : Fin 4) : (s.modClk g).fairway k = s.fairway k := rfl
@[simp] theorem State.modClk_dev (s : State) (g : Clocks → Clocks) (k : Nat) : (s.modClk g).dev k = s.dev k := rfl
@[simp] theorem State.modClk_eng (s : State) (g : Clocks → Clocks) (k : Fin 17) : (s.modClk g).eng k = s.eng k := rfl
@[simp] theorem State.modClk_moor (s : State) (g : Clocks → Clocks) (k : Fin 17) : (s.modClk g).moor k = s.moor k := rfl
@[simp] theorem State.modClk_sector (s : State) (g : Clocks → Clocks) (k : Fin 4) : (s.modClk g).sector k = s.sector k := rfl
@[simp] theorem State.modClk_keeper (s : State) (g : Clocks → Clocks) (k : Fin 12) : (s.modClk g).keeper k = s.keeper k := rfl
@[simp] theorem State.modClk_reqState (s : State) (g : Clocks → Clocks) (k : Requester) : (s.modClk g).reqState k = s.reqState k := rfl
@[simp] theorem State.modClk_lamps (s : State) (g : Clocks → Clocks) (k : Fin 4) : (s.modClk g).lamps k = s.lamps k := rfl
@[simp] theorem State.modClk_lanEp (s : State) (g : Clocks → Clocks) (k : Fin 32) : (s.modClk g).lanEp k = s.lanEp k := rfl
@[simp] theorem State.modClk_item (s : State) (g : Clocks → Clocks) (k : Nat) : (s.modClk g).item k = s.item k := rfl
@[simp] theorem State.modClk_ctr (s : State) (g : Clocks → Clocks) (k : Nat) : (s.modClk g).ctr k = s.ctr k := rfl
@[simp] theorem State.modClk_clk (s : State) (g : Clocks → Clocks) : (s.modClk g).clk = g s.clk := rfl
@[simp] theorem State.modClk_modClk (s : State) (g : Clocks → Clocks) (h : Clocks → Clocks) : (s.modClk g).modClk h = s.modClk (fun x => h (g x)) := rfl
@[simp] theorem State.modTnd_sup (s : State) (g : Tender → Tender) : (s.modTnd g).sup = s.sup := rfl
@[simp] theorem State.modTnd_md (s : State) (g : Tender → Tender) : (s.modTnd g).md = s.md := rfl
@[simp] theorem State.modTnd_boot (s : State) (g : Tender → Tender) : (s.modTnd g).boot = s.boot := rfl
@[simp] theorem State.modTnd_upd (s : State) (g : Tender → Tender) : (s.modTnd g).upd = s.upd := rfl
@[simp] theorem State.modTnd_pins (s : State) (g : Tender → Tender) : (s.modTnd g).pins = s.pins := rfl
@[simp] theorem State.modTnd_clk (s : State) (g : Tender → Tender) : (s.modTnd g).clk = s.clk := rfl
@[simp] theorem State.modTnd_reg (s : State) (g : Tender → Tender) : (s.modTnd g).reg = s.reg := rfl
@[simp] theorem State.modTnd_lnk (s : State) (g : Tender → Tender) : (s.modTnd g).lnk = s.lnk := rfl
@[simp] theorem State.modTnd_rng (s : State) (g : Tender → Tender) : (s.modTnd g).rng = s.rng := rfl
@[simp] theorem State.modTnd_bcn (s : State) (g : Tender → Tender) : (s.modTnd g).bcn = s.bcn := rfl
@[simp] theorem State.modTnd_fwy (s : State) (g : Tender → Tender) : (s.modTnd g).fwy = s.fwy := rfl
@[simp] theorem State.modTnd_ccp (s : State) (g : Tender → Tender) : (s.modTnd g).ccp = s.ccp := rfl
@[simp] theorem State.modTnd_pwr (s : State) (g : Tender → Tender) : (s.modTnd g).pwr = s.pwr := rfl
@[simp] theorem State.modTnd_lan (s : State) (g : Tender → Tender) : (s.modTnd g).lan = s.lan := rfl
@[simp] theorem State.modTnd_kpr (s : State) (g : Tender → Tender) : (s.modTnd g).kpr = s.kpr := rfl
@[simp] theorem State.modTnd_hst (s : State) (g : Tender → Tender) : (s.modTnd g).hst = s.hst := rfl
@[simp] theorem State.modTnd_mig (s : State) (g : Tender → Tender) : (s.modTnd g).mig = s.mig := rfl
@[simp] theorem State.modTnd_evt (s : State) (g : Tender → Tender) : (s.modTnd g).evt = s.evt := rfl
@[simp] theorem State.modTnd_smbBusy (s : State) (g : Tender → Tender) : (s.modTnd g).smbBusy = s.smbBusy := rfl
@[simp] theorem State.modTnd_out (s : State) (g : Tender → Tender) : (s.modTnd g).out = s.out := rfl
@[simp] theorem State.modTnd_freeSeq (s : State) (g : Tender → Tender) : (s.modTnd g).freeSeq = s.freeSeq := rfl
@[simp] theorem State.modTnd_pending (s : State) (g : Tender → Tender) : (s.modTnd g).pending = s.pending := rfl
@[simp] theorem State.modTnd_mode (s : State) (g : Tender → Tender) : (s.modTnd g).mode = s.mode := rfl
@[simp] theorem State.modTnd_fn (s : State) (g : Tender → Tender) (k : Func) : (s.modTnd g).fn k = s.fn k := rfl
@[simp] theorem State.modTnd_ring (s : State) (g : Tender → Tender) (k : Func) (j : Fin 65) : (s.modTnd g).ring k j = s.ring k j := rfl
@[simp] theorem State.modTnd_evRing (s : State) (g : Tender → Tender) (k : Func) (j : Fin 4) : (s.modTnd g).evRing k j = s.evRing k j := rfl
@[simp] theorem State.modTnd_link (s : State) (g : Tender → Tender) (k : Link) : (s.modTnd g).link k = s.link k := rfl
@[simp] theorem State.modTnd_buoy (s : State) (g : Tender → Tender) (k : Fin 15) : (s.modTnd g).buoy k = s.buoy k := rfl
@[simp] theorem State.modTnd_mboxOf (s : State) (g : Tender → Tender) (k : Fin 15) : (s.modTnd g).mboxOf k = s.mboxOf k := rfl
@[simp] theorem State.modTnd_migr (s : State) (g : Tender → Tender) (k : Fin 15) : (s.modTnd g).migr k = s.migr k := rfl
@[simp] theorem State.modTnd_log (s : State) (g : Tender → Tender) (k : Fin 15) : (s.modTnd g).log k = s.log k := rfl
@[simp] theorem State.modTnd_port (s : State) (g : Tender → Tender) (k : Fin 16) : (s.modTnd g).port k = s.port k := rfl
@[simp] theorem State.modTnd_fairway (s : State) (g : Tender → Tender) (k : Fin 4) : (s.modTnd g).fairway k = s.fairway k := rfl
@[simp] theorem State.modTnd_dev (s : State) (g : Tender → Tender) (k : Nat) : (s.modTnd g).dev k = s.dev k := rfl
@[simp] theorem State.modTnd_eng (s : State) (g : Tender → Tender) (k : Fin 17) : (s.modTnd g).eng k = s.eng k := rfl
@[simp] theorem State.modTnd_moor (s : State) (g : Tender → Tender) (k : Fin 17) : (s.modTnd g).moor k = s.moor k := rfl
@[simp] theorem State.modTnd_sector (s : State) (g : Tender → Tender) (k : Fin 4) : (s.modTnd g).sector k = s.sector k := rfl
@[simp] theorem State.modTnd_keeper (s : State) (g : Tender → Tender) (k : Fin 12) : (s.modTnd g).keeper k = s.keeper k := rfl
@[simp] theorem State.modTnd_reqState (s : State) (g : Tender → Tender) (k : Requester) : (s.modTnd g).reqState k = s.reqState k := rfl
@[simp] theorem State.modTnd_lamps (s : State) (g : Tender → Tender) (k : Fin 4) : (s.modTnd g).lamps k = s.lamps k := rfl
@[simp] theorem State.modTnd_lanEp (s : State) (g : Tender → Tender) (k : Fin 32) : (s.modTnd g).lanEp k = s.lanEp k := rfl
@[simp] theorem State.modTnd_tnd (s : State) (g : Tender → Tender) : (s.modTnd g).tnd = g s.tnd := rfl
@[simp] theorem State.modTnd_modTnd (s : State) (g : Tender → Tender) (h : Tender → Tender) : (s.modTnd g).modTnd h = s.modTnd (fun x => h (g x)) := rfl
@[simp] theorem State.modHst_sup (s : State) (g : HoldingStore → HoldingStore) : (s.modHst g).sup = s.sup := rfl
@[simp] theorem State.modHst_md (s : State) (g : HoldingStore → HoldingStore) : (s.modHst g).md = s.md := rfl
@[simp] theorem State.modHst_boot (s : State) (g : HoldingStore → HoldingStore) : (s.modHst g).boot = s.boot := rfl
@[simp] theorem State.modHst_upd (s : State) (g : HoldingStore → HoldingStore) : (s.modHst g).upd = s.upd := rfl
@[simp] theorem State.modHst_pins (s : State) (g : HoldingStore → HoldingStore) : (s.modHst g).pins = s.pins := rfl
@[simp] theorem State.modHst_clk (s : State) (g : HoldingStore → HoldingStore) : (s.modHst g).clk = s.clk := rfl
@[simp] theorem State.modHst_reg (s : State) (g : HoldingStore → HoldingStore) : (s.modHst g).reg = s.reg := rfl
@[simp] theorem State.modHst_lnk (s : State) (g : HoldingStore → HoldingStore) : (s.modHst g).lnk = s.lnk := rfl
@[simp] theorem State.modHst_rng (s : State) (g : HoldingStore → HoldingStore) : (s.modHst g).rng = s.rng := rfl
@[simp] theorem State.modHst_bcn (s : State) (g : HoldingStore → HoldingStore) : (s.modHst g).bcn = s.bcn := rfl
@[simp] theorem State.modHst_fwy (s : State) (g : HoldingStore → HoldingStore) : (s.modHst g).fwy = s.fwy := rfl
@[simp] theorem State.modHst_ccp (s : State) (g : HoldingStore → HoldingStore) : (s.modHst g).ccp = s.ccp := rfl
@[simp] theorem State.modHst_pwr (s : State) (g : HoldingStore → HoldingStore) : (s.modHst g).pwr = s.pwr := rfl
@[simp] theorem State.modHst_lan (s : State) (g : HoldingStore → HoldingStore) : (s.modHst g).lan = s.lan := rfl
@[simp] theorem State.modHst_tnd (s : State) (g : HoldingStore → HoldingStore) : (s.modHst g).tnd = s.tnd := rfl
@[simp] theorem State.modHst_kpr (s : State) (g : HoldingStore → HoldingStore) : (s.modHst g).kpr = s.kpr := rfl
@[simp] theorem State.modHst_mig (s : State) (g : HoldingStore → HoldingStore) : (s.modHst g).mig = s.mig := rfl
@[simp] theorem State.modHst_evt (s : State) (g : HoldingStore → HoldingStore) : (s.modHst g).evt = s.evt := rfl
@[simp] theorem State.modHst_smbBusy (s : State) (g : HoldingStore → HoldingStore) : (s.modHst g).smbBusy = s.smbBusy := rfl
@[simp] theorem State.modHst_out (s : State) (g : HoldingStore → HoldingStore) : (s.modHst g).out = s.out := rfl
@[simp] theorem State.modHst_freeSeq (s : State) (g : HoldingStore → HoldingStore) : (s.modHst g).freeSeq = s.freeSeq := rfl
@[simp] theorem State.modHst_pending (s : State) (g : HoldingStore → HoldingStore) : (s.modHst g).pending = s.pending := rfl
@[simp] theorem State.modHst_mode (s : State) (g : HoldingStore → HoldingStore) : (s.modHst g).mode = s.mode := rfl
@[simp] theorem State.modHst_fn (s : State) (g : HoldingStore → HoldingStore) (k : Func) : (s.modHst g).fn k = s.fn k := rfl
@[simp] theorem State.modHst_ring (s : State) (g : HoldingStore → HoldingStore) (k : Func) (j : Fin 65) : (s.modHst g).ring k j = s.ring k j := rfl
@[simp] theorem State.modHst_evRing (s : State) (g : HoldingStore → HoldingStore) (k : Func) (j : Fin 4) : (s.modHst g).evRing k j = s.evRing k j := rfl
@[simp] theorem State.modHst_link (s : State) (g : HoldingStore → HoldingStore) (k : Link) : (s.modHst g).link k = s.link k := rfl
@[simp] theorem State.modHst_buoy (s : State) (g : HoldingStore → HoldingStore) (k : Fin 15) : (s.modHst g).buoy k = s.buoy k := rfl
@[simp] theorem State.modHst_mboxOf (s : State) (g : HoldingStore → HoldingStore) (k : Fin 15) : (s.modHst g).mboxOf k = s.mboxOf k := rfl
@[simp] theorem State.modHst_migr (s : State) (g : HoldingStore → HoldingStore) (k : Fin 15) : (s.modHst g).migr k = s.migr k := rfl
@[simp] theorem State.modHst_log (s : State) (g : HoldingStore → HoldingStore) (k : Fin 15) : (s.modHst g).log k = s.log k := rfl
@[simp] theorem State.modHst_port (s : State) (g : HoldingStore → HoldingStore) (k : Fin 16) : (s.modHst g).port k = s.port k := rfl
@[simp] theorem State.modHst_fairway (s : State) (g : HoldingStore → HoldingStore) (k : Fin 4) : (s.modHst g).fairway k = s.fairway k := rfl
@[simp] theorem State.modHst_dev (s : State) (g : HoldingStore → HoldingStore) (k : Nat) : (s.modHst g).dev k = s.dev k := rfl
@[simp] theorem State.modHst_eng (s : State) (g : HoldingStore → HoldingStore) (k : Fin 17) : (s.modHst g).eng k = s.eng k := rfl
@[simp] theorem State.modHst_moor (s : State) (g : HoldingStore → HoldingStore) (k : Fin 17) : (s.modHst g).moor k = s.moor k := rfl
@[simp] theorem State.modHst_sector (s : State) (g : HoldingStore → HoldingStore) (k : Fin 4) : (s.modHst g).sector k = s.sector k := rfl
@[simp] theorem State.modHst_keeper (s : State) (g : HoldingStore → HoldingStore) (k : Fin 12) : (s.modHst g).keeper k = s.keeper k := rfl
@[simp] theorem State.modHst_reqState (s : State) (g : HoldingStore → HoldingStore) (k : Requester) : (s.modHst g).reqState k = s.reqState k := rfl
@[simp] theorem State.modHst_lamps (s : State) (g : HoldingStore → HoldingStore) (k : Fin 4) : (s.modHst g).lamps k = s.lamps k := rfl
@[simp] theorem State.modHst_lanEp (s : State) (g : HoldingStore → HoldingStore) (k : Fin 32) : (s.modHst g).lanEp k = s.lanEp k := rfl
@[simp] theorem State.modHst_item (s : State) (g : HoldingStore → HoldingStore) (k : Nat) : (s.modHst g).item k = s.item k := rfl
@[simp] theorem State.modHst_ctr (s : State) (g : HoldingStore → HoldingStore) (k : Nat) : (s.modHst g).ctr k = s.ctr k := rfl
@[simp] theorem State.modHst_hst (s : State) (g : HoldingStore → HoldingStore) : (s.modHst g).hst = g s.hst := rfl
@[simp] theorem State.modHst_modHst (s : State) (g : HoldingStore → HoldingStore) (h : HoldingStore → HoldingStore) : (s.modHst g).modHst h = s.modHst (fun x => h (g x)) := rfl

end Sys2Proof.Machine
end

