-- ==== Sys2Proof/Laws/Access.lean ====
section
/-! SUPPORT. What a write that arrives by a path does, and what the head of a Command Ring and a fetched keeper instruction do,
once and for all. -/

namespace Sys2Proof.Machine

/-- A write that a path brings acts for its requester in the state its arrival leaves (R128, R137, R164). -/
theorem State.access_brings {s : State} {p : Path} {r : Requester} (h : s.Brings p r) (off : Nat) (act : Requester → State → State) :
    s.access p off act = act r (s.arrived p r off) := by
  obtain ⟨h1, h2, h3, h4⟩ := h
  simp [State.access, State.accessAny, State.arrived, h1, h2, h3, h4]

/-- A guarded write that a path brings behind an open Keyhole acts, and closes it (R135). -/
theorem State.accessGuarded_open {s : State} {p : Path} {r : Requester} {off : Nat} (h : s.Brings p r) (k : s.KeyOpen p r off)
    (act : Requester → State → State) : s.accessGuarded p off act = act r (s.unlocked p r off) := by
  obtain ⟨h1, h2, -, h4⟩ := h
  simp only [State.KeyOpen] at k
  simp [State.accessGuarded, State.guarded, State.unlocked, h1, h2, h4, k]

/-- A keeper that is running reaches manager BAR0 as itself. -/
theorem State.brings_keeper {s : State} {k : Fin 12} (h : s.pathLive (.keeper k) = true) : s.Brings (.keeper k) (.keeper k) :=
  ⟨h, rfl, by simp, rfl⟩

/-- A command that its function issues ends or goes on as its own rules say (R211). -/
theorem State.runCommand_issues {s s1 : State} {f : Func} {ty : Nat} {i : Half} {e : Entry} (h : s.Issues f ty i e s1)
    {pick : Entry → Bool} (hp : pick e = true) (act : State → Entry → CmdEnd) :
    s.runCommand f ty pick act = State.cmdEnd f i e (act s1 e) := by
  obtain ⟨⟨k, h1⟩, h2, h3, h4, h5, rfl⟩ := h
  simp [State.runCommand, h1, h2, h3, h4, h5, hp]

/-- A write that a path brings to the rings of a function acts for that function (R154, R155). -/
theorem State.ringAccess_at {s s1 : State} {p : Path} {f : Func} {o : Nat} (h : s.RingsAt p f o s1) (act : Func → State → State) :
    s.ringAccess p o act = act f s1 := by
  obtain ⟨h1, h2, r, b, h3, h4, h5, h6⟩ := h
  cases p <;> simp_all [State.ringAccess, ringPage, State.accessAny, State.arrived]

/-- An instruction that its keeper fetches acts in the state of the fetch (R426, R441). -/
theorem State.runOp_fetches {s s1 : State} {k : Fin 12} {w : DWord} (h : s.Fetches k w s1) {pick : DWord → Bool} (hp : pick w = true)
    (act : State → DWord → KEnd) : s.runOp k pick act = s1.kfinish k (act s1 w) := by
  simp [State.runOp, h.1, h.2, hp]

/-- A register written leaves the program counter. -/
theorem Keeper.setReg_pc (x : Keeper) (c : Nat) (v : Half) : (x.setReg c v).pc = x.pc := by
  unfold Keeper.setReg; repeat' split <;> try rfl

/-- An instruction that writes a register and ends goes on to the next one (R433). -/
theorem State.finish_kset (s : State) (k : Fin 12) (c : Nat) (v : Half) : s.kfinish k (s.kset k c v) = s.kwrite k c v := by
  simp [State.kset, State.kfinish, State.kwrite, Keeper.setReg_pc]

end Sys2Proof.Machine
end

