-- ==== Sys2Proof/Laws/After.lean ====
section
/-! SUPPORT. What every command ends with (`State.after`) leaves alone: the supply, the boot, UPDATE, the pins, the clocks, the
keepers and the queue; of the register file all but what the requesters hold, of the Beacon all but its Lamps and the transactions that
outlive a function, and of the mode controller all but the two flags that follow LG1 and LG2. -/

namespace Sys2Proof.Machine

/-- The parts of the state that nothing in `State.after` touches once it has followed the pins. -/
structure Still where
  sup : Supply
  md : Modes
  boot : Boot
  upd : Update
  pins : Pins
  clk : Clocks
  reg : RegFile
  bcn : Beacon
  kpr : Keepers
  smbBusy : Bool
  pending : List Instr

/-- These parts of a state. -/
def State.still (s : State) : Still :=
  { sup := s.sup, md := s.md, boot := s.boot, upd := s.upd, pins := s.pins, clk := s.clk, kpr := s.kpr
    reg := { s.reg with req := Vector.replicate 33 {} }
    bcn := { s.bcn with lists := Vector.replicate 4 [], orphans := [] }
    smbBusy := s.smbBusy, pending := s.pending }

@[simp] theorem State.still_evt (s : State) (v : Events) : ({ s with evt := v } : State).still = s.still := rfl
@[simp] theorem State.still_hst (s : State) (v : HoldingStore) : ({ s with hst := v } : State).still = s.still := rfl
@[simp] theorem State.still_out (s : State) (v : List Output) : ({ s with out := v } : State).still = s.still := rfl
@[simp] theorem State.still_lnk (s : State) (v : Links) : ({ s with lnk := v } : State).still = s.still := rfl
@[simp] theorem State.still_rng (s : State) (v : Rings) : ({ s with rng := v } : State).still = s.still := rfl
@[simp] theorem State.still_tnd (s : State) (v : Tender) : ({ s with tnd := v } : State).still = s.still := rfl
@[simp] theorem State.still_mig (s : State) (v : Migration) : ({ s with mig := v } : State).still = s.still := rfl
@[simp] theorem State.still_fwy (s : State) (v : Fairways) : ({ s with fwy := v } : State).still = s.still := rfl
@[simp] theorem State.still_ccp (s : State) (v : CcPd) : ({ s with ccp := v } : State).still = s.still := rfl
@[simp] theorem State.still_pwr (s : State) (v : Power) : ({ s with pwr := v } : State).still = s.still := rfl
@[simp] theorem State.still_freeSeq (s : State) (v : Nat) : ({ s with freeSeq := v } : State).still = s.still := rfl
@[simp] theorem State.still_lan (s : State) (v : Lantern) : ({ s with lan := v } : State).still = s.still := rfl

/-- A fold of operations that leave the parts alone leaves them alone. -/
theorem foldl_still {α : Type} (f : State → α → State) (h : ∀ s x, (f s x).still = s.still) (l : List α) (s : State) :
    (l.foldl f s).still = s.still := by
  induction l generalizing s with
  | nil => rfl
  | cons a t ih => rw [List.foldl_cons, ih, h]

@[simp] theorem State.emit_still (s : State) (o : Output) : (s.emit o).still = s.still := rfl
@[simp] theorem State.freeBit_still (s : State) : (s.freeBit).2.still = s.still := rfl
@[simp] theorem State.modFn_still (s : State) (f : Func) (g : FuncState → FuncState) : (s.modFn f g).still = s.still := rfl
@[simp] theorem State.modRing_still (s : State) (f : Func) (r : Fin 65) (g : Ring → Ring) : (s.modRing f r g).still = s.still := rfl
@[simp] theorem State.modEvRing_still (s : State) (f : Func) (n : Fin 4) (g : EventRing → EventRing) : (s.modEvRing f n g).still = s.still := rfl
@[simp] theorem State.modLink_still (s : State) (l : Link) (g : LinkState → LinkState) : (s.modLink l g).still = s.still := rfl
@[simp] theorem State.modLog_still (s : State) (b : Fin 15) (g : Logbook → Logbook) : (s.modLog b g).still = s.still := rfl
@[simp] theorem State.modPort_still (s : State) (n : Fin 16) (g : Port → Port) : (s.modPort n g).still = s.still := rfl
@[simp] theorem State.modFairway_still (s : State) (f : Fin 4) (g : Fairway → Fairway) : (s.modFairway f g).still = s.still := rfl
@[simp] theorem State.modEng_still (s : State) (e : Fin 17) (g : Engine → Engine) : (s.modEng e g).still = s.still := rfl
@[simp] theorem State.modMoor_still (s : State) (n : Fin 17) (g : Mooring → Mooring) : (s.modMoor n g).still = s.still := rfl
@[simp] theorem State.modSector_still (s : State) (i : Fin 4) (g : Sector → Sector) : (s.modSector i g).still = s.still := rfl
@[simp] theorem State.dropDev_still (s : State) (h : Nat) : (s.dropDev h).still = s.still := rfl
@[simp] theorem State.settle_still (s : State) : s.settle.still = s.still := by
  unfold State.settle; (try dsimp only); (repeat' split) <;> simp [foldl_still]
@[simp] theorem State.logWrite_still (s : State) (f : Func) (a : Nat) (n : Nat) : (s.logWrite f a n).still = s.still := by
  unfold State.logWrite; (try dsimp only); (repeat' split) <;> simp [foldl_still]
@[simp] theorem State.wakeLink_still (s : State) (l : Link) : (s.wakeLink l).still = s.still := rfl
@[simp] theorem State.wakeFn_still (s : State) (f : Func) : (s.wakeFn f).still = s.still := by
  unfold State.wakeFn; (try dsimp only); (repeat' split) <;> simp [foldl_still]
@[simp] theorem State.issueWrite_still (s : State) (f : Func) (addr : QWord) (bytes : List Byte) (poisoned : Bool) : (s.issueWrite f addr bytes poisoned).still = s.still := by
  unfold State.issueWrite; (try dsimp only); (repeat' split) <;> simp [foldl_still]
@[simp] theorem State.ringFault_still (s : State) (f : Func) (ring : Nat) (kind : Nat) (index : BitVec 16) : (s.ringFault f ring kind index).still = s.still := rfl
@[simp] theorem State.evFullUpdate_still (s : State) (f : Func) (n : Fin 4) : (s.evFullUpdate f n).still = s.still := by
  unfold State.evFullUpdate; (try dsimp only); (repeat' split) <;> simp [foldl_still]
@[simp] theorem State.sendNotify_still (s : State) (n : Fin 4) : (s.sendNotify n).still = s.still := rfl
@[simp] theorem State.holdNotify_still (s : State) (n : Fin 4) : (s.holdNotify n).still = s.still := rfl
@[simp] theorem State.notifyDue_still (s : State) (n : Fin 4) : (s.notifyDue n).still = s.still := by
  unfold State.notifyDue; (try dsimp only); (repeat' split) <;> simp [foldl_still]
@[simp] theorem State.disarmRing_still (s : State) (f : Func) (n : Fin 4) : (s.disarmRing f n).still = s.still := rfl
@[simp] theorem State.sendMessage_still (s : State) (f : Func) (n : Fin 4) : (s.sendMessage f n).still = s.still := by
  unfold State.sendMessage; (try dsimp only); (repeat' split) <;> simp [foldl_still]
@[simp] theorem State.writeEvent_still (s : State) (f : Func) (n : Fin 4) (e : EventEntry) : (s.writeEvent f n e).still = s.still := by
  unfold State.writeEvent; (try dsimp only); (repeat' split) <;> simp [foldl_still]
@[simp] theorem State.postEvent_still (s : State) (f : Func) (n : Fin 4) (e : EventEntry) : (s.postEvent f n e).still = s.still := by
  unfold State.postEvent; (try dsimp only); (repeat' split) <;> simp [foldl_still]
@[simp] theorem State.postFnEvent_still (s : State) (f : Func) (kind : Nat) (d0 : DWord) (d1 : DWord) (d2 : DWord) : (s.postFnEvent f kind d0 d1 d2).still = s.still := by
  unfold State.postFnEvent; (try dsimp only); (repeat' split) <;> simp [foldl_still]
@[simp] theorem State.modTnd_still (s : State) (g : Tender → Tender) : (s.modTnd g).still = s.still := rfl
@[simp] theorem State.tndFault_still (s : State) (kind : Nat) (ctr : Nat) (src : Nat) : (s.tndFault kind ctr src).still = s.still := rfl
@[simp] theorem State.modItem_still (s : State) (i : Nat) (g : Item → Item) : (s.modItem i g).still = s.still := by
  unfold State.modItem; (try dsimp only); (repeat' split) <;> simp [foldl_still]
@[simp] theorem State.putCtr_still (s : State) (c : Nat) (x : Counter) : (s.putCtr c x).still = s.still := rfl
@[simp] theorem State.makeReady_still (s : State) (i : Nat) : (s.makeReady i).still = s.still := by
  unfold State.makeReady; (try dsimp only); (repeat' split) <;> simp [foldl_still]
@[simp] theorem State.decrement_still (s : State) (c : Nat) (tag : DWord) : (s.decrement c tag).2.still = s.still := by
  unfold State.decrement; (try dsimp only); (repeat' split) <;> simp [foldl_still]
@[simp] theorem State.decrementBy_still (s : State) (f : Func) (c : Nat) (tag : DWord) : (s.decrementBy f c tag).2.still = s.still := by
  unfold State.decrementBy; (try dsimp only); (repeat' split) <;> simp [foldl_still]
@[simp] theorem State.decrementEngine_still (s : State) (c : Nat) (tag : DWord) : (s.decrementEngine c tag).still = s.still := by
  unfold State.decrementEngine; (try dsimp only); (repeat' split) <;> simp [foldl_still]
@[simp] theorem State.countFairway_still (s : State) (r : Ring) (st : Status) : (s.countFairway r st).still = s.still := by
  unfold State.countFairway; (try dsimp only); (repeat' split) <;> simp [foldl_still]
@[simp] theorem State.complete_still (s : State) (f : Func) (ring : Fin 65) (c : Done) : (s.complete f ring c).still = s.still := by
  unfold State.complete; (try dsimp only); (repeat' split) <;> simp [foldl_still]
@[simp] theorem State.consume_still (s : State) (f : Func) (ring : Fin 65) (n : Nat) : (s.consume f ring n).still = s.still := rfl
@[simp] theorem State.endTransfer_still (s : State) (f : Func) (ring : Fin 65) (st : Status) (sub : Nat) : (s.endTransfer f ring st sub).still = s.still := by
  unfold State.endTransfer; (try dsimp only); (repeat' split) <;> simp [foldl_still]
@[simp] theorem State.completeHead_still (s : State) (f : Func) (ring : Fin 65) (l : List Staged) (st : Status) (sub : Nat) : (s.completeHead f ring l st sub).still = s.still := by
  unfold State.completeHead; (try dsimp only); (repeat' split) <;> simp [foldl_still]
@[simp] theorem State.ringGone_still (s : State) (f : Func) (ring : Fin 65) (sub : Nat) : (s.ringGone f ring sub).still = s.still := by
  unfold State.ringGone; (try dsimp only); (repeat' split) <;> simp [foldl_still]
@[simp] theorem State.leave_still (s : State) (h : Nat) (sub : Nat) : (s.leave h sub).still = s.still := by
  unfold State.leave; (try dsimp only); (repeat' split) <;> simp [foldl_still]
@[simp] theorem State.releasePort_still (s : State) (n : Fin 16) (sub : Nat) : (s.releasePort n sub).still = s.still := by
  unfold State.releasePort; (try dsimp only); (repeat' split) <;> simp [foldl_still]
@[simp] theorem State.completeCmd_still (s : State) (f : Func) (index : BitVec 16) (e : Entry) (status : Status) (r0 : DWord) (r1 : DWord) : (s.completeCmd f index e status r0 r1).still = s.still := by
  unfold State.completeCmd; (try dsimp only); (repeat' split) <;> simp [foldl_still]
@[simp] theorem State.finishCmd_still (s : State) (f : Func) (status : Status) (r0 : DWord) (r1 : DWord) : (s.finishCmd f status r0 r1).still = s.still := by
  unfold State.finishCmd; (try dsimp only); (repeat' split) <;> simp [foldl_still]
@[simp] theorem State.storeWords_still (s : State) (w : Nat) (ws : List (Half × Bool)) : (s.storeWords w ws).still = s.still := by
  unfold State.storeWords; (try dsimp only); (repeat' split) <;> simp [foldl_still]
@[simp] theorem State.placeItem_still (s : State) (e : Fin 17) (kind : Nat) (header : Half) (payload : List Byte) : (s.placeItem e kind header payload).still = s.still := by
  unfold State.placeItem; (try dsimp only); (repeat' split) <;> simp [foldl_still]
@[simp] theorem State.placeWaiting_still (s : State) (e : Fin 17) (fuel : Nat) : (s.placeWaiting e fuel).still = s.still := by
  induction fuel generalizing s with
  | zero => rfl
  | succ n ih => unfold State.placeWaiting; (try dsimp only); (repeat' split) <;> simp [ih]
@[simp] theorem State.offerItem_still (s : State) (e : Fin 17) (kind : Nat) (header : Half) : (s.offerItem e kind header).still = s.still := by
  unfold State.offerItem; (try dsimp only); (repeat' split) <;> simp [foldl_still]
@[simp] theorem State.endTx_still (s : State) (e : Fin 17) (result : Nat) : (s.endTx e result).still = s.still := by
  unfold State.endTx; (try dsimp only); (repeat' split) <;> simp [foldl_still]
@[simp] theorem State.ccChange_still (s : State) (e : Fin 17) : (s.ccChange e).still = s.still := rfl
@[simp] theorem State.gateOff_still (s : State) (p : Fin 17) : (s.gateOff p).still = s.still := rfl
@[simp] theorem State.leavePartner_still (s : State) (e : Fin 17) (st : TcState) : (s.leavePartner e st).still = s.still := by
  unfold State.leavePartner; (try dsimp only); (repeat' split) <;> simp [foldl_still]
@[simp] theorem State.takePreference_still (s : State) (e : Fin 17) : (s.takePreference e).still = s.still := rfl
@[simp] theorem State.unattach_still (s : State) (e : Fin 17) : (s.unattach e).still = s.still := by
  unfold State.unattach; (try dsimp only); (repeat' split) <;> simp [foldl_still]
@[simp] theorem State.attachSnk_still (s : State) (e : Fin 17) : (s.attachSnk e).still = s.still := by
  unfold State.attachSnk; (try dsimp only); (repeat' split) <;> simp [foldl_still]
@[simp] theorem State.handOver_still (s : State) : s.handOver.still = s.still := by
  unfold State.handOver; (try dsimp only); (repeat' split) <;> simp [foldl_still]
@[simp] theorem State.followEngine_still (s : State) (e : Fin 17) : (s.followEngine e).still = s.still := by
  unfold State.followEngine; (try dsimp only); (repeat' split) <;> simp [foldl_still]
@[simp] theorem State.ppsRelease_still (s : State) (q : Fin 4) : (s.ppsRelease q).still = s.still :=
  foldl_still _ (fun _ _ => State.modMoor_still _ _ _) _ _
@[simp] theorem State.still_next (s : State) : ({ s with freeSeq := s.freeSeq + 1 } : State).still = s.still := rfl
@[simp] theorem State.startRamp_still (s : State) (q : Fin 4) (v : Nat) : (s.startRamp q v).still = s.still := by
  have h (s1 : State) (c : Bool) : (if c then s1.ppsRelease q else s1).still = s1.still := by
    split
    · exact State.ppsRelease_still _ _
    · rfl
  have k (c : Bool) : (if c then { s with freeSeq := s.freeSeq + 1 } else s : State).still = s.still := by split <;> rfl
  exact (State.modSector_still _ _ _).trans ((h _ _).trans (k _))
@[simp] theorem State.followPps_still (s : State) (q : Fin 4) : (s.followPps q).still = s.still := by
  unfold State.followPps
  split
  · rw [State.modSector_still]
    exact foldl_still _ (fun _ _ => State.modMoor_still _ _ _) _ _
  · rfl
@[simp] theorem State.followSector_still (s0 : State) (s : State) (q : Fin 4) : (s0.followSector s q).still = s.still := by
  unfold State.followSector; (try dsimp only); (repeat' split) <;> simp [foldl_still]
@[simp] theorem State.followPower_still (s0 : State) (s : State) : (s0.followPower s).still = s.still := by
  unfold State.followPower; (try dsimp only); (repeat' split) <;> simp [foldl_still]
@[simp] theorem State.finishPort_still (s : State) (n : Fin 16) (outcome : Nat) : (s.finishPort n outcome).still = s.still := by
  unfold State.finishPort; (try dsimp only); (repeat' split) <;> simp [foldl_still]
@[simp] theorem State.followPort_still (s : State) (n : Fin 16) : (s.followPort n).still = s.still := by
  unfold State.followPort; (try dsimp only); (repeat' split) <;> simp [foldl_still]
@[simp] theorem State.countPort_still (s0 : State) (s : State) (n : Fin 16) : (s0.countPort s n).still = s.still := by
  unfold State.countPort; (try dsimp only); (repeat' split) <;> simp [foldl_still]
@[simp] theorem State.rejectLost_still (s : State) (f : Func) (ring : Fin 65) (fuel : Nat) : (s.rejectLost f ring fuel).still = s.still := by
  induction fuel generalizing s with
  | zero => rfl
  | succ n ih => unfold State.rejectLost; (repeat' split) <;> simp [ih]
@[simp] theorem State.ownershipEvents_still (s : State) (moves : List (Func × DWord × DWord)) : (s.ownershipEvents moves).still = s.still := by
  unfold State.ownershipEvents; (try dsimp only); (repeat' split) <;> simp [foldl_still]
@[simp] theorem State.modReq_still (s : State) (r : Requester) (g : ReqState → ReqState) : (s.modReq r g).still = s.still := rfl
@[simp] theorem State.modBuoy_still (s : State) (b : Fin 15) (g : BuoyState → BuoyState) : (s.modBuoy b g).still = s.still := rfl
@[simp] theorem State.modMigr_still (s : State) (b : Fin 15) (g : BuoyMig → BuoyMig) : (s.modMigr b g).still = s.still := rfl
@[simp] theorem State.resetSlot_still (s : State) (i : Fin 32) : (s.resetSlot i).still = s.still := rfl
@[simp] theorem State.modMbox_still (s : State) (b : Fin 15) (g : Mailbox → Mailbox) : (s.modMbox b g).still = s.still := rfl
@[simp] theorem State.resetMailboxes_still (s : State) (f : Func) : (s.resetMailboxes f).still = s.still := by
  unfold State.resetMailboxes; split <;> rfl
@[simp] theorem State.dropLampsOf_still (s : State) (f : Func) : (s.dropLampsOf f).still = s.still := rfl
@[simp] theorem State.dropCommandsOf_still (s : State) (f : Func) : (s.dropCommandsOf f).still = s.still := rfl
@[simp] theorem State.unfreezeByReset_still (s : State) (b : Fin 15) : (s.unfreezeByReset b).still = s.still := by
  unfold State.unfreezeByReset; (try dsimp only); (repeat' split) <;> simp
@[simp] theorem State.forgetBuoy_still (s : State) (b : Fin 15) : (s.forgetRequester (Func.buoy b).requester).still = s.still := rfl
@[simp] theorem State.resetBuoy_still (s : State) (b : Fin 15) : (s.resetFunction (.buoy b)).still = s.still := by
  simp only [State.resetFunction, State.unfreezeByReset_still, State.forgetBuoy_still, State.dropLampsOf_still,
    State.resetMailboxes_still]
  split <;> rfl
@[simp] theorem State.slotEvent_still (s : State) (l : Link) (b : Fin 15) : (s.slotEvent l b).still = s.still := by
  simp [State.slotEvent]
@[simp] theorem State.finishRelease_still (s : State) (b : Fin 15) : (s.finishRelease b).still = s.still := by
  simp [State.finishRelease, State.slotEvents]
@[simp] theorem State.followSink_still (s : State) : s.followSink.still = s.still := rfl
@[simp] theorem State.followAddress_still (s : State) (fa : Fin 4) : (s.followAddress fa).still = s.still := by
  unfold State.followAddress; (try dsimp only); (repeat' split) <;> simp
@[simp] theorem State.finishAssign_still (s : State) : s.finishAssign.still = s.still := by
  unfold State.finishAssign; (try dsimp only); (repeat' split) <;> simp [foldl_still]
@[simp] theorem State.restateOwner_still (s : State) (n : Fin 16) : (s.restateOwner n).still = s.still := rfl
@[simp] theorem State.followOwners_still (s0 : State) (s : State) : (s0.followOwners s).still = s.still := by
  refine foldl_still _ (fun s n => ?_) _ _
  split <;> simp

/-- What every command ends with leaves these parts as following the pins left them. -/
@[simp] theorem State.after_still (s0 s : State) : (s0.after s).still = s.followPins.still := by
  simp [State.after, foldl_still]

@[simp] theorem State.after_sup (s0 s : State) : (s0.after s).sup = s.sup := congrArg Still.sup (s0.after_still s)
@[simp] theorem State.after_boot (s0 s : State) : (s0.after s).boot = s.boot := congrArg Still.boot (s0.after_still s)
@[simp] theorem State.after_upd (s0 s : State) : (s0.after s).upd = s.upd := congrArg Still.upd (s0.after_still s)
@[simp] theorem State.after_pins (s0 s : State) : (s0.after s).pins = s.pins := congrArg Still.pins (s0.after_still s)
@[simp] theorem State.after_clk (s0 s : State) : (s0.after s).clk = s.clk := congrArg Still.clk (s0.after_still s)
@[simp] theorem State.after_sealSet (s0 s : State) : (s0.after s).reg.sealSet = s.reg.sealSet :=
  congrArg (fun x : Still => x.reg.sealSet) (s0.after_still s)
@[simp] theorem State.after_refuse (s0 s : State) : (s0.after s).reg.refuse = s.reg.refuse :=
  congrArg (fun x : Still => x.reg.refuse) (s0.after_still s)
@[simp] theorem State.after_refuseLast (s0 s : State) : (s0.after s).reg.refuseLast = s.reg.refuseLast :=
  congrArg (fun x : Still => x.reg.refuseLast) (s0.after_still s)
@[simp] theorem State.after_day (s0 s : State) : (s0.after s).reg.day = s.reg.day :=
  congrArg (fun x : Still => x.reg.day) (s0.after_still s)
@[simp] theorem State.after_keyFault (s0 s : State) : (s0.after s).reg.keyFault = s.reg.keyFault :=
  congrArg (fun x : Still => x.reg.keyFault) (s0.after_still s)
@[simp] theorem State.after_count (s0 s : State) : (s0.after s).bcn.count = s.bcn.count :=
  congrArg (fun x : Still => x.bcn.count) (s0.after_still s)
@[simp] theorem State.after_rate (s0 s : State) : (s0.after s).bcn.rate = s.bcn.rate :=
  congrArg (fun x : Still => x.bcn.rate) (s0.after_still s)
@[simp] theorem State.after_frameOut (s0 s : State) : (s0.after s).bcn.frameOut = s.bcn.frameOut :=
  congrArg (fun x : Still => x.bcn.frameOut) (s0.after_still s)
@[simp] theorem State.after_overrun (s0 s : State) : (s0.after s).bcn.overrun = s.bcn.overrun :=
  congrArg (fun x : Still => x.bcn.overrun) (s0.after_still s)
@[simp] theorem State.after_kpr (s0 s : State) : (s0.after s).kpr = s.kpr := congrArg Still.kpr (s0.after_still s)
@[simp] theorem State.after_smbBusy (s0 s : State) : (s0.after s).smbBusy = s.smbBusy := congrArg Still.smbBusy (s0.after_still s)
@[simp] theorem State.after_pending (s0 s : State) : (s0.after s).pending = s.pending := congrArg Still.pending (s0.after_still s)
@[simp] theorem State.after_md (s0 s : State) : (s0.after s).md = s.followPins.md := congrArg Still.md (s0.after_still s)
@[simp] theorem State.after_mode (s0 s : State) : (s0.after s).mode = s.mode := by
  simp [State.mode, State.followPins]

end Sys2Proof.Machine
end

