-- ==== Sys2Proof/Laws/Store.lean ====
section
/-! SUPPORT. The canonical form of the Holding Store (log 3): association lists keep their rising order, and every
operation of the store keeps the form. -/

namespace Sys2Proof.Machine

/-- Rising order, in the form of the library. -/
theorem keysRise_iff (l : List Nat) : keysRise l = true ↔ l.Pairwise (· < ·) := by
  induction l with
  | nil => simp [keysRise]
  | cons a t ih =>
    cases t with
    | nil => simp [keysRise]
    | cons b r =>
      simp only [keysRise, Bool.and_eq_true, decide_eq_true_eq, ih, List.pairwise_cons, List.mem_cons]
      constructor
      · rintro ⟨h, hb, hr⟩
        exact ⟨fun x hx => hx.elim (fun e => e ▸ h) (fun m => Nat.lt_trans h (hb x m)), hb, hr⟩
      · rintro ⟨h, hb, hr⟩
        exact ⟨h b (.inl rfl), hb, hr⟩

theorem setInsert_mem (l : List Nat) (k x : Nat) : x ∈ setInsert l k ↔ x = k ∨ x ∈ l := by
  induction l with
  | nil => simp [setInsert]
  | cons a t ih => unfold setInsert; split <;> (try split) <;> simp_all <;> tauto

theorem setErase_sublist (l : List Nat) (k : Nat) : (setErase l k).Sublist l := by
  induction l with
  | nil => exact .slnil
  | cons a t ih =>
    unfold setErase
    split
    · exact List.sublist_cons_self a t
    · exact ih.cons_cons a

theorem setInsert_rises (l : List Nat) (k : Nat) (h : keysRise l = true) : keysRise (setInsert l k) = true := by
  rw [keysRise_iff] at h ⊢
  induction l with
  | nil => simp [setInsert]
  | cons a t ih =>
    obtain ⟨ha, ht⟩ := List.pairwise_cons.1 h
    unfold setInsert
    split
    · rename_i hk
      exact List.pairwise_cons.2 ⟨fun x hx => (List.mem_cons.1 hx).elim (fun e => e ▸ hk) (fun m => Nat.lt_trans hk (ha x m)), h⟩
    · split
      · exact h
      · refine List.pairwise_cons.2 ⟨fun x hx => ?_, ih ht⟩
        rcases (setInsert_mem t k x).1 hx with e | m
        · omega
        · exact ha x m

theorem setErase_rises (l : List Nat) (k : Nat) (h : keysRise l = true) : keysRise (setErase l k) = true :=
  (keysRise_iff _).2 (((keysRise_iff _).1 h).sublist (setErase_sublist l k))

theorem filter_rises (l : List Nat) (p : Nat → Bool) (h : keysRise l = true) : keysRise (l.filter p) = true :=
  (keysRise_iff _).2 (((keysRise_iff _).1 h).sublist List.filter_sublist)

theorem assocErase_sublist {α : Type} (l : List (Nat × α)) (k : Nat) : (assocErase l k).Sublist l := by
  induction l with
  | nil => exact .slnil
  | cons a t ih =>
    unfold assocErase
    split
    · exact List.sublist_cons_self _ t
    · exact ih.cons_cons _

theorem assocPut_keys {α : Type} (l : List (Nat × α)) (k : Nat) (v : α) :
    (assocPut l k v).map Prod.fst = setInsert (l.map Prod.fst) k := by
  induction l with
  | nil => rfl
  | cons a t ih => unfold assocPut; simp only [List.map_cons, setInsert]; split <;> (try split) <;> simp_all

theorem assocPut_mem {α : Type} (l : List (Nat × α)) (k : Nat) (v : α) (c : Nat × α) (h : c ∈ assocPut l k v) :
    c = (k, v) ∨ c ∈ l := by
  induction l with
  | nil => simpa [assocPut] using h
  | cons a t ih => unfold assocPut at h; split at h <;> (try split at h) <;> simp_all <;> tauto

/-- What a listed key reads after a write of a key. -/
theorem assocGet_assocPut {α : Type} (l : List (Nat × α)) (k a : Nat) (v : α) :
    assocGet (assocPut l k v) a = if a = k then some v else assocGet l a := by
  induction l with
  | nil => simp only [assocPut, assocGet, eq_comm]
  | cons x t ih =>
    unfold assocPut
    split
    · simp only [assocGet, eq_comm]
    · split
      · rename_i h; subst h; by_cases e : a = x.1
        · subst e; simp [assocGet]
        · simp [assocGet, e, Ne.symm e]
      · simp only [assocGet, ih]; split <;> simp_all; omega

theorem assocGet_none {α : Type} (l : List (Nat × α)) (k : Nat) (h : ∀ x ∈ l, x.1 ≠ k) : assocGet l k = none := by
  induction l with
  | nil => rfl
  | cons x t ih => unfold assocGet; rw [if_neg (h x (List.mem_cons_self ..)), ih (fun y hy => h y (List.mem_cons_of_mem _ hy))]

theorem assocGet_assocErase {α : Type} (l : List (Nat × α)) (k a : Nat) (h : keysRise (l.map Prod.fst) = true) :
    assocGet (assocErase l k) a = if a = k then none else assocGet l a := by
  rw [keysRise_iff] at h
  induction l with
  | nil => simp [assocErase, assocGet]
  | cons x t ih =>
    simp only [List.map_cons, List.pairwise_cons] at h
    unfold assocErase
    split
    · rename_i e
      split
      · rename_i ea
        refine assocGet_none t a (fun y hy => ?_)
        have := h.1 y.1 (List.mem_map_of_mem hy); omega
      · simp only [assocGet]; split
        · omega
        · rfl
    · simp only [assocGet, ih h.2]; split <;> simp_all

/-- The bytes after a write keep the canonical form. -/
theorem cellSet_wf (m : List Host.Cell) (a : Nat) (v : Byte) (h : cellsWf m = true) : cellsWf (cellSet m a v) = true := by
  simp only [cellsWf, Bool.and_eq_true, List.all_eq_true, decide_eq_true_eq] at h ⊢
  unfold cellSet
  split
  · exact ⟨(keysRise_iff _).2 (((keysRise_iff _).1 h.1).sublist ((assocErase_sublist m a).map _)),
      fun c hc => h.2 c ((assocErase_sublist m a).subset hc)⟩
  · refine ⟨by rw [assocPut_keys]; exact setInsert_rises _ _ h.1, fun c hc => ?_⟩
    rcases assocPut_mem m a v c hc with e | m
    · subst e; assumption
    · exact h.2 c m

/-- A write of one byte and a read of one: the written byte at its address, every other as before. -/
theorem cellGet_cellSet (m : List Host.Cell) (a b : Nat) (v : Byte) (h : cellsWf m = true) :
    cellGet (cellSet m a v) b = if b = a then v else cellGet m b := by
  simp only [cellsWf, Bool.and_eq_true] at h
  by_cases hv : v = 0
  · simp only [cellGet, cellSet, if_pos hv, assocGet_assocErase m a b h.1]
    by_cases e : b = a <;> simp [e, hv]
  · simp only [cellGet, cellSet, if_neg hv, assocGet_assocPut]
    by_cases e : b = a <;> simp [e]

@[simp] theorem setArrayByte_wf (h : HoldingStore) (row i : Nat) (b : RowByte) (w : h.wf = true) : (h.setArrayByte row i b).wf = true := by
  simp only [HoldingStore.wf, HoldingStore.setArrayByte, Bool.and_eq_true] at w ⊢
  refine ⟨cellSet_wf _ _ _ w.1, ?_⟩
  split
  · exact setInsert_rises _ _ w.2
  · exact setErase_rises _ _ w.2

/-- A fold of operations that keep a form keeps it. -/
theorem foldl_wf {α : Type} (f : HoldingStore → α → HoldingStore) (hf : ∀ h x, h.wf = true → (f h x).wf = true) (l : List α)
    (h : HoldingStore) (w : h.wf = true) : (l.foldl f h).wf = true := by
  induction l generalizing h with
  | nil => exact w
  | cons a t ih => exact ih _ (hf h a w)

/-- A store whose bytes are those of another is as canonical as it. -/
theorem wf_of_cells {h g : HoldingStore} (c : g.cells = h.cells) (r : g.wrong = h.wrong) (w : h.wf = true) : g.wf = true := by
  simp only [HoldingStore.wf] at w ⊢; rw [c, r]; exact w

@[simp] theorem putRow_wf (h : HoldingStore) (row : Nat) (bs : List RowByte) (w : h.wf = true) : (h.putRow row bs).wf = true := by
  unfold HoldingStore.putRow
  split
  · exact wf_of_cells rfl rfl w
  · exact foldl_wf _ (fun h i w => setArrayByte_wf h row i _ w) _ _ w

@[simp] theorem retire_wf (h : HoldingStore) (source row : Nat) (bs : List RowByte) (w : h.wf = true) : (h.retire source row bs).wf = true := by
  have w1 : ∀ x : Option (Fin 8), (match x with
      | some e => { h with changer := h.changer.set e { h.changer[e] with spent := true } }
      | none => h : HoldingStore).wf = true := by
    intro x; cases x <;> exact wf_of_cells rfl rfl w
  unfold HoldingStore.retire
  simp only
  split
  · exact wf_of_cells rfl rfl (w1 _)
  · exact wf_of_cells rfl rfl (putRow_wf _ _ _ (w1 _))

@[simp] theorem readRow_wf (h : HoldingStore) (source row : Nat) (w : h.wf = true) : (h.readRow source row).2.wf = true := by
  unfold HoldingStore.readRow
  simp only
  split
  · exact retire_wf _ _ _ _ w
  · exact w

@[simp] theorem accessRow_wf (h : HoldingStore) (source row k0 n : Nat) (w : h.wf = true) : (h.accessRow source row k0 n).2.wf = true := by
  unfold HoldingStore.accessRow
  simp only
  split
  · exact wf_of_cells rfl rfl (readRow_wf h source row w)
  · exact readRow_wf h source row w

@[simp] theorem readWord_wf (h : HoldingStore) (source x : Nat) (w : h.wf = true) : (h.readWord source x).2.2.wf = true := by
  have := accessRow_wf h source (x / 4) (x % 4) 1 w
  unfold HoldingStore.readWord
  simp only
  split <;> exact this

@[simp] theorem readRun_wf (fuel : Nat) (h : HoldingStore) (source x n : Nat) (w : h.wf = true) : (h.readRun source x n fuel).2.wf = true := by
  induction fuel generalizing h x n with
  | zero => exact w
  | succ k ih =>
    unfold HoldingStore.readRun
    split
    · exact w
    · exact ih _ _ _ (accessRow_wf h source _ _ _ w)

@[simp] theorem readWords_wf (h : HoldingStore) (source x n : Nat) (w : h.wf = true) : (h.readWords source x n).2.wf = true :=
  readRun_wf _ h source x n w

@[simp] theorem readBytes_wf (h : HoldingStore) (source a n : Nat) (w : h.wf = true) : (h.readBytes source a n).2.wf = true :=
  readWords_wf h source _ _ w

@[simp] theorem drainPart_wf (h : HoldingStore) (e : MergeEntry) (w : h.wf = true) : (h.drainPart e).wf = true := by
  unfold HoldingStore.drainPart
  dsimp only
  apply putRow_wf
  split
  · exact wf_of_cells rfl rfl (readRow_wf h 0x1A e.row w)
  · exact readRow_wf h 0x1A e.row w

@[simp] theorem drain_wf (h : HoldingStore) (e : MergeEntry) (w : h.wf = true) : (h.drain e).wf = true := by
  have w1 : (if e.held.any (fun b => b.upset) then
      { h with merge := h.merge.filter (fun x => x.row != e.row), fault := h.fault.bump, faultLast := faultRecord false false 0x1A e.row }
    else { h with merge := h.merge.filter (fun x => x.row != e.row) } : HoldingStore).wf = true := by
    split <;> exact wf_of_cells rfl rfl w
  unfold HoldingStore.drain
  simp only
  split
  · exact putRow_wf _ _ _ w1
  · exact drainPart_wf _ _ w1

@[simp] theorem drainAll_wf (h : HoldingStore) (w : h.wf = true) : h.drainAll.wf = true :=
  foldl_wf _ (fun h e w => drain_wf h e w) _ _ w

@[simp] theorem writeRow_wf (h : HoldingStore) (row : Nat) (bs : List MergeByte) (w : h.wf = true) : (h.writeRow row bs).wf = true := by
  unfold HoldingStore.writeRow
  simp only
  split
  · exact putRow_wf _ _ _ (wf_of_cells rfl rfl w)
  · split
    · split
      · exact drain_wf _ _ (wf_of_cells rfl rfl w)
      · exact wf_of_cells rfl rfl w
    · split
      · exact wf_of_cells rfl rfl w
      · split
        · exact wf_of_cells rfl rfl (drain_wf _ _ w)
        · exact wf_of_cells rfl rfl w

@[simp] theorem writeRun_wf (fuel : Nat) (h : HoldingStore) (a : Nat) (bs : List (Byte × Bool)) (w : h.wf = true) :
    (h.writeRun a bs fuel).wf = true := by
  induction fuel generalizing h a bs with
  | zero => exact w
  | succ k ih =>
    unfold HoldingStore.writeRun
    split
    · exact w
    · exact ih _ _ _ (writeRow_wf h _ _ w)

@[simp] theorem writeBytes_wf (h : HoldingStore) (a : Nat) (bs : List (Byte × Bool)) (w : h.wf = true) : (h.writeBytes a bs).wf = true :=
  writeRun_wf _ h a bs w

@[simp] theorem writeWords_wf (h : HoldingStore) (x : Nat) (ws : List (Half × Bool)) (w : h.wf = true) : (h.writeWords x ws).wf = true :=
  writeBytes_wf h _ _ w

@[simp] theorem clearBank_wf (h : HoldingStore) (bank : Nat) (w : h.wf = true) : (h.clearBank bank).wf = true := by
  simp only [HoldingStore.wf, HoldingStore.clearBank, cellsWf, Bool.and_eq_true, List.all_eq_true] at w ⊢
  refine ⟨⟨?_, fun c hc => w.1.2 c (List.mem_of_mem_filter hc)⟩, filter_rises _ _ w.2⟩
  exact (keysRise_iff _).2 (((keysRise_iff _).1 w.1.1).sublist (List.filter_sublist.map _))

@[simp] theorem clearChanger_wf (h : HoldingStore) (w : h.wf = true) : h.clearChanger.wf = true := wf_of_cells rfl rfl w

@[simp] theorem flipArray_wf (h : HoldingStore) (x bit : Nat) (w : h.wf = true) : (h.flipArray x bit).wf = true := setArrayByte_wf _ _ _ _ w

@[simp] theorem flipSpare_wf (h : HoldingStore) (e : Fin 8) (i bit : Nat) (w : h.wf = true) : (h.flipSpare e i bit).wf = true := wf_of_cells rfl rfl w

@[simp] theorem flipStored_wf (h : HoldingStore) (x bit : Nat) (w : h.wf = true) : (h.flipStored x bit).wf = true := by
  unfold HoldingStore.flipStored
  split
  · exact flipSpare_wf _ _ _ _ w
  · exact flipArray_wf _ _ _ w

@[simp] theorem flipMerge_wf (h : HoldingStore) (row i bit : Nat) (w : h.wf = true) : (h.flipMerge row i bit).wf = true := wf_of_cells rfl rfl w

@[simp] theorem scrubRow_wf (h : HoldingStore) (w : h.wf = true) : h.scrubRow.wf = true := by
  unfold HoldingStore.scrubRow
  simp only
  split
  · exact w
  · split
    · exact wf_of_cells rfl rfl (retire_wf _ _ _ _ w)
    · exact wf_of_cells rfl rfl w

end Sys2Proof.Machine
end

