-- ==== Sys2Proof/Laws/Keep.lean ====
section
/-! SUPPORT. What every operation keeps: the waiting commands, and the canonical form of the Holding Store (log 3). -/

namespace Sys2Proof.Machine

/-- A state whose queue is `q` and whose Holding Store, under the condition `b`, is in its canonical form. -/
def Keeps (q : List Instr) (b : Prop) (s : State) : Prop := s.pending = q ∧ (b → s.hst.wf = true)

@[simp] theorem keeps_ite {q b} {c : Prop} [Decidable c] (x y : State)
    : Keeps q b (if c then x else y) = if c then Keeps q b x else Keeps q b y := by split <;> rfl

@[simp] theorem keeps_ite2 {q b} {α : Type} {c : Prop} [Decidable c] (x y : α × State)
    : Keeps q b (if c then x else y).2 = if c then Keeps q b x.2 else Keeps q b y.2 := by split <;> rfl

@[simp] theorem keeps_ite1 {q b} {α : Type} {c : Prop} [Decidable c] (x y : State × α)
    : Keeps q b (if c then x else y).1 = if c then Keeps q b x.1 else Keeps q b y.1 := by split <;> rfl

theorem keeps_mk_iff {q b} (s : State) (sup md boot upd pins clk reg lnk rng bcn fwy ccp pwr lan tnd kpr mig evt smbBusy out freeSeq) :
  Keeps q b (State.mk sup md boot upd pins clk reg lnk rng bcn fwy ccp pwr lan tnd kpr s.hst mig evt smbBusy out freeSeq s.pending) = Keeps q b s := rfl

/-- The same of the state in the end of a command. -/
def CmdEnd.Keeps (q : List Instr) (b : Prop) (c : CmdEnd) : Prop :=
  match c with | .done s _ _ _ => Machine.Keeps q b s | .started s => Machine.Keeps q b s | .parked s => Machine.Keeps q b s

/-- The same of the state in the end of a keeper instruction. -/
def KEnd.Keeps (q : List Instr) (b : Prop) (c : KEnd) : Prop :=
  match c with | .next s => Machine.Keeps q b s | .jump s _ => Machine.Keeps q b s | .trap _ _ s => Machine.Keeps q b s | .wait => True | .ended s => Machine.Keeps q b s

/-- The same of the state in the end of an instruction fetch. -/
def Fetched.Keeps (q : List Instr) (b : Prop) (c : Fetched) : Prop :=
  match c with | .word _ s => Machine.Keeps q b s | .trap _ s => Machine.Keeps q b s | .upset s => Machine.Keeps q b s

/-- The same of the state in the answer to an IBP request. -/
def IbpAnswer.Keeps (q : List Instr) (b : Prop) (c : IbpAnswer) : Prop := Machine.Keeps q b c.after

@[simp] theorem CmdEnd.keeps_done {q b} (s : State) (a x y) : (CmdEnd.done s a x y).Keeps q b = Machine.Keeps q b s := rfl

@[simp] theorem CmdEnd.keeps_started {q b} (s : State) : (CmdEnd.started s).Keeps q b = Machine.Keeps q b s := rfl

@[simp] theorem CmdEnd.keeps_parked {q b} (s : State) : (CmdEnd.parked s).Keeps q b = Machine.Keeps q b s := rfl

@[simp] theorem CmdEnd.keeps_ite {q b} {c : Prop} [Decidable c] (x y : CmdEnd)
    : CmdEnd.Keeps q b (if c then x else y) = if c then x.Keeps q b else y.Keeps q b := by split <;> rfl

@[simp] theorem KEnd.keeps_next {q b} (s : State) : (KEnd.next s).Keeps q b = Machine.Keeps q b s := rfl

@[simp] theorem KEnd.keeps_jump {q b} (s : State) (p) : (KEnd.jump s p).Keeps q b = Machine.Keeps q b s := rfl

@[simp] theorem KEnd.keeps_trap {q b} (s : State) (c a) : (KEnd.trap c a s).Keeps q b = Machine.Keeps q b s := rfl

@[simp] theorem KEnd.keeps_ended {q b} (s : State) : (KEnd.ended s).Keeps q b = Machine.Keeps q b s := rfl

@[simp] theorem KEnd.keeps_wait {q b} : (KEnd.wait).Keeps q b = True := rfl

@[simp] theorem KEnd.keeps_ite {q b} {c : Prop} [Decidable c] (x y : KEnd)
    : KEnd.Keeps q b (if c then x else y) = if c then x.Keeps q b else y.Keeps q b := by split <;> rfl

@[simp] theorem Fetched.keeps_word {q b} (s : State) (w) : (Fetched.word w s).Keeps q b = Machine.Keeps q b s := rfl

@[simp] theorem Fetched.keeps_trap {q b} (s : State) (w) : (Fetched.trap w s).Keeps q b = Machine.Keeps q b s := rfl

@[simp] theorem Fetched.keeps_upset {q b} (s : State) : (Fetched.upset s).Keeps q b = Machine.Keeps q b s := rfl

@[simp] theorem IbpAnswer.keeps_mk {q b} (s : State) (a p d) : (IbpAnswer.mk a p d s).Keeps q b = Machine.Keeps q b s := rfl

@[simp] theorem IbpAnswer.keeps_ite {q b} {c : Prop} [Decidable c] (x y : IbpAnswer)
    : IbpAnswer.Keeps q b (if c then x else y) = if c then x.Keeps q b else y.Keeps q b := by split <;> rfl

theorem foldl_keeps {q b} {α : Type} (f : State → α → State) (l : List α) (s : State) (hf : ∀ s x, Keeps q b s → Keeps q b (f s x))
    (h : Keeps q b s) : Keeps q b (l.foldl f s) := by
  induction l generalizing s with
  | nil => exact h
  | cons a t ih => exact ih _ (hf s a h)

@[simp] theorem keeps_mk {q b} (s : State) (h : Keeps q b s)
    (sup md boot upd pins clk reg lnk rng bcn fwy ccp pwr lan tnd kpr mig evt smbBusy out freeSeq) :
  Keeps q b (State.mk sup md boot upd pins clk reg lnk rng bcn fwy ccp pwr lan tnd kpr s.hst mig evt smbBusy out freeSeq s.pending) := h

@[simp] theorem keeps_mk2 {q b} (s : State) (hs : HoldingStore) (h : Keeps q b s) (w : s.hst.wf = true → hs.wf = true)
    (sup md boot upd pins clk reg lnk rng bcn fwy ccp pwr lan tnd kpr mig evt smbBusy out freeSeq) :
  Keeps q b (State.mk sup md boot upd pins clk reg lnk rng bcn fwy ccp pwr lan tnd kpr hs mig evt smbBusy out freeSeq s.pending) := ⟨h.1, fun x => w (h.2 x)⟩

theorem CmdEnd.done_keeps {q b} {s : State} {a x y} (h : Machine.Keeps q b s) : (CmdEnd.done s a x y).Keeps q b := h

theorem CmdEnd.started_keeps {q b} {s : State} (h : Machine.Keeps q b s) : (CmdEnd.started s).Keeps q b := h

theorem CmdEnd.parked_keeps {q b} {s : State} (h : Machine.Keeps q b s) : (CmdEnd.parked s).Keeps q b := h

theorem CmdEnd.of_done {q b} {c : CmdEnd} {s : State} {a x y} (e : c = .done s a x y) (h : c.Keeps q b) : Machine.Keeps q b s := by
  rw [e] at h; exact h

theorem CmdEnd.of_started {q b} {c : CmdEnd} {s : State} (e : c = .started s) (h : c.Keeps q b) : Machine.Keeps q b s := by
  rw [e] at h; exact h

theorem CmdEnd.of_parked {q b} {c : CmdEnd} {s : State} (e : c = .parked s) (h : c.Keeps q b) : Machine.Keeps q b s := by
  rw [e] at h; exact h

theorem KEnd.next_keeps {q b} {s : State} (h : Machine.Keeps q b s) : (KEnd.next s).Keeps q b := h

theorem KEnd.jump_keeps {q b} {s : State} {p} (h : Machine.Keeps q b s) : (KEnd.jump s p).Keeps q b := h

theorem KEnd.trap_keeps {q b} {s : State} {c a} (h : Machine.Keeps q b s) : (KEnd.trap c a s).Keeps q b := h

theorem KEnd.ended_keeps {q b} {s : State} (h : Machine.Keeps q b s) : (KEnd.ended s).Keeps q b := h

theorem KEnd.wait_keeps {q b} : (KEnd.wait).Keeps q b := trivial

theorem Fetched.word_keeps {q b} {s : State} {w} (h : Machine.Keeps q b s) : (Fetched.word w s).Keeps q b := h

theorem Fetched.trap_keeps {q b} {s : State} {w} (h : Machine.Keeps q b s) : (Fetched.trap w s).Keeps q b := h

theorem Fetched.upset_keeps {q b} {s : State} (h : Machine.Keeps q b s) : (Fetched.upset s).Keeps q b := h

theorem IbpAnswer.mk_keeps {q b} {s : State} {a p d} (h : Machine.Keeps q b s) : (IbpAnswer.mk a p d s).Keeps q b := h

theorem foldl_snd_wf {α β : Type} (f : β × HoldingStore → α → β × HoldingStore) (hf : ∀ a x, a.2.wf = true → (f a x).2.wf = true)
    (l : List α)
    (a : β × HoldingStore) (h : a.2.wf = true) : (l.foldl f a).2.wf = true := by
  induction l generalizing a with
  | nil => exact h
  | cons x t ih => exact ih _ (hf a x h)

theorem foldl_fst_keeps {q b} {α β : Type} (f : State × β → α → State × β) (l : List α) (a : State × β)
    (hf : ∀ a x, Keeps q b a.1 → Keeps q b (f a x).1) (h : Keeps q b a.1) : Keeps q b (l.foldl f a).1 := by
  induction l generalizing a with
  | nil => exact h
  | cons x t ih => exact ih _ (hf a x h)

theorem foldl_snd_keeps {q b} {α β : Type} (f : β × State → α → β × State) (l : List α) (a : β × State)
    (hf : ∀ a x, Keeps q b a.2 → Keeps q b (f a x).2) (h : Keeps q b a.2) : Keeps q b (l.foldl f a).2 := by
  induction l generalizing a with
  | nil => exact h
  | cons x t ih => exact ih _ (hf a x h)

/-- The same of a state and another store. -/
def KeepsH (q : List Instr) (b : Prop) (s : State) (h : HoldingStore) : Prop := s.pending = q ∧ (b → h.wf = true)

theorem keeps_hst_eq {q b} (s : State) (h : HoldingStore)
    (sup md boot upd pins clk reg lnk rng bcn fwy ccp pwr lan tnd kpr mig evt smbBusy out freeSeq) :
  Keeps q b (State.mk sup md boot upd pins clk reg lnk rng bcn fwy ccp pwr lan tnd kpr h mig evt smbBusy out freeSeq s.pending) = KeepsH q b s h := rfl

theorem KeepsH.of {q b} {s : State} {h : HoldingStore} (k : Keeps q b s) (w : s.hst.wf = true → h.wf = true)
    : KeepsH q b s h := ⟨k.1, fun x => w (k.2 x)⟩

theorem of_pair1 {q b} {α : Type} {x : State × α} {s : State} {y : α} (e : x = (s, y)) (h : Keeps q b x.1)
    : Keeps q b s := by rw [e] at h; exact h

theorem of_pair2 {q b} {α : Type} {x : α × State} {s : State} {y : α} (e : x = (y, s)) (h : Keeps q b x.2)
    : Keeps q b s := by rw [e] at h; exact h

theorem ibpOk_keeps {q b} {s : State} {d} (h : Keeps q b s) : (ibpOk s d).Keeps q b := h

theorem ibpNo_keeps {q b} {s : State} {d} (h : Keeps q b s) : (ibpNo s d).Keeps q b := h

@[simp] theorem loadBytes_wf (h : HoldingStore) (d : Nat) (bs : List Byte) (w : h.wf = true)
    : (h.loadBytes d bs).wf = true := writeBytes_wf _ _ _ w

@[simp] theorem readBack_wf (h : HoldingStore) (d n : Nat) (w : h.wf = true) : (h.readBack d n).2.wf = true := readWords_wf _ _ _ _ w

theorem keeps_if {q b} {c : Prop} [Decidable c] {x y : State} (hx : c → Keeps q b x) (hy : ¬c → Keeps q b y)
    : Keeps q b (if c then x else y) := by
  split <;> simp_all

theorem keeps_dif {q b} {c : Prop} [Decidable c] {x : c → State} {y : ¬c → State} (hx : ∀ h, Keeps q b (x h)) (hy : ∀ h, Keeps q b (y h)) :
    Keeps q b (if h : c then x h else y h) := by
  split
  · exact hx _
  · exact hy _

theorem CmdEnd.keeps_if {q b} {c : Prop} [Decidable c] {x y : CmdEnd} (hx : c → x.Keeps q b) (hy : ¬c → y.Keeps q b)
    : CmdEnd.Keeps q b (if c then x else y) := by
  split <;> simp_all

theorem KEnd.keeps_if {q b} {c : Prop} [Decidable c] {x y : KEnd} (hx : c → x.Keeps q b) (hy : ¬c → y.Keeps q b)
    : KEnd.Keeps q b (if c then x else y) := by
  split <;> simp_all

@[simp] theorem ibpOk_after (s : State) (d) : (ibpOk s d).after = s := rfl

@[simp] theorem ibpNo_after (s : State) (d) : (ibpNo s d).after = s := rfl

theorem IbpAnswer.keeps_if {q b} {c : Prop} [Decidable c] {x y : IbpAnswer} (hx : c → x.Keeps q b) (hy : ¬c → y.Keeps q b)
    : IbpAnswer.Keeps q b (if c then x else y) := by
  split <;> simp_all

/-- The same of the next state of an outcome. -/
def OutKeeps (q : List Instr) (b : Prop) (o : Host.Outcome State Fault Refusal) : Prop := match o with | .next s => Keeps q b s | _ => True

theorem OutKeeps.next {q b} {s : State} (h : Keeps q b s) : OutKeeps q b (.next s) := h

theorem OutKeeps.keeps_if {q b} {c : Prop} [Decidable c] {x y : Host.Outcome State Fault Refusal} (hx : c → OutKeeps q b x)
    (hy : ¬c → OutKeeps q b y) : OutKeeps q b (if c then x else y) := by
  split <;> simp_all
end Sys2Proof.Machine
end

