-- ==== Sys2Proof/Laws/KeepOps.lean ====
section
/-! SUPPORT. `Keeps`: what the operations of the shared operations keep. -/

namespace Sys2Proof.Machine

@[simp] theorem State.emit_keeps {qq : List Instr} {bb : Prop} (s : State) (o : Output) (h_s : Keeps qq bb s)
    : Keeps qq bb (State.emit s o) := by
  unfold State.emit
  try dsimp only
  repeat' first | with_reducible assumption | with_reducible apply keeps_if | with_reducible apply h_s | simp only [keeps_mk_iff] | split
                | intro

@[simp] theorem State.emitAll_keeps {qq : List Instr} {bb : Prop} (s : State) (os : List Output) (h_s : Keeps qq bb s)
    : Keeps qq bb (State.emitAll s os) := by
  unfold State.emitAll
  try dsimp only
  repeat' first | with_reducible assumption | with_reducible apply keeps_if | with_reducible apply h_s | simp only [keeps_mk_iff] | split
                | intro

@[simp] theorem State.freeDWord_keeps {qq : List Instr} {bb : Prop} (s : State) (h_s : Keeps qq bb s)
    : Keeps qq bb (State.freeDWord s).2 := by
  unfold State.freeDWord
  try dsimp only
  repeat' first | with_reducible assumption | with_reducible apply keeps_if | with_reducible apply h_s | simp only [keeps_mk_iff] | split
                | intro

@[simp] theorem State.freeHalf_keeps {qq : List Instr} {bb : Prop} (s : State) (h_s : Keeps qq bb s)
    : Keeps qq bb (State.freeHalf s).2 := by
  unfold State.freeHalf
  try dsimp only
  repeat' first | with_reducible assumption | with_reducible apply keeps_if | with_reducible apply h_s | simp only [keeps_mk_iff] | split
                | intro

@[simp] theorem State.freeBit_keeps {qq : List Instr} {bb : Prop} (s : State) (h_s : Keeps qq bb s) : Keeps qq bb (State.freeBit s).2 := by
  unfold State.freeBit
  try dsimp only
  repeat' first | with_reducible assumption | with_reducible apply keeps_if | with_reducible apply h_s | simp only [keeps_mk_iff] | split
                | intro

@[simp] theorem State.freeHeader_keeps {qq : List Instr} {bb : Prop} (s : State) (h_s : Keeps qq bb s)
    : Keeps qq bb (State.freeHeader s).2 := by
  unfold State.freeHeader
  try dsimp only
  repeat' first | with_reducible assumption | with_reducible apply keeps_if | with_reducible apply h_s
                | with_reducible apply State.freeDWord_keeps | simp only [keeps_mk_iff] | split | intro

@[simp] theorem State.modFn_keeps {qq : List Instr} {bb : Prop} (s : State) (f : Func) (g : FuncState → FuncState) (h_s : Keeps qq bb s)
    : Keeps qq bb (State.modFn s f g) := by
  unfold State.modFn
  try dsimp only
  repeat' first | with_reducible assumption | with_reducible apply keeps_if | with_reducible apply h_s | simp only [keeps_mk_iff] | split
                | intro

@[simp] theorem State.modRing_keeps {qq : List Instr} {bb : Prop} (s : State) (f : Func) (r : Fin 65) (g : Ring → Ring)
    (h_s : Keeps qq bb s) : Keeps qq bb (State.modRing s f r g) := by
  unfold State.modRing
  try dsimp only
  repeat' first | with_reducible assumption | with_reducible apply keeps_if | with_reducible apply h_s
                | with_reducible apply State.modFn_keeps | split | intro

@[simp] theorem State.modEvRing_keeps {qq : List Instr} {bb : Prop} (s : State) (f : Func) (n : Fin 4) (g : EventRing → EventRing)
    (h_s : Keeps qq bb s) : Keeps qq bb (State.modEvRing s f n g) := by
  unfold State.modEvRing
  try dsimp only
  repeat' first | with_reducible assumption | with_reducible apply keeps_if | with_reducible apply h_s
                | with_reducible apply State.modFn_keeps | split | intro

@[simp] theorem State.modLink_keeps {qq : List Instr} {bb : Prop} (s : State) (l : Link) (g : LinkState → LinkState) (h_s : Keeps qq bb s)
    : Keeps qq bb (State.modLink s l g) := by
  unfold State.modLink
  try dsimp only
  repeat' first | with_reducible assumption | with_reducible apply keeps_if | with_reducible apply h_s | simp only [keeps_mk_iff] | split
                | intro

@[simp] theorem State.linkError_keeps {qq : List Instr} {bb : Prop} (s : State) (l : Link) (e : LinkError) (h_s : Keeps qq bb s)
    : Keeps qq bb (State.linkError s l e) := by
  unfold State.linkError
  try dsimp only
  repeat' first | with_reducible assumption | with_reducible apply keeps_if | with_reducible apply h_s
                | with_reducible apply State.freeHeader_keeps | with_reducible apply State.modLink_keeps | split | intro

@[simp] theorem State.modMsix_keeps {qq : List Instr} {bb : Prop} (s : State) (i : Fin 32) (g : MsixTable → MsixTable)
    (h_s : Keeps qq bb s) : Keeps qq bb (State.modMsix s i g) := by
  unfold State.modMsix
  try dsimp only
  repeat' first | with_reducible assumption | with_reducible apply keeps_if | with_reducible apply h_s | simp only [keeps_mk_iff] | split
                | intro

@[simp] theorem State.strike_keeps {qq : List Instr} {bb : Prop} (s : State) (source : Nat) (w : Fin 0x100000) (bit : Fin 18)
    (h_s : Keeps qq bb s) : Keeps qq bb (State.strike s source w bit).2 :=
  ⟨h_s.1, fun hb => readWord_wf _ _ _ (flipStored_wf _ _ _ (h_s.2 hb))⟩

@[simp] theorem State.rewrite_keeps {qq : List Instr} {bb : Prop} (s : State) (ws : List Nat) (h_s : Keeps qq bb s)
    : Keeps qq bb (State.rewrite s ws) :=
  ⟨h_s.1, fun hb => foldl_wf _ (fun _ _ h => writeWords_wf _ _ _ h) _ _ (h_s.2 hb)⟩

@[simp] theorem State.modBuoy_keeps {qq : List Instr} {bb : Prop} (s : State) (b : Fin 15) (g : BuoyState → BuoyState)
    (h_s : Keeps qq bb s) : Keeps qq bb (State.modBuoy s b g) := by
  unfold State.modBuoy
  try dsimp only
  repeat' first | with_reducible assumption | with_reducible apply keeps_if | with_reducible apply h_s | simp only [keeps_mk_iff] | split
                | intro

@[simp] theorem State.modMigr_keeps {qq : List Instr} {bb : Prop} (s : State) (b : Fin 15) (g : BuoyMig → BuoyMig) (h_s : Keeps qq bb s)
    : Keeps qq bb (State.modMigr s b g) := by
  unfold State.modMigr
  try dsimp only
  repeat' first | with_reducible assumption | with_reducible apply keeps_if | with_reducible apply h_s | simp only [keeps_mk_iff] | split
                | intro

@[simp] theorem State.modLog_keeps {qq : List Instr} {bb : Prop} (s : State) (b : Fin 15) (g : Logbook → Logbook) (h_s : Keeps qq bb s)
    : Keeps qq bb (State.modLog s b g) := by
  unfold State.modLog
  try dsimp only
  repeat' first | with_reducible assumption | with_reducible apply keeps_if | with_reducible apply h_s | simp only [keeps_mk_iff] | split
                | intro

@[simp] theorem State.modPort_keeps {qq : List Instr} {bb : Prop} (s : State) (n : Fin 16) (g : Port → Port) (h_s : Keeps qq bb s)
    : Keeps qq bb (State.modPort s n g) := by
  unfold State.modPort
  try dsimp only
  repeat' first | with_reducible assumption | with_reducible apply keeps_if | with_reducible apply h_s | simp only [keeps_mk_iff] | split
                | intro

@[simp] theorem State.modFairway_keeps {qq : List Instr} {bb : Prop} (s : State) (f : Fin 4) (g : Fairway → Fairway) (h_s : Keeps qq bb s)
    : Keeps qq bb (State.modFairway s f g) := by
  unfold State.modFairway
  try dsimp only
  repeat' first | with_reducible assumption | with_reducible apply keeps_if | with_reducible apply h_s | simp only [keeps_mk_iff] | split
                | intro

@[simp] theorem State.modEng_keeps {qq : List Instr} {bb : Prop} (s : State) (e : Fin 17) (g : Engine → Engine) (h_s : Keeps qq bb s)
    : Keeps qq bb (State.modEng s e g) := by
  unfold State.modEng
  try dsimp only
  repeat' first | with_reducible assumption | with_reducible apply keeps_if | with_reducible apply h_s | simp only [keeps_mk_iff] | split
                | intro

@[simp] theorem State.modMoor_keeps {qq : List Instr} {bb : Prop} (s : State) (n : Fin 17) (g : Mooring → Mooring) (h_s : Keeps qq bb s)
    : Keeps qq bb (State.modMoor s n g) := by
  unfold State.modMoor
  try dsimp only
  repeat' first | with_reducible assumption | with_reducible apply keeps_if | with_reducible apply h_s | simp only [keeps_mk_iff] | split
                | intro

@[simp] theorem State.modSector_keeps {qq : List Instr} {bb : Prop} (s : State) (i : Fin 4) (g : Sector → Sector) (h_s : Keeps qq bb s)
    : Keeps qq bb (State.modSector s i g) := by
  unfold State.modSector
  try dsimp only
  repeat' first | with_reducible assumption | with_reducible apply keeps_if | with_reducible apply h_s | simp only [keeps_mk_iff] | split
                | intro

@[simp] theorem State.modKeeper_keeps {qq : List Instr} {bb : Prop} (s : State) (k : Fin 12) (g : Keeper → Keeper) (h_s : Keeps qq bb s)
    : Keeps qq bb (State.modKeeper s k g) := by
  unfold State.modKeeper
  try dsimp only
  repeat' first | with_reducible assumption | with_reducible apply keeps_if | with_reducible apply h_s | simp only [keeps_mk_iff] | split
                | intro

@[simp] theorem State.modReq_keeps {qq : List Instr} {bb : Prop} (s : State) (r : Requester) (g : ReqState → ReqState)
    (h_s : Keeps qq bb s) : Keeps qq bb (State.modReq s r g) := by
  unfold State.modReq
  try dsimp only
  repeat' first | with_reducible assumption | with_reducible apply keeps_if | with_reducible apply h_s | simp only [keeps_mk_iff] | split
                | intro

@[simp] theorem State.putDev_keeps {qq : List Instr} {bb : Prop} (s : State) (h : Nat) (d : DevRec) (h_s : Keeps qq bb s)
    : Keeps qq bb (State.putDev s h d) := by
  unfold State.putDev
  try dsimp only
  repeat' first | with_reducible assumption | with_reducible apply keeps_if | with_reducible apply h_s
                | with_reducible apply State.modFairway_keeps | split | intro

@[simp] theorem State.dropDev_keeps {qq : List Instr} {bb : Prop} (s : State) (h : Nat) (h_s : Keeps qq bb s)
    : Keeps qq bb (State.dropDev s h) := by
  unfold State.dropDev
  try dsimp only
  repeat' first | with_reducible assumption | with_reducible apply keeps_if | with_reducible apply h_s
                | with_reducible apply State.modFairway_keeps | split | intro

@[simp] theorem State.settle_keeps {qq : List Instr} {bb : Prop} (s : State) (h_s : Keeps qq bb s) : Keeps qq bb (State.settle s) := by
  unfold State.settle
  try dsimp only
  repeat' first | with_reducible assumption | with_reducible apply keeps_if | with_reducible apply h_s | with_reducible apply foldl_keeps
                | simp only [keeps_mk_iff] | split | intro

@[simp] theorem State.logWrite_keeps {qq : List Instr} {bb : Prop} (s : State) (f : Func) (a : Nat) (n : Nat) (h_s : Keeps qq bb s)
    : Keeps qq bb (State.logWrite s f a n) := by
  unfold State.logWrite
  try dsimp only
  repeat' first | with_reducible assumption | with_reducible apply keeps_if | with_reducible apply h_s
                | with_reducible apply State.modLog_keeps | split | intro

@[simp] theorem State.wakeLink_keeps {qq : List Instr} {bb : Prop} (s : State) (l : Link) (h_s : Keeps qq bb s)
    : Keeps qq bb (State.wakeLink s l) := by
  unfold State.wakeLink
  try dsimp only
  repeat' first | with_reducible assumption | with_reducible apply keeps_if | with_reducible apply h_s
                | with_reducible apply State.modLink_keeps | simp only [keeps_mk_iff] | split | intro

@[simp] theorem State.reportLtr_keeps {qq : List Instr} {bb : Prop} (s : State) (l : Link) (h_s : Keeps qq bb s)
    : Keeps qq bb (State.reportLtr s l) := by
  unfold State.reportLtr
  try dsimp only
  repeat' first | with_reducible assumption | with_reducible apply keeps_if | with_reducible apply h_s
                | with_reducible apply State.modLink_keeps | with_reducible apply State.emit_keeps
                | with_reducible apply State.wakeLink_keeps | split | intro

@[simp] theorem State.wakeFn_keeps {qq : List Instr} {bb : Prop} (s : State) (f : Func) (h_s : Keeps qq bb s)
    : Keeps qq bb (State.wakeFn s f) := by
  unfold State.wakeFn
  try dsimp only
  repeat' first | with_reducible assumption | with_reducible apply keeps_if | with_reducible apply h_s
                | with_reducible apply State.wakeLink_keeps | split | intro

@[simp] theorem State.issueWrite_keeps {qq : List Instr} {bb : Prop} (s : State) (f : Func) (addr : QWord) (bytes : List Byte)
    (poisoned : Bool) (h_s : Keeps qq bb s) : Keeps qq bb (State.issueWrite s f addr bytes poisoned) := by
  unfold State.issueWrite
  try dsimp only
  repeat' first | with_reducible assumption | with_reducible apply keeps_if | with_reducible apply h_s
                | with_reducible apply State.logWrite_keeps | with_reducible apply State.emit_keeps
                | with_reducible apply State.wakeFn_keeps | split | intro

@[simp] theorem State.writeData_keeps {qq : List Instr} {bb : Prop} (s : State) (f : Func) (a : QWord) (bs : List Byte) (p : Bool)
    (h_s : Keeps qq bb s) : Keeps qq bb (State.writeData s f a bs p) := by
  unfold State.writeData
  try dsimp only
  repeat' first | with_reducible assumption | with_reducible apply keeps_if | with_reducible apply h_s
                | with_reducible apply State.issueWrite_keeps | with_reducible apply State.modFn_keeps | split | intro

@[simp] theorem State.flushData_keeps {qq : List Instr} {bb : Prop} (s : State) (f : Func) (h_s : Keeps qq bb s)
    : Keeps qq bb (State.flushData s f) := by
  unfold State.flushData
  try dsimp only
  repeat' first | with_reducible assumption | with_reducible apply keeps_if | with_reducible apply h_s
                | with_reducible apply State.issueWrite_keeps | with_reducible apply State.modFn_keeps
                | with_reducible apply foldl_keeps | split | intro

@[simp] theorem State.ringFault_keeps {qq : List Instr} {bb : Prop} (s : State) (f : Func) (ring : Nat) (kind : Nat) (index : BitVec 16)
    (h_s : Keeps qq bb s) : Keeps qq bb (State.ringFault s f ring kind index) := by
  unfold State.ringFault
  try dsimp only
  repeat' first | with_reducible assumption | with_reducible apply keeps_if | with_reducible apply h_s
                | with_reducible apply State.modFn_keeps | split | intro

@[simp] theorem State.evFullUpdate_keeps {qq : List Instr} {bb : Prop} (s : State) (f : Func) (n : Fin 4) (h_s : Keeps qq bb s)
    : Keeps qq bb (State.evFullUpdate s f n) := by
  unfold State.evFullUpdate
  try dsimp only
  repeat' first | with_reducible assumption | with_reducible apply keeps_if | with_reducible apply h_s
                | with_reducible apply State.modEvRing_keeps | with_reducible apply State.ringFault_keeps | split | intro

@[simp] theorem State.sendNotify_keeps {qq : List Instr} {bb : Prop} (s : State) (n : Fin 4) (h_s : Keeps qq bb s)
    : Keeps qq bb (State.sendNotify s n) := by
  unfold State.sendNotify
  refine ⟨h_s.1, fun hb => ?_⟩
  apply foldl_snd_wf
  · intro a x w
    exact readBytes_wf _ _ _ _ w
  · exact h_s.2 hb

@[simp] theorem State.holdNotify_keeps {qq : List Instr} {bb : Prop} (s : State) (n : Fin 4) (h_s : Keeps qq bb s)
    : Keeps qq bb (State.holdNotify s n) := by
  unfold State.holdNotify
  try dsimp only
  repeat' first | with_reducible assumption | with_reducible apply keeps_if | with_reducible apply h_s
                | with_reducible apply State.freeBit_keeps | simp only [keeps_mk_iff] | split | intro

@[simp] theorem State.notifyDue_keeps {qq : List Instr} {bb : Prop} (s : State) (n : Fin 4) (h_s : Keeps qq bb s)
    : Keeps qq bb (State.notifyDue s n) := by
  unfold State.notifyDue
  try dsimp only
  repeat' first | with_reducible assumption | with_reducible apply keeps_if | with_reducible apply h_s
                | with_reducible apply State.holdNotify_keeps | with_reducible apply State.sendNotify_keeps | split | intro

@[simp] theorem State.disarmRing_keeps {qq : List Instr} {bb : Prop} (s : State) (f : Func) (n : Fin 4) (h_s : Keeps qq bb s)
    : Keeps qq bb (State.disarmRing s f n) := by
  unfold State.disarmRing
  try dsimp only
  repeat' first | with_reducible assumption | with_reducible apply keeps_if | with_reducible apply h_s
                | with_reducible apply State.modEvRing_keeps | simp only [keeps_mk_iff] | split | intro

@[simp] theorem State.sendMessage_keeps {qq : List Instr} {bb : Prop} (s : State) (f : Func) (n : Fin 4) (h_s : Keeps qq bb s)
    : Keeps qq bb (State.sendMessage s f n) := by
  unfold State.sendMessage
  try dsimp only
  repeat' first | with_reducible assumption | with_reducible apply keeps_if | with_reducible apply h_s
                | with_reducible apply State.notifyDue_keeps | with_reducible apply State.disarmRing_keeps
                | with_reducible apply State.modEvRing_keeps | with_reducible apply State.wakeFn_keeps
                | with_reducible apply State.emit_keeps | with_reducible apply State.logWrite_keeps | simp only [keeps_mk_iff] | split
                | intro

@[simp] theorem State.writeEvent_keeps {qq : List Instr} {bb : Prop} (s : State) (f : Func) (n : Fin 4) (e : EventEntry)
    (h_s : Keeps qq bb s) : Keeps qq bb (State.writeEvent s f n e) := by
  unfold State.writeEvent
  try dsimp only
  repeat' first | with_reducible assumption | with_reducible apply keeps_if | with_reducible apply h_s
                | with_reducible apply State.issueWrite_keeps | with_reducible apply State.modEvRing_keeps
                | with_reducible apply State.evFullUpdate_keeps | with_reducible apply State.sendMessage_keeps | simp only [keeps_mk_iff]
                | simp only [keeps_hst_eq] | with_reducible apply KeepsH.of | with_reducible apply writeBytes_wf
                | exact wf_of_cells rfl rfl ‹_› | split | intro

@[simp] theorem State.flushHeld_keeps {qq : List Instr} {bb : Prop} (s : State) (f : Func) (n : Fin 4) (u0 : Nat) (h_s : Keeps qq bb s)
    : Keeps qq bb (State.flushHeld s f n u0) := by
  induction u0 generalizing s with
  | zero => exact h_s
  | succ n ih =>
    unfold State.flushHeld
    try dsimp only
    repeat' first | with_reducible assumption | with_reducible apply keeps_if | with_reducible apply ih | with_reducible apply h_s
                  | with_reducible apply State.writeEvent_keeps | with_reducible apply State.modEvRing_keeps | split | intro

@[simp] theorem State.flushFn_keeps {qq : List Instr} {bb : Prop} (s : State) (f : Func) (h_s : Keeps qq bb s)
    : Keeps qq bb (State.flushFn s f) := by
  unfold State.flushFn
  try dsimp only
  repeat' first | with_reducible assumption | with_reducible apply keeps_if | with_reducible apply h_s
                | with_reducible apply State.flushHeld_keeps | with_reducible apply State.flushData_keeps | with_reducible apply foldl_keeps
                | split | intro

@[simp] theorem State.postEvent_keeps {qq : List Instr} {bb : Prop} (s : State) (f : Func) (n : Fin 4) (e : EventEntry)
    (h_s : Keeps qq bb s) : Keeps qq bb (State.postEvent s f n e) := by
  unfold State.postEvent
  try dsimp only
  repeat' first | with_reducible assumption | with_reducible apply keeps_if | with_reducible apply h_s
                | with_reducible apply State.writeEvent_keeps | with_reducible apply State.modEvRing_keeps | split | intro

@[simp] theorem State.postFnEvent_keeps {qq : List Instr} {bb : Prop} (s : State) (f : Func) (kind : Nat) (d0 : DWord) (d1 : DWord)
    (d2 : DWord) (h_s : Keeps qq bb s) : Keeps qq bb (State.postFnEvent s f kind d0 d1 d2) := by
  unfold State.postFnEvent
  try dsimp only
  repeat' first | with_reducible assumption | with_reducible apply keeps_if | with_reducible apply h_s
                | with_reducible apply State.postEvent_keeps | split | intro

@[simp] theorem State.deliver_keeps {qq : List Instr} {bb : Prop} (s : State) (f : Func) (ring : Nat) (e : Nat) (rises : Nat)
    (falls : Nat) (h_s : Keeps qq bb s) : Keeps qq bb (State.deliver s f ring e rises falls) := by
  unfold State.deliver
  try dsimp only
  repeat' first | with_reducible assumption | with_reducible apply keeps_if | with_reducible apply h_s
                | with_reducible apply State.postEvent_keeps | simp only [keeps_mk_iff] | split | intro

@[simp] theorem State.deliverSource_keeps {qq : List Instr} {bb : Prop} (s : State) (e : Nat) (h_s : Keeps qq bb s)
    : Keeps qq bb (State.deliverSource s e) := by
  unfold State.deliverSource
  try dsimp only
  repeat' first | with_reducible assumption | with_reducible apply keeps_if | with_reducible apply h_s
                | with_reducible apply State.deliver_keeps | with_reducible apply foldl_keeps | split | intro

@[simp] theorem State.deliverAll_keeps {qq : List Instr} {bb : Prop} (s : State) (h_s : Keeps qq bb s)
    : Keeps qq bb (State.deliverAll s) := by
  unfold State.deliverAll
  try dsimp only
  repeat' first | with_reducible assumption | with_reducible apply keeps_if | with_reducible apply h_s
                | with_reducible apply State.deliverSource_keeps | with_reducible apply foldl_keeps | simp only [keeps_mk_iff] | split
                | intro

@[simp] theorem State.restateSource_keeps {qq : List Instr} {bb : Prop} (s : State) (e : Nat) (h_s : Keeps qq bb s)
    : Keeps qq bb (State.restateSource s e) := by
  unfold State.restateSource
  try dsimp only
  repeat' first | with_reducible assumption | with_reducible apply keeps_if | with_reducible apply h_s | simp only [keeps_mk_iff] | split
                | intro

@[simp] theorem State.restateRing_keeps {qq : List Instr} {bb : Prop} (s : State) (f : Func) (n : Fin 4) (h_s : Keeps qq bb s)
    : Keeps qq bb (State.restateRing s f n) := by
  unfold State.restateRing
  try dsimp only
  repeat' first | with_reducible assumption | with_reducible apply keeps_if | with_reducible apply h_s | simp only [keeps_mk_iff] | split
                | intro

@[simp] theorem State.modTnd_keeps {qq : List Instr} {bb : Prop} (s : State) (g : Tender → Tender) (h_s : Keeps qq bb s)
    : Keeps qq bb (State.modTnd s g) := by
  unfold State.modTnd
  try dsimp only
  repeat' first | with_reducible assumption | with_reducible apply keeps_if | with_reducible apply h_s | simp only [keeps_mk_iff] | split
                | intro

@[simp] theorem State.tndFault_keeps {qq : List Instr} {bb : Prop} (s : State) (kind : Nat) (ctr : Nat) (src : Nat) (h_s : Keeps qq bb s)
    : Keeps qq bb (State.tndFault s kind ctr src) := by
  unfold State.tndFault
  try dsimp only
  repeat' first | with_reducible assumption | with_reducible apply keeps_if | with_reducible apply h_s
                | with_reducible apply State.modTnd_keeps | split | intro

@[simp] theorem State.modItem_keeps {qq : List Instr} {bb : Prop} (s : State) (i : Nat) (g : Item → Item) (h_s : Keeps qq bb s)
    : Keeps qq bb (State.modItem s i g) := by
  unfold State.modItem
  try dsimp only
  repeat' first | with_reducible assumption | with_reducible apply keeps_if | with_reducible apply h_s
                | with_reducible apply State.modTnd_keeps | split | intro

@[simp] theorem State.putCtr_keeps {qq : List Instr} {bb : Prop} (s : State) (c : Nat) (x : Counter) (h_s : Keeps qq bb s)
    : Keeps qq bb (State.putCtr s c x) := by
  unfold State.putCtr
  try dsimp only
  repeat' first | with_reducible assumption | with_reducible apply keeps_if | with_reducible apply h_s
                | with_reducible apply State.modTnd_keeps | split | intro

@[simp] theorem State.makeReady_keeps {qq : List Instr} {bb : Prop} (s : State) (i : Nat) (h_s : Keeps qq bb s)
    : Keeps qq bb (State.makeReady s i) := by
  unfold State.makeReady
  try dsimp only
  repeat' first | with_reducible assumption | with_reducible apply keeps_if | with_reducible apply h_s
                | with_reducible apply State.modItem_keeps | with_reducible apply State.modTnd_keeps | split | intro

@[simp] theorem State.makeReadyHead_keeps {qq : List Instr} {bb : Prop} (s : State) (i : Nat) (h_s : Keeps qq bb s)
    : Keeps qq bb (State.makeReadyHead s i) := by
  unfold State.makeReadyHead
  try dsimp only
  repeat' first | with_reducible assumption | with_reducible apply keeps_if | with_reducible apply h_s
                | with_reducible apply State.modItem_keeps | with_reducible apply State.modTnd_keeps | split | intro

@[simp] theorem State.unready_keeps {qq : List Instr} {bb : Prop} (s : State) (i : Nat) (h_s : Keeps qq bb s)
    : Keeps qq bb (State.unready s i) := by
  unfold State.unready
  try dsimp only
  repeat' first | with_reducible assumption | with_reducible apply keeps_if | with_reducible apply h_s
                | with_reducible apply State.modTnd_keeps | split | intro

@[simp] theorem State.unlink_keeps {qq : List Instr} {bb : Prop} (s : State) (i : Nat) (h_s : Keeps qq bb s)
    : Keeps qq bb (State.unlink s i) := by
  unfold State.unlink
  try dsimp only
  repeat' first | with_reducible assumption | with_reducible apply keeps_if | with_reducible apply h_s
                | with_reducible apply State.modTnd_keeps | split | intro

@[simp] theorem State.decrement_keeps {qq : List Instr} {bb : Prop} (s : State) (c : Nat) (tag : DWord) (h_s : Keeps qq bb s)
    : Keeps qq bb (State.decrement s c tag).2 := by
  unfold State.decrement
  try dsimp only
  repeat' first | with_reducible assumption | with_reducible apply keeps_if | with_reducible apply h_s
                | with_reducible apply State.tndFault_keeps | with_reducible apply State.modTnd_keeps
                | with_reducible apply State.putCtr_keeps | with_reducible apply State.makeReady_keeps | split | intro

@[simp] theorem State.decrementBy_keeps {qq : List Instr} {bb : Prop} (s : State) (f : Func) (c : Nat) (tag : DWord) (h_s : Keeps qq bb s)
    : Keeps qq bb (State.decrementBy s f c tag).2 := by
  unfold State.decrementBy
  try dsimp only
  repeat' first | with_reducible assumption | with_reducible apply keeps_if | with_reducible apply h_s
                | with_reducible apply State.decrement_keeps | with_reducible apply State.tndFault_keeps | split | intro

@[simp] theorem State.decrementEngine_keeps {qq : List Instr} {bb : Prop} (s : State) (c : Nat) (tag : DWord) (h_s : Keeps qq bb s)
    : Keeps qq bb (State.decrementEngine s c tag) := by
  unfold State.decrementEngine
  try dsimp only
  repeat' first | with_reducible assumption | with_reducible apply keeps_if | with_reducible apply h_s
                | with_reducible apply State.tndFault_keeps | with_reducible apply State.decrement_keeps | split | intro

@[simp] theorem State.decrementMbx_keeps {qq : List Instr} {bb : Prop} (s : State) (receiver : Func) (c : Nat) (tag : DWord)
    (h_s : Keeps qq bb s) : Keeps qq bb (State.decrementMbx s receiver c tag) := by
  unfold State.decrementMbx
  try dsimp only
  repeat' first | with_reducible assumption | with_reducible apply keeps_if | with_reducible apply h_s
                | with_reducible apply State.decrement_keeps | with_reducible apply State.tndFault_keeps | split | intro

@[simp] theorem State.epochAt_keeps {qq : List Instr} {bb : Prop} (s : State) (n : DWord) (h_s : Keeps qq bb s)
    : Keeps qq bb (State.epochAt s n) := by
  unfold State.epochAt
  try dsimp only
  repeat' first | with_reducible assumption | with_reducible apply keeps_if | with_reducible apply h_s
                | with_reducible apply State.decrement_keeps | with_reducible apply State.modTnd_keeps | with_reducible apply foldl_keeps
                | split | intro

@[simp] theorem State.epochsAt_keeps {qq : List Instr} {bb : Prop} (s : State) (u0 : Nat) (h_s : Keeps qq bb s)
    : Keeps qq bb (State.epochsAt s u0) := by
  induction u0 generalizing s with
  | zero => first | exact h_s | simp [State.epochsAt, h_s]
  | succ n ih =>
    unfold State.epochsAt
    try dsimp only
    repeat' first | with_reducible assumption | with_reducible apply keeps_if | with_reducible apply ih | with_reducible apply h_s
                  | with_reducible apply State.epochAt_keeps | split | intro

@[simp] theorem State.reportItem_keeps {qq : List Instr} {bb : Prop} (s : State) (i : Nat) (x : Item) (status : Nat) (h_s : Keeps qq bb s)
    : Keeps qq bb (State.reportItem s i x status) := by
  unfold State.reportItem
  try dsimp only
  repeat' first | with_reducible assumption | with_reducible apply keeps_if | with_reducible apply h_s
                | with_reducible apply State.postEvent_keeps | split | intro

@[simp] theorem State.freeItem_keeps {qq : List Instr} {bb : Prop} (s : State) (i : Nat) (h_s : Keeps qq bb s)
    : Keeps qq bb (State.freeItem s i) := by
  unfold State.freeItem
  try dsimp only
  repeat' first | with_reducible assumption | with_reducible apply keeps_if | with_reducible apply h_s
                | with_reducible apply State.unlink_keeps | with_reducible apply State.unready_keeps
                | with_reducible apply State.modTnd_keeps | split | intro

@[simp] theorem State.itemDec_keeps {qq : List Instr} {bb : Prop} (s : State) (x : Item) (en : Nat) (lo : Nat) (h_s : Keeps qq bb s)
    : Keeps qq bb (State.itemDec s x en lo) := by
  unfold State.itemDec
  try dsimp only
  repeat' first | with_reducible assumption | with_reducible apply keeps_if | with_reducible apply h_s
                | with_reducible apply State.decrementBy_keeps | split | intro

@[simp] theorem State.endItem_keeps {qq : List Instr} {bb : Prop} (s : State) (i : Nat) (status : Status) (mass : optParam Bool false)
    (h_s : Keeps qq bb s) : Keeps qq bb (State.endItem s i status mass) := by
  unfold State.endItem
  try dsimp only
  repeat' first | with_reducible assumption | with_reducible apply keeps_if | with_reducible apply h_s
                | with_reducible apply State.freeItem_keeps | with_reducible apply State.itemDec_keeps
                | with_reducible apply State.modTnd_keeps | with_reducible apply State.reportItem_keeps | split | intro

@[simp] theorem State.drainStores_keeps {qq : List Instr} {bb : Prop} (s : State) (k : Fin 12) (h_s : Keeps qq bb s)
    : Keeps qq bb (State.drainStores s k) := by
  unfold State.drainStores
  try dsimp only
  repeat' first | with_reducible assumption | with_reducible apply keeps_if | with_reducible apply h_s
                | with_reducible apply State.modKeeper_keeps | with_reducible apply foldl_keeps | simp only [keeps_mk_iff]
                | simp only [keeps_hst_eq] | with_reducible apply KeepsH.of | with_reducible apply writeWords_wf
                | exact wf_of_cells rfl rfl ‹_› | split | intro

@[simp] theorem State.releaseKeeper_keeps {qq : List Instr} {bb : Prop} (s : State) (k : Fin 12) (h_s : Keeps qq bb s)
    : Keeps qq bb (State.releaseKeeper s k) := by
  unfold State.releaseKeeper
  try dsimp only
  repeat' first | with_reducible assumption | with_reducible apply keeps_if | with_reducible apply h_s
                | with_reducible apply State.modKeeper_keeps | with_reducible apply State.modReq_keeps
                | with_reducible apply State.modTnd_keeps | split | intro

@[simp] theorem State.endOnKeeper_keeps {qq : List Instr} {bb : Prop} (s : State) (k : Fin 12) (status : Status)
    (mass : optParam Bool false) (h_s : Keeps qq bb s) : Keeps qq bb (State.endOnKeeper s k status mass) := by
  unfold State.endOnKeeper
  try dsimp only
  repeat' first | with_reducible assumption | with_reducible apply keeps_if | with_reducible apply h_s
                | with_reducible apply State.releaseKeeper_keeps | with_reducible apply State.endItem_keeps
                | with_reducible apply State.drainStores_keeps | split | intro

@[simp] theorem State.loseAllItems_keeps {qq : List Instr} {bb : Prop} (s : State) (h_s : Keeps qq bb s)
    : Keeps qq bb (State.loseAllItems s) := by
  unfold State.loseAllItems
  try dsimp only
  repeat' first | with_reducible assumption | with_reducible apply keeps_if | with_reducible apply h_s
                | with_reducible apply State.endOnKeeper_keeps | with_reducible apply State.endItem_keeps
                | with_reducible apply foldl_keeps | split | intro

@[simp] theorem State.putItem_keeps {qq : List Instr} {bb : Prop} (s : State) (i : Nat) (x : Item) (h_s : Keeps qq bb s)
    : Keeps qq bb (State.putItem s i x) := by
  unfold State.putItem
  try dsimp only
  repeat' first | with_reducible assumption | with_reducible apply keeps_if | with_reducible apply h_s
                | with_reducible apply State.rewrite_keeps | with_reducible apply State.modTnd_keeps | simp only [keeps_mk_iff] | split
                | intro

@[simp] theorem State.renewCtr_keeps {qq : List Instr} {bb : Prop} (s : State) (c : Nat) (x : Counter) (h_s : Keeps qq bb s)
    : Keeps qq bb (State.renewCtr s c x) := by
  unfold State.renewCtr
  try dsimp only
  repeat' first | with_reducible assumption | with_reducible apply keeps_if | with_reducible apply h_s
                | with_reducible apply State.rewrite_keeps | with_reducible apply State.modTnd_keeps
                | with_reducible apply State.putCtr_keeps | simp only [keeps_mk_iff] | split | intro

@[simp] theorem State.postItem_keeps {qq : List Instr} {bb : Prop} (s : State) (owner : Func) (d : Vector DWord 6) (h_s : Keeps qq bb s)
    : Keeps qq bb (State.postItem s owner d).2 := by
  unfold State.postItem
  try dsimp only
  repeat' first | with_reducible assumption | with_reducible apply keeps_if | with_reducible apply h_s
                | with_reducible apply State.putItem_keeps | with_reducible apply State.makeReady_keeps
                | with_reducible apply State.putCtr_keeps | simp only [keeps_mk_iff] | split | intro

@[simp] theorem State.startItem_keeps {qq : List Instr} {bb : Prop} (s : State) (i : Nat) (k : Fin 12) (h_s : Keeps qq bb s)
    : Keeps qq bb (State.startItem s i k) := by
  unfold State.startItem
  try dsimp only
  repeat' first | with_reducible assumption | with_reducible apply keeps_if | with_reducible apply h_s
                | with_reducible apply State.modItem_keeps | with_reducible apply State.unready_keeps
                | with_reducible apply State.modTnd_keeps | with_reducible apply State.modReq_keeps
                | with_reducible apply State.modKeeper_keeps | split | intro

@[simp] theorem State.watchKeeper_keeps {qq : List Instr} {bb : Prop} (s : State) (k : Fin 12) (h_s : Keeps qq bb s)
    : Keeps qq bb (State.watchKeeper s k) := by
  unfold State.watchKeeper
  try dsimp only
  repeat' first | with_reducible assumption | with_reducible apply keeps_if | with_reducible apply h_s
                | with_reducible apply State.endOnKeeper_keeps | split | intro

@[simp] theorem State.fence_keeps {qq : List Instr} {bb : Prop} (s : State) (k : Fin 12) (cause : Nat) (h_s : Keeps qq bb s)
    : Keeps qq bb (State.fence s k cause) := by
  unfold State.fence
  try dsimp only
  repeat' first | with_reducible assumption | with_reducible apply keeps_if | with_reducible apply h_s
                | with_reducible apply State.modKeeper_keeps | with_reducible apply State.modTnd_keeps
                | with_reducible apply State.makeReadyHead_keeps | with_reducible apply State.modItem_keeps
                | with_reducible apply State.releaseKeeper_keeps | with_reducible apply State.endItem_keeps | split | intro

@[simp] theorem State.modBoundEp_keeps {qq : List Instr} {bb : Prop} (s : State) (r : Ring) (g : EpRec → EpRec) (h_s : Keeps qq bb s)
    : Keeps qq bb (State.modBoundEp s r g) := by
  unfold State.modBoundEp
  try dsimp only
  repeat' first | with_reducible assumption | with_reducible apply keeps_if | with_reducible apply h_s
                | with_reducible apply State.putDev_keeps | split | intro

@[simp] theorem State.countFairway_keeps {qq : List Instr} {bb : Prop} (s : State) (r : Ring) (st : Status) (h_s : Keeps qq bb s)
    : Keeps qq bb (State.countFairway s r st) := by
  unfold State.countFairway
  try dsimp only
  repeat' first | with_reducible assumption | with_reducible apply keeps_if | with_reducible apply h_s
                | with_reducible apply State.modFairway_keeps | split | intro

@[simp] theorem State.complete_keeps {qq : List Instr} {bb : Prop} (s : State) (f : Func) (ring : Fin 65) (c : Done) (h_s : Keeps qq bb s)
    : Keeps qq bb (State.complete s f ring c) := by
  unfold State.complete
  try dsimp only
  repeat' first | with_reducible assumption | with_reducible apply keeps_if | with_reducible apply h_s
                | with_reducible apply State.countFairway_keeps | with_reducible apply State.decrementBy_keeps
                | with_reducible apply State.postEvent_keeps | split | intro

@[simp] theorem State.consume_keeps {qq : List Instr} {bb : Prop} (s : State) (f : Func) (ring : Fin 65) (n : Nat) (h_s : Keeps qq bb s)
    : Keeps qq bb (State.consume s f ring n) := by
  unfold State.consume
  try dsimp only
  repeat' first | with_reducible assumption | with_reducible apply keeps_if | with_reducible apply h_s
                | with_reducible apply State.modRing_keeps | split | intro

@[simp] theorem State.modLamps_keeps {qq : List Instr} {bb : Prop} (s : State) (fa : Fin 4) (g : List (Nat × Lamp) → List (Nat × Lamp))
    (h_s : Keeps qq bb s) : Keeps qq bb (State.modLamps s fa g) := by
  unfold State.modLamps
  try dsimp only
  repeat' first | with_reducible assumption | with_reducible apply keeps_if | with_reducible apply h_s | simp only [keeps_mk_iff] | split
                | intro

@[simp] theorem State.modLamp_keeps {qq : List Instr} {bb : Prop} (s : State) (fa : Fin 4) (i : Nat) (g : Lamp → Lamp)
    (h_s : Keeps qq bb s) : Keeps qq bb (State.modLamp s fa i g) := by
  unfold State.modLamp
  try dsimp only
  repeat' first | with_reducible assumption | with_reducible apply keeps_if | with_reducible apply h_s
                | with_reducible apply State.modLamps_keeps | split | intro

@[simp] theorem State.modLampOf_keeps {qq : List Instr} {bb : Prop} (s : State) (f : Func) (ring : Fin 65) (g : Lamp → Lamp)
    (h_s : Keeps qq bb s) : Keeps qq bb (State.modLampOf s f ring g) := by
  unfold State.modLampOf
  try dsimp only
  repeat' first | with_reducible assumption | with_reducible apply keeps_if | with_reducible apply h_s
                | with_reducible apply State.modLamp_keeps | simp only [keeps_mk_iff] | split | intro

@[simp] theorem State.flushUnserved_keeps {qq : List Instr} {bb : Prop} (s : State) (f : Func) (ring : Fin 65) (h_s : Keeps qq bb s)
    : Keeps qq bb (State.flushUnserved s f ring) := by
  unfold State.flushUnserved
  try dsimp only
  repeat' first | with_reducible assumption | with_reducible apply keeps_if | with_reducible apply h_s
                | with_reducible apply State.complete_keeps | with_reducible apply State.modRing_keeps | with_reducible apply foldl_keeps
                | simp only [keeps_mk_iff] | split | intro

@[simp] theorem State.flushUnservedFn_keeps {qq : List Instr} {bb : Prop} (s : State) (f : Func) (h_s : Keeps qq bb s)
    : Keeps qq bb (State.flushUnservedFn s f) := by
  unfold State.flushUnservedFn
  try dsimp only
  repeat' first | with_reducible assumption | with_reducible apply keeps_if | with_reducible apply h_s
                | with_reducible apply State.flushUnserved_keeps | with_reducible apply foldl_keeps | split | intro

@[simp] theorem State.endTransfer_keeps {qq : List Instr} {bb : Prop} (s : State) (f : Func) (ring : Fin 65) (st : Status) (sub : Nat)
    (h_s : Keeps qq bb s) : Keeps qq bb (State.endTransfer s f ring st sub) := by
  unfold State.endTransfer
  try dsimp only
  repeat' first | with_reducible assumption | with_reducible apply keeps_if | with_reducible apply h_s
                | with_reducible apply State.modRing_keeps | with_reducible apply State.complete_keeps | split | intro

@[simp] theorem State.completeHead_keeps {qq : List Instr} {bb : Prop} (s : State) (f : Func) (ring : Fin 65) (l : List Staged)
    (st : Status) (sub : Nat) (h_s : Keeps qq bb s) : Keeps qq bb (State.completeHead s f ring l st sub) := by
  unfold State.completeHead
  try dsimp only
  repeat' first | with_reducible assumption | with_reducible apply keeps_if | with_reducible apply h_s
                | with_reducible apply State.complete_keeps | with_reducible apply State.consume_keeps | split | intro

@[simp] theorem State.ringGone_keeps {qq : List Instr} {bb : Prop} (s : State) (f : Func) (ring : Fin 65) (sub : Nat)
    (h_s : Keeps qq bb s) : Keeps qq bb (State.ringGone s f ring sub) := by
  unfold State.ringGone
  try dsimp only
  repeat' first | with_reducible assumption | with_reducible apply keeps_if | with_reducible apply h_s
                | with_reducible apply State.modRing_keeps | with_reducible apply State.endTransfer_keeps | split | intro

@[simp] theorem State.leave_keeps {qq : List Instr} {bb : Prop} (s : State) (h : Nat) (sub : Nat) (h_s : Keeps qq bb s)
    : Keeps qq bb (State.leave s h sub) := by
  unfold State.leave
  try dsimp only
  repeat' first | with_reducible assumption | with_reducible apply keeps_if | with_reducible apply h_s
                | with_reducible apply State.dropDev_keeps | with_reducible apply State.ringGone_keeps | with_reducible apply foldl_keeps
                | split | intro

@[simp] theorem State.release_keeps {qq : List Instr} {bb : Prop} (s : State) (h : Nat) (sub : Nat) (h_s : Keeps qq bb s)
    : Keeps qq bb (State.release s h sub) := by
  unfold State.release
  try dsimp only
  repeat' first | with_reducible assumption | with_reducible apply keeps_if | with_reducible apply h_s
                | with_reducible apply State.leave_keeps | with_reducible apply foldl_keeps | split | intro

@[simp] theorem State.releasePort_keeps {qq : List Instr} {bb : Prop} (s : State) (n : Fin 16) (sub : Nat) (h_s : Keeps qq bb s)
    : Keeps qq bb (State.releasePort s n sub) := by
  unfold State.releasePort
  try dsimp only
  repeat' first | with_reducible assumption | with_reducible apply keeps_if | with_reducible apply h_s
                | with_reducible apply State.leave_keeps | with_reducible apply foldl_keeps | split | intro

@[simp] theorem State.writeRuns_keeps {qq : List Instr} {bb : Prop} (s : State) (f : Func) (a : QWord) (u0 : List (List Byte × Bool))
    (h_s : Keeps qq bb s) : Keeps qq bb (State.writeRuns s f a u0) := by
  induction u0 generalizing s f a with
  | nil => first | exact h_s | simp [State.writeRuns, h_s]
  | cons x t ih =>
    unfold State.writeRuns
    try dsimp only
    repeat' first | with_reducible assumption | with_reducible apply keeps_if | with_reducible apply ih | with_reducible apply h_s
                  | with_reducible apply State.writeData_keeps | split | intro

@[simp] theorem State.writePieces_keeps {qq : List Instr} {bb : Prop} (s : State) (f : Func) (ps : List (QWord × Nat))
    (bytes : List (Byte × Bool)) (h_s : Keeps qq bb s) : Keeps qq bb (State.writePieces s f ps bytes) := by
  induction ps generalizing s f bytes with
  | nil => first | exact h_s | simp [State.writePieces, h_s]
  | cons x t ih =>
    unfold State.writePieces
    try dsimp only
    repeat' first | with_reducible assumption | with_reducible apply keeps_if | with_reducible apply ih | with_reducible apply h_s
                  | with_reducible apply State.writeRuns_keeps | simp only [keeps_mk_iff] | simp only [keeps_hst_eq]
                  | with_reducible apply KeepsH.of | with_reducible apply writeBytes_wf | with_reducible apply readBytes_wf
                  | with_reducible apply readWords_wf | exact wf_of_cells rfl rfl ‹_› | split | intro

@[simp] theorem State.readPieces_keeps {qq : List Instr} {bb : Prop} (s : State) (src : Nat) (ps : List (QWord × Nat))
    (h_s : Keeps qq bb s) : Keeps qq bb (State.readPieces s src ps).2.2 := by
  induction ps generalizing s with
  | nil => exact h_s
  | cons x t ih =>
    unfold State.readPieces
    try dsimp only
    repeat' first | with_reducible assumption | with_reducible apply keeps_if | with_reducible apply ih | with_reducible apply h_s
                  | simp only [keeps_mk_iff] | simp only [keeps_hst_eq] | with_reducible apply KeepsH.of
                  | with_reducible apply readBytes_wf | exact wf_of_cells rfl rfl ‹_› | split | intro

@[simp] theorem State.askData_keeps {qq : List Instr} {bb : Prop} (s : State) (f : Func) (ring : Fin 65) (h_s : Keeps qq bb s)
    : Keeps qq bb (State.askData s f ring) := by
  unfold State.askData
  try dsimp only
  repeat' first | with_reducible assumption | with_reducible apply keeps_if | with_reducible apply h_s
                | with_reducible apply State.wakeFn_keeps | with_reducible apply State.emit_keeps
                | with_reducible apply State.modRing_keeps | with_reducible apply foldl_keeps | simp only [keeps_mk_iff] | split | intro

@[simp] theorem State.beginStages_keeps {qq : List Instr} {bb : Prop} (s : State) (f : Func) (ring : Fin 65) (maxp : Nat)
    (h_s : Keeps qq bb s) : Keeps qq bb (State.beginStages s f ring maxp) := by
  unfold State.beginStages
  try dsimp only
  repeat' first | with_reducible assumption | with_reducible apply keeps_if | with_reducible apply h_s
                | with_reducible apply State.askData_keeps | with_reducible apply State.endTransfer_keeps
                | with_reducible apply State.modRing_keeps | simp only [keeps_mk_iff] | split | intro

@[simp] theorem State.bridgeLists_keeps {qq : List Instr} {bb : Prop} (s : State) (ring : Fin 65) (u0 : Nat) (h_s : Keeps qq bb s)
    : Keeps qq bb (State.bridgeLists s ring u0) := by
  induction u0 generalizing s with
  | zero => exact h_s
  | succ n ih =>
    unfold State.bridgeLists
    try dsimp only
    repeat' first | with_reducible assumption | with_reducible apply keeps_if | with_reducible apply ih | with_reducible apply h_s
                  | with_reducible apply State.readPieces_keeps | with_reducible apply State.endTransfer_keeps
                  | with_reducible apply State.modRing_keeps | split | intro

@[simp] theorem State.startTransfer_keeps {qq : List Instr} {bb : Prop} (s : State) (f : Func) (ring : Fin 65) (l : List Staged)
    (maxp : Nat) (h_s : Keeps qq bb s) : Keeps qq bb (State.startTransfer s f ring l maxp) := by
  unfold State.startTransfer
  try dsimp only
  repeat' first | with_reducible assumption | with_reducible apply keeps_if | with_reducible apply h_s
                | with_reducible apply State.consume_keeps | with_reducible apply State.modRing_keeps
                | with_reducible apply State.bridgeLists_keeps | with_reducible apply State.beginStages_keeps | simp only [keeps_mk_iff]
                | split | intro

@[simp] theorem State.endParked_keeps {qq : List Instr} {bb : Prop} (s : State) (f : Func) (ring : Fin 65) (p : Parked) (st : Status)
    (sub : Nat) (h_s : Keeps qq bb s) : Keeps qq bb (State.endParked s f ring p st sub) := by
  unfold State.endParked
  try dsimp only
  repeat' first | with_reducible assumption | with_reducible apply keeps_if | with_reducible apply h_s
                | with_reducible apply State.freeDWord_keeps | with_reducible apply State.modRing_keeps
                | with_reducible apply State.complete_keeps | split | intro

@[simp] theorem State.resumeParked_keeps {qq : List Instr} {bb : Prop} (s : State) (f : Func) (ring : Fin 65) (h_s : Keeps qq bb s)
    : Keeps qq bb (State.resumeParked s f ring) := by
  unfold State.resumeParked
  try dsimp only
  repeat' first | with_reducible assumption | with_reducible apply keeps_if | with_reducible apply h_s
                | with_reducible apply State.endParked_keeps | with_reducible apply State.modRing_keeps
                | with_reducible apply State.beginStages_keeps | simp only [keeps_mk_iff] | split | intro

@[simp] theorem State.transferStart_keeps {qq : List Instr} {bb : Prop} (s : State) (f : Func) (ring : Fin 65) (h_s : Keeps qq bb s)
    : Keeps qq bb (State.transferStart s f ring) := by
  unfold State.transferStart
  try dsimp only
  repeat' first | with_reducible assumption | with_reducible apply keeps_if | with_reducible apply h_s
                | with_reducible apply State.flushUnserved_keeps | with_reducible apply State.resumeParked_keeps
                | with_reducible apply State.completeHead_keeps | with_reducible apply State.startTransfer_keeps
                | simp only [keeps_mk_iff] | split | intro

@[simp] theorem State.marker_keeps {qq : List Instr} {bb : Prop} (s : State) (f : Func) (ring : Fin 65) (ty : Nat) (h_s : Keeps qq bb s)
    : Keeps qq bb (State.marker s f ring ty) := by
  unfold State.marker
  try dsimp only
  repeat' first | with_reducible assumption | with_reducible apply keeps_if | with_reducible apply h_s
                | with_reducible apply State.flushUnserved_keeps | with_reducible apply State.completeHead_keeps | split | intro

@[simp] theorem State.modCur_keeps {qq : List Instr} {bb : Prop} (s : State) (f : Func) (ring : Fin 65) (g : Transfer → Transfer)
    (h_s : Keeps qq bb s) : Keeps qq bb (State.modCur s f ring g) := by
  unfold State.modCur
  try dsimp only
  repeat' first | with_reducible assumption | with_reducible apply keeps_if | with_reducible apply h_s
                | with_reducible apply State.modRing_keeps | split | intro

@[simp] theorem State.onBus_keeps {qq : List Instr} {bb : Prop} (s : State) (f : Func) (ring : Fin 65) (q : Seat) (o : Output)
    (h_s : Keeps qq bb s) : Keeps qq bb (State.onBus s f ring q o) := by
  unfold State.onBus
  try dsimp only
  repeat' first | with_reducible assumption | with_reducible apply keeps_if | with_reducible apply h_s
                | with_reducible apply State.emit_keeps | with_reducible apply State.modCur_keeps | simp only [keeps_mk_iff] | split
                | intro

@[simp] theorem State.token_keeps {qq : List Instr} {bb : Prop} (s : State) (f : Func) (ring : Fin 65) (q : Seat) (o : Output)
    (h_s : Keeps qq bb s) : Keeps qq bb (State.token s f ring q o) := by
  unfold State.token
  try dsimp only
  repeat' first | with_reducible assumption | with_reducible apply keeps_if | with_reducible apply h_s
                | with_reducible apply State.onBus_keeps | with_reducible apply State.emit_keeps | with_reducible apply State.modCur_keeps
                | simp only [keeps_mk_iff] | split | intro

@[simp] theorem State.succeed_keeps {qq : List Instr} {bb : Prop} (s : State) (f : Func) (ring : Fin 65) (short : Bool)
    (h_s : Keeps qq bb s) : Keeps qq bb (State.succeed s f ring short) := by
  unfold State.succeed
  try dsimp only
  repeat' first | with_reducible assumption | with_reducible apply keeps_if | with_reducible apply h_s
                | with_reducible apply State.putDev_keeps | with_reducible apply State.endTransfer_keeps | split | intro

@[simp] theorem State.sendChunk_keeps {qq : List Instr} {bb : Prop} (s : State) (f : Func) (ring : Fin 65) (t : Transfer) (q : Seat)
    (bytes : List Byte) (h_s : Keeps qq bb s) : Keeps qq bb (State.sendChunk s f ring t q bytes) := by
  unfold State.sendChunk
  try dsimp only
  repeat' first | with_reducible assumption | with_reducible apply keeps_if | with_reducible apply h_s
                | with_reducible apply State.emit_keeps | with_reducible apply State.modCur_keeps
                | with_reducible apply State.succeed_keeps | simp only [keeps_mk_iff] | split | intro

@[simp] theorem State.outBytes_keeps {qq : List Instr} {bb : Prop} (s : State) (f : Func) (t : Transfer) (n : Nat) (h_s : Keeps qq bb s)
    : Keeps qq bb (State.outBytes s f t n).2 := by
  unfold State.outBytes
  try dsimp only
  repeat' first | with_reducible assumption | with_reducible apply keeps_if | with_reducible apply h_s
                | with_reducible apply State.readPieces_keeps | simp only [keeps_mk_iff] | refine of_pair1 (by assumption) ?_
                | refine of_pair2 (by assumption) ?_ | split | intro

@[simp] theorem State.issue_keeps {qq : List Instr} {bb : Prop} (s : State) (f : Func) (ring : Fin 65) (h_s : Keeps qq bb s)
    : Keeps qq bb (State.issue s f ring) := by
  have h (t : Transfer) (n : Nat) : Keeps qq bb (s.outBytes f t n).2 := State.outBytes_keeps _ _ _ _ h_s
  unfold State.issue
  try dsimp only
  repeat' first | with_reducible assumption | with_reducible apply keeps_if | with_reducible apply h_s
                | with_reducible apply State.onBus_keeps | with_reducible apply State.token_keeps
                | with_reducible apply State.endTransfer_keeps | with_reducible apply State.sendChunk_keeps
                | exact of_pair2 ‹_› (h _ _) | split | intro

@[simp] theorem State.toStatus_keeps {qq : List Instr} {bb : Prop} (s : State) (f : Func) (ring : Fin 65) (short : Bool)
    (h_s : Keeps qq bb s) : Keeps qq bb (State.toStatus s f ring short) := by
  unfold State.toStatus
  try dsimp only
  repeat' first | with_reducible assumption | with_reducible apply keeps_if | with_reducible apply h_s
                | with_reducible apply State.modCur_keeps | with_reducible apply State.modBoundEp_keeps | split | intro

@[simp] theorem State.dataEnds_keeps {qq : List Instr} {bb : Prop} (s : State) (f : Func) (ring : Fin 65) (short : Bool)
    (h_s : Keeps qq bb s) : Keeps qq bb (State.dataEnds s f ring short) := by
  unfold State.dataEnds
  try dsimp only
  repeat' first | with_reducible assumption | with_reducible apply keeps_if | with_reducible apply h_s
                | with_reducible apply State.toStatus_keeps | with_reducible apply State.succeed_keeps | split | intro

@[simp] theorem State.endIfDue_keeps {qq : List Instr} {bb : Prop} (s : State) (f : Func) (ring : Fin 65) (h_s : Keeps qq bb s)
    : Keeps qq bb (State.endIfDue s f ring) := by
  unfold State.endIfDue
  try dsimp only
  repeat' first | with_reducible assumption | with_reducible apply keeps_if | with_reducible apply h_s
                | with_reducible apply State.endTransfer_keeps | split | intro

@[simp] theorem State.spendLamp_keeps {qq : List Instr} {bb : Prop} (s : State) (f : Func) (ring : Fin 65) (all : Bool)
    (h_s : Keeps qq bb s) : Keeps qq bb (State.spendLamp s f ring all) := by
  unfold State.spendLamp
  try dsimp only
  repeat' first | with_reducible assumption | with_reducible apply keeps_if | with_reducible apply h_s
                | with_reducible apply State.modLampOf_keeps | simp only [keeps_mk_iff] | split | intro

@[simp] theorem State.landIn_keeps {qq : List Instr} {bb : Prop} (s : State) (f : Func) (ring : Fin 65) (t : Transfer)
    (bytes : List Byte) (bad : List Nat) (h_s : Keeps qq bb s) : Keeps qq bb (State.landIn s f ring t bytes bad) := by
  unfold State.landIn
  try dsimp only
  repeat' first | with_reducible assumption | with_reducible apply keeps_if | with_reducible apply h_s
                | with_reducible apply State.writePieces_keeps | with_reducible apply State.modCur_keeps | simp only [keeps_mk_iff]
                | split | intro

@[simp] theorem State.acceptIn_keeps {qq : List Instr} {bb : Prop} (s : State) (f : Func) (ring : Fin 65) (h_s : Keeps qq bb s)
    : Keeps qq bb (State.acceptIn s f ring) := by
  unfold State.acceptIn
  try dsimp only
  repeat' first | with_reducible assumption | with_reducible apply keeps_if | with_reducible apply h_s
                | with_reducible apply State.emit_keeps | with_reducible apply State.modBoundEp_keeps | simp only [keeps_mk_iff] | split
                | intro

@[simp] theorem State.landOut_keeps {qq : List Instr} {bb : Prop} (s : State) (f : Func) (ring : Fin 65) (t : Transfer) (e : EpRec)
    (nyet : Bool) (h_s : Keeps qq bb s) : Keeps qq bb (State.landOut s f ring t e nyet) := by
  unfold State.landOut
  try dsimp only
  repeat' first | with_reducible assumption | with_reducible apply keeps_if | with_reducible apply h_s
                | with_reducible apply State.modCur_keeps | with_reducible apply State.modBoundEp_keeps | simp only [keeps_mk_iff] | split
                | intro

@[simp] theorem State.dataIn_keeps {qq : List Instr} {bb : Prop} (s : State) (f : Func) (ring : Fin 65) (t : Transfer) (e : EpRec)
    (bytes : List Byte) (toggle : Bool) (bad : List Nat) (h_s : Keeps qq bb s)
    : Keeps qq bb (State.dataIn s f ring t e bytes toggle bad) := by
  unfold State.dataIn
  try dsimp only
  repeat' first | with_reducible assumption | with_reducible apply keeps_if | with_reducible apply h_s
                | with_reducible apply State.emit_keeps | with_reducible apply State.modCur_keeps
                | with_reducible apply State.acceptIn_keeps | with_reducible apply State.succeed_keeps
                | with_reducible apply State.endTransfer_keeps | with_reducible apply State.landIn_keeps
                | with_reducible apply State.spendLamp_keeps | with_reducible apply State.dataEnds_keeps | simp only [keeps_mk_iff]
                | split | intro

@[simp] theorem State.dataOut_keeps {qq : List Instr} {bb : Prop} (s : State) (f : Func) (ring : Fin 65) (t : Transfer) (e : EpRec)
    (nyet : Bool) (h_s : Keeps qq bb s) : Keeps qq bb (State.dataOut s f ring t e nyet) := by
  unfold State.dataOut
  try dsimp only
  repeat' first | with_reducible assumption | with_reducible apply keeps_if | with_reducible apply h_s
                | with_reducible apply State.modBoundEp_keeps | with_reducible apply State.modCur_keeps
                | with_reducible apply State.askData_keeps | with_reducible apply State.succeed_keeps
                | with_reducible apply State.landOut_keeps | with_reducible apply State.spendLamp_keeps
                | with_reducible apply State.dataEnds_keeps | simp only [keeps_mk_iff] | split | intro

@[simp] theorem State.xactError_keeps {qq : List Instr} {bb : Prop} (s : State) (f : Func) (ring : Fin 65) (t : Transfer) (st : Status)
    (sub : Nat) (h_s : Keeps qq bb s) : Keeps qq bb (State.xactError s f ring t st sub) := by
  unfold State.xactError
  try dsimp only
  repeat' first | with_reducible assumption | with_reducible apply keeps_if | with_reducible apply h_s
                | with_reducible apply State.endTransfer_keeps | with_reducible apply State.modCur_keeps
                | with_reducible apply State.spendLamp_keeps | simp only [keeps_mk_iff] | split | intro

@[simp] theorem State.nakked_keeps {qq : List Instr} {bb : Prop} (s : State) (f : Func) (ring : Fin 65) (h_s : Keeps qq bb s)
    : Keeps qq bb (State.nakked s f ring) := by
  unfold State.nakked
  try dsimp only
  repeat' first | with_reducible assumption | with_reducible apply keeps_if | with_reducible apply h_s
                | with_reducible apply State.spendLamp_keeps | split | intro

@[simp] theorem State.lastMoves_keeps {qq : List Instr} {bb : Prop} (s : State) (f : Func) (ring : Fin 65) (t : Transfer) (q : Seat)
    (e : UsbEnd) (h_s : Keeps qq bb s) : Keeps qq bb (State.lastMoves s f ring t q e) := by
  unfold State.lastMoves
  try dsimp only
  repeat' first | with_reducible assumption | with_reducible apply keeps_if | with_reducible apply h_s
                | with_reducible apply State.landIn_keeps | with_reducible apply State.acceptIn_keeps
                | with_reducible apply State.emit_keeps | with_reducible apply State.landOut_keeps | simp only [keeps_mk_iff] | split
                | intro

@[simp] theorem State.splitNyet_keeps {qq : List Instr} {bb : Prop} (s : State) (f : Func) (ring : Fin 65) (t : Transfer)
    (h_s : Keeps qq bb s) : Keeps qq bb (State.splitNyet s f ring t) := by
  unfold State.splitNyet
  try dsimp only
  repeat' first | with_reducible assumption | with_reducible apply keeps_if | with_reducible apply h_s
                | with_reducible apply State.modCur_keeps | with_reducible apply State.modLamp_keeps
                | with_reducible apply State.xactError_keeps | with_reducible apply State.nakked_keeps | simp only [keeps_mk_iff] | split
                | intro

@[simp] theorem State.transactionMoves_keeps {qq : List Instr} {bb : Prop} (s : State) (f : Func) (ring : Fin 65) (t : Transfer)
    (q : Seat) (e : UsbEnd) (h_s : Keeps qq bb s) : Keeps qq bb (State.transactionMoves s f ring t q e) := by
  unfold State.transactionMoves
  try dsimp only
  repeat' first | with_reducible assumption | with_reducible apply keeps_if | with_reducible apply h_s
                | with_reducible apply State.xactError_keeps | with_reducible apply State.landIn_keeps
                | with_reducible apply State.splitNyet_keeps | with_reducible apply State.dataIn_keeps
                | with_reducible apply State.modCur_keeps | with_reducible apply State.modBoundEp_keeps
                | with_reducible apply State.dataOut_keeps | with_reducible apply State.nakked_keeps
                | with_reducible apply State.endTransfer_keeps | simp only [keeps_mk_iff] | split | intro

@[simp] theorem State.transactionEnd_keeps {qq : List Instr} {bb : Prop} (s : State) (f : Func) (ring : Fin 65) (e : UsbEnd)
    (h_s : Keeps qq bb s) : Keeps qq bb (State.transactionEnd s f ring e) := by
  unfold State.transactionEnd
  try dsimp only
  repeat' first | with_reducible assumption | with_reducible apply keeps_if | with_reducible apply h_s
                | with_reducible apply State.onBus_keeps | with_reducible apply State.modCur_keeps
                | with_reducible apply State.lastMoves_keeps | with_reducible apply State.endIfDue_keeps
                | with_reducible apply State.transactionMoves_keeps | simp only [keeps_mk_iff] | split | intro

@[simp] theorem State.readFault_keeps {qq : List Instr} {bb : Prop} (s : State) (l : Link) (code : Nat) (kind : Nat) (addr : QWord)
    (h_s : Keeps qq bb s) : Keeps qq bb (State.readFault s l code kind addr) := by
  unfold State.readFault
  try dsimp only
  repeat' first | with_reducible assumption | with_reducible apply keeps_if | with_reducible apply h_s
                | with_reducible apply State.modLink_keeps | with_reducible apply State.linkError_keeps | simp only [keeps_mk_iff] | split
                | intro

@[simp] theorem State.fnReadFault_keeps {qq : List Instr} {bb : Prop} (s : State) (f : Func) (kind : Nat) (addr : QWord)
    (h_s : Keeps qq bb s) : Keeps qq bb (State.fnReadFault s f kind addr) := by
  unfold State.fnReadFault
  try dsimp only
  repeat' first | with_reducible assumption | with_reducible apply keeps_if | with_reducible apply h_s
                | with_reducible apply State.readFault_keeps | split | intro

@[simp] theorem State.outDataRead_keeps {qq : List Instr} {bb : Prop} (s : State) (f : Func) (ring : Fin 65) (e : ReadEnd)
    (h_s : Keeps qq bb s) : Keeps qq bb (State.outDataRead s f ring e) := by
  unfold State.outDataRead
  try dsimp only
  repeat' first | with_reducible assumption | with_reducible apply keeps_if | with_reducible apply h_s
                | with_reducible apply State.modCur_keeps | with_reducible apply State.fnReadFault_keeps
                | with_reducible apply State.endTransfer_keeps | simp only [keeps_mk_iff] | split | intro

@[simp] theorem State.listRead_keeps {qq : List Instr} {bb : Prop} (s : State) (f : Func) (ring : Fin 65) (e : ReadEnd)
    (h_s : Keeps qq bb s) : Keeps qq bb (State.listRead s f ring e) := by
  unfold State.listRead
  try dsimp only
  repeat' first | with_reducible assumption | with_reducible apply keeps_if | with_reducible apply h_s
                | with_reducible apply State.endTransfer_keeps | with_reducible apply State.modCur_keeps
                | with_reducible apply State.beginStages_keeps | with_reducible apply State.fnReadFault_keeps | simp only [keeps_mk_iff]
                | split | intro

@[simp] theorem State.loseTransfers_keeps {qq : List Instr} {bb : Prop} (s : State) (f : Func) (h_s : Keeps qq bb s)
    : Keeps qq bb (State.loseTransfers s f) := by
  unfold State.loseTransfers
  try dsimp only
  repeat' first | with_reducible assumption | with_reducible apply keeps_if | with_reducible apply h_s
                | with_reducible apply State.endTransfer_keeps | with_reducible apply foldl_keeps | simp only [keeps_mk_iff] | split
                | intro

@[simp] theorem State.modReg_keeps {qq : List Instr} {bb : Prop} (s : State) (g : RegFile → RegFile) (h_s : Keeps qq bb s)
    : Keeps qq bb (State.modReg s g) := by
  unfold State.modReg
  try dsimp only
  repeat' first | with_reducible assumption | with_reducible apply keeps_if | with_reducible apply h_s | simp only [keeps_mk_iff] | split
                | intro

@[simp] theorem State.refuse_keeps {qq : List Instr} {bb : Prop} (s : State) (r : Requester) (reason : Nat) (off : Nat)
    (h_s : Keeps qq bb s) : Keeps qq bb (State.refuse s r reason off) := by
  unfold State.refuse
  try dsimp only
  repeat' first | with_reducible assumption | with_reducible apply keeps_if | with_reducible apply h_s
                | with_reducible apply State.modReg_keeps | split | intro

@[simp] theorem State.keyFaultAt_keeps {qq : List Instr} {bb : Prop} (s : State) (r : Requester) (reason : Nat) (off : Nat)
    (h_s : Keeps qq bb s) : Keeps qq bb (State.keyFaultAt s r reason off) := by
  unfold State.keyFaultAt
  try dsimp only
  repeat' first | with_reducible assumption | with_reducible apply keeps_if | with_reducible apply h_s
                | with_reducible apply State.modReg_keeps | split | intro

@[simp] theorem State.setKeyhole_keeps {qq : List Instr} {bb : Prop} (s : State) (r : Requester) (k : Keyhole) (h_s : Keeps qq bb s)
    : Keeps qq bb (State.setKeyhole s r k) := by
  unfold State.setKeyhole
  try dsimp only
  repeat' first | with_reducible assumption | with_reducible apply keeps_if | with_reducible apply h_s
                | with_reducible apply State.modReg_keeps | split | intro

@[simp] theorem State.keyElsewhere_keeps {qq : List Instr} {bb : Prop} (s : State) (r : Requester) (off : Nat) (h_s : Keeps qq bb s)
    : Keeps qq bb (State.keyElsewhere s r off) := by
  unfold State.keyElsewhere
  try dsimp only
  repeat' first | with_reducible assumption | with_reducible apply keeps_if | with_reducible apply h_s
                | with_reducible apply State.setKeyhole_keeps | with_reducible apply State.keyFaultAt_keeps | split | intro

@[simp] theorem State.keyConsume_keeps {qq : List Instr} {bb : Prop} (s : State) (r : Requester) (off : Nat) (h_s : Keeps qq bb s)
    : Keeps qq bb (State.keyConsume s r off) := by
  unfold State.keyConsume
  try dsimp only
  repeat' first | with_reducible assumption | with_reducible apply keeps_if | with_reducible apply h_s
                | with_reducible apply State.setKeyhole_keeps | with_reducible apply State.keyElsewhere_keeps | split | intro

@[simp] theorem State.guarded_keeps {qq : List Instr} {bb : Prop} (s : State) (r : Requester) (off : Nat) (act : State → State)
    (h_s : Keeps qq bb s) (h_act : ∀ v0, Keeps qq bb v0 → Keeps qq bb (act v0)) : Keeps qq bb (State.guarded s r off act) := by
  unfold State.guarded
  try dsimp only
  repeat' first | with_reducible assumption | with_reducible apply keeps_if | with_reducible apply h_s | with_reducible apply h_act
                | with_reducible apply State.setKeyhole_keeps | with_reducible apply State.refuse_keeps
                | with_reducible apply State.keyFaultAt_keeps | split | intro

@[simp] theorem State.dropShadow_keeps {qq : List Instr} {bb : Prop} (s : State) (r : Requester) (off : Nat) (h_s : Keeps qq bb s)
    : Keeps qq bb (State.dropShadow s r off) := by
  unfold State.dropShadow
  try dsimp only
  repeat' first | with_reducible assumption | with_reducible apply keeps_if | with_reducible apply h_s
                | with_reducible apply State.modReq_keeps | split | intro

@[simp] theorem State.arrive_keeps {qq : List Instr} {bb : Prop} (s : State) (p : Path) (h_s : Keeps qq bb s)
    : Keeps qq bb (State.arrive s p) := by
  unfold State.arrive
  try dsimp only
  repeat' first | with_reducible assumption | with_reducible apply keeps_if | with_reducible apply h_s
                | with_reducible apply State.wakeLink_keeps | split | intro

@[simp] theorem State.unsupported_keeps {qq : List Instr} {bb : Prop} (s : State) (l : Link) (p : Path) (posted : Bool)
    (h_s : Keeps qq bb s) : Keeps qq bb (State.unsupported s l p posted) := by
  unfold State.unsupported
  try dsimp only
  repeat' first | with_reducible assumption | with_reducible apply keeps_if | with_reducible apply h_s
                | with_reducible apply State.linkError_keeps | with_reducible apply State.emit_keeps | split | intro

@[simp] theorem State.turnAway_keeps {qq : List Instr} {bb : Prop} (s : State) (p : Path) (posted : Bool) (h_s : Keeps qq bb s)
    : Keeps qq bb (State.turnAway s p posted) := by
  unfold State.turnAway
  try dsimp only
  repeat' first | with_reducible assumption | with_reducible apply keeps_if | with_reducible apply h_s
                | with_reducible apply State.wakeLink_keeps | with_reducible apply State.emit_keeps
                | with_reducible apply State.unsupported_keeps | simp only [keeps_mk_iff] | split | intro

@[simp] theorem State.keySees_keeps {qq : List Instr} {bb : Prop} (s : State) (p : Path) (r : Requester) (off : Nat)
    (h_s : Keeps qq bb s) : Keeps qq bb (State.keySees s p r off) := by
  unfold State.keySees
  try dsimp only
  repeat' first | with_reducible assumption | with_reducible apply keeps_if | with_reducible apply h_s
                | with_reducible apply State.keyElsewhere_keeps | split | intro

@[simp] theorem State.accessAny_keeps {qq : List Instr} {bb : Prop} (s : State) (p : Path) (off : Nat) (act : Requester → State → State)
    (h_s : Keeps qq bb s) (h_act : ∀ x0 s, Keeps qq bb s → Keeps qq bb (act x0 s)) : Keeps qq bb (State.accessAny s p off act) := by
  unfold State.accessAny
  try dsimp only
  repeat' first | with_reducible assumption | with_reducible apply keeps_if | with_reducible apply h_s | with_reducible apply h_act
                | with_reducible apply State.turnAway_keeps | with_reducible apply State.arrive_keeps
                | with_reducible apply State.keySees_keeps | with_reducible apply State.dropShadow_keeps | simp only [keeps_mk_iff]
                | split | intro

@[simp] theorem State.access_keeps {qq : List Instr} {bb : Prop} (s : State) (p : Path) (off : Nat) (act : Requester → State → State)
    (h_s : Keeps qq bb s) (h_act : ∀ v0 v1, Keeps qq bb v1 → Keeps qq bb (act v0 v1)) : Keeps qq bb (State.access s p off act) := by
  unfold State.access
  try dsimp only
  repeat' first | with_reducible assumption | with_reducible apply keeps_if | with_reducible apply h_s | with_reducible apply h_act
                | with_reducible apply State.accessAny_keeps | split | intro

@[simp] theorem State.accessGuarded_keeps {qq : List Instr} {bb : Prop} (s : State) (p : Path) (off : Nat)
    (act : Requester → State → State) (h_s : Keeps qq bb s) (h_act : ∀ x0 s, Keeps qq bb s → Keeps qq bb (act x0 s))
    : Keeps qq bb (State.accessGuarded s p off act) := by
  unfold State.accessGuarded
  try dsimp only
  repeat' first | with_reducible assumption | with_reducible apply keeps_if | with_reducible apply h_s | with_reducible apply h_act
                | with_reducible apply State.turnAway_keeps | with_reducible apply State.arrive_keeps
                | with_reducible apply State.dropShadow_keeps | with_reducible apply State.guarded_keeps | simp only [keeps_mk_iff]
                | split | intro

@[simp] theorem State.keyWrite_keeps {qq : List Instr} {bb : Prop} (s : State) (r : Requester) (v : DWord) (h_s : Keeps qq bb s)
    : Keeps qq bb (State.keyWrite s r v) := by
  unfold State.keyWrite
  try dsimp only
  repeat' first | with_reducible assumption | with_reducible apply keeps_if | with_reducible apply h_s
                | with_reducible apply State.setKeyhole_keeps | with_reducible apply State.keyFaultAt_keeps | split | intro

@[simp] theorem State.keyHole_keeps {qq : List Instr} {bb : Prop} (s : State) (p : Path) (v : DWord) (h_s : Keeps qq bb s)
    : Keeps qq bb (State.keyHole s p v) := by
  unfold State.keyHole
  try dsimp only
  repeat' first | with_reducible assumption | with_reducible apply keeps_if | with_reducible apply h_s
                | with_reducible apply State.turnAway_keeps | with_reducible apply State.arrive_keeps
                | with_reducible apply State.keyWrite_keeps | with_reducible apply State.refuse_keeps
                | with_reducible apply State.keyFaultAt_keeps | simp only [keeps_mk_iff] | split | intro

@[simp] theorem State.keyExpire_keeps {qq : List Instr} {bb : Prop} (s : State) (r : Requester) (h_s : Keeps qq bb s)
    : Keeps qq bb (State.keyExpire s r) := by
  unfold State.keyExpire
  try dsimp only
  repeat' first | with_reducible assumption | with_reducible apply keeps_if | with_reducible apply h_s
                | with_reducible apply State.setKeyhole_keeps | with_reducible apply State.keyFaultAt_keeps | split | intro

@[simp] theorem State.keyTick_keeps {qq : List Instr} {bb : Prop} (s : State) (r : Requester) (h_s : Keeps qq bb s)
    : Keeps qq bb (State.keyTick s r) := by
  unfold State.keyTick
  try dsimp only
  repeat' first | with_reducible assumption | with_reducible apply keeps_if | with_reducible apply h_s
                | with_reducible apply State.keyExpire_keeps | with_reducible apply State.setKeyhole_keeps | split | intro

@[simp] theorem State.sealedAccepted_keeps {qq : List Instr} {bb : Prop} (s : State) (off : Nat) (h_s : Keeps qq bb s)
    : Keeps qq bb (State.sealedAccepted s off) := by
  unfold State.sealedAccepted
  try dsimp only
  repeat' first | with_reducible assumption | with_reducible apply keeps_if | with_reducible apply h_s
                | with_reducible apply State.modReg_keeps | simp only [keeps_mk_iff] | split | intro

@[simp] theorem State.sealedWrite_keeps {qq : List Instr} {bb : Prop} (s : State) (r : Requester) (off : Nat) (group : Nat)
    (act : State → State) (h_s : Keeps qq bb s) (h_act : ∀ v0, Keeps qq bb v0 → Keeps qq bb (act v0))
    : Keeps qq bb (State.sealedWrite s r off group act) := by
  unfold State.sealedWrite
  try dsimp only
  repeat' first | with_reducible assumption | with_reducible apply keeps_if | with_reducible apply h_s | with_reducible apply h_act
                | with_reducible apply State.refuse_keeps | with_reducible apply State.sealedAccepted_keeps | split | intro

@[simp] theorem State.primaryWrite_keeps {qq : List Instr} {bb : Prop} (s : State) (r : Requester) (off : Nat) (act : State → State)
    (h_s : Keeps qq bb s) (h_act : ∀ v0, Keeps qq bb v0 → Keeps qq bb (act v0)) : Keeps qq bb (State.primaryWrite s r off act) := by
  unfold State.primaryWrite
  try dsimp only
  repeat' first | with_reducible assumption | with_reducible apply keeps_if | with_reducible apply h_s | with_reducible apply h_act
                | with_reducible apply State.refuse_keeps | split | intro

@[simp] theorem State.forgetRequester_keeps {qq : List Instr} {bb : Prop} (s : State) (r : Requester) (h_s : Keeps qq bb s)
    : Keeps qq bb (State.forgetRequester s r) := by
  unfold State.forgetRequester
  try dsimp only
  repeat' first | with_reducible assumption | with_reducible apply keeps_if | with_reducible apply h_s
                | with_reducible apply State.modReq_keeps | with_reducible apply State.setKeyhole_keeps | simp only [keeps_mk_iff] | split
                | intro

@[simp] theorem State.readWord16_keeps {qq : List Instr} {bb : Prop} (s : State) (k : Fin 12) (off : Nat) (h_s : Keeps qq bb s)
    : Keeps qq bb (State.readWord16 s k off).2 := by
  unfold State.readWord16
  try dsimp only
  repeat' first | with_reducible assumption | with_reducible apply keeps_if | with_reducible apply h_s
                | with_reducible apply State.modReq_keeps | simp only [keeps_mk_iff] | split | intro

@[simp] theorem State.loadWord_keeps {qq : List Instr} {bb : Prop} (s : State) (k : Fin 12) (src : Nat) (a : Nat) (h_s : Keeps qq bb s)
    : Keeps qq bb (State.loadWord s k src a).2 := by
  rw [State.loadWord]
  split
  · have key : ∀ (z : Half × State) (p : Bool), Keeps qq bb z.2 →
        Keeps qq bb (have x := z; ((x.1, p), x.2) : (Half × Bool) × State).2 := fun z p h => h
    exact key _ _ (State.readWord16_keeps s k _ h_s)
  · exact h_s
  · exact ⟨h_s.1, fun hb => readWord_wf _ _ _ (h_s.2 hb)⟩

@[simp] theorem State.modSlot_keeps {qq : List Instr} {bb : Prop} (s : State) (k : Fin 12) (n : Fin 4) (g : DmaSlot → DmaSlot)
    (h_s : Keeps qq bb s) : Keeps qq bb (State.modSlot s k n g) := by
  unfold State.modSlot
  try dsimp only
  repeat' first | with_reducible assumption | with_reducible apply keeps_if | with_reducible apply h_s
                | with_reducible apply State.modKeeper_keeps | split | intro

@[simp] theorem State.dmaWords_keeps {qq : List Instr} {bb : Prop} (s : State) (k : Fin 12) (a : Nat) (u0 : Nat) (h_s : Keeps qq bb s)
    : Keeps qq bb (State.dmaWords s k a u0).2 := by
  induction u0 generalizing s a with
  | zero => exact h_s
  | succ n ih =>
    unfold State.dmaWords
    try dsimp only
    repeat' first | with_reducible assumption | with_reducible apply keeps_if | with_reducible apply ih | with_reducible apply h_s
                  | with_reducible apply State.loadWord_keeps | split | intro

@[simp] theorem State.issueSlot_keeps {qq : List Instr} {bb : Prop} (s : State) (k : Fin 12) (n : Fin 4) (f : Func) (h_s : Keeps qq bb s)
    : Keeps qq bb (State.issueSlot s k n f) := by
  unfold State.issueSlot
  try dsimp only
  repeat' first | with_reducible assumption | with_reducible apply keeps_if | with_reducible apply h_s
                | with_reducible apply State.dmaWords_keeps | with_reducible apply State.modSlot_keeps
                | with_reducible apply State.issueWrite_keeps | with_reducible apply State.emit_keeps
                | with_reducible apply State.wakeFn_keeps | split | intro

@[simp] theorem State.issueHeldDma_keeps {qq : List Instr} {bb : Prop} (s : State) (f : Func) (h_s : Keeps qq bb s)
    : Keeps qq bb (State.issueHeldDma s f) := by
  unfold State.issueHeldDma
  try dsimp only
  repeat' first | with_reducible assumption | with_reducible apply keeps_if | with_reducible apply h_s
                | with_reducible apply State.issueSlot_keeps | with_reducible apply foldl_keeps | split | intro

@[simp] theorem State.completeCmd_keeps {qq : List Instr} {bb : Prop} (s : State) (f : Func) (index : BitVec 16) (e : Entry)
    (status : Status) (r0 : DWord) (r1 : DWord) (h_s : Keeps qq bb s) : Keeps qq bb (State.completeCmd s f index e status r0 r1) := by
  unfold State.completeCmd
  try dsimp only
  repeat' first | with_reducible assumption | with_reducible apply keeps_if | with_reducible apply h_s
                | with_reducible apply State.postEvent_keeps | with_reducible apply State.modFn_keeps | split | intro

@[simp] theorem State.finishCmd_keeps {qq : List Instr} {bb : Prop} (s : State) (f : Func) (status : Status) (r0 : DWord) (r1 : DWord)
    (h_s : Keeps qq bb s) : Keeps qq bb (State.finishCmd s f status r0 r1) := by
  unfold State.finishCmd
  try dsimp only
  repeat' first | with_reducible assumption | with_reducible apply keeps_if | with_reducible apply h_s
                | with_reducible apply State.completeCmd_keeps | with_reducible apply State.modFn_keeps | split | intro

@[simp] theorem State.cmdEnd_keeps {qq : List Instr} {bb : Prop} (f : Func) (index : BitVec 16) (e : Entry) (r : CmdEnd)
    (h_r : r.Keeps qq bb) : Keeps qq bb (State.cmdEnd f index e r) := by
  unfold State.cmdEnd
  cases r with
  | done s a x y => exact State.completeCmd_keeps _ _ _ _ _ _ _ h_r
  | started s => exact State.modFn_keeps _ _ _ h_r
  | parked s => exact State.modFn_keeps _ _ _ h_r

@[simp] theorem State.runCommand_keeps {qq : List Instr} {bb : Prop} (s : State) (f : Func) (ty : Nat) (pick : Entry → Bool)
    (act : State → Entry → CmdEnd) (h_s : Keeps qq bb s) (h_act : ∀ v0 v1, Keeps qq bb v0 → (act v0 v1).Keeps qq bb)
    : Keeps qq bb (State.runCommand s f ty pick act) := by
  unfold State.runCommand
  try dsimp only
  repeat' first | with_reducible assumption | with_reducible apply keeps_if | with_reducible apply h_s | with_reducible apply h_act
                | with_reducible apply State.consume_keeps | with_reducible apply State.postEvent_keeps
                | with_reducible apply State.completeCmd_keeps | with_reducible apply State.cmdEnd_keeps
                | with_reducible apply CmdEnd.done_keeps | with_reducible apply CmdEnd.started_keeps
                | with_reducible apply CmdEnd.parked_keeps | split | intro

@[simp] theorem State.undefinedHead_keeps {qq : List Instr} {bb : Prop} (s : State) (f : Func) (h_s : Keeps qq bb s)
    : Keeps qq bb (State.undefinedHead s f) := by
  unfold State.undefinedHead
  try dsimp only
  repeat' first | with_reducible assumption | with_reducible apply keeps_if | with_reducible apply h_s
                | with_reducible apply State.postEvent_keeps | with_reducible apply State.consume_keeps
                | with_reducible apply State.runCommand_keeps | with_reducible apply CmdEnd.done_keeps
                | with_reducible apply CmdEnd.started_keeps | with_reducible apply CmdEnd.parked_keeps | split | intro

@[simp] theorem State.storeWords_keeps {qq : List Instr} {bb : Prop} (s : State) (w : Nat) (ws : List (Half × Bool)) (h_s : Keeps qq bb s)
    : Keeps qq bb (State.storeWords s w ws) := by
  unfold State.storeWords
  try dsimp only
  repeat' first | with_reducible assumption | with_reducible apply keeps_if | with_reducible apply h_s | simp only [keeps_mk_iff]
                | simp only [keeps_hst_eq] | with_reducible apply KeepsH.of | with_reducible apply writeWords_wf
                | exact wf_of_cells rfl rfl ‹_› | split | intro

@[simp] theorem State.placeItem_keeps {qq : List Instr} {bb : Prop} (s : State) (e : Fin 17) (kind : Nat) (header : Half)
    (payload : List Byte) (h_s : Keeps qq bb s) : Keeps qq bb (State.placeItem s e kind header payload) := by
  unfold State.placeItem
  try dsimp only
  repeat' first | with_reducible assumption | with_reducible apply keeps_if | with_reducible apply h_s
                | with_reducible apply State.storeWords_keeps | with_reducible apply State.decrementEngine_keeps
                | with_reducible apply State.modEng_keeps | split | intro

@[simp] theorem State.placeWaiting_keeps {qq : List Instr} {bb : Prop} (s : State) (e : Fin 17) (u0 : Nat) (h_s : Keeps qq bb s)
    : Keeps qq bb (State.placeWaiting s e u0) := by
  induction u0 generalizing s with
  | zero => exact h_s
  | succ n ih =>
    unfold State.placeWaiting
    try dsimp only
    repeat' first | with_reducible assumption | with_reducible apply keeps_if | with_reducible apply ih | with_reducible apply h_s
                  | with_reducible apply State.placeItem_keeps | with_reducible apply State.modEng_keeps | split | intro

@[simp] theorem State.offerItem_keeps {qq : List Instr} {bb : Prop} (s : State) (e : Fin 17) (kind : Nat) (header : Half)
    (h_s : Keeps qq bb s) : Keeps qq bb (State.offerItem s e kind header) := by
  unfold State.offerItem
  try dsimp only
  repeat' first | with_reducible assumption | with_reducible apply keeps_if | with_reducible apply h_s
                | with_reducible apply State.placeWaiting_keeps | with_reducible apply State.modEng_keeps | split | intro

@[simp] theorem State.endTx_keeps {qq : List Instr} {bb : Prop} (s : State) (e : Fin 17) (result : Nat) (h_s : Keeps qq bb s)
    : Keeps qq bb (State.endTx s e result) := by
  unfold State.endTx
  try dsimp only
  repeat' first | with_reducible assumption | with_reducible apply keeps_if | with_reducible apply h_s
                | with_reducible apply State.modEng_keeps | with_reducible apply State.decrementEngine_keeps | split | intro

@[simp] theorem State.ccChange_keeps {qq : List Instr} {bb : Prop} (s : State) (e : Fin 17) (h_s : Keeps qq bb s)
    : Keeps qq bb (State.ccChange s e) := by
  unfold State.ccChange
  try dsimp only
  repeat' first | with_reducible assumption | with_reducible apply keeps_if | with_reducible apply h_s
                | with_reducible apply State.modEng_keeps | split | intro

@[simp] theorem State.gateOff_keeps {qq : List Instr} {bb : Prop} (s : State) (p : Fin 17) (h_s : Keeps qq bb s)
    : Keeps qq bb (State.gateOff s p) := by
  unfold State.gateOff
  try dsimp only
  repeat' first | with_reducible assumption | with_reducible apply keeps_if | with_reducible apply h_s
                | with_reducible apply State.modMoor_keeps | split | intro

@[simp] theorem State.gateOn_keeps {qq : List Instr} {bb : Prop} (s : State) (p : Fin 17) (h_s : Keeps qq bb s)
    : Keeps qq bb (State.gateOn s p) := by
  unfold State.gateOn
  try dsimp only
  repeat' first | with_reducible assumption | with_reducible apply keeps_if | with_reducible apply h_s
                | with_reducible apply State.modMoor_keeps | split | intro

@[simp] theorem State.leavePartner_keeps {qq : List Instr} {bb : Prop} (s : State) (e : Fin 17) (st : TcState) (h_s : Keeps qq bb s)
    : Keeps qq bb (State.leavePartner s e st) := by
  unfold State.leavePartner
  try dsimp only
  repeat' first | with_reducible assumption | with_reducible apply keeps_if | with_reducible apply h_s
                | with_reducible apply State.ccChange_keeps | with_reducible apply State.modEng_keeps
                | with_reducible apply State.gateOff_keeps | with_reducible apply State.endTx_keeps
                | with_reducible apply State.offerItem_keeps | split | intro

@[simp] theorem State.takePreference_keeps {qq : List Instr} {bb : Prop} (s : State) (e : Fin 17) (h_s : Keeps qq bb s)
    : Keeps qq bb (State.takePreference s e) := by
  unfold State.takePreference
  try dsimp only
  repeat' first | with_reducible assumption | with_reducible apply keeps_if | with_reducible apply h_s
                | with_reducible apply State.modEng_keeps | simp only [keeps_mk_iff] | split | intro

@[simp] theorem State.unattach_keeps {qq : List Instr} {bb : Prop} (s : State) (e : Fin 17) (h_s : Keeps qq bb s)
    : Keeps qq bb (State.unattach s e) := by
  unfold State.unattach
  try dsimp only
  repeat' first | with_reducible assumption | with_reducible apply keeps_if | with_reducible apply h_s
                | with_reducible apply State.freeBit_keeps | with_reducible apply State.leavePartner_keeps
                | with_reducible apply State.takePreference_keeps | simp only [keeps_mk_iff] | refine of_pair1 (by assumption) ?_
                | refine of_pair2 (by assumption) ?_ | split | intro

@[simp] theorem State.followVconn_keeps {qq : List Instr} {bb : Prop} (s : State) (e : Fin 17) (h_s : Keeps qq bb s)
    : Keeps qq bb (State.followVconn s e) := by
  unfold State.followVconn
  try dsimp only
  repeat' first | with_reducible assumption | with_reducible apply keeps_if | with_reducible apply h_s
                | with_reducible apply State.modEng_keeps | split | intro

@[simp] theorem State.implicitSource_keeps {qq : List Instr} {bb : Prop} (s : State) (e : Fin 17) (h_s : Keeps qq bb s)
    : Keeps qq bb (State.implicitSource s e) := by
  unfold State.implicitSource
  try dsimp only
  repeat' first | with_reducible assumption | with_reducible apply keeps_if | with_reducible apply h_s
                | with_reducible apply State.ccChange_keeps | with_reducible apply State.modEng_keeps | split | intro

@[simp] theorem State.attachSrc_keeps {qq : List Instr} {bb : Prop} (s : State) (e : Fin 17) (h_s : Keeps qq bb s)
    : Keeps qq bb (State.attachSrc s e) := by
  unfold State.attachSrc
  try dsimp only
  repeat' first | with_reducible assumption | with_reducible apply keeps_if | with_reducible apply h_s
                | with_reducible apply State.modEng_keeps | with_reducible apply State.followVconn_keeps
                | with_reducible apply State.implicitSource_keeps | with_reducible apply State.ccChange_keeps
                | with_reducible apply State.gateOn_keeps | with_reducible apply State.offerItem_keeps | split | intro

@[simp] theorem State.attachSnk_keeps {qq : List Instr} {bb : Prop} (s : State) (e : Fin 17) (h_s : Keeps qq bb s)
    : Keeps qq bb (State.attachSnk s e) := by
  unfold State.attachSnk
  try dsimp only
  repeat' first | with_reducible assumption | with_reducible apply keeps_if | with_reducible apply h_s
                | with_reducible apply State.modEng_keeps | with_reducible apply State.ccChange_keeps
                | with_reducible apply State.modMoor_keeps | with_reducible apply State.offerItem_keeps | split | intro

@[simp] theorem State.handOver_keeps {qq : List Instr} {bb : Prop} (s : State) (h_s : Keeps qq bb s)
    : Keeps qq bb (State.handOver s) := by
  unfold State.handOver
  try dsimp only
  repeat' first | with_reducible assumption | with_reducible apply keeps_if | with_reducible apply h_s
                | with_reducible apply State.attachSnk_keeps | with_reducible apply State.leavePartner_keeps
                | with_reducible apply State.takePreference_keeps | split | intro

@[simp] theorem State.followEngine_keeps {qq : List Instr} {bb : Prop} (s : State) (e : Fin 17) (h_s : Keeps qq bb s)
    : Keeps qq bb (State.followEngine s e) := by
  unfold State.followEngine
  try dsimp only
  repeat' first | with_reducible assumption | with_reducible apply keeps_if | with_reducible apply h_s
                | with_reducible apply State.handOver_keeps | with_reducible apply State.unattach_keeps
                | with_reducible apply State.leavePartner_keeps | split | intro

@[simp] theorem State.ppsRelease_keeps {qq : List Instr} {bb : Prop} (s : State) (q : Fin 4) (h_s : Keeps qq bb s)
    : Keeps qq bb (State.ppsRelease s q) := by
  unfold State.ppsRelease
  try dsimp only
  repeat' first | with_reducible assumption | with_reducible apply keeps_if | with_reducible apply h_s
                | with_reducible apply State.modMoor_keeps | with_reducible apply foldl_keeps | simp only [keeps_mk_iff] | split | intro

@[simp] theorem State.startRamp_keeps {qq : List Instr} {bb : Prop} (s : State) (q : Fin 4) (v : Nat) (h_s : Keeps qq bb s)
    : Keeps qq bb (State.startRamp s q v) := by
  unfold State.startRamp
  try dsimp only
  repeat' first | with_reducible assumption | with_reducible apply keeps_if | with_reducible apply h_s
                | with_reducible apply State.ppsRelease_keeps | with_reducible apply State.modSector_keeps | simp only [keeps_mk_iff]
                | split | intro

@[simp] theorem State.followPps_keeps {qq : List Instr} {bb : Prop} (s : State) (q : Fin 4) (h_s : Keeps qq bb s)
    : Keeps qq bb (State.followPps s q) := by
  unfold State.followPps
  try dsimp only
  repeat' first | with_reducible assumption | with_reducible apply keeps_if | with_reducible apply h_s
                | with_reducible apply State.ppsRelease_keeps | with_reducible apply State.modSector_keeps | simp only [keeps_mk_iff]
                | split | intro

@[simp] theorem State.followSector_keeps {qq : List Instr} {bb : Prop} (s0 : State) (s : State) (q : Fin 4) (h_s : Keeps qq bb s)
    : Keeps qq bb (State.followSector s0 s q) := by
  unfold State.followSector
  try dsimp only
  repeat' first | with_reducible assumption | with_reducible apply keeps_if | with_reducible apply h_s
                | with_reducible apply State.startRamp_keeps | with_reducible apply State.modSector_keeps
                | with_reducible apply State.followPps_keeps | split | intro

@[simp] theorem State.dropPower_keeps {qq : List Instr} {bb : Prop} (s : State) (p : Fin 17) (h_s : Keeps qq bb s)
    : Keeps qq bb (State.dropPower s p) := by
  unfold State.dropPower
  try dsimp only
  repeat' first | with_reducible assumption | with_reducible apply keeps_if | with_reducible apply h_s
                | with_reducible apply State.leavePartner_keeps | split | intro

@[simp] theorem State.trip_keeps {qq : List Instr} {bb : Prop} (s : State) (p : Fin 17) (kind : Nat) (h_s : Keeps qq bb s)
    : Keeps qq bb (State.trip s p kind) := by
  unfold State.trip
  try dsimp only
  repeat' first | with_reducible assumption | with_reducible apply keeps_if | with_reducible apply h_s
                | with_reducible apply State.modMoor_keeps | with_reducible apply State.leavePartner_keeps | split | intro

@[simp] theorem State.failSector_keeps {qq : List Instr} {bb : Prop} (s : State) (q : Fin 4) (cause : Nat) (h_s : Keeps qq bb s)
    : Keeps qq bb (State.failSector s q cause) := by
  unfold State.failSector
  try dsimp only
  repeat' first | with_reducible assumption | with_reducible apply keeps_if | with_reducible apply h_s
                | with_reducible apply State.trip_keeps | with_reducible apply State.modSector_keeps | with_reducible apply foldl_keeps
                | split | intro

@[simp] theorem State.followPower_keeps {qq : List Instr} {bb : Prop} (s0 : State) (s : State) (h_s : Keeps qq bb s)
    : Keeps qq bb (State.followPower s0 s) := by
  unfold State.followPower
  try dsimp only
  repeat' first | with_reducible assumption | with_reducible apply keeps_if | with_reducible apply h_s
                | with_reducible apply State.followEngine_keeps | with_reducible apply State.followSector_keeps
                | with_reducible apply foldl_keeps | split | intro

@[simp] theorem State.modMbox_keeps {qq : List Instr} {bb : Prop} (s : State) (b : Fin 15) (g : Mailbox → Mailbox) (h_s : Keeps qq bb s)
    : Keeps qq bb (State.modMbox s b g) := by
  unfold State.modMbox
  try dsimp only
  repeat' first | with_reducible assumption | with_reducible apply keeps_if | with_reducible apply h_s | simp only [keeps_mk_iff] | split
                | intro

@[simp] theorem State.resetMailboxes_keeps {qq : List Instr} {bb : Prop} (s : State) (f : Func) (h_s : Keeps qq bb s)
    : Keeps qq bb (State.resetMailboxes s f) := by
  unfold State.resetMailboxes
  try dsimp only
  repeat' first | with_reducible assumption | with_reducible apply keeps_if | with_reducible apply h_s
                | with_reducible apply State.modMbox_keeps | simp only [keeps_mk_iff] | split | intro

@[simp] theorem State.dropLampsOf_keeps {qq : List Instr} {bb : Prop} (s : State) (f : Func) (h_s : Keeps qq bb s)
    : Keeps qq bb (State.dropLampsOf s f) := by
  unfold State.dropLampsOf
  try dsimp only
  repeat' first | with_reducible assumption | with_reducible apply keeps_if | with_reducible apply h_s | simp only [keeps_mk_iff] | split
                | intro

@[simp] theorem State.dropCommandsOf_keeps {qq : List Instr} {bb : Prop} (s : State) (f : Func) (h_s : Keeps qq bb s)
    : Keeps qq bb (State.dropCommandsOf s f) := by
  unfold State.dropCommandsOf
  try dsimp only
  repeat' first | with_reducible assumption | with_reducible apply keeps_if | with_reducible apply h_s | simp only [keeps_mk_iff] | split
                | intro

@[simp] theorem State.unfreezeByReset_keeps {qq : List Instr} {bb : Prop} (s : State) (b : Fin 15) (h_s : Keeps qq bb s)
    : Keeps qq bb (State.unfreezeByReset s b) := by
  unfold State.unfreezeByReset
  try dsimp only
  repeat' first | with_reducible assumption | with_reducible apply keeps_if | with_reducible apply h_s
                | with_reducible apply State.modMigr_keeps | with_reducible apply State.finishCmd_keeps | split | intro

@[simp] theorem State.resetSlot_keeps {qq : List Instr} {bb : Prop} (s : State) (i : Fin 32) (h_s : Keeps qq bb s)
    : Keeps qq bb (State.resetSlot s i) := by
  unfold State.resetSlot
  try dsimp only
  repeat' first | with_reducible assumption | with_reducible apply keeps_if | with_reducible apply h_s
                | with_reducible apply State.modMsix_keeps | split | intro

@[simp] theorem State.resetFunction_keeps {qq : List Instr} {bb : Prop} (s : State) (f : Func) (h_s : Keeps qq bb s)
    : Keeps qq bb (State.resetFunction s f) := by
  unfold State.resetFunction
  try dsimp only
  repeat' first | with_reducible assumption | with_reducible apply keeps_if | with_reducible apply h_s
                | with_reducible apply State.dropCommandsOf_keeps | with_reducible apply State.modFn_keeps
                | with_reducible apply State.resetSlot_keeps | with_reducible apply State.resetMailboxes_keeps
                | with_reducible apply State.dropLampsOf_keeps | with_reducible apply State.forgetRequester_keeps
                | with_reducible apply State.unfreezeByReset_keeps | simp only [keeps_mk_iff] | split | intro

@[simp] theorem State.slotEvent_keeps {qq : List Instr} {bb : Prop} (s : State) (l : Link) (b : Fin 15) (h_s : Keeps qq bb s)
    : Keeps qq bb (State.slotEvent s l b) := by
  unfold State.slotEvent
  try dsimp only
  repeat' first | with_reducible assumption | with_reducible apply keeps_if | with_reducible apply h_s
                | with_reducible apply State.postFnEvent_keeps | split | intro

@[simp] theorem State.slotEvents_keeps {qq : List Instr} {bb : Prop} (s : State) (b : Fin 15) (h_s : Keeps qq bb s)
    : Keeps qq bb (State.slotEvents s b) := by
  unfold State.slotEvents
  try dsimp only
  repeat' first | with_reducible assumption | with_reducible apply keeps_if | with_reducible apply h_s
                | with_reducible apply State.slotEvent_keeps | split | intro

@[simp] theorem State.finishRelease_keeps {qq : List Instr} {bb : Prop} (s : State) (b : Fin 15) (h_s : Keeps qq bb s)
    : Keeps qq bb (State.finishRelease s b) := by
  unfold State.finishRelease
  try dsimp only
  repeat' first | with_reducible assumption | with_reducible apply keeps_if | with_reducible apply h_s
                | with_reducible apply State.modBuoy_keeps | with_reducible apply State.resetFunction_keeps
                | with_reducible apply State.slotEvents_keeps | simp only [keeps_mk_iff] | split | intro

@[simp] theorem State.resetConfig_keeps {qq : List Instr} {bb : Prop} (s : State) (l : Link) (h_s : Keeps qq bb s)
    : Keeps qq bb (State.resetConfig s l) := by
  unfold State.resetConfig
  try dsimp only
  repeat' first | with_reducible assumption | with_reducible apply keeps_if | with_reducible apply h_s
                | with_reducible apply State.resetSlot_keeps | with_reducible apply State.modLink_keeps | with_reducible apply keeps_dif
                | with_reducible apply foldl_keeps | split | intro

@[simp] theorem State.loseLink_keeps {qq : List Instr} {bb : Prop} (s : State) (l : Link) (h_s : Keeps qq bb s)
    : Keeps qq bb (State.loseLink s l) := by
  unfold State.loseLink
  try dsimp only
  repeat' first | with_reducible assumption | with_reducible apply keeps_if | with_reducible apply h_s
                | with_reducible apply State.modLink_keeps | with_reducible apply State.resetFunction_keeps
                | with_reducible apply State.resetConfig_keeps | with_reducible apply foldl_keeps | simp only [keeps_mk_iff] | split
                | intro

@[simp] theorem State.sendPending_keeps {qq : List Instr} {bb : Prop} (s : State) (l : Link) (slot : Nat) (h : slot < 16)
    (h_s : Keeps qq bb s) : Keeps qq bb (State.sendPending s l slot h) := by
  unfold State.sendPending
  try dsimp only
  repeat' first | with_reducible assumption | with_reducible apply keeps_if | with_reducible apply h_s
                | with_reducible apply State.wakeFn_keeps | with_reducible apply State.emit_keeps
                | with_reducible apply State.logWrite_keeps | with_reducible apply State.disarmRing_keeps
                | with_reducible apply foldl_keeps | simp only [keeps_mk_iff] | split | intro

@[simp] theorem State.sendPendingFn_keeps {qq : List Instr} {bb : Prop} (s : State) (f : Func) (h_s : Keeps qq bb s)
    : Keeps qq bb (State.sendPendingFn s f) := by
  unfold State.sendPendingFn
  try dsimp only
  repeat' first | with_reducible assumption | with_reducible apply keeps_if | with_reducible apply h_s
                | with_reducible apply State.sendPending_keeps | simp only [keeps_mk_iff] | split | intro

@[simp] theorem State.askAll_keeps {qq : List Instr} {bb : Prop} (s : State) (f : Func) (h_s : Keeps qq bb s)
    : Keeps qq bb (State.askAll s f) := by
  unfold State.askAll
  try dsimp only
  repeat' first | with_reducible assumption | with_reducible apply keeps_if | with_reducible apply h_s
                | with_reducible apply State.askData_keeps | with_reducible apply foldl_keeps | split | intro

@[simp] theorem State.resumeFn_keeps {qq : List Instr} {bb : Prop} (s : State) (f : Func) (h_s : Keeps qq bb s)
    : Keeps qq bb (State.resumeFn s f) := by
  unfold State.resumeFn
  try dsimp only
  repeat' first | with_reducible assumption | with_reducible apply keeps_if | with_reducible apply h_s
                | with_reducible apply State.issueHeldDma_keeps | with_reducible apply State.flushFn_keeps
                | with_reducible apply State.flushUnservedFn_keeps | with_reducible apply State.sendMessage_keeps
                | with_reducible apply State.sendPendingFn_keeps | with_reducible apply State.askAll_keeps
                | with_reducible apply foldl_keeps | split | intro

@[simp] theorem State.resumeLink_keeps {qq : List Instr} {bb : Prop} (s : State) (l : Link) (h_s : Keeps qq bb s)
    : Keeps qq bb (State.resumeLink s l) := by
  unfold State.resumeLink
  try dsimp only
  repeat' first | with_reducible assumption | with_reducible apply keeps_if | with_reducible apply h_s
                | with_reducible apply State.resumeFn_keeps | with_reducible apply foldl_keeps | split | intro

@[simp] theorem State.finishPort_keeps {qq : List Instr} {bb : Prop} (s : State) (n : Fin 16) (outcome : Nat) (h_s : Keeps qq bb s)
    : Keeps qq bb (State.finishPort s n outcome) := by
  unfold State.finishPort
  try dsimp only
  repeat' first | with_reducible assumption | with_reducible apply keeps_if | with_reducible apply h_s
                | with_reducible apply State.finishCmd_keeps | with_reducible apply State.modPort_keeps | with_reducible apply foldl_keeps
                | simp only [keeps_mk_iff] | split | intro

@[simp] theorem State.followPort_keeps {qq : List Instr} {bb : Prop} (s : State) (n : Fin 16) (h_s : Keeps qq bb s)
    : Keeps qq bb (State.followPort s n) := by
  unfold State.followPort
  try dsimp only
  repeat' first | with_reducible assumption | with_reducible apply keeps_if | with_reducible apply h_s
                | with_reducible apply State.modPort_keeps | with_reducible apply State.finishPort_keeps
                | with_reducible apply State.releasePort_keeps | split | intro

@[simp] theorem State.countPort_keeps {qq : List Instr} {bb : Prop} (s0 : State) (s : State) (n : Fin 16) (h_s : Keeps qq bb s)
    : Keeps qq bb (State.countPort s0 s n) := by
  unfold State.countPort
  try dsimp only
  repeat' first | with_reducible assumption | with_reducible apply keeps_if | with_reducible apply h_s
                | with_reducible apply State.modPort_keeps | split | intro

@[simp] theorem State.rejectLost_keeps {qq : List Instr} {bb : Prop} (s : State) (f : Func) (ring : Fin 65) (u0 : Nat)
    (h_s : Keeps qq bb s) : Keeps qq bb (State.rejectLost s f ring u0) := by
  induction u0 generalizing s with
  | zero => exact h_s
  | succ n ih =>
    unfold State.rejectLost
    try dsimp only
    repeat' first | with_reducible assumption | with_reducible apply keeps_if | with_reducible apply ih | with_reducible apply h_s
                  | with_reducible apply State.completeHead_keeps | split | intro

@[simp] theorem State.ownershipEvents_keeps {qq : List Instr} {bb : Prop} (s : State) (moves : List (Func × DWord × DWord))
    (h_s : Keeps qq bb s) : Keeps qq bb (State.ownershipEvents s moves) := by
  unfold State.ownershipEvents
  try dsimp only
  repeat' first | with_reducible assumption | with_reducible apply keeps_if | with_reducible apply h_s
                | with_reducible apply State.postFnEvent_keeps | with_reducible apply foldl_keeps | split | intro

@[simp] theorem State.finishAssign_keeps {qq : List Instr} {bb : Prop} (s : State) (h_s : Keeps qq bb s)
    : Keeps qq bb (State.finishAssign s) := by
  unfold State.finishAssign
  try dsimp only
  repeat' first | with_reducible assumption | with_reducible apply keeps_if | with_reducible apply h_s
                | with_reducible apply State.rejectLost_keeps | with_reducible apply State.release_keeps
                | with_reducible apply State.finishRelease_keeps | with_reducible apply State.finishCmd_keeps
                | with_reducible apply State.ownershipEvents_keeps | with_reducible apply foldl_keeps | simp only [keeps_mk_iff] | split
                | intro

@[simp] theorem State.restateOwner_keeps {qq : List Instr} {bb : Prop} (s : State) (n : Fin 16) (h_s : Keeps qq bb s)
    : Keeps qq bb (State.restateOwner s n) := by
  unfold State.restateOwner
  try dsimp only
  repeat' first | with_reducible assumption | with_reducible apply keeps_if | with_reducible apply h_s | simp only [keeps_mk_iff] | split
                | intro

@[simp] theorem State.followOwners_keeps {qq : List Instr} {bb : Prop} (s0 : State) (s : State) (h_s : Keeps qq bb s)
    : Keeps qq bb (State.followOwners s0 s) := by
  unfold State.followOwners
  try dsimp only
  repeat' first | with_reducible assumption | with_reducible apply keeps_if | with_reducible apply h_s
                | with_reducible apply State.restateOwner_keeps | with_reducible apply foldl_keeps | split | intro

@[simp] theorem State.followPins_keeps {qq : List Instr} {bb : Prop} (s : State) (h_s : Keeps qq bb s)
    : Keeps qq bb (State.followPins s) := by
  unfold State.followPins
  try dsimp only
  repeat' first | with_reducible assumption | with_reducible apply keeps_if | with_reducible apply h_s | simp only [keeps_mk_iff] | split
                | intro

@[simp] theorem State.followAddress_keeps {qq : List Instr} {bb : Prop} (s : State) (fa : Fin 4) (h_s : Keeps qq bb s)
    : Keeps qq bb (State.followAddress s fa) := by
  unfold State.followAddress
  try dsimp only
  repeat' first | with_reducible assumption | with_reducible apply keeps_if | with_reducible apply h_s
                | with_reducible apply State.modFairway_keeps | with_reducible apply State.finishCmd_keeps | simp only [keeps_mk_iff]
                | split | intro

@[simp] theorem State.followSink_keeps {qq : List Instr} {bb : Prop} (s : State) (h_s : Keeps qq bb s)
    : Keeps qq bb (State.followSink s) := by
  unfold State.followSink
  try dsimp only
  repeat' first | with_reducible assumption | with_reducible apply keeps_if | with_reducible apply h_s | simp only [keeps_mk_iff] | split
                | intro

@[simp] theorem State.after_keeps {qq : List Instr} {bb : Prop} (s0 : State) (s : State) (h_s : Keeps qq bb s)
    : Keeps qq bb (State.after s0 s) := by
  unfold State.after
  try dsimp only
  repeat' first | with_reducible assumption | with_reducible apply keeps_if | with_reducible apply h_s
                | with_reducible apply State.followPort_keeps | with_reducible apply State.followPower_keeps
                | with_reducible apply State.followPins_keeps | with_reducible apply State.followSink_keeps
                | with_reducible apply State.followAddress_keeps | with_reducible apply State.countPort_keeps
                | with_reducible apply State.followOwners_keeps | with_reducible apply State.finishAssign_keeps
                | with_reducible apply State.settle_keeps | with_reducible apply foldl_keeps | split | intro

end Sys2Proof.Machine
end

