-- ==== Sys2Proof/Laws/KeepRings.lean ====
section
/-! SUPPORT. `Keeps`: what the operations of rings, Lamps, mailboxes and resets of functions keep. -/

namespace Sys2Proof.Machine

@[simp] theorem State.ringAccess_keeps {qq : List Instr} {bb : Prop} (s : State) (p : Path) (o : Nat) (act : Func → State → State)
    (h_s : Keeps qq bb s) (h_act : ∀ x0 s, Keeps qq bb s → Keeps qq bb (act x0 s)) : Keeps qq bb (State.ringAccess s p o act) := by
  unfold State.ringAccess
  try dsimp only
  repeat' first | with_reducible assumption | with_reducible apply keeps_if | with_reducible apply h_s | with_reducible apply h_act
                | with_reducible apply State.accessAny_keeps | with_reducible apply State.refuse_keeps | simp only [keeps_mk_iff] | split
                | intro

@[simp] theorem State.produce_keeps {qq : List Instr} {bb : Prop} (s : State) (f : Func) (ring : Fin 65) (d : BitVec 16)
    (h_s : Keeps qq bb s) : Keeps qq bb (State.produce s f ring d) := by
  unfold State.produce
  try dsimp only
  repeat' first | with_reducible assumption | with_reducible apply keeps_if | with_reducible apply h_s
                | with_reducible apply State.modRing_keeps | with_reducible apply State.ringFault_keeps | split | intro

@[simp] theorem State.consumeEvents_keeps {qq : List Instr} {bb : Prop} (s : State) (f : Func) (n : Fin 4) (d : BitVec 16)
    (h_s : Keeps qq bb s) : Keeps qq bb (State.consumeEvents s f n d) := by
  unfold State.consumeEvents
  try dsimp only
  repeat' first | with_reducible assumption | with_reducible apply keeps_if | with_reducible apply h_s
                | with_reducible apply State.modEvRing_keeps | with_reducible apply State.flushUnservedFn_keeps
                | with_reducible apply State.flushHeld_keeps | with_reducible apply State.evFullUpdate_keeps
                | with_reducible apply State.ringFault_keeps | split | intro

@[simp] theorem State.ringDoorbell_keeps {qq : List Instr} {bb : Prop} (s : State) (f : Func) (v : DWord) (h_s : Keeps qq bb s)
    : Keeps qq bb (State.ringDoorbell s f v) := by
  unfold State.ringDoorbell
  try dsimp only
  repeat' first | with_reducible assumption | with_reducible apply keeps_if | with_reducible apply keeps_dif | with_reducible apply h_s
                | with_reducible apply State.ringFault_keeps | with_reducible apply State.consumeEvents_keeps
                | with_reducible apply State.produce_keeps | split | intro

@[simp] theorem State.holdPush_keeps {qq : List Instr} {bb : Prop} (s : State) (f : Func) (ring : Fin 65) (index : BitVec 16) (e : Entry)
    (h_s : Keeps qq bb s) : Keeps qq bb (State.holdPush s f ring index e) := by
  unfold State.holdPush
  try dsimp only
  repeat' first | with_reducible assumption | with_reducible apply keeps_if | with_reducible apply h_s
                | with_reducible apply State.ringFault_keeps | with_reducible apply State.modRing_keeps | split | intro

@[simp] theorem State.ringPush_keeps {qq : List Instr} {bb : Prop} (s : State) (f : Func) (v : DWord) (h_s : Keeps qq bb s)
    : Keeps qq bb (State.ringPush s f v) := by
  unfold State.ringPush
  try dsimp only
  repeat' first | with_reducible assumption | with_reducible apply keeps_if | with_reducible apply h_s
                | with_reducible apply State.ringFault_keeps | with_reducible apply State.modRing_keeps
                | with_reducible apply State.holdPush_keeps | with_reducible apply foldl_keeps | split | intro

@[simp] theorem State.pushWindow_keeps {qq : List Instr} {bb : Prop} (s : State) (f : Func) (w : Fin 32) (v : DWord) (h_s : Keeps qq bb s)
    : Keeps qq bb (State.pushWindow s f w v) := by
  unfold State.pushWindow
  try dsimp only
  repeat' first | with_reducible assumption | with_reducible apply keeps_if | with_reducible apply h_s
                | with_reducible apply State.freeDWord_keeps | with_reducible apply State.ringFault_keeps
                | with_reducible apply State.modFn_keeps | split | intro

@[simp] theorem State.stageLow_keeps {qq : List Instr} {bb : Prop} (s : State) (r : Requester) (off : Nat) (v : DWord)
    (h_s : Keeps qq bb s) : Keeps qq bb (State.stageLow s r off v) := by
  unfold State.stageLow
  try dsimp only
  repeat' first | with_reducible assumption | with_reducible apply keeps_if | with_reducible apply h_s
                | with_reducible apply State.modReq_keeps | simp only [keeps_mk_iff] | split | intro

@[simp] theorem State.dropStaged_keeps {qq : List Instr} {bb : Prop} (s : State) (r : Requester) (off : Nat) (h_s : Keeps qq bb s)
    : Keeps qq bb (State.dropStaged s r off) := by
  unfold State.dropStaged
  try dsimp only
  repeat' first | with_reducible assumption | with_reducible apply keeps_if | with_reducible apply h_s
                | with_reducible apply State.modReq_keeps | simp only [keeps_mk_iff] | split | intro

@[simp] theorem State.bindRing_keeps {qq : List Instr} {bb : Prop} (s : State) (f : Func) (ring : Fin 65) (v : DWord)
    (h_s : Keeps qq bb s) : Keeps qq bb (State.bindRing s f ring v) := by
  unfold State.bindRing
  try dsimp only
  repeat' first | with_reducible assumption | with_reducible apply keeps_if | with_reducible apply h_s
                | with_reducible apply State.modRing_keeps | split | intro

@[simp] theorem State.ringCfg_keeps {qq : List Instr} {bb : Prop} (s : State) (f : Func) (ring : Fin 65) (v : DWord) (h_s : Keeps qq bb s)
    : Keeps qq bb (State.ringCfg s f ring v) := by
  unfold State.ringCfg
  try dsimp only
  repeat' first | with_reducible assumption | with_reducible apply keeps_if | with_reducible apply h_s
                | with_reducible apply State.modRing_keeps | split | intro

@[simp] theorem State.evCfg_keeps {qq : List Instr} {bb : Prop} (s : State) (f : Func) (n : Fin 4) (v : DWord) (h_s : Keeps qq bb s)
    : Keeps qq bb (State.evCfg s f n v) := by
  unfold State.evCfg
  try dsimp only
  repeat' first | with_reducible assumption | with_reducible apply keeps_if | with_reducible apply h_s
                | with_reducible apply State.modEvRing_keeps | with_reducible apply State.restateRing_keeps | simp only [keeps_mk_iff]
                | split | intro

@[simp] theorem State.ringSetup_keeps {qq : List Instr} {bb : Prop} (s : State) (req : Requester) (f : Func) (off : Nat) (ring : Fin 65)
    (o : Nat) (v : DWord) (h_s : Keeps qq bb s) : Keeps qq bb (State.ringSetup s req f off ring o v) := by
  unfold State.ringSetup
  try dsimp only
  repeat' first | with_reducible assumption | with_reducible apply keeps_if | with_reducible apply keeps_dif | with_reducible apply h_s
                | with_reducible apply State.refuse_keeps | with_reducible apply State.stageLow_keeps
                | with_reducible apply State.dropStaged_keeps | with_reducible apply State.modRing_keeps
                | with_reducible apply State.ringCfg_keeps | with_reducible apply State.bindRing_keeps | split | intro

@[simp] theorem State.evSetup_keeps {qq : List Instr} {bb : Prop} (s : State) (req : Requester) (f : Func) (off : Nat) (n : Fin 4)
    (o : Nat) (v : DWord) (h_s : Keeps qq bb s) : Keeps qq bb (State.evSetup s req f off n o v) := by
  unfold State.evSetup
  try dsimp only
  repeat' first | with_reducible assumption | with_reducible apply keeps_if | with_reducible apply keeps_dif | with_reducible apply h_s
                | with_reducible apply State.refuse_keeps | with_reducible apply State.stageLow_keeps
                | with_reducible apply State.dropStaged_keeps | with_reducible apply State.modEvRing_keeps
                | with_reducible apply State.evCfg_keeps | split | intro

@[simp] theorem State.writeRng_keeps {qq : List Instr} {bb : Prop} (s : State) (req : Requester) (f : Func) (off : Nat) (o : Nat)
    (v : DWord) (h_s : Keeps qq bb s) : Keeps qq bb (State.writeRng s req f off o v) := by
  unfold State.writeRng
  try dsimp only
  repeat' first | with_reducible assumption | with_reducible apply keeps_if | with_reducible apply keeps_dif | with_reducible apply h_s
                | with_reducible apply State.ringDoorbell_keeps | with_reducible apply State.ringPush_keeps
                | with_reducible apply State.pushWindow_keeps | with_reducible apply State.ringSetup_keeps
                | with_reducible apply State.evSetup_keeps | with_reducible apply State.modFn_keeps | split | intro

@[simp] theorem execDoorbellProducer_keeps {qq : List Instr} {bb : Prop} (p : Path) (v : DWord) (s : State) (h_s : Keeps qq bb s)
    : OutKeeps qq bb (execDoorbellProducer p v s) := by
  unfold execDoorbellProducer
  try dsimp only
  repeat' first | with_reducible assumption | with_reducible apply OutKeeps.keeps_if | with_reducible apply h_s
                | with_reducible apply State.after_keeps | with_reducible apply State.ringAccess_keeps
                | with_reducible apply State.ringDoorbell_keeps | with_reducible apply OutKeeps.next | split | intro

@[simp] theorem execDoorbellConsumer_keeps {qq : List Instr} {bb : Prop} (p : Path) (v : DWord) (s : State) (h_s : Keeps qq bb s)
    : OutKeeps qq bb (execDoorbellConsumer p v s) := by
  unfold execDoorbellConsumer
  try dsimp only
  repeat' first | with_reducible assumption | with_reducible apply OutKeeps.keeps_if | with_reducible apply h_s
                | with_reducible apply State.after_keeps | with_reducible apply State.ringAccess_keeps
                | with_reducible apply State.ringDoorbell_keeps | with_reducible apply OutKeeps.next | split | intro

@[simp] theorem execPushWindowWrite_keeps {qq : List Instr} {bb : Prop} (p : Path) (w : Fin 32) (v : DWord) (s : State)
    (h_s : Keeps qq bb s) : OutKeeps qq bb (execPushWindowWrite p w v s) := by
  unfold execPushWindowWrite
  try dsimp only
  repeat' first | with_reducible assumption | with_reducible apply OutKeeps.keeps_if | with_reducible apply h_s
                | with_reducible apply State.after_keeps | with_reducible apply State.ringAccess_keeps
                | with_reducible apply State.pushWindow_keeps | with_reducible apply OutKeeps.next | split | intro

@[simp] theorem execPushDoorbell_keeps {qq : List Instr} {bb : Prop} (p : Path) (v : DWord) (s : State) (h_s : Keeps qq bb s)
    : OutKeeps qq bb (execPushDoorbell p v s) := by
  unfold execPushDoorbell
  try dsimp only
  repeat' first | with_reducible assumption | with_reducible apply OutKeeps.keeps_if | with_reducible apply h_s
                | with_reducible apply State.after_keeps | with_reducible apply State.ringAccess_keeps
                | with_reducible apply State.ringPush_keeps | with_reducible apply OutKeeps.next | split | intro

@[simp] theorem execRingOpen_keeps {qq : List Instr} {bb : Prop} (p : Path) (r : Fin 65) (v : DWord) (s : State) (h_s : Keeps qq bb s)
    : OutKeeps qq bb (execRingOpen p r v s) := by
  unfold execRingOpen
  try dsimp only
  repeat' first | with_reducible assumption | with_reducible apply OutKeeps.keeps_if | with_reducible apply h_s
                | with_reducible apply State.after_keeps | with_reducible apply State.ringAccess_keeps
                | with_reducible apply State.ringSetup_keeps | with_reducible apply OutKeeps.next | split | intro

@[simp] theorem execEventRingCfgWrite_keeps {qq : List Instr} {bb : Prop} (p : Path) (n : Fin 4) (v : DWord) (s : State)
    (h_s : Keeps qq bb s) : OutKeeps qq bb (execEventRingCfgWrite p n v s) := by
  unfold execEventRingCfgWrite
  try dsimp only
  repeat' first | with_reducible assumption | with_reducible apply OutKeeps.keeps_if | with_reducible apply h_s
                | with_reducible apply State.after_keeps | with_reducible apply State.ringAccess_keeps
                | with_reducible apply State.evCfg_keeps | with_reducible apply OutKeeps.next | split | intro

@[simp] theorem State.poisonedFetch_keeps {qq : List Instr} {bb : Prop} (s : State) (f : Func) (same : Bool) (addr : QWord)
    (h_s : Keeps qq bb s) : Keeps qq bb (State.poisonedFetch s f same addr) := by
  unfold State.poisonedFetch
  try dsimp only
  repeat' first | with_reducible assumption | with_reducible apply keeps_if | with_reducible apply h_s
                | with_reducible apply State.fnReadFault_keeps | split | intro

@[simp] theorem State.demandItem_keeps {qq : List Instr} {bb : Prop} (s : State) (f : Func) (ring : Fin 65) (i : BitVec 16)
    (x : FetchItem) (h_s : Keeps qq bb s) : Keeps qq bb (State.demandItem s f ring i x).1 := by
  unfold State.demandItem
  try dsimp only
  repeat' first | with_reducible assumption | with_reducible apply keeps_if | with_reducible apply h_s
                | with_reducible apply State.modRing_keeps | with_reducible apply State.ringFault_keeps
                | with_reducible apply State.poisonedFetch_keeps | with_reducible apply State.fnReadFault_keeps | simp only [keeps_mk_iff]
                | split | intro

@[simp] theorem State.specItem_keeps {qq : List Instr} {bb : Prop} (s : State) (f : Func) (ring : Fin 65) (i : BitVec 16)
    (x : FetchItem) (h_s : Keeps qq bb s) : Keeps qq bb (State.specItem s f ring i x).1 := by
  unfold State.specItem
  try dsimp only
  repeat' first | with_reducible assumption | with_reducible apply keeps_if | with_reducible apply h_s
                | with_reducible apply State.modRing_keeps | with_reducible apply State.poisonedFetch_keeps
                | with_reducible apply State.fnReadFault_keeps | simp only [keeps_mk_iff] | split | intro

@[simp] theorem State.bridgeEntry_keeps {qq : List Instr} {bb : Prop} (s : State) (ring : Fin 65) (i : BitVec 16) (h_s : Keeps qq bb s)
    : Keeps qq bb (State.bridgeEntry s ring i).2 := by
  unfold State.bridgeEntry
  try dsimp only
  repeat' first | with_reducible assumption | with_reducible apply keeps_if | with_reducible apply h_s | simp only [keeps_mk_iff]
                | simp only [keeps_hst_eq] | with_reducible apply KeepsH.of | with_reducible apply writeBytes_wf
                | with_reducible apply readBytes_wf | with_reducible apply readWords_wf | exact wf_of_cells rfl rfl ‹_› | split | intro

@[simp] theorem State.fetchItems_keeps {qq : List Instr} {bb : Prop} (s : State) (f : Func) (ring : Fin 65) (items : List FetchItem)
    (h_s : Keeps qq bb s) : Keeps qq bb (State.fetchItems s f ring items) := by
  induction items generalizing s with
  | nil => exact h_s
  | cons x t ih =>
    unfold State.fetchItems
    try dsimp only
    repeat' first | with_reducible assumption | with_reducible apply keeps_if | with_reducible apply ih | with_reducible apply h_s
                  | with_reducible apply State.bridgeEntry_keeps | with_reducible apply State.demandItem_keeps
                  | with_reducible apply State.specItem_keeps | split | intro

@[simp] theorem execRingFetchComplete_keeps {qq : List Instr} {bb : Prop} (f : Func) (r : Fin 65) (items : List FetchItem) (s : State)
    (h_s : Keeps qq bb s) : OutKeeps qq bb (execRingFetchComplete f r items s) := by
  unfold execRingFetchComplete
  try dsimp only
  repeat' first | with_reducible assumption | with_reducible apply OutKeeps.keeps_if | with_reducible apply h_s
                | with_reducible apply State.after_keeps | with_reducible apply State.fetchItems_keeps
                | with_reducible apply OutKeeps.next | split | intro

@[simp] theorem execNoop_keeps {qq : List Instr} {bb : Prop} (f : Func) (s : State) (h_s : Keeps qq bb s)
    : OutKeeps qq bb (execNoop f s) := by
  unfold execNoop
  try dsimp only
  repeat' first | with_reducible assumption | with_reducible apply OutKeeps.keeps_if | with_reducible apply h_s
                | with_reducible apply State.after_keeps | with_reducible apply State.runCommand_keeps
                | with_reducible apply CmdEnd.done_keeps | with_reducible apply CmdEnd.started_keeps
                | with_reducible apply CmdEnd.parked_keeps | with_reducible apply OutKeeps.next | split | intro

@[simp] theorem execUndefinedCommand_keeps {qq : List Instr} {bb : Prop} (f : Func) (s : State) (h_s : Keeps qq bb s)
    : OutKeeps qq bb (execUndefinedCommand f s) := by
  unfold execUndefinedCommand
  try dsimp only
  repeat' first | with_reducible assumption | with_reducible apply OutKeeps.keeps_if | with_reducible apply h_s
                | with_reducible apply State.after_keeps | with_reducible apply State.undefinedHead_keeps
                | with_reducible apply OutKeeps.next | split | intro

@[simp] theorem State.rebindStart_keeps {qq : List Instr} {bb : Prop} (s : State) (f : Func) (index : BitVec 16) (e : Entry)
    (h_s : Keeps qq bb s) : (State.rebindStart s f index e).Keeps qq bb := by
  unfold State.rebindStart
  try dsimp only
  repeat' first | with_reducible assumption | with_reducible apply CmdEnd.keeps_if | with_reducible apply h_s
                | with_reducible apply State.modRing_keeps | with_reducible apply CmdEnd.done_keeps
                | with_reducible apply CmdEnd.started_keeps | with_reducible apply CmdEnd.parked_keeps | split | intro

@[simp] theorem execRebind_keeps {qq : List Instr} {bb : Prop} (f : Func) (s : State) (h_s : Keeps qq bb s)
    : OutKeeps qq bb (execRebind f s) := by
  unfold execRebind
  try dsimp only
  repeat' first | with_reducible assumption | with_reducible apply OutKeeps.keeps_if | with_reducible apply h_s
                | with_reducible apply State.after_keeps | with_reducible apply State.runCommand_keeps
                | with_reducible apply State.rebindStart_keeps | with_reducible apply OutKeeps.next | split | intro

@[simp] theorem State.rebindEnd_keeps {qq : List Instr} {bb : Prop} (s : State) (f : Func) (ring : Fin 65) (b : Rebind)
    (h_s : Keeps qq bb s) : Keeps qq bb (State.rebindEnd s f ring b) := by
  unfold State.rebindEnd
  try dsimp only
  repeat' first | with_reducible assumption | with_reducible apply keeps_if | with_reducible apply h_s
                | with_reducible apply State.modRing_keeps | with_reducible apply State.bindRing_keeps
                | with_reducible apply State.modFn_keeps | with_reducible apply State.postEvent_keeps | split | intro

@[simp] theorem execRebindDrained_keeps {qq : List Instr} {bb : Prop} (f : Func) (r : Fin 65) (s : State) (h_s : Keeps qq bb s)
    : OutKeeps qq bb (execRebindDrained f r s) := by
  unfold execRebindDrained
  try dsimp only
  repeat' first | with_reducible assumption | with_reducible apply OutKeeps.keeps_if | with_reducible apply h_s
                | with_reducible apply State.after_keeps | with_reducible apply State.rebindEnd_keeps | with_reducible apply OutKeeps.next
                | split | intro

@[simp] theorem execTransferStart_keeps {qq : List Instr} {bb : Prop} (f : Func) (r : Fin 65) (s : State) (h_s : Keeps qq bb s)
    : OutKeeps qq bb (execTransferStart f r s) := by
  unfold execTransferStart
  try dsimp only
  repeat' first | with_reducible assumption | with_reducible apply OutKeeps.keeps_if | with_reducible apply h_s
                | with_reducible apply State.after_keeps | with_reducible apply State.transferStart_keeps
                | with_reducible apply OutKeeps.next | split | intro

@[simp] theorem execNoopDescriptor_keeps {qq : List Instr} {bb : Prop} (f : Func) (r : Fin 65) (s : State) (h_s : Keeps qq bb s)
    : OutKeeps qq bb (execNoopDescriptor f r s) := by
  unfold execNoopDescriptor
  try dsimp only
  repeat' first | with_reducible assumption | with_reducible apply OutKeeps.keeps_if | with_reducible apply h_s
                | with_reducible apply State.after_keeps | with_reducible apply State.marker_keeps | with_reducible apply OutKeeps.next
                | split | intro

@[simp] theorem execWorkPost_keeps {qq : List Instr} {bb : Prop} (f : Func) (r : Fin 65) (s : State) (h_s : Keeps qq bb s)
    : OutKeeps qq bb (execWorkPost f r s) := by
  unfold execWorkPost
  try dsimp only
  repeat' first | with_reducible assumption | with_reducible apply OutKeeps.keeps_if | with_reducible apply h_s
                | with_reducible apply State.after_keeps | with_reducible apply State.marker_keeps | with_reducible apply OutKeeps.next
                | split | intro

@[simp] theorem State.dropLamp_keeps {qq : List Instr} {bb : Prop} (s : State) (fa : Fin 4) (i : Nat) (h_s : Keeps qq bb s)
    : Keeps qq bb (State.dropLamp s fa i) := by
  unfold State.dropLamp
  try dsimp only
  repeat' first | with_reducible assumption | with_reducible apply keeps_if | with_reducible apply h_s
                | with_reducible apply State.modLamps_keeps | split | intro

@[simp] theorem State.putLamp_keeps {qq : List Instr} {bb : Prop} (s : State) (fa : Fin 4) (i : Nat) (x : Lamp) (h_s : Keeps qq bb s)
    : Keeps qq bb (State.putLamp s fa i x) := by
  unfold State.putLamp
  try dsimp only
  repeat' first | with_reducible assumption | with_reducible apply keeps_if | with_reducible apply h_s
                | with_reducible apply State.rewrite_keeps | with_reducible apply State.modLamps_keeps | simp only [keeps_mk_iff] | split
                | intro

@[simp] theorem State.lampAdmit_keeps {qq : List Instr} {bb : Prop} (s : State) (f : Func) (e : Entry) (h_s : Keeps qq bb s)
    : (State.lampAdmit s f e).Keeps qq bb := by
  unfold State.lampAdmit
  dsimp only
  split
  · exact h_s
  refine CmdEnd.keeps_if (fun _ => h_s) (fun _ => ?_)
  refine CmdEnd.keeps_if (fun _ => h_s) (fun _ => ?_)
  split
  · exact h_s
  refine CmdEnd.keeps_if (fun _ => h_s) (fun _ => ?_)
  refine CmdEnd.keeps_if (fun _ => h_s) (fun _ => ?_)
  split
  · exact State.modLamp_keeps _ _ _ _ h_s
  split
  · exact h_s
  split
  · exact h_s
  split
  · exact h_s
  · exact State.putLamp_keeps _ _ _ _ h_s

@[simp] theorem State.lampRemove_keeps {qq : List Instr} {bb : Prop} (s : State) (f : Func) (e : Entry) (h_s : Keeps qq bb s)
    : (State.lampRemove s f e).Keeps qq bb := by
  unfold State.lampRemove
  try dsimp only
  repeat' first | with_reducible assumption | with_reducible apply CmdEnd.keeps_if | with_reducible apply keeps_if
                | with_reducible apply h_s | with_reducible apply State.modLamp_keeps | with_reducible apply CmdEnd.done_keeps
                | with_reducible apply CmdEnd.started_keeps | with_reducible apply CmdEnd.parked_keeps | simp only [keeps_mk_iff] | split
                | intro

@[simp] theorem State.dropInterval_keeps {qq : List Instr} {bb : Prop} (s : State) (x : Lamp) (why : Status × Nat) (h_s : Keeps qq bb s)
    : Keeps qq bb (State.dropInterval s x why) := by
  unfold State.dropInterval
  try dsimp only
  repeat' first | with_reducible assumption | with_reducible apply keeps_if | with_reducible apply h_s
                | with_reducible apply State.endTransfer_keeps | with_reducible apply State.modCur_keeps | simp only [keeps_mk_iff]
                | split | intro

@[simp] theorem State.finishRemoval_keeps {qq : List Instr} {bb : Prop} (s : State) (fa : Fin 4) (i : Nat) (x : Lamp)
    (h_s : Keeps qq bb s) : Keeps qq bb (State.finishRemoval s fa i x) := by
  unfold State.finishRemoval
  try dsimp only
  repeat' first | with_reducible assumption | with_reducible apply keeps_if | with_reducible apply h_s
                | with_reducible apply State.finishCmd_keeps | with_reducible apply State.dropInterval_keeps
                | with_reducible apply State.dropLamp_keeps | with_reducible apply foldl_keeps | split | intro

@[simp] theorem State.finishRemovals_keeps {qq : List Instr} {bb : Prop} (s : State) (h_s : Keeps qq bb s)
    : Keeps qq bb (State.finishRemovals s) := by
  unfold State.finishRemovals
  try dsimp only
  repeat' first | with_reducible assumption | with_reducible apply keeps_if | with_reducible apply h_s
                | with_reducible apply State.finishRemoval_keeps | with_reducible apply foldl_keeps | split | intro

@[simp] theorem State.attachHeld_keeps {qq : List Instr} {bb : Prop} (s : State) (fa : Fin 4) (i : Nat) (x : Lamp) (h_s : Keeps qq bb s)
    : Keeps qq bb (State.attachHeld s fa i x) := by
  unfold State.attachHeld
  try dsimp only
  repeat' first | with_reducible assumption | with_reducible apply keeps_if | with_reducible apply h_s
                | with_reducible apply State.modLamp_keeps | simp only [keeps_mk_iff] | split | intro

@[simp] theorem State.lampStep_keeps {qq : List Instr} {bb : Prop} (s : State) (h_s : Keeps qq bb s)
    : Keeps qq bb (State.lampStep s) := by
  unfold State.lampStep
  try dsimp only
  repeat' first | with_reducible assumption | with_reducible apply keeps_if | with_reducible apply h_s
                | with_reducible apply State.finishRemovals_keeps | with_reducible apply State.attachHeld_keeps
                | with_reducible apply foldl_keeps | simp only [keeps_mk_iff] | split | intro

@[simp] theorem State.unserve_keeps {qq : List Instr} {bb : Prop} (s : State) (f : Func) (ring : Fin 65) (l : List Staged) (st : Status)
    (sub : Nat) (frame : BitVec 16) (h_s : Keeps qq bb s) : Keeps qq bb (State.unserve s f ring l st sub frame) := by
  unfold State.unserve
  try dsimp only
  repeat' first | with_reducible assumption | with_reducible apply keeps_if | with_reducible apply h_s
                | with_reducible apply State.consume_keeps | with_reducible apply State.modRing_keeps | simp only [keeps_mk_iff] | split
                | intro

@[simp] theorem State.lampHead_keeps {qq : List Instr} {bb : Prop} (s : State) (f : Func) (ring : Fin 65) (x : Lamp) (n : DWord)
    (why : Option (Status × Nat)) (u0 : Nat) (h_s : Keeps qq bb s) : Keeps qq bb (State.lampHead s f ring x n why u0).1 := by
  induction u0 generalizing s f ring x n why with
  | zero => first | exact h_s | simp [State.lampHead, h_s]
  | succ n ih =>
    unfold State.lampHead
    try dsimp only
    repeat' first | with_reducible assumption | with_reducible apply keeps_if | with_reducible apply ih | with_reducible apply h_s
                  | with_reducible apply State.unserve_keeps | with_reducible apply State.consume_keeps
                  | with_reducible apply State.complete_keeps | simp only [keeps_mk_iff] | split | intro

@[simp] theorem State.runLamp_keeps {qq : List Instr} {bb : Prop} (s : State) (fa : Fin 4) (i : Nat) (r : LampRun) (h_s : Keeps qq bb s)
    : Keeps qq bb (State.runLamp s fa i r) := by
  unfold State.runLamp
  try dsimp only
  repeat' first | with_reducible assumption | with_reducible apply keeps_if | with_reducible apply h_s
                | with_reducible apply State.modLamp_keeps | simp only [keeps_mk_iff] | split | intro

@[simp] theorem State.restLamp_keeps {qq : List Instr} {bb : Prop} (s : State) (fa : Fin 4) (i : Nat) (h_s : Keeps qq bb s)
    : Keeps qq bb (State.restLamp s fa i) := by
  unfold State.restLamp
  try dsimp only
  repeat' first | with_reducible assumption | with_reducible apply keeps_if | with_reducible apply h_s
                | with_reducible apply State.runLamp_keeps | split | intro

@[simp] theorem State.lampGoes_keeps {qq : List Instr} {bb : Prop} (s : State) (fa : Fin 4) (i : Nat) (x : Lamp) (h_s : Keeps qq bb s)
    : Keeps qq bb (State.lampGoes s fa i x).1 := by
  unfold State.lampGoes
  try dsimp only
  repeat' first | with_reducible assumption | with_reducible apply keeps_if | with_reducible apply h_s
                | with_reducible apply State.runLamp_keeps | with_reducible apply State.issue_keeps
                | with_reducible apply State.restLamp_keeps | split | intro

@[simp] theorem State.lampBegins_keeps {qq : List Instr} {bb : Prop} (s : State) (fa : Fin 4) (i : Nat) (x : Lamp)
    (why : Option (Status × Nat)) (h_s : Keeps qq bb s) : Keeps qq bb (State.lampBegins s fa i x why).1 := by
  unfold State.lampBegins
  try dsimp only
  repeat' first | with_reducible assumption | with_reducible apply keeps_if | with_reducible apply h_s
                | with_reducible apply State.lampHead_keeps | with_reducible apply State.restLamp_keeps
                | with_reducible apply State.startTransfer_keeps | with_reducible apply State.lampGoes_keeps | simp only [keeps_mk_iff]
                | refine of_pair1 (by assumption) ?_ | refine of_pair2 (by assumption) ?_ | split | intro

@[simp] theorem State.serveLamp_keeps {qq : List Instr} {bb : Prop} (s : State) (fa : Fin 4) (i : Nat) (x : Lamp) (ns : Nat)
    (h_s : Keeps qq bb s) : Keeps qq bb (State.serveLamp s fa i x ns).1 := by
  unfold State.serveLamp
  try dsimp only
  repeat' first | with_reducible assumption | with_reducible apply keeps_if | with_reducible apply h_s
                | with_reducible apply State.restLamp_keeps | with_reducible apply State.lampGoes_keeps
                | with_reducible apply State.lampBegins_keeps | simp only [keeps_mk_iff] | refine of_pair1 (by assumption) ?_
                | refine of_pair2 (by assumption) ?_ | split | intro

@[simp] theorem State.walkFrom_keeps {qq : List Instr} {bb : Prop} (s : State) (fa : Fin 4) (ns : Nat) (u0 : List Nat)
    (h_s : Keeps qq bb s) : Keeps qq bb (State.walkFrom s fa ns u0).1 := by
  induction u0 generalizing s fa ns with
  | nil => first | exact h_s | simp [State.walkFrom, h_s]
  | cons x t ih =>
    unfold State.walkFrom
    try dsimp only
    repeat' first | with_reducible assumption | with_reducible apply keeps_if | with_reducible apply ih | with_reducible apply h_s
                  | with_reducible apply State.serveLamp_keeps | simp only [keeps_mk_iff] | refine of_pair1 (by assumption) ?_
                  | refine of_pair2 (by assumption) ?_ | split | intro

@[simp] theorem State.walk_keeps {qq : List Instr} {bb : Prop} (s : State) (fa : Fin 4) (ns : Nat) (h_s : Keeps qq bb s)
    : Keeps qq bb (State.walk s fa ns) := by
  unfold State.walk
  try dsimp only
  repeat' first | with_reducible assumption | with_reducible apply keeps_if | with_reducible apply h_s
                | with_reducible apply State.walkFrom_keeps | simp only [keeps_mk_iff] | split | intro

@[simp] theorem State.bulkFrom_keeps {qq : List Instr} {bb : Prop} (s : State) (fa : Fin 4) (ns : Nat) (u0 : List (Func × Fin 65))
    (h_s : Keeps qq bb s) : Keeps qq bb (State.bulkFrom s fa ns u0) := by
  induction u0 generalizing s fa ns with
  | nil => first | exact h_s | simp [State.bulkFrom, h_s]
  | cons x t ih =>
    unfold State.bulkFrom
    try dsimp only
    repeat' first | with_reducible assumption | with_reducible apply keeps_if | with_reducible apply ih | with_reducible apply h_s
                  | with_reducible apply State.transferStart_keeps | with_reducible apply State.modFairway_keeps
                  | with_reducible apply State.issue_keeps | simp only [keeps_mk_iff] | split | intro

@[simp] theorem State.bulkVisit_keeps {qq : List Instr} {bb : Prop} (s : State) (fa : Fin 4) (ns : Nat) (h_s : Keeps qq bb s)
    : Keeps qq bb (State.bulkVisit s fa ns) := by
  unfold State.bulkVisit
  try dsimp only
  repeat' first | with_reducible assumption | with_reducible apply keeps_if | with_reducible apply h_s
                | with_reducible apply State.bulkFrom_keeps | split | intro

@[simp] theorem State.cutStarted_keeps {qq : List Instr} {bb : Prop} (s : State) (fa : Fin 4) (i : Nat) (x : Lamp) (h_s : Keeps qq bb s)
    : Keeps qq bb (State.cutStarted s fa i x) := by
  unfold State.cutStarted
  try dsimp only
  repeat' first | with_reducible assumption | with_reducible apply keeps_if | with_reducible apply h_s
                | with_reducible apply State.runLamp_keeps | with_reducible apply State.restLamp_keeps
                | with_reducible apply State.dropInterval_keeps | split | intro

@[simp] theorem State.cutLamp_keeps {qq : List Instr} {bb : Prop} (s : State) (fa : Fin 4) (i : Nat) (x : Lamp) (h_s : Keeps qq bb s)
    : Keeps qq bb (State.cutLamp s fa i x).1 := by
  unfold State.cutLamp
  try dsimp only
  repeat' first | with_reducible assumption | with_reducible apply keeps_if | with_reducible apply h_s
                | with_reducible apply State.cutStarted_keeps | with_reducible apply State.restLamp_keeps
                | with_reducible apply State.lampHead_keeps | simp only [keeps_mk_iff] | refine of_pair1 (by assumption) ?_
                | refine of_pair2 (by assumption) ?_ | split | intro

@[simp] theorem State.disableBabbler_keeps {qq : List Instr} {bb : Prop} (s : State) (n : Fin 16) (h_s : Keeps qq bb s)
    : Keeps qq bb (State.disableBabbler s n) := by
  unfold State.disableBabbler
  try dsimp only
  repeat' first | with_reducible assumption | with_reducible apply keeps_if | with_reducible apply h_s
                | with_reducible apply State.releasePort_keeps | with_reducible apply State.modPort_keeps
                | with_reducible apply State.finishPort_keeps | simp only [keeps_mk_iff] | split | intro

@[simp] theorem State.babbleRing_keeps {qq : List Instr} {bb : Prop} (s : State) (f : Func) (ring : Fin 65) (h_s : Keeps qq bb s)
    : Keeps qq bb (State.babbleRing s f ring) := by
  unfold State.babbleRing
  try dsimp only
  repeat' first | with_reducible assumption | with_reducible apply keeps_if | with_reducible apply h_s
                | with_reducible apply State.modCur_keeps | with_reducible apply State.endIfDue_keeps
                | with_reducible apply State.endTransfer_keeps | with_reducible apply State.disableBabbler_keeps
                | simp only [keeps_mk_iff] | split | intro

@[simp] theorem State.babbleOrphan_keeps {qq : List Instr} {bb : Prop} (s : State) (x : Orphan) (h_s : Keeps qq bb s)
    : Keeps qq bb (State.babbleOrphan s x) := by
  unfold State.babbleOrphan
  try dsimp only
  repeat' first | with_reducible assumption | with_reducible apply keeps_if | with_reducible apply h_s
                | with_reducible apply State.disableBabbler_keeps | simp only [keeps_mk_iff] | split | intro

@[simp] theorem State.cutFairway_keeps {qq : List Instr} {bb : Prop} (s : State) (fa : Fin 4) (h_s : Keeps qq bb s)
    : Keeps qq bb (State.cutFairway s fa).1 := by
  unfold State.cutFairway
  exact foldl_fst_keeps _ _ _ (fun a x h => State.cutLamp_keeps _ _ _ _ h)
    (foldl_keeps _ _ _ (fun s x h => State.babbleOrphan_keeps _ _ h) (foldl_keeps _ _ _ (fun s x h => State.babbleRing_keeps _ _ _ h) h_s))

@[simp] theorem State.cutOff_keeps {qq : List Instr} {bb : Prop} (s : State) (h_s : Keeps qq bb s) : Keeps qq bb (State.cutOff s) := by
  unfold State.cutOff
  refine keeps_if (fun _ => h_s) (fun _ => ?_)
  have h : Keeps qq bb ((List.finRange 4).foldl (fun (acc : State × List (Fin 4 × Overrun)) fa =>
    ((acc.1.cutFairway fa).1, acc.2 ++ [(fa, (acc.1.cutFairway fa).2)])) (s, [])).1 :=
    foldl_fst_keeps _ _ _ (fun a x h => State.cutFairway_keeps _ _ h) h_s
  dsimp only
  generalize (List.finRange 4).foldl (fun (acc : State × List (Fin 4 × Overrun)) fa =>
    ((acc.1.cutFairway fa).1, acc.2 ++ [(fa, (acc.1.cutFairway fa).2)])) (s, []) = r at h ⊢
  refine keeps_if (fun _ => h) (fun _ => ?_)
  split
  · exact h
  · exact h

@[simp] theorem State.openWalk_keeps {qq : List Instr} {bb : Prop} (s : State) (h_s : Keeps qq bb s)
    : Keeps qq bb (State.openWalk s) := by
  unfold State.openWalk
  try dsimp only
  repeat' first | with_reducible assumption | with_reducible apply keeps_if | with_reducible apply h_s | simp only [keeps_mk_iff] | split
                | intro

@[simp] theorem State.ptmCapture_keeps {qq : List Instr} {bb : Prop} (s : State) (time : QWord) (h_s : Keeps qq bb s)
    : Keeps qq bb (State.ptmCapture s time) := by
  unfold State.ptmCapture
  try dsimp only
  repeat' first | with_reducible assumption | with_reducible apply keeps_if | with_reducible apply h_s | simp only [keeps_mk_iff] | split
                | intro

@[simp] theorem State.writePtmCtl_keeps {qq : List Instr} {bb : Prop} (s : State) (r : Requester) (v : DWord) (h_s : Keeps qq bb s)
    : Keeps qq bb (State.writePtmCtl s r v) := by
  unfold State.writePtmCtl
  try dsimp only
  repeat' first | with_reducible assumption | with_reducible apply keeps_if | with_reducible apply h_s
                | with_reducible apply State.refuse_keeps | simp only [keeps_mk_iff] | split | intro

@[simp] theorem execTransactionEnd_keeps {qq : List Instr} {bb : Prop} (f : Func) (r : Fin 65) (e : UsbEnd) (s : State)
    (h_s : Keeps qq bb s) : OutKeeps qq bb (execTransactionEnd f r e s) := by
  unfold execTransactionEnd
  try dsimp only
  repeat' first | with_reducible assumption | with_reducible apply OutKeeps.keeps_if | with_reducible apply h_s
                | with_reducible apply State.after_keeps | with_reducible apply State.finishRemovals_keeps
                | with_reducible apply State.transactionEnd_keeps | with_reducible apply OutKeeps.next | split | intro

@[simp] theorem execLampAdmit_keeps {qq : List Instr} {bb : Prop} (f : Func) (s : State) (h_s : Keeps qq bb s)
    : OutKeeps qq bb (execLampAdmit f s) := by
  unfold execLampAdmit
  try dsimp only
  repeat' first | with_reducible assumption | with_reducible apply OutKeeps.keeps_if | with_reducible apply h_s
                | with_reducible apply State.after_keeps | with_reducible apply State.runCommand_keeps
                | with_reducible apply State.lampAdmit_keeps | with_reducible apply OutKeeps.next | split | intro

@[simp] theorem execLampRemove_keeps {qq : List Instr} {bb : Prop} (f : Func) (s : State) (h_s : Keeps qq bb s)
    : OutKeeps qq bb (execLampRemove f s) := by
  unfold execLampRemove
  try dsimp only
  repeat' first | with_reducible assumption | with_reducible apply OutKeeps.keeps_if | with_reducible apply h_s
                | with_reducible apply State.after_keeps | with_reducible apply State.runCommand_keeps
                | with_reducible apply State.lampRemove_keeps | with_reducible apply OutKeeps.next | split | intro

@[simp] theorem execBeaconSample_keeps {qq : List Instr} {bb : Prop} (f : Func) (ns : Nat) (s : State) (h_s : Keeps qq bb s)
    : OutKeeps qq bb (execBeaconSample f ns s) := by
  unfold execBeaconSample
  try dsimp only
  repeat' first | with_reducible assumption | with_reducible apply OutKeeps.keeps_if | with_reducible apply h_s
                | with_reducible apply State.after_keeps | with_reducible apply State.runCommand_keeps
                | with_reducible apply CmdEnd.done_keeps | with_reducible apply CmdEnd.started_keeps
                | with_reducible apply CmdEnd.parked_keeps | with_reducible apply OutKeeps.next | split | intro

@[simp] theorem execLightListWalk_keeps {qq : List Instr} {bb : Prop} (t : ServeTime) (s : State) (h_s : Keeps qq bb s)
    : OutKeeps qq bb (execLightListWalk t s) := by
  unfold execLightListWalk
  try dsimp only
  repeat' first | with_reducible assumption | with_reducible apply OutKeeps.keeps_if | with_reducible apply keeps_if
                | with_reducible apply h_s | with_reducible apply State.after_keeps | with_reducible apply State.walk_keeps
                | with_reducible apply OutKeeps.next | split | intro

@[simp] theorem execBulkCircuitVisit_keeps {qq : List Instr} {bb : Prop} (t : ServeTime) (s : State) (h_s : Keeps qq bb s)
    : OutKeeps qq bb (execBulkCircuitVisit t s) := by
  unfold execBulkCircuitVisit
  try dsimp only
  repeat' first | with_reducible assumption | with_reducible apply OutKeeps.keeps_if | with_reducible apply keeps_if
                | with_reducible apply h_s | with_reducible apply State.after_keeps | with_reducible apply State.bulkVisit_keeps
                | with_reducible apply OutKeeps.next | split | intro

@[simp] theorem execPtmRequest_keeps {qq : List Instr} {bb : Prop} (l : Link) (s : State) (h_s : Keeps qq bb s)
    : OutKeeps qq bb (execPtmRequest l s) := by
  unfold execPtmRequest
  try dsimp only
  repeat' first | with_reducible assumption | with_reducible apply OutKeeps.keeps_if | with_reducible apply h_s
                | with_reducible apply State.after_keeps | with_reducible apply State.emit_keeps | with_reducible apply OutKeeps.next
                | simp only [keeps_mk_iff] | split | intro

@[simp] theorem execPtmDialogComplete_keeps {qq : List Instr} {bb : Prop} (l : Link) (s : State) (h_s : Keeps qq bb s)
    : OutKeeps qq bb (execPtmDialogComplete l s) := by
  unfold execPtmDialogComplete
  try dsimp only
  repeat' first | with_reducible assumption | with_reducible apply OutKeeps.keeps_if | with_reducible apply h_s
                | with_reducible apply State.after_keeps | with_reducible apply OutKeeps.next | simp only [keeps_mk_iff] | split | intro

@[simp] theorem execPtmValidExpiry_keeps {qq : List Instr} {bb : Prop} (l : Link) (s : State) (h_s : Keeps qq bb s)
    : OutKeeps qq bb (execPtmValidExpiry l s) := by
  unfold execPtmValidExpiry
  try dsimp only
  repeat' first | with_reducible assumption | with_reducible apply OutKeeps.keeps_if | with_reducible apply h_s
                | with_reducible apply State.after_keeps | with_reducible apply OutKeeps.next | simp only [keeps_mk_iff] | split | intro

@[simp] theorem execPtmCaptureRequest_keeps {qq : List Instr} {bb : Prop} (p : Path) (v : DWord) (s : State) (h_s : Keeps qq bb s)
    : OutKeeps qq bb (execPtmCaptureRequest p v s) := by
  unfold execPtmCaptureRequest
  try dsimp only
  repeat' first | with_reducible assumption | with_reducible apply OutKeeps.keeps_if | with_reducible apply h_s
                | with_reducible apply State.after_keeps | with_reducible apply State.access_keeps
                | with_reducible apply State.writePtmCtl_keeps | with_reducible apply OutKeeps.next | split | intro

@[simp] theorem State.modSends_keeps {qq : List Instr} {bb : Prop} (s : State) (x : MboxSide) (g : MboxDir → MboxDir)
    (h_s : Keeps qq bb s) : Keeps qq bb (State.modSends s x g) := by
  unfold State.modSends
  try dsimp only
  repeat' first | with_reducible assumption | with_reducible apply keeps_if | with_reducible apply h_s
                | with_reducible apply State.modMbox_keeps | simp only [keeps_mk_iff] | split | intro

@[simp] theorem State.mailboxEvent_keeps {qq : List Instr} {bb : Prop} (s : State) (x : MboxSide) (h_s : Keeps qq bb s)
    : Keeps qq bb (State.mailboxEvent s x) := by
  unfold State.mailboxEvent
  try dsimp only
  repeat' first | with_reducible assumption | with_reducible apply keeps_if | with_reducible apply h_s
                | with_reducible apply State.postFnEvent_keeps | split | intro

@[simp] theorem State.mailboxDecrement_keeps {qq : List Instr} {bb : Prop} (s : State) (x : MboxSide) (seq : BitVec 16)
    (h_s : Keeps qq bb s) : Keeps qq bb (State.mailboxDecrement s x seq) := by
  unfold State.mailboxDecrement
  try dsimp only
  repeat' first | with_reducible assumption | with_reducible apply keeps_if | with_reducible apply h_s
                | with_reducible apply State.decrementMbx_keeps | split | intro

@[simp] theorem State.mailboxArrives_keeps {qq : List Instr} {bb : Prop} (s : State) (x : MboxSide) (seq : BitVec 16)
    (h_s : Keeps qq bb s) : Keeps qq bb (State.mailboxArrives s x seq) := by
  unfold State.mailboxArrives
  try dsimp only
  repeat' first | with_reducible assumption | with_reducible apply keeps_if | with_reducible apply h_s
                | with_reducible apply State.modMigr_keeps | with_reducible apply State.mailboxEvent_keeps
                | with_reducible apply State.mailboxDecrement_keeps | split | intro

@[simp] theorem State.mailboxSend_keeps {qq : List Instr} {bb : Prop} (s : State) (x : MboxSide) (v : DWord) (h_s : Keeps qq bb s)
    : Keeps qq bb (State.mailboxSend s x v) := by
  unfold State.mailboxSend
  try dsimp only
  repeat' first | with_reducible assumption | with_reducible apply keeps_if | with_reducible apply h_s
                | with_reducible apply State.modSends_keeps | with_reducible apply State.mailboxArrives_keeps | split | intro

@[simp] theorem State.mailboxAck_keeps {qq : List Instr} {bb : Prop} (s : State) (x : MboxSide) (v : DWord) (h_s : Keeps qq bb s)
    : Keeps qq bb (State.mailboxAck s x v) := by
  unfold State.mailboxAck
  try dsimp only
  repeat' first | with_reducible assumption | with_reducible apply keeps_if | with_reducible apply h_s
                | with_reducible apply State.modSends_keeps | split | intro

@[simp] theorem State.writeMbox_keeps {qq : List Instr} {bb : Prop} (s : State) (x : MboxSide) (o : Nat) (v : DWord) (h_s : Keeps qq bb s)
    : Keeps qq bb (State.writeMbox s x o v) := by
  unfold State.writeMbox
  try dsimp only
  repeat' first | with_reducible assumption | with_reducible apply keeps_if | with_reducible apply keeps_dif | with_reducible apply h_s
                | with_reducible apply State.modSends_keeps | with_reducible apply State.mailboxSend_keeps
                | with_reducible apply State.mailboxAck_keeps | split | intro

@[simp] theorem State.writeMboxArea_keeps {qq : List Instr} {bb : Prop} (s : State) (r : Requester) (off : Nat) (v : DWord)
    (h_s : Keeps qq bb s) : Keeps qq bb (State.writeMboxArea s r off v) := by
  unfold State.writeMboxArea
  try dsimp only
  repeat' first | with_reducible assumption | with_reducible apply keeps_if | with_reducible apply h_s
                | with_reducible apply State.primaryWrite_keeps | with_reducible apply State.writeMbox_keeps
                | with_reducible apply State.refuse_keeps | with_reducible apply keeps_dif | simp only [keeps_mk_iff] | split | intro

@[simp] theorem State.mailboxAccess_keeps {qq : List Instr} {bb : Prop} (s : State) (p : Path) (off : Nat) (v : DWord)
    (h_s : Keeps qq bb s) : Keeps qq bb (State.mailboxAccess s p off v) := by
  unfold State.mailboxAccess
  try dsimp only
  repeat' first | with_reducible assumption | with_reducible apply keeps_if | with_reducible apply h_s
                | with_reducible apply State.accessAny_keeps | with_reducible apply State.writeMbox_keeps
                | with_reducible apply State.access_keeps | with_reducible apply State.writeMboxArea_keeps | split | intro

@[simp] theorem execMailboxSend_keeps {qq : List Instr} {bb : Prop} (p : Path) (off : Nat) (v : DWord) (s : State) (h_s : Keeps qq bb s)
    : OutKeeps qq bb (execMailboxSend p off v s) := by
  unfold execMailboxSend
  try dsimp only
  repeat' first | with_reducible assumption | with_reducible apply OutKeeps.keeps_if | with_reducible apply h_s
                | with_reducible apply State.after_keeps | with_reducible apply State.mailboxAccess_keeps
                | with_reducible apply OutKeeps.next | split | intro

@[simp] theorem execMailboxAck_keeps {qq : List Instr} {bb : Prop} (p : Path) (off : Nat) (v : DWord) (s : State) (h_s : Keeps qq bb s)
    : OutKeeps qq bb (execMailboxAck p off v s) := by
  unfold execMailboxAck
  try dsimp only
  repeat' first | with_reducible assumption | with_reducible apply OutKeeps.keeps_if | with_reducible apply h_s
                | with_reducible apply State.after_keeps | with_reducible apply State.mailboxAccess_keeps
                | with_reducible apply OutKeeps.next | split | intro

end Sys2Proof.Machine
end

