-- ==== Sys2Proof/Laws/KeepLinks.lean ====
section
/-! SUPPORT. `Keeps`: what the operations of links, Tender commands and ports keep. -/

namespace Sys2Proof.Machine

@[simp] theorem State.linkUp_keeps {qq : List Instr} {bb : Prop} (s : State) (l : Link) (speed : Fin 3) (width : Bool)
    (h_s : Keeps qq bb s) : Keeps qq bb (State.linkUp s l speed width) := by
  unfold State.linkUp
  try dsimp only
  repeat' first | with_reducible assumption | with_reducible apply keeps_if | with_reducible apply h_s
                | with_reducible apply State.modLink_keeps | with_reducible apply State.emit_keeps
                | with_reducible apply State.reportLtr_keeps | with_reducible apply State.resumeLink_keeps | simp only [keeps_mk_iff]
                | split | intro

@[simp] theorem execLinkUp_keeps {qq : List Instr} {bb : Prop} (l : Link) (speed : Fin 3) (width : Bool) (s : State) (h_s : Keeps qq bb s)
    : OutKeeps qq bb (execLinkUp l speed width s) := by
  unfold execLinkUp
  try dsimp only
  repeat' first | with_reducible assumption | with_reducible apply OutKeeps.keeps_if | with_reducible apply h_s
                | with_reducible apply State.after_keeps | with_reducible apply State.linkUp_keeps | with_reducible apply OutKeeps.next
                | split | intro

@[simp] theorem execLinkDown_keeps {qq : List Instr} {bb : Prop} (l : Link) (l2 : Bool) (s : State) (h_s : Keeps qq bb s)
    : OutKeeps qq bb (execLinkDown l l2 s) := by
  unfold execLinkDown
  try dsimp only
  repeat' first | with_reducible assumption | with_reducible apply OutKeeps.keeps_if | with_reducible apply keeps_if
                | with_reducible apply h_s | with_reducible apply State.after_keeps | with_reducible apply State.modLink_keeps
                | with_reducible apply State.loseLink_keeps | with_reducible apply OutKeeps.next | simp only [keeps_mk_iff] | split
                | intro

@[simp] theorem execPerstAssert_keeps {qq : List Instr} {bb : Prop} (l : Link) (s : State) (h_s : Keeps qq bb s)
    : OutKeeps qq bb (execPerstAssert l s) := by
  unfold execPerstAssert
  try dsimp only
  repeat' first | with_reducible assumption | with_reducible apply OutKeeps.keeps_if | with_reducible apply h_s
                | with_reducible apply State.after_keeps | with_reducible apply State.modLink_keeps
                | with_reducible apply State.loseLink_keeps | with_reducible apply OutKeeps.next | split | intro

@[simp] theorem execPerstDeassert_keeps {qq : List Instr} {bb : Prop} (l : Link) (s : State) (h_s : Keeps qq bb s)
    : OutKeeps qq bb (execPerstDeassert l s) := by
  unfold execPerstDeassert
  try dsimp only
  repeat' first | with_reducible assumption | with_reducible apply OutKeeps.keeps_if | with_reducible apply h_s
                | with_reducible apply State.after_keeps | with_reducible apply State.modLink_keeps | with_reducible apply OutKeeps.next
                | split | intro

@[simp] theorem execRefclkLoss_keeps {qq : List Instr} {bb : Prop} (l : Link) (s : State) (h_s : Keeps qq bb s)
    : OutKeeps qq bb (execRefclkLoss l s) := by
  unfold execRefclkLoss
  try dsimp only
  repeat' first | with_reducible assumption | with_reducible apply OutKeeps.keeps_if | with_reducible apply h_s
                | with_reducible apply State.after_keeps | with_reducible apply State.loseLink_keeps | with_reducible apply OutKeeps.next
                | simp only [keeps_mk_iff] | split | intro

@[simp] theorem execRefclkRestore_keeps {qq : List Instr} {bb : Prop} (l : Link) (s : State) (h_s : Keeps qq bb s)
    : OutKeeps qq bb (execRefclkRestore l s) := by
  unfold execRefclkRestore
  try dsimp only
  repeat' first | with_reducible assumption | with_reducible apply OutKeeps.keeps_if | with_reducible apply h_s
                | with_reducible apply State.after_keeps | with_reducible apply OutKeeps.next | simp only [keeps_mk_iff] | split | intro

@[simp] theorem State.managerReset_keeps {qq : List Instr} {bb : Prop} (s : State) (l : Link) (h_s : Keeps qq bb s)
    : Keeps qq bb (State.managerReset s l) := by
  unfold State.managerReset
  try dsimp only
  repeat' first | with_reducible assumption | with_reducible apply keeps_if | with_reducible apply h_s
                | with_reducible apply State.resetFunction_keeps | with_reducible apply State.modLink_keeps | split | intro

@[simp] theorem State.functionLevelReset_keeps {qq : List Instr} {bb : Prop} (s : State) (p : Path) (h_s : Keeps qq bb s)
    : Keeps qq bb (State.functionLevelReset s p) := by
  unfold State.functionLevelReset
  try dsimp only
  repeat' first | with_reducible assumption | with_reducible apply keeps_if | with_reducible apply h_s
                | with_reducible apply State.turnAway_keeps | with_reducible apply State.arrive_keeps
                | with_reducible apply State.managerReset_keeps | with_reducible apply State.resetFunction_keeps
                | with_reducible apply State.resetSlot_keeps | simp only [keeps_mk_iff] | split | intro

@[simp] theorem execFunctionLevelReset_keeps {qq : List Instr} {bb : Prop} (p : Path) (s : State) (h_s : Keeps qq bb s)
    : OutKeeps qq bb (execFunctionLevelReset p s) := by
  unfold execFunctionLevelReset
  try dsimp only
  repeat' first | with_reducible assumption | with_reducible apply OutKeeps.keeps_if | with_reducible apply h_s
                | with_reducible apply State.after_keeps | with_reducible apply State.functionLevelReset_keeps
                | with_reducible apply OutKeeps.next | split | intro

@[simp] theorem State.vfClear_keeps {qq : List Instr} {bb : Prop} (s : State) (l : Link) (h_s : Keeps qq bb s)
    : Keeps qq bb (State.vfClear s l) := by
  unfold State.vfClear
  try dsimp only
  repeat' first | with_reducible assumption | with_reducible apply keeps_if | with_reducible apply h_s
                | with_reducible apply State.resetFunction_keeps | with_reducible apply State.resetSlot_keeps
                | with_reducible apply State.modLink_keeps | with_reducible apply foldl_keeps | split | intro

@[simp] theorem execVfEnableClear_keeps {qq : List Instr} {bb : Prop} (l : Link) (s : State) (h_s : Keeps qq bb s)
    : OutKeeps qq bb (execVfEnableClear l s) := by
  unfold execVfEnableClear
  try dsimp only
  repeat' first | with_reducible assumption | with_reducible apply OutKeeps.keeps_if | with_reducible apply keeps_if
                | with_reducible apply h_s | with_reducible apply State.after_keeps | with_reducible apply State.turnAway_keeps
                | with_reducible apply State.wakeLink_keeps | with_reducible apply State.vfClear_keeps
                | with_reducible apply OutKeeps.next | split | intro

@[simp] theorem execAspmL1Entry_keeps {qq : List Instr} {bb : Prop} (x : L1Entry) (s : State) (h_s : Keeps qq bb s)
    : OutKeeps qq bb (execAspmL1Entry x s) := by
  unfold execAspmL1Entry
  try dsimp only
  repeat' first | with_reducible assumption | with_reducible apply OutKeeps.keeps_if | with_reducible apply keeps_if
                | with_reducible apply h_s | with_reducible apply State.after_keeps | with_reducible apply State.modLink_keeps
                | with_reducible apply OutKeeps.next | simp only [keeps_mk_iff] | split | intro

@[simp] theorem State.setMastering_keeps {qq : List Instr} {bb : Prop} (s : State) (l : Link) (slot : Fin 16) (bm : Bool) (d3 : Bool)
    (h_s : Keeps qq bb s) : Keeps qq bb (State.setMastering s l slot bm d3) := by
  unfold State.setMastering
  try dsimp only
  repeat' first | with_reducible assumption | with_reducible apply keeps_if | with_reducible apply h_s
                | with_reducible apply State.resumeLink_keeps | simp only [keeps_mk_iff] | split | intro

@[simp] theorem execMasteringChange_keeps {qq : List Instr} {bb : Prop} (p : Path) (busMaster : Bool) (d3 : Bool) (s : State)
    (h_s : Keeps qq bb s) : OutKeeps qq bb (execMasteringChange p busMaster d3 s) := by
  unfold execMasteringChange
  try dsimp only
  repeat' first | with_reducible assumption | with_reducible apply OutKeeps.keeps_if | with_reducible apply keeps_if
                | with_reducible apply h_s | with_reducible apply State.after_keeps | with_reducible apply State.turnAway_keeps
                | with_reducible apply State.arrive_keeps | with_reducible apply State.setMastering_keeps
                | with_reducible apply OutKeeps.next | simp only [keeps_mk_iff] | split | intro

@[simp] theorem execLinkErrorDetected_keeps {qq : List Instr} {bb : Prop} (l : Link) (e : LinkErrorSeen) (s : State)
    (h_s : Keeps qq bb s) : OutKeeps qq bb (execLinkErrorDetected l e s) := by
  unfold execLinkErrorDetected
  try dsimp only
  repeat' first | with_reducible assumption | with_reducible apply OutKeeps.keeps_if | with_reducible apply keeps_if
                | with_reducible apply h_s | with_reducible apply State.after_keeps | with_reducible apply State.modLink_keeps
                | with_reducible apply OutKeeps.next | split | intro

@[simp] theorem execBar2Write_keeps {qq : List Instr} {bb : Prop} (l : Link) (addr : Nat) (bytes : List Byte) (s : State)
    (h_s : Keeps qq bb s) : OutKeeps qq bb (execBar2Write l addr bytes s) := by
  unfold execBar2Write
  try dsimp only
  repeat' first | with_reducible assumption | with_reducible apply OutKeeps.keeps_if | with_reducible apply keeps_if
                | with_reducible apply h_s | with_reducible apply State.after_keeps | with_reducible apply State.turnAway_keeps
                | with_reducible apply State.wakeLink_keeps | with_reducible apply OutKeeps.next | simp only [keeps_mk_iff]
                | simp only [keeps_hst_eq] | with_reducible apply KeepsH.of | with_reducible apply writeBytes_wf
                | with_reducible apply readBytes_wf | with_reducible apply readWords_wf | exact wf_of_cells rfl rfl ‹_› | split | intro

@[simp] theorem State.bar2Read_keeps {qq : List Instr} {bb : Prop} (s : State) (l : Link) (off : Nat) (n : Nat) (h_s : Keeps qq bb s)
    : Keeps qq bb (State.bar2Read s l off n) := by
  unfold State.bar2Read
  try dsimp only
  repeat' first | with_reducible assumption | with_reducible apply keeps_if | with_reducible apply h_s
                | with_reducible apply State.storeWords_keeps | with_reducible apply State.wakeLink_keeps
                | with_reducible apply State.unsupported_keeps | with_reducible apply State.emit_keeps
                | with_reducible apply State.emitAll_keeps | simp only [keeps_mk_iff] | simp only [keeps_hst_eq]
                | with_reducible apply KeepsH.of | with_reducible apply writeBytes_wf | with_reducible apply readBytes_wf
                | with_reducible apply readWords_wf | exact wf_of_cells rfl rfl ‹_› | split | intro

@[simp] theorem State.writeMsix_keeps {qq : List Instr} {bb : Prop} (s : State) (l : Link) (slot : Nat) (h : slot < 16) (off : Nat)
    (v : DWord) (h_s : Keeps qq bb s) : Keeps qq bb (State.writeMsix s l slot h off v) := by
  unfold State.writeMsix
  try dsimp only
  repeat' first | with_reducible assumption | with_reducible apply keeps_if | with_reducible apply h_s
                | with_reducible apply State.sendPending_keeps | simp only [keeps_mk_iff] | split | intro

@[simp] theorem State.writeMsixControl_keeps {qq : List Instr} {bb : Prop} (s : State) (l : Link) (slot : Nat) (h : slot < 16) (v : DWord)
    (h_s : Keeps qq bb s) : Keeps qq bb (State.writeMsixControl s l slot h v) := by
  unfold State.writeMsixControl
  try dsimp only
  repeat' first | with_reducible assumption | with_reducible apply keeps_if | with_reducible apply h_s
                | with_reducible apply State.sendPending_keeps | simp only [keeps_mk_iff] | split | intro

@[simp] theorem State.writeSriov_keeps {qq : List Instr} {bb : Prop} (s : State) (l : Link) (off : Nat) (v : DWord) (h_s : Keeps qq bb s)
    : Keeps qq bb (State.writeSriov s l off v) := by
  unfold State.writeSriov
  try dsimp only
  repeat' first | with_reducible assumption | with_reducible apply keeps_if | with_reducible apply h_s
                | with_reducible apply State.resumeLink_keeps | with_reducible apply State.modLink_keeps
                | with_reducible apply State.vfClear_keeps | split | intro

@[simp] theorem State.writePf_keeps {qq : List Instr} {bb : Prop} (s : State) (l : Link) (off : Nat) (v : DWord) (h_s : Keeps qq bb s)
    : Keeps qq bb (State.writePf s l off v) := by
  unfold State.writePf
  try dsimp only
  repeat' first | with_reducible assumption | with_reducible apply keeps_if | with_reducible apply h_s
                | with_reducible apply State.modMsix_keeps | with_reducible apply State.setMastering_keeps
                | with_reducible apply State.managerReset_keeps | with_reducible apply State.modLink_keeps
                | with_reducible apply State.reportLtr_keeps | with_reducible apply State.writeSriov_keeps | simp only [keeps_mk_iff]
                | split | intro

@[simp] theorem State.writeVf_keeps {qq : List Instr} {bb : Prop} (s : State) (l : Link) (i : Fin 15) (off : Nat) (v : DWord)
    (h_s : Keeps qq bb s) : Keeps qq bb (State.writeVf s l i off v) := by
  unfold State.writeVf
  try dsimp only
  repeat' first | with_reducible assumption | with_reducible apply keeps_if | with_reducible apply h_s
                | with_reducible apply State.setMastering_keeps | with_reducible apply State.resetFunction_keeps
                | with_reducible apply State.resetSlot_keeps | simp only [keeps_mk_iff] | split | intro

@[simp] theorem State.writeConfig_keeps {qq : List Instr} {bb : Prop} (s : State) (l : Link) (slot : Fin 16) (off : Nat) (v : DWord)
    (h_s : Keeps qq bb s) : Keeps qq bb (State.writeConfig s l slot off v) := by
  unfold State.writeConfig
  try dsimp only
  repeat' first | with_reducible assumption | with_reducible apply keeps_if | with_reducible apply h_s
                | with_reducible apply State.writeMsixControl_keeps | with_reducible apply State.modLink_keeps
                | with_reducible apply State.writePf_keeps | with_reducible apply State.modMsix_keeps
                | with_reducible apply State.writeVf_keeps | with_reducible apply keeps_dif | simp only [keeps_mk_iff] | split | intro

@[simp] theorem State.writeLinkRegs_keeps {qq : List Instr} {bb : Prop} (s : State) (r : Requester) (l : Link) (off : Nat) (o : Nat)
    (v : DWord) (h_s : Keeps qq bb s) : Keeps qq bb (State.writeLinkRegs s r l off o v) := by
  unfold State.writeLinkRegs
  try dsimp only
  repeat' first | with_reducible assumption | with_reducible apply keeps_if | with_reducible apply keeps_dif | with_reducible apply h_s
                | with_reducible apply State.modLink_keeps | with_reducible apply State.refuse_keeps | split | intro

@[simp] theorem State.setWin_keeps {qq : List Instr} {bb : Prop} (s : State) (r : Requester) (off : Nat) (n : Fin 32) (o : Nat)
    (v : DWord) (h_s : Keeps qq bb s) : Keeps qq bb (State.setWin s r off n o v) := by
  unfold State.setWin
  try dsimp only
  repeat' first | with_reducible assumption | with_reducible apply keeps_if | with_reducible apply h_s
                | with_reducible apply State.stageLow_keeps | with_reducible apply State.dropStaged_keeps | simp only [keeps_mk_iff]
                | split | intro

@[simp] theorem State.writeHlk_keeps {qq : List Instr} {bb : Prop} (s : State) (r : Requester) (off : Nat) (v : DWord)
    (h_s : Keeps qq bb s) : Keeps qq bb (State.writeHlk s r off v) := by
  unfold State.writeHlk
  try dsimp only
  repeat' first | with_reducible assumption | with_reducible apply keeps_if | with_reducible apply keeps_dif | with_reducible apply h_s
                | with_reducible apply State.writeLinkRegs_keeps | with_reducible apply State.sealedWrite_keeps
                | with_reducible apply State.setWin_keeps | split | intro

@[simp] theorem State.disownRing_keeps {qq : List Instr} {bb : Prop} (s : State) (f : Func) (ring : Fin 65) (h_s : Keeps qq bb s)
    : Keeps qq bb (State.disownRing s f ring) := by
  unfold State.disownRing
  try dsimp only
  repeat' first | with_reducible assumption | with_reducible apply keeps_if | with_reducible apply h_s
                | with_reducible apply State.modRing_keeps | with_reducible apply State.endTransfer_keeps | split | intro

@[simp] theorem State.holdLamps_keeps {qq : List Instr} {bb : Prop} (s : State) (n : Fin 16) (f : Func) (h_s : Keeps qq bb s)
    : Keeps qq bb (State.holdLamps s n f) := by
  unfold State.holdLamps
  try dsimp only
  repeat' first | with_reducible assumption | with_reducible apply keeps_if | with_reducible apply h_s | simp only [keeps_mk_iff] | split
                | intro

@[simp] theorem State.movePorts_keeps {qq : List Instr} {bb : Prop} (s : State) (ns : List (Fin 16)) (code : Func) (h_s : Keeps qq bb s)
    : Keeps qq bb (State.movePorts s ns code).1 := by
  unfold State.movePorts
  try dsimp only
  repeat' first | with_reducible assumption | with_reducible apply keeps_if | with_reducible apply h_s
                | with_reducible apply State.holdLamps_keeps | with_reducible apply State.disownRing_keeps
                | with_reducible apply foldl_keeps | simp only [keeps_mk_iff] | split | intro

@[simp] theorem State.beginAssign_keeps {qq : List Instr} {bb : Prop} (s : State) (rings : List (Func × Fin 65))
    (moves : List (Func × DWord × DWord)) (release : List (Fin 15)) (h_s : Keeps qq bb s)
    : Keeps qq bb (State.beginAssign s rings moves release) := by
  unfold State.beginAssign
  try dsimp only
  repeat' first | with_reducible assumption | with_reducible apply keeps_if | with_reducible apply h_s
                | with_reducible apply State.release_keeps | simp only [keeps_mk_iff] | split | intro

@[simp] theorem State.assignPorts_keeps {qq : List Instr} {bb : Prop} (s : State) (ns : List (Fin 16)) (o : Func)
    (release : List (Fin 15)) (h_s : Keeps qq bb s) : Keeps qq bb (State.assignPorts s ns o release) := by
  unfold State.assignPorts
  try dsimp only
  repeat' first | with_reducible assumption | with_reducible apply keeps_if | with_reducible apply h_s
                | with_reducible apply State.movePorts_keeps | with_reducible apply State.beginAssign_keeps | split | intro

@[simp] theorem State.releaseBuoy_keeps {qq : List Instr} {bb : Prop} (s : State) (b : Fin 15) (h_s : Keeps qq bb s)
    : Keeps qq bb (State.releaseBuoy s b) := by
  unfold State.releaseBuoy
  try dsimp only
  repeat' first | with_reducible assumption | with_reducible apply keeps_if | with_reducible apply h_s
                | with_reducible apply State.assignPorts_keeps | split | intro

@[simp] theorem State.buoyHome_keeps {qq : List Instr} {bb : Prop} (s : State) (f : Func) (e : Entry) (h_s : Keeps qq bb s)
    : (State.buoyHome s f e).Keeps qq bb := by
  unfold State.buoyHome
  try dsimp only
  repeat' first | with_reducible assumption | with_reducible apply CmdEnd.keeps_if | with_reducible apply keeps_if
                | with_reducible apply h_s | with_reducible apply State.releaseBuoy_keeps | with_reducible apply State.modBuoy_keeps
                | with_reducible apply State.slotEvents_keeps | with_reducible apply CmdEnd.done_keeps
                | with_reducible apply CmdEnd.started_keeps | with_reducible apply CmdEnd.parked_keeps | simp only [keeps_mk_iff] | split
                | intro

@[simp] theorem execBuoyHome_keeps {qq : List Instr} {bb : Prop} (f : Func) (s : State) (h_s : Keeps qq bb s)
    : OutKeeps qq bb (execBuoyHome f s) := by
  unfold execBuoyHome
  try dsimp only
  repeat' first | with_reducible assumption | with_reducible apply OutKeeps.keeps_if | with_reducible apply h_s
                | with_reducible apply State.after_keeps | with_reducible apply State.runCommand_keeps
                | with_reducible apply State.buoyHome_keeps | with_reducible apply OutKeeps.next | split | intro

@[simp] theorem State.portAssign_keeps {qq : List Instr} {bb : Prop} (s : State) (f : Func) (e : Entry) (h_s : Keeps qq bb s)
    : (State.portAssign s f e).Keeps qq bb := by
  unfold State.portAssign
  try dsimp only
  repeat' first | with_reducible assumption | with_reducible apply CmdEnd.keeps_if | with_reducible apply keeps_if
                | with_reducible apply h_s | with_reducible apply State.assignPorts_keeps | with_reducible apply CmdEnd.done_keeps
                | with_reducible apply CmdEnd.started_keeps | with_reducible apply CmdEnd.parked_keeps | simp only [keeps_mk_iff] | split
                | intro

@[simp] theorem execPortAssign_keeps {qq : List Instr} {bb : Prop} (f : Func) (s : State) (h_s : Keeps qq bb s)
    : OutKeeps qq bb (execPortAssign f s) := by
  unfold execPortAssign
  try dsimp only
  repeat' first | with_reducible assumption | with_reducible apply OutKeeps.keeps_if | with_reducible apply h_s
                | with_reducible apply State.after_keeps | with_reducible apply State.runCommand_keeps
                | with_reducible apply State.portAssign_keeps | with_reducible apply OutKeeps.next | split | intro

@[simp] theorem State.keeperGrant_keeps {qq : List Instr} {bb : Prop} (s : State) (f : Func) (e : Entry) (h_s : Keeps qq bb s)
    : (State.keeperGrant s f e).Keeps qq bb := by
  unfold State.keeperGrant
  try dsimp only
  repeat' first | with_reducible assumption | with_reducible apply CmdEnd.keeps_if | with_reducible apply h_s
                | with_reducible apply State.modBuoy_keeps | with_reducible apply State.postFnEvent_keeps
                | with_reducible apply CmdEnd.done_keeps | with_reducible apply CmdEnd.started_keeps
                | with_reducible apply CmdEnd.parked_keeps | split | intro

@[simp] theorem execKeeperGrant_keeps {qq : List Instr} {bb : Prop} (f : Func) (s : State) (h_s : Keeps qq bb s)
    : OutKeeps qq bb (execKeeperGrant f s) := by
  unfold execKeeperGrant
  try dsimp only
  repeat' first | with_reducible assumption | with_reducible apply OutKeeps.keeps_if | with_reducible apply h_s
                | with_reducible apply State.after_keeps | with_reducible apply State.runCommand_keeps
                | with_reducible apply State.keeperGrant_keeps | with_reducible apply OutKeeps.next | split | intro

@[simp] theorem State.counterAnswer_keeps {qq : List Instr} {bb : Prop} (s : State) (c : Nat) (outcome : Nat) (h_s : Keeps qq bb s)
    : (State.counterAnswer s c outcome).Keeps qq bb := by
  unfold State.counterAnswer
  try dsimp only
  repeat' first | with_reducible assumption | with_reducible apply CmdEnd.keeps_if | with_reducible apply h_s
                | with_reducible apply CmdEnd.done_keeps | with_reducible apply CmdEnd.started_keeps
                | with_reducible apply CmdEnd.parked_keeps | split | intro

@[simp] theorem State.counterLoad_keeps {qq : List Instr} {bb : Prop} (s : State) (f : Func) (c : Nat) (v : DWord) (h_s : Keeps qq bb s)
    : Keeps qq bb (State.counterLoad s f c v) := by
  unfold State.counterLoad
  try dsimp only
  repeat' first | with_reducible assumption | with_reducible apply keeps_if | with_reducible apply h_s
                | with_reducible apply State.renewCtr_keeps | simp only [keeps_mk_iff] | split | intro

@[simp] theorem State.counterFree_keeps {qq : List Instr} {bb : Prop} (s : State) (c : Nat) (h_s : Keeps qq bb s)
    : Keeps qq bb (State.counterFree s c) := by
  unfold State.counterFree
  try dsimp only
  repeat' first | with_reducible assumption | with_reducible apply keeps_if | with_reducible apply h_s
                | with_reducible apply State.modTnd_keeps | split | intro

@[simp] theorem State.counterCmd_keeps {qq : List Instr} {bb : Prop} (s : State) (f : Func) (e : Entry) (act : State → Nat → CmdEnd)
    (h_s : Keeps qq bb s) (h_act : ∀ v0 v1, Keeps qq bb v0 → (act v0 v1).Keeps qq bb) : (State.counterCmd s f e act).Keeps qq bb := by
  unfold State.counterCmd
  try dsimp only
  repeat' first | with_reducible assumption | with_reducible apply CmdEnd.keeps_if | with_reducible apply h_s | with_reducible apply h_act
                | with_reducible apply CmdEnd.done_keeps | with_reducible apply CmdEnd.started_keeps
                | with_reducible apply CmdEnd.parked_keeps | split | intro

@[simp] theorem execTndCounterLoad_keeps {qq : List Instr} {bb : Prop} (f : Func) (s : State) (h_s : Keeps qq bb s)
    : OutKeeps qq bb (execTndCounterLoad f s) := by
  unfold execTndCounterLoad
  try dsimp only
  repeat' first | with_reducible assumption | with_reducible apply OutKeeps.keeps_if | with_reducible apply h_s
                | with_reducible apply State.after_keeps | with_reducible apply State.runCommand_keeps
                | with_reducible apply State.counterCmd_keeps | with_reducible apply State.counterAnswer_keeps
                | with_reducible apply State.counterLoad_keeps | with_reducible apply CmdEnd.done_keeps
                | with_reducible apply CmdEnd.started_keeps | with_reducible apply CmdEnd.parked_keeps
                | with_reducible apply OutKeeps.next | split | intro

@[simp] theorem execTndCounterDec_keeps {qq : List Instr} {bb : Prop} (f : Func) (s : State) (h_s : Keeps qq bb s)
    : OutKeeps qq bb (execTndCounterDec f s) := by
  unfold execTndCounterDec
  try dsimp only
  repeat' first | with_reducible assumption | with_reducible apply OutKeeps.keeps_if | with_reducible apply h_s
                | with_reducible apply State.after_keeps | with_reducible apply State.runCommand_keeps
                | with_reducible apply State.counterCmd_keeps | with_reducible apply State.decrementBy_keeps
                | with_reducible apply State.counterAnswer_keeps | with_reducible apply OutKeeps.next | split | intro

@[simp] theorem execTndCounterFree_keeps {qq : List Instr} {bb : Prop} (f : Func) (s : State) (h_s : Keeps qq bb s)
    : OutKeeps qq bb (execTndCounterFree f s) := by
  unfold execTndCounterFree
  try dsimp only
  repeat' first | with_reducible assumption | with_reducible apply OutKeeps.keeps_if | with_reducible apply h_s
                | with_reducible apply State.after_keeps | with_reducible apply State.runCommand_keeps
                | with_reducible apply State.counterCmd_keeps | with_reducible apply State.counterAnswer_keeps
                | with_reducible apply State.counterFree_keeps | with_reducible apply CmdEnd.done_keeps
                | with_reducible apply CmdEnd.started_keeps | with_reducible apply CmdEnd.parked_keeps
                | with_reducible apply OutKeeps.next | split | intro

@[simp] theorem execTndCounterRead_keeps {qq : List Instr} {bb : Prop} (f : Func) (s : State) (h_s : Keeps qq bb s)
    : OutKeeps qq bb (execTndCounterRead f s) := by
  unfold execTndCounterRead
  try dsimp only
  repeat' first | with_reducible assumption | with_reducible apply OutKeeps.keeps_if | with_reducible apply h_s
                | with_reducible apply State.after_keeps | with_reducible apply State.runCommand_keeps
                | with_reducible apply State.counterCmd_keeps | with_reducible apply State.counterAnswer_keeps
                | with_reducible apply OutKeeps.next | split | intro

@[simp] theorem State.tndPost_keeps {qq : List Instr} {bb : Prop} (s : State) (f : Func) (e : Entry) (h_s : Keeps qq bb s)
    : (State.tndPost s f e).Keeps qq bb := by
  unfold State.tndPost
  try dsimp only
  repeat' first | with_reducible assumption | with_reducible apply CmdEnd.keeps_if | with_reducible apply h_s
                | with_reducible apply State.postItem_keeps | with_reducible apply CmdEnd.done_keeps
                | with_reducible apply CmdEnd.started_keeps | with_reducible apply CmdEnd.parked_keeps | split | intro

@[simp] theorem execTndPost_keeps {qq : List Instr} {bb : Prop} (f : Func) (s : State) (h_s : Keeps qq bb s)
    : OutKeeps qq bb (execTndPost f s) := by
  unfold execTndPost
  try dsimp only
  repeat' first | with_reducible assumption | with_reducible apply OutKeeps.keeps_if | with_reducible apply h_s
                | with_reducible apply State.after_keeps | with_reducible apply State.runCommand_keeps
                | with_reducible apply State.tndPost_keeps | with_reducible apply OutKeeps.next | split | intro

@[simp] theorem State.tndCancel_keeps {qq : List Instr} {bb : Prop} (s : State) (f : Func) (e : Entry) (h_s : Keeps qq bb s)
    : (State.tndCancel s f e).Keeps qq bb := by
  unfold State.tndCancel
  try dsimp only
  repeat' first | with_reducible assumption | with_reducible apply CmdEnd.keeps_if | with_reducible apply h_s
                | with_reducible apply State.freeItem_keeps | with_reducible apply CmdEnd.done_keeps
                | with_reducible apply CmdEnd.started_keeps | with_reducible apply CmdEnd.parked_keeps | split | intro

@[simp] theorem execTndCancel_keeps {qq : List Instr} {bb : Prop} (f : Func) (s : State) (h_s : Keeps qq bb s)
    : OutKeeps qq bb (execTndCancel f s) := by
  unfold execTndCancel
  try dsimp only
  repeat' first | with_reducible assumption | with_reducible apply OutKeeps.keeps_if | with_reducible apply h_s
                | with_reducible apply State.after_keeps | with_reducible apply State.runCommand_keeps
                | with_reducible apply State.tndCancel_keeps | with_reducible apply OutKeeps.next | split | intro

@[simp] theorem State.modKpost_keeps {qq : List Instr} {bb : Prop} (s : State) (k : Fin 12) (g : KeeperPost → KeeperPost)
    (h_s : Keeps qq bb s) : Keeps qq bb (State.modKpost s k g) := by
  unfold State.modKpost
  try dsimp only
  repeat' first | with_reducible assumption | with_reducible apply keeps_if | with_reducible apply h_s
                | with_reducible apply State.modTnd_keeps | split | intro

@[simp] theorem State.keeperPost_keeps {qq : List Instr} {bb : Prop} (s : State) (k : Fin 12) (h_s : Keeps qq bb s)
    : Keeps qq bb (State.keeperPost s k) := by
  unfold State.keeperPost
  try dsimp only
  repeat' first | with_reducible assumption | with_reducible apply keeps_if | with_reducible apply h_s
                | with_reducible apply State.postItem_keeps | with_reducible apply State.modKpost_keeps
                | with_reducible apply State.tndFault_keeps | split | intro

@[simp] theorem State.keeperDecrement_keeps {qq : List Instr} {bb : Prop} (s : State) (k : Fin 12) (v : DWord) (h_s : Keeps qq bb s)
    : Keeps qq bb (State.keeperDecrement s k v) := by
  unfold State.keeperDecrement
  try dsimp only
  repeat' first | with_reducible assumption | with_reducible apply keeps_if | with_reducible apply h_s
                | with_reducible apply State.tndFault_keeps | with_reducible apply State.decrementBy_keeps | split | intro

@[simp] theorem State.writeKpost_keeps {qq : List Instr} {bb : Prop} (s : State) (r : Requester) (off : Nat) (v : DWord)
    (h_s : Keeps qq bb s) : Keeps qq bb (State.writeKpost s r off v) := by
  unfold State.writeKpost
  try dsimp only
  repeat' first | with_reducible assumption | with_reducible apply keeps_if | with_reducible apply keeps_dif | with_reducible apply h_s
                | with_reducible apply State.modKpost_keeps | with_reducible apply State.keeperPost_keeps
                | with_reducible apply State.keeperDecrement_keeps | with_reducible apply State.refuse_keeps | split | intro

@[simp] theorem State.writeTnd_keeps {qq : List Instr} {bb : Prop} (s : State) (r : Requester) (off : Nat) (v : DWord)
    (h_s : Keeps qq bb s) : Keeps qq bb (State.writeTnd s r off v) := by
  unfold State.writeTnd
  try dsimp only
  repeat' first | with_reducible assumption | with_reducible apply keeps_if | with_reducible apply keeps_dif | with_reducible apply h_s
                | with_reducible apply State.modTnd_keeps | with_reducible apply State.refuse_keeps
                | with_reducible apply State.primaryWrite_keeps | with_reducible apply State.writeKpost_keeps | split | intro

@[simp] theorem execKeeperPost_keeps {qq : List Instr} {bb : Prop} (k : Fin 12) (v : DWord) (s : State) (h_s : Keeps qq bb s)
    : OutKeeps qq bb (execKeeperPost k v s) := by
  unfold execKeeperPost
  try dsimp only
  repeat' first | with_reducible assumption | with_reducible apply OutKeeps.keeps_if | with_reducible apply h_s
                | with_reducible apply State.after_keeps | with_reducible apply State.access_keeps
                | with_reducible apply State.writeTnd_keeps | with_reducible apply OutKeeps.next | split | intro

@[simp] theorem execKeeperDecrement_keeps {qq : List Instr} {bb : Prop} (k : Fin 12) (v : DWord) (s : State) (h_s : Keeps qq bb s)
    : OutKeeps qq bb (execKeeperDecrement k v s) := by
  unfold execKeeperDecrement
  try dsimp only
  repeat' first | with_reducible assumption | with_reducible apply OutKeeps.keeps_if | with_reducible apply h_s
                | with_reducible apply State.after_keeps | with_reducible apply State.access_keeps
                | with_reducible apply State.writeTnd_keeps | with_reducible apply OutKeeps.next | split | intro

@[simp] theorem State.dispatchOne_keeps {qq : List Instr} {bb : Prop} (s : State) (h_s : Keeps qq bb s)
    : Keeps qq bb (State.dispatchOne s) := by
  unfold State.dispatchOne
  try dsimp only
  repeat' first | with_reducible assumption | with_reducible apply keeps_if | with_reducible apply h_s
                | with_reducible apply State.tndFault_keeps | with_reducible apply State.freeItem_keeps
                | with_reducible apply State.endItem_keeps | with_reducible apply State.startItem_keeps | split | intro

@[simp] theorem execDispatch_keeps {qq : List Instr} {bb : Prop} (s : State) (h_s : Keeps qq bb s) : OutKeeps qq bb (execDispatch s) := by
  unfold execDispatch
  try dsimp only
  repeat' first | with_reducible assumption | with_reducible apply OutKeeps.keeps_if | with_reducible apply h_s
                | with_reducible apply State.after_keeps | with_reducible apply State.dispatchOne_keeps
                | with_reducible apply OutKeeps.next | split | intro

@[simp] theorem execWatchExpiry_keeps {qq : List Instr} {bb : Prop} (k : Fin 12) (s : State) (h_s : Keeps qq bb s)
    : OutKeeps qq bb (execWatchExpiry k s) := by
  unfold execWatchExpiry
  try dsimp only
  repeat' first | with_reducible assumption | with_reducible apply OutKeeps.keeps_if | with_reducible apply h_s
                | with_reducible apply State.after_keeps | with_reducible apply State.watchKeeper_keeps
                | with_reducible apply OutKeeps.next | split | intro

@[simp] theorem execEpochDecrement_keeps {qq : List Instr} {bb : Prop} (s : State) (h_s : Keeps qq bb s)
    : OutKeeps qq bb (execEpochDecrement s) := by
  unfold execEpochDecrement
  try dsimp only
  repeat' first | with_reducible assumption | with_reducible apply OutKeeps.keeps_if | with_reducible apply h_s
                | with_reducible apply State.after_keeps | with_reducible apply State.epochAt_keeps | with_reducible apply OutKeeps.next
                | split | intro

@[simp] theorem execKeeperFence_keeps {qq : List Instr} {bb : Prop} (k : Fin 12) (pipe : Bool) (s : State) (h_s : Keeps qq bb s)
    : OutKeeps qq bb (execKeeperFence k pipe s) := by
  unfold execKeeperFence
  try dsimp only
  repeat' first | with_reducible assumption | with_reducible apply OutKeeps.keeps_if | with_reducible apply h_s
                | with_reducible apply State.after_keeps | with_reducible apply State.fence_keeps | with_reducible apply OutKeeps.next
                | split | intro

@[simp] theorem State.revive_keeps {qq : List Instr} {bb : Prop} (s : State) (v : DWord) (h_s : Keeps qq bb s)
    : Keeps qq bb (State.revive s v) := by
  unfold State.revive
  try dsimp only
  repeat' first | with_reducible assumption | with_reducible apply keeps_if | with_reducible apply keeps_dif | with_reducible apply h_s
                | with_reducible apply State.modTnd_keeps | split | intro

@[simp] theorem State.writeRevive_keeps {qq : List Instr} {bb : Prop} (s : State) (p : Path) (v : DWord) (h_s : Keeps qq bb s)
    : Keeps qq bb (State.writeRevive s p v) := by
  unfold State.writeRevive
  try dsimp only
  repeat' first | with_reducible assumption | with_reducible apply keeps_if | with_reducible apply h_s
                | with_reducible apply State.accessGuarded_keeps | with_reducible apply State.primaryWrite_keeps
                | with_reducible apply State.revive_keeps | split | intro

@[simp] theorem execKprRevive_keeps {qq : List Instr} {bb : Prop} (p : Path) (v : DWord) (s : State) (h_s : Keeps qq bb s)
    : OutKeeps qq bb (execKprRevive p v s) := by
  unfold execKprRevive
  try dsimp only
  repeat' first | with_reducible assumption | with_reducible apply OutKeeps.keeps_if | with_reducible apply h_s
                | with_reducible apply State.after_keeps | with_reducible apply State.writeRevive_keeps
                | with_reducible apply OutKeeps.next | split | intro

@[simp] theorem State.unfence_keeps {qq : List Instr} {bb : Prop} (s : State) (k : Fin 12) (h_s : Keeps qq bb s)
    : Keeps qq bb (State.unfence s k) := by
  unfold State.unfence
  try dsimp only
  repeat' first | with_reducible assumption | with_reducible apply keeps_if | with_reducible apply h_s
                | with_reducible apply State.modKeeper_keeps | with_reducible apply State.modTnd_keeps | split | intro

@[simp] theorem State.reviveTest_keeps {qq : List Instr} {bb : Prop} (s : State) (pass : Bool) (h_s : Keeps qq bb s)
    : Keeps qq bb (State.reviveTest s pass) := by
  unfold State.reviveTest
  try dsimp only
  repeat' first | with_reducible assumption | with_reducible apply keeps_if | with_reducible apply keeps_dif | with_reducible apply h_s
                | with_reducible apply State.modTnd_keeps | with_reducible apply State.unfence_keeps | split | intro

@[simp] theorem execReviveSelfTest_keeps {qq : List Instr} {bb : Prop} (pass : Bool) (s : State) (h_s : Keeps qq bb s)
    : OutKeeps qq bb (execReviveSelfTest pass s) := by
  unfold execReviveSelfTest
  try dsimp only
  repeat' first | with_reducible assumption | with_reducible apply OutKeeps.keeps_if | with_reducible apply h_s
                | with_reducible apply State.after_keeps | with_reducible apply State.reviveTest_keeps
                | with_reducible apply OutKeeps.next | split | intro

@[simp] theorem State.wakeSource_keeps {qq : List Instr} {bb : Prop} (s : State) (bit : Nat) (h_s : Keeps qq bb s)
    : Keeps qq bb (State.wakeSource s bit) := by
  unfold State.wakeSource
  try dsimp only
  repeat' first | with_reducible assumption | with_reducible apply keeps_if | with_reducible apply h_s
                | with_reducible apply State.modLink_keeps | simp only [keeps_mk_iff] | split | intro

@[simp] theorem State.portDone_keeps {qq : List Instr} {bb : Prop} (s : State) (n : Fin 16) (outcome : Nat) (h_s : Keeps qq bb s)
    : (State.portDone s n outcome).Keeps qq bb := by
  unfold State.portDone
  try dsimp only
  repeat' first | with_reducible assumption | with_reducible apply CmdEnd.keeps_if | with_reducible apply h_s
                | with_reducible apply CmdEnd.done_keeps | with_reducible apply CmdEnd.started_keeps
                | with_reducible apply CmdEnd.parked_keeps | split | intro

@[simp] theorem State.portCtl_keeps {qq : List Instr} {bb : Prop} (s : State) (f : Func) (e : Entry) (allowed : Port → Bool)
    (act : State → Fin 16 → CmdEnd) (h_s : Keeps qq bb s) (h_act : ∀ v0 v1, Keeps qq bb v0 → (act v0 v1).Keeps qq bb)
    : (State.portCtl s f e allowed act).Keeps qq bb := by
  unfold State.portCtl
  try dsimp only
  repeat' first | with_reducible assumption | with_reducible apply CmdEnd.keeps_if | with_reducible apply h_s | with_reducible apply h_act
                | with_reducible apply State.portDone_keeps | with_reducible apply CmdEnd.done_keeps
                | with_reducible apply CmdEnd.started_keeps | with_reducible apply CmdEnd.parked_keeps | split | intro

@[simp] theorem execPortCtlStatus_keeps {qq : List Instr} {bb : Prop} (f : Func) (s : State) (h_s : Keeps qq bb s)
    : OutKeeps qq bb (execPortCtlStatus f s) := by
  unfold execPortCtlStatus
  try dsimp only
  repeat' first | with_reducible assumption | with_reducible apply OutKeeps.keeps_if | with_reducible apply h_s
                | with_reducible apply State.after_keeps | with_reducible apply State.runCommand_keeps
                | with_reducible apply State.portCtl_keeps | with_reducible apply State.portDone_keeps
                | with_reducible apply OutKeeps.next | split | intro

@[simp] theorem State.startReset_keeps {qq : List Instr} {bb : Prop} (s : State) (f : Func) (n : Fin 16) (h_s : Keeps qq bb s)
    : Keeps qq bb (State.startReset s f n) := by
  unfold State.startReset
  try dsimp only
  repeat' first | with_reducible assumption | with_reducible apply keeps_if | with_reducible apply h_s
                | with_reducible apply State.releasePort_keeps | with_reducible apply State.finishPort_keeps
                | with_reducible apply State.modPort_keeps | simp only [keeps_mk_iff] | split | intro

@[simp] theorem execPortCtlReset_keeps {qq : List Instr} {bb : Prop} (f : Func) (s : State) (h_s : Keeps qq bb s)
    : OutKeeps qq bb (execPortCtlReset f s) := by
  unfold execPortCtlReset
  try dsimp only
  repeat' first | with_reducible assumption | with_reducible apply OutKeeps.keeps_if | with_reducible apply h_s
                | with_reducible apply State.after_keeps | with_reducible apply State.runCommand_keeps
                | with_reducible apply State.portCtl_keeps | with_reducible apply State.startReset_keeps
                | with_reducible apply CmdEnd.done_keeps | with_reducible apply CmdEnd.started_keeps
                | with_reducible apply CmdEnd.parked_keeps | with_reducible apply OutKeeps.next | split | intro

@[simp] theorem execBusResetSe0End_keeps {qq : List Instr} {bb : Prop} (n : Fin 16) (speed : Option Speed) (s : State)
    (h_s : Keeps qq bb s) : OutKeeps qq bb (execBusResetSe0End n speed s) := by
  unfold execBusResetSe0End
  try dsimp only
  repeat' first | with_reducible assumption | with_reducible apply OutKeeps.keeps_if | with_reducible apply h_s
                | with_reducible apply State.after_keeps | with_reducible apply State.modPort_keeps
                | with_reducible apply State.finishPort_keeps | with_reducible apply OutKeeps.next | split | intro

@[simp] theorem execResetRecoveryEnd_keeps {qq : List Instr} {bb : Prop} (n : Fin 16) (s : State) (h_s : Keeps qq bb s)
    : OutKeeps qq bb (execResetRecoveryEnd n s) := by
  unfold execResetRecoveryEnd
  try dsimp only
  repeat' first | with_reducible assumption | with_reducible apply OutKeeps.keeps_if | with_reducible apply keeps_if
                | with_reducible apply h_s | with_reducible apply State.after_keeps | with_reducible apply State.modPort_keeps
                | with_reducible apply State.finishPort_keeps | with_reducible apply OutKeeps.next | simp only [keeps_mk_iff] | split
                | intro

@[simp] theorem execPortCtlSuspend_keeps {qq : List Instr} {bb : Prop} (f : Func) (s : State) (h_s : Keeps qq bb s)
    : OutKeeps qq bb (execPortCtlSuspend f s) := by
  unfold execPortCtlSuspend
  try dsimp only
  repeat' first | with_reducible assumption | with_reducible apply OutKeeps.keeps_if | with_reducible apply keeps_if
                | with_reducible apply h_s | with_reducible apply State.after_keeps | with_reducible apply State.runCommand_keeps
                | with_reducible apply State.portCtl_keeps | with_reducible apply State.modPort_keeps | with_reducible apply OutKeeps.next
                | simp only [keeps_mk_iff] | with_reducible apply CmdEnd.keeps_if | with_reducible apply CmdEnd.done_keeps
                | with_reducible apply CmdEnd.started_keeps | with_reducible apply CmdEnd.parked_keeps | split | intro

@[simp] theorem State.suspendTicks_keeps {qq : List Instr} {bb : Prop} (s : State) (h_s : Keeps qq bb s)
    : Keeps qq bb (State.suspendTicks s) := by
  unfold State.suspendTicks
  try dsimp only
  repeat' first | with_reducible assumption | with_reducible apply keeps_if | with_reducible apply h_s | simp only [keeps_mk_iff] | split
                | intro

@[simp] theorem execSuspendWaitEnd_keeps {qq : List Instr} {bb : Prop} (n : Fin 16) (s : State) (h_s : Keeps qq bb s)
    : OutKeeps qq bb (execSuspendWaitEnd n s) := by
  unfold execSuspendWaitEnd
  try dsimp only
  repeat' first | with_reducible assumption | with_reducible apply OutKeeps.keeps_if | with_reducible apply h_s
                | with_reducible apply State.after_keeps | with_reducible apply State.finishPort_keeps
                | with_reducible apply State.modPort_keeps | with_reducible apply OutKeeps.next | split | intro

@[simp] theorem execPortCtlResume_keeps {qq : List Instr} {bb : Prop} (f : Func) (s : State) (h_s : Keeps qq bb s)
    : OutKeeps qq bb (execPortCtlResume f s) := by
  unfold execPortCtlResume
  try dsimp only
  repeat' first | with_reducible assumption | with_reducible apply OutKeeps.keeps_if | with_reducible apply keeps_if
                | with_reducible apply h_s | with_reducible apply State.after_keeps | with_reducible apply State.runCommand_keeps
                | with_reducible apply State.portCtl_keeps | with_reducible apply State.modPort_keeps | with_reducible apply OutKeeps.next
                | simp only [keeps_mk_iff] | with_reducible apply CmdEnd.keeps_if | with_reducible apply CmdEnd.done_keeps
                | with_reducible apply CmdEnd.started_keeps | with_reducible apply CmdEnd.parked_keeps | split | intro

@[simp] theorem execResumeSignalEnd_keeps {qq : List Instr} {bb : Prop} (n : Fin 16) (s : State) (h_s : Keeps qq bb s)
    : OutKeeps qq bb (execResumeSignalEnd n s) := by
  unfold execResumeSignalEnd
  try dsimp only
  repeat' first | with_reducible assumption | with_reducible apply OutKeeps.keeps_if | with_reducible apply h_s
                | with_reducible apply State.after_keeps | with_reducible apply State.finishPort_keeps
                | with_reducible apply State.modPort_keeps | with_reducible apply OutKeeps.next | split | intro

@[simp] theorem execPortCtlDisable_keeps {qq : List Instr} {bb : Prop} (f : Func) (s : State) (h_s : Keeps qq bb s)
    : OutKeeps qq bb (execPortCtlDisable f s) := by
  unfold execPortCtlDisable
  try dsimp only
  repeat' first | with_reducible assumption | with_reducible apply OutKeeps.keeps_if | with_reducible apply keeps_if
                | with_reducible apply h_s | with_reducible apply State.after_keeps | with_reducible apply State.runCommand_keeps
                | with_reducible apply State.portCtl_keeps | with_reducible apply State.releasePort_keeps
                | with_reducible apply State.modPort_keeps | with_reducible apply State.finishPort_keeps
                | with_reducible apply State.portDone_keeps | with_reducible apply OutKeeps.next | simp only [keeps_mk_iff] | split
                | intro

@[simp] theorem State.portL1_keeps {qq : List Instr} {bb : Prop} (s : State) (n : Fin 16) (v : DWord) (ans : LpmAnswer)
    (h_s : Keeps qq bb s) : (State.portL1 s n v ans).Keeps qq bb := by
  unfold State.portL1
  try dsimp only
  repeat' first | with_reducible assumption | with_reducible apply CmdEnd.keeps_if | with_reducible apply keeps_if
                | with_reducible apply h_s | with_reducible apply State.portDone_keeps | with_reducible apply State.emit_keeps
                | with_reducible apply State.modPort_keeps | with_reducible apply State.finishPort_keeps
                | with_reducible apply CmdEnd.done_keeps | with_reducible apply CmdEnd.started_keeps
                | with_reducible apply CmdEnd.parked_keeps | simp only [keeps_mk_iff] | refine CmdEnd.of_done (by assumption) ?_
                | refine CmdEnd.of_started (by assumption) ?_ | refine CmdEnd.of_parked (by assumption) ?_ | split | intro

@[simp] theorem execPortCtlL1_keeps {qq : List Instr} {bb : Prop} (f : Func) (ans : LpmAnswer) (s : State) (h_s : Keeps qq bb s)
    : OutKeeps qq bb (execPortCtlL1 f ans s) := by
  unfold execPortCtlL1
  try dsimp only
  repeat' first | with_reducible assumption | with_reducible apply OutKeeps.keeps_if | with_reducible apply keeps_if
                | with_reducible apply h_s | with_reducible apply State.after_keeps | with_reducible apply State.runCommand_keeps
                | with_reducible apply State.portCtl_keeps | with_reducible apply State.portL1_keeps | with_reducible apply OutKeeps.next
                | split | intro

@[simp] theorem execL1Exit_keeps {qq : List Instr} {bb : Prop} (n : Fin 16) (s : State) (h_s : Keeps qq bb s)
    : OutKeeps qq bb (execL1Exit n s) := by
  unfold execL1Exit
  try dsimp only
  repeat' first | with_reducible assumption | with_reducible apply OutKeeps.keeps_if | with_reducible apply h_s
                | with_reducible apply State.after_keeps | with_reducible apply State.modPort_keeps | with_reducible apply OutKeeps.next
                | split | intro

@[simp] theorem execPullupSeen_keeps {qq : List Instr} {bb : Prop} (n : Fin 16) (low : Bool) (s : State) (h_s : Keeps qq bb s)
    : OutKeeps qq bb (execPullupSeen n low s) := by
  unfold execPullupSeen
  try dsimp only
  repeat' first | with_reducible assumption | with_reducible apply OutKeeps.keeps_if | with_reducible apply h_s
                | with_reducible apply State.after_keeps | with_reducible apply State.modPort_keeps | with_reducible apply OutKeeps.next
                | split | intro

@[simp] theorem execAttachDebounceEnd_keeps {qq : List Instr} {bb : Prop} (n : Fin 16) (s : State) (h_s : Keeps qq bb s)
    : OutKeeps qq bb (execAttachDebounceEnd n s) := by
  unfold execAttachDebounceEnd
  try dsimp only
  repeat' first | with_reducible assumption | with_reducible apply OutKeeps.keeps_if | with_reducible apply h_s
                | with_reducible apply State.after_keeps | with_reducible apply State.modPort_keeps | with_reducible apply OutKeeps.next
                | split | intro

@[simp] theorem execRootDisconnect_keeps {qq : List Instr} {bb : Prop} (n : Fin 16) (s : State) (h_s : Keeps qq bb s)
    : OutKeeps qq bb (execRootDisconnect n s) := by
  unfold execRootDisconnect
  try dsimp only
  repeat' first | with_reducible assumption | with_reducible apply OutKeeps.keeps_if | with_reducible apply h_s
                | with_reducible apply State.after_keeps | with_reducible apply State.finishPort_keeps
                | with_reducible apply State.modPort_keeps | with_reducible apply State.releasePort_keeps
                | with_reducible apply OutKeeps.next | split | intro

@[simp] theorem execPortRemoteWake_keeps {qq : List Instr} {bb : Prop} (n : Fin 16) (s : State) (h_s : Keeps qq bb s)
    : OutKeeps qq bb (execPortRemoteWake n s) := by
  unfold execPortRemoteWake
  try dsimp only
  repeat' first | with_reducible assumption | with_reducible apply OutKeeps.keeps_if | with_reducible apply h_s
                | with_reducible apply State.after_keeps | with_reducible apply State.wakeSource_keeps
                | with_reducible apply State.modPort_keeps | with_reducible apply OutKeeps.next | split | intro

@[simp] theorem execPortFail_keeps {qq : List Instr} {bb : Prop} (n : Fin 16) (_cause : Nat) (s : State) (h_s : Keeps qq bb s)
    : OutKeeps qq bb (execPortFail n _cause s) := by
  unfold execPortFail
  try dsimp only
  repeat' first | with_reducible assumption | with_reducible apply OutKeeps.keeps_if | with_reducible apply h_s
                | with_reducible apply State.after_keeps | with_reducible apply State.finishPort_keeps
                | with_reducible apply State.modPort_keeps | with_reducible apply State.releasePort_keeps
                | with_reducible apply OutKeeps.next | split | intro

@[simp] theorem execFairwayFail_keeps {qq : List Instr} {bb : Prop} (fa : Fin 4) (cause : Nat) (s : State) (h_s : Keeps qq bb s)
    : OutKeeps qq bb (execFairwayFail fa cause s) := by
  unfold execFairwayFail
  try dsimp only
  repeat' first | with_reducible assumption | with_reducible apply OutKeeps.keeps_if | with_reducible apply h_s
                | with_reducible apply State.after_keeps | with_reducible apply State.modFairway_keeps
                | with_reducible apply OutKeeps.next | split | intro

@[simp] theorem State.addressFails_keeps {qq : List Instr} {bb : Prop} (s : State) (fa : Fin 4) (a : Nat) (sent : Bool) (st : Status)
    (g : Fairway → Fairway) (h_s : Keeps qq bb s) : (State.addressFails s fa a sent st g).Keeps qq bb := by
  unfold State.addressFails
  try dsimp only
  repeat' first | with_reducible assumption | with_reducible apply CmdEnd.keeps_if | with_reducible apply keeps_if
                | with_reducible apply h_s | with_reducible apply State.emit_keeps | with_reducible apply State.modFairway_keeps
                | with_reducible apply CmdEnd.done_keeps | with_reducible apply CmdEnd.started_keeps
                | with_reducible apply CmdEnd.parked_keeps | split | intro

@[simp] theorem State.addressDevice_keeps {qq : List Instr} {bb : Prop} (s : State) (x : Addressing) (ans : AddressAnswer)
    (h_s : Keeps qq bb s) : (State.addressDevice s x ans).Keeps qq bb := by
  unfold State.addressDevice
  try dsimp only
  repeat' first | with_reducible assumption | with_reducible apply CmdEnd.keeps_if | with_reducible apply keeps_if
                | with_reducible apply h_s | with_reducible apply State.modFairway_keeps | with_reducible apply State.addressFails_keeps
                | with_reducible apply State.disableBabbler_keeps | with_reducible apply State.xactError_keeps
                | with_reducible apply State.emit_keeps | with_reducible apply CmdEnd.done_keeps
                | with_reducible apply CmdEnd.started_keeps | with_reducible apply CmdEnd.parked_keeps | simp only [keeps_mk_iff]
                | refine CmdEnd.of_done (by assumption) ?_ | refine CmdEnd.of_started (by assumption) ?_
                | refine CmdEnd.of_parked (by assumption) ?_ | split | intro

@[simp] theorem State.devAddress_keeps {qq : List Instr} {bb : Prop} (s : State) (f : Func) (e : Entry) (ans : AddressAnswer)
    (h_s : Keeps qq bb s) : (State.devAddress s f e ans).Keeps qq bb := by
  unfold State.devAddress
  try dsimp only
  repeat' first | with_reducible assumption | with_reducible apply CmdEnd.keeps_if | with_reducible apply keeps_if
                | with_reducible apply h_s | with_reducible apply State.emit_keeps | with_reducible apply State.addressDevice_keeps
                | with_reducible apply State.freeDWord_keeps | with_reducible apply CmdEnd.done_keeps
                | with_reducible apply CmdEnd.started_keeps | with_reducible apply CmdEnd.parked_keeps | simp only [keeps_mk_iff]
                | refine CmdEnd.of_done (by assumption) ?_ | refine CmdEnd.of_started (by assumption) ?_
                | refine CmdEnd.of_parked (by assumption) ?_ | refine of_pair1 (by assumption) ?_ | refine of_pair2 (by assumption) ?_
                | split | intro

@[simp] theorem State.addressGoesOn_keeps {qq : List Instr} {bb : Prop} (s : State) (x : Addressing) (ans : AddressAnswer)
    (h_s : Keeps qq bb s) : Keeps qq bb (State.addressGoesOn s x ans) := by
  unfold State.addressGoesOn
  try dsimp only
  repeat' first | with_reducible assumption | with_reducible apply keeps_if | with_reducible apply h_s
                | with_reducible apply State.modFairway_keeps | with_reducible apply State.addressDevice_keeps
                | with_reducible apply State.finishCmd_keeps | simp only [keeps_mk_iff] | refine CmdEnd.of_done (by assumption) ?_
                | refine CmdEnd.of_started (by assumption) ?_ | refine CmdEnd.of_parked (by assumption) ?_ | split | intro

@[simp] theorem execDevAddress_keeps {qq : List Instr} {bb : Prop} (f : Func) (ans : AddressAnswer) (s : State) (h_s : Keeps qq bb s)
    : OutKeeps qq bb (execDevAddress f ans s) := by
  unfold execDevAddress
  try dsimp only
  repeat' first | with_reducible assumption | with_reducible apply OutKeeps.keeps_if | with_reducible apply keeps_if
                | with_reducible apply h_s | with_reducible apply State.after_keeps | with_reducible apply State.addressGoesOn_keeps
                | with_reducible apply State.runCommand_keeps | with_reducible apply State.devAddress_keeps
                | with_reducible apply OutKeeps.next | simp only [keeps_mk_iff] | refine CmdEnd.of_done (by assumption) ?_
                | refine CmdEnd.of_started (by assumption) ?_ | refine CmdEnd.of_parked (by assumption) ?_ | split | intro

@[simp] theorem State.devHub_keeps {qq : List Instr} {bb : Prop} (s : State) (f : Func) (e : Entry) (h_s : Keeps qq bb s)
    : (State.devHub s f e).Keeps qq bb := by
  unfold State.devHub
  try dsimp only
  repeat' first | with_reducible assumption | with_reducible apply CmdEnd.keeps_if | with_reducible apply h_s
                | with_reducible apply State.putDev_keeps | with_reducible apply CmdEnd.done_keeps
                | with_reducible apply CmdEnd.started_keeps | with_reducible apply CmdEnd.parked_keeps | split | intro

@[simp] theorem execDevHub_keeps {qq : List Instr} {bb : Prop} (f : Func) (s : State) (h_s : Keeps qq bb s)
    : OutKeeps qq bb (execDevHub f s) := by
  unfold execDevHub
  try dsimp only
  repeat' first | with_reducible assumption | with_reducible apply OutKeeps.keeps_if | with_reducible apply h_s
                | with_reducible apply State.after_keeps | with_reducible apply State.runCommand_keeps
                | with_reducible apply State.devHub_keeps | with_reducible apply OutKeeps.next | split | intro

@[simp] theorem State.endUnbound_keeps {qq : List Instr} {bb : Prop} (s : State) (h : Nat) (h_s : Keeps qq bb s)
    : Keeps qq bb (State.endUnbound s h) := by
  unfold State.endUnbound
  try dsimp only
  repeat' first | with_reducible assumption | with_reducible apply keeps_if | with_reducible apply h_s
                | with_reducible apply State.modRing_keeps | with_reducible apply State.endTransfer_keeps
                | with_reducible apply foldl_keeps | split | intro

@[simp] theorem State.writeEp_keeps {qq : List Instr} {bb : Prop} (s : State) (h : Nat) (d : DevRec) (e : Entry) (h_s : Keeps qq bb s)
    : Keeps qq bb (State.writeEp s h d e) := by
  unfold State.writeEp
  try dsimp only
  repeat' first | with_reducible assumption | with_reducible apply keeps_if | with_reducible apply h_s
                | with_reducible apply State.putDev_keeps | with_reducible apply State.endUnbound_keeps | simp only [keeps_mk_iff] | split
                | intro

@[simp] theorem State.epConfig_keeps {qq : List Instr} {bb : Prop} (s : State) (f : Func) (e : Entry) (h_s : Keeps qq bb s)
    : (State.epConfig s f e).Keeps qq bb := by
  unfold State.epConfig
  try dsimp only
  repeat' first | with_reducible assumption | with_reducible apply CmdEnd.keeps_if | with_reducible apply h_s
                | with_reducible apply State.writeEp_keeps | with_reducible apply CmdEnd.done_keeps
                | with_reducible apply CmdEnd.started_keeps | with_reducible apply CmdEnd.parked_keeps | split | intro

@[simp] theorem execEpConfig_keeps {qq : List Instr} {bb : Prop} (f : Func) (s : State) (h_s : Keeps qq bb s)
    : OutKeeps qq bb (execEpConfig f s) := by
  unfold execEpConfig
  try dsimp only
  repeat' first | with_reducible assumption | with_reducible apply OutKeeps.keeps_if | with_reducible apply h_s
                | with_reducible apply State.after_keeps | with_reducible apply State.runCommand_keeps
                | with_reducible apply State.epConfig_keeps | with_reducible apply OutKeeps.next | split | intro

@[simp] theorem State.devRelease_keeps {qq : List Instr} {bb : Prop} (s : State) (f : Func) (e : Entry) (h_s : Keeps qq bb s)
    : (State.devRelease s f e).Keeps qq bb := by
  unfold State.devRelease
  try dsimp only
  repeat' first | with_reducible assumption | with_reducible apply CmdEnd.keeps_if | with_reducible apply h_s
                | with_reducible apply State.release_keeps | with_reducible apply CmdEnd.done_keeps
                | with_reducible apply CmdEnd.started_keeps | with_reducible apply CmdEnd.parked_keeps | split | intro

@[simp] theorem execDevRelease_keeps {qq : List Instr} {bb : Prop} (f : Func) (s : State) (h_s : Keeps qq bb s)
    : OutKeeps qq bb (execDevRelease f s) := by
  unfold execDevRelease
  try dsimp only
  repeat' first | with_reducible assumption | with_reducible apply OutKeeps.keeps_if | with_reducible apply h_s
                | with_reducible apply State.after_keeps | with_reducible apply State.runCommand_keeps
                | with_reducible apply State.devRelease_keeps | with_reducible apply OutKeeps.next | split | intro

@[simp] theorem State.writeBus_keeps {qq : List Instr} {bb : Prop} (s : State) (r : Requester) (off : Nat) (v : DWord)
    (h_s : Keeps qq bb s) : Keeps qq bb (State.writeBus s r off v) := by
  unfold State.writeBus
  first
    | done
    | (simp +contextual (maxDischargeDepth := 40) [foldl_keeps, h_s]; done)
    | ((repeat' split) <;> first | (simp +contextual (maxDischargeDepth := 40) [foldl_keeps, h_s]; done)
                                 | (simp +contextual (maxDischargeDepth := 40) [foldl_keeps, h_s]; (repeat' split) <;> (simp +contextual (maxDischargeDepth := 40) [foldl_keeps, h_s]; done))
                                 | (simp only []; (repeat' split) <;> (simp +contextual (maxDischargeDepth := 40) [foldl_keeps, h_s]; done)))

end Sys2Proof.Machine
end

