-- ==== Sys2Proof/Laws/KeepPower.lean ====
section
/-! SUPPORT. `Keeps`: what the operations of power, Type-C, Power Delivery and resets keep. -/

namespace Sys2Proof.Machine

@[simp] theorem execFastOvercurrent_keeps {qq : List Instr} {bb : Prop} (n : Fin 17) (s : State) (h_s : Keeps qq bb s)
    : OutKeeps qq bb (execFastOvercurrent n s) := by
  unfold execFastOvercurrent
  try dsimp only
  repeat' first | with_reducible assumption | with_reducible apply OutKeeps.keeps_if | with_reducible apply h_s
                | with_reducible apply State.after_keeps | with_reducible apply State.trip_keeps | with_reducible apply OutKeeps.next
                | split | intro

@[simp] theorem execSlowOvercurrent_keeps {qq : List Instr} {bb : Prop} (n : Fin 17) (s : State) (h_s : Keeps qq bb s)
    : OutKeeps qq bb (execSlowOvercurrent n s) := by
  unfold execSlowOvercurrent
  try dsimp only
  repeat' first | with_reducible assumption | with_reducible apply OutKeeps.keeps_if | with_reducible apply h_s
                | with_reducible apply State.after_keeps | with_reducible apply State.trip_keeps | with_reducible apply OutKeeps.next
                | split | intro

@[simp] theorem execOvervoltageTrip_keeps {qq : List Instr} {bb : Prop} (n : Fin 17) (s : State) (h_s : Keeps qq bb s)
    : OutKeeps qq bb (execOvervoltageTrip n s) := by
  unfold execOvervoltageTrip
  try dsimp only
  repeat' first | with_reducible assumption | with_reducible apply OutKeeps.keeps_if | with_reducible apply h_s
                | with_reducible apply State.after_keeps | with_reducible apply State.trip_keeps | with_reducible apply OutKeeps.next
                | split | intro

@[simp] theorem execReverseCurrentTrip_keeps {qq : List Instr} {bb : Prop} (n : Fin 17) (s : State) (h_s : Keeps qq bb s)
    : OutKeeps qq bb (execReverseCurrentTrip n s) := by
  unfold execReverseCurrentTrip
  try dsimp only
  repeat' first | with_reducible assumption | with_reducible apply OutKeeps.keeps_if | with_reducible apply h_s
                | with_reducible apply State.after_keeps | with_reducible apply State.trip_keeps | with_reducible apply OutKeeps.next
                | split | intro

@[simp] theorem execRetryGapExpiry_keeps {qq : List Instr} {bb : Prop} (n : Fin 17) (s : State) (h_s : Keeps qq bb s)
    : OutKeeps qq bb (execRetryGapExpiry n s) := by
  unfold execRetryGapExpiry
  try dsimp only
  repeat' first | with_reducible assumption | with_reducible apply OutKeeps.keeps_if | with_reducible apply h_s
                | with_reducible apply State.after_keeps | with_reducible apply State.modMoor_keeps | with_reducible apply OutKeeps.next
                | split | intro

@[simp] theorem State.clearRun_keeps {qq : List Instr} {bb : Prop} (s : State) (p : Fin 17) (h_s : Keeps qq bb s)
    : Keeps qq bb (State.clearRun s p) := by
  unfold State.clearRun
  try dsimp only
  repeat' first | with_reducible assumption | with_reducible apply keeps_if | with_reducible apply h_s
                | with_reducible apply State.modMoor_keeps | with_reducible apply State.modSector_keeps | split | intro

@[simp] theorem execTripRunClear_keeps {qq : List Instr} {bb : Prop} (n : Fin 17) (s : State) (h_s : Keeps qq bb s)
    : OutKeeps qq bb (execTripRunClear n s) := by
  unfold execTripRunClear
  try dsimp only
  repeat' first | with_reducible assumption | with_reducible apply OutKeeps.keeps_if | with_reducible apply h_s
                | with_reducible apply State.after_keeps | with_reducible apply State.clearRun_keeps | with_reducible apply OutKeeps.next
                | split | intro

@[simp] theorem State.noPartner_keeps {qq : List Instr} {bb : Prop} (s : State) (p : Fin 17) (h_s : Keeps qq bb s)
    : Keeps qq bb (State.noPartner s p) := by
  unfold State.noPartner
  try dsimp only
  repeat' first | with_reducible assumption | with_reducible apply keeps_if | with_reducible apply h_s
                | with_reducible apply State.modEng_keeps | with_reducible apply State.modMoor_keeps | split | intro

@[simp] theorem execLatchClearNoPartner_keeps {qq : List Instr} {bb : Prop} (n : Fin 17) (s : State) (h_s : Keeps qq bb s)
    : OutKeeps qq bb (execLatchClearNoPartner n s) := by
  unfold execLatchClearNoPartner
  try dsimp only
  repeat' first | with_reducible assumption | with_reducible apply OutKeeps.keeps_if | with_reducible apply h_s
                | with_reducible apply State.after_keeps | with_reducible apply State.noPartner_keeps | with_reducible apply OutKeeps.next
                | split | intro

@[simp] theorem State.failPath_keeps {qq : List Instr} {bb : Prop} (s : State) (p : Fin 17) (cause : Nat) (h_s : Keeps qq bb s)
    : Keeps qq bb (State.failPath s p cause) := by
  unfold State.failPath
  try dsimp only
  repeat' first | with_reducible assumption | with_reducible apply keeps_if | with_reducible apply h_s
                | with_reducible apply State.modMoor_keeps | with_reducible apply State.leavePartner_keeps
                | with_reducible apply State.finishPort_keeps | with_reducible apply State.modPort_keeps
                | with_reducible apply State.releasePort_keeps | split | intro

@[simp] theorem execMooringFail_keeps {qq : List Instr} {bb : Prop} (n : Fin 17) (cause : Nat) (s : State) (h_s : Keeps qq bb s)
    : OutKeeps qq bb (execMooringFail n cause s) := by
  unfold execMooringFail
  try dsimp only
  repeat' first | with_reducible assumption | with_reducible apply OutKeeps.keeps_if | with_reducible apply h_s
                | with_reducible apply State.after_keeps | with_reducible apply State.failPath_keeps | with_reducible apply OutKeeps.next
                | split | intro

@[simp] theorem State.writeTarget_keeps {qq : List Instr} {bb : Prop} (s : State) (r : Requester) (q : Fin 4) (v : DWord)
    (h_s : Keeps qq bb s) : Keeps qq bb (State.writeTarget s r q v) := by
  unfold State.writeTarget
  try dsimp only
  repeat' first | with_reducible assumption | with_reducible apply keeps_if | with_reducible apply h_s
                | with_reducible apply State.refuse_keeps | with_reducible apply State.startRamp_keeps
                | with_reducible apply State.modSector_keeps | split | intro

@[simp] theorem execSecTargetWrite_keeps {qq : List Instr} {bb : Prop} (p : Path) (q : Fin 4) (v : DWord) (s : State)
    (h_s : Keeps qq bb s) : OutKeeps qq bb (execSecTargetWrite p q v s) := by
  unfold execSecTargetWrite
  try dsimp only
  repeat' first | with_reducible assumption | with_reducible apply OutKeeps.keeps_if | with_reducible apply h_s
                | with_reducible apply State.after_keeps | with_reducible apply State.access_keeps
                | with_reducible apply State.writeTarget_keeps | with_reducible apply OutKeeps.next | split | intro

@[simp] theorem execSectorRampEnd_keeps {qq : List Instr} {bb : Prop} (q : Fin 4) (s : State) (h_s : Keeps qq bb s)
    : OutKeeps qq bb (execSectorRampEnd q s) := by
  unfold execSectorRampEnd
  try dsimp only
  repeat' first | with_reducible assumption | with_reducible apply OutKeeps.keeps_if | with_reducible apply h_s
                | with_reducible apply State.after_keeps | with_reducible apply State.modSector_keeps | with_reducible apply OutKeeps.next
                | split | intro

@[simp] theorem execSectorAtLevel_keeps {qq : List Instr} {bb : Prop} (q : Fin 4) (s : State) (h_s : Keeps qq bb s)
    : OutKeeps qq bb (execSectorAtLevel q s) := by
  unfold execSectorAtLevel
  try dsimp only
  repeat' first | with_reducible assumption | with_reducible apply OutKeeps.keeps_if | with_reducible apply h_s
                | with_reducible apply State.after_keeps | with_reducible apply State.modSector_keeps | with_reducible apply OutKeeps.next
                | split | intro

@[simp] theorem execSectorEnable_keeps {qq : List Instr} {bb : Prop} (q : Fin 4) (s : State) (h_s : Keeps qq bb s)
    : OutKeeps qq bb (execSectorEnable q s) := by
  unfold execSectorEnable
  try dsimp only
  repeat' first | with_reducible assumption | with_reducible apply OutKeeps.keeps_if | with_reducible apply h_s
                | with_reducible apply State.after_keeps | with_reducible apply State.modSector_keeps | with_reducible apply OutKeeps.next
                | split | intro

@[simp] theorem execSectorPgRise_keeps {qq : List Instr} {bb : Prop} (q : Fin 4) (s : State) (h_s : Keeps qq bb s)
    : OutKeeps qq bb (execSectorPgRise q s) := by
  unfold execSectorPgRise
  try dsimp only
  repeat' first | with_reducible assumption | with_reducible apply OutKeeps.keeps_if | with_reducible apply h_s
                | with_reducible apply State.after_keeps | with_reducible apply State.modSector_keeps | with_reducible apply OutKeeps.next
                | split | intro

@[simp] theorem execSectorFault_keeps {qq : List Instr} {bb : Prop} (q : Fin 4) (cause : Nat) (s : State) (h_s : Keeps qq bb s)
    : OutKeeps qq bb (execSectorFault q cause s) := by
  unfold execSectorFault
  try dsimp only
  repeat' first | with_reducible assumption | with_reducible apply OutKeeps.keeps_if | with_reducible apply h_s
                | with_reducible apply State.after_keeps | with_reducible apply State.failSector_keeps
                | with_reducible apply OutKeeps.next | split | intro

@[simp] theorem execSectorRetryGapExpiry_keeps {qq : List Instr} {bb : Prop} (q : Fin 4) (s : State) (h_s : Keeps qq bb s)
    : OutKeeps qq bb (execSectorRetryGapExpiry q s) := by
  unfold execSectorRetryGapExpiry
  try dsimp only
  repeat' first | with_reducible assumption | with_reducible apply OutKeeps.keeps_if | with_reducible apply h_s
                | with_reducible apply State.after_keeps | with_reducible apply State.modSector_keeps | with_reducible apply OutKeeps.next
                | split | intro

@[simp] theorem State.ppsLimit_keeps {qq : List Instr} {bb : Prop} (s : State) (q : Fin 4) (n : Fin 16) (above : Bool)
    (h_s : Keeps qq bb s) : Keeps qq bb (State.ppsLimit s q n above) := by
  unfold State.ppsLimit
  try dsimp only
  repeat' first | with_reducible assumption | with_reducible apply keeps_if | with_reducible apply h_s
                | with_reducible apply State.modMoor_keeps | with_reducible apply State.freeHalf_keeps
                | with_reducible apply State.modSector_keeps | split | intro

@[simp] theorem execPpsCurrentLimit_keeps {qq : List Instr} {bb : Prop} (q : Fin 4) (above : Bool) (s : State) (h_s : Keeps qq bb s)
    : OutKeeps qq bb (execPpsCurrentLimit q above s) := by
  unfold execPpsCurrentLimit
  try dsimp only
  repeat' first | with_reducible assumption | with_reducible apply OutKeeps.keeps_if | with_reducible apply h_s
                | with_reducible apply State.after_keeps | with_reducible apply State.ppsLimit_keeps | with_reducible apply OutKeeps.next
                | split | intro

@[simp] theorem execPuVbusBadExpiry_keeps {qq : List Instr} {bb : Prop} (s : State) (h_s : Keeps qq bb s)
    : OutKeeps qq bb (execPuVbusBadExpiry s) := by
  unfold execPuVbusBadExpiry
  try dsimp only
  repeat' first | with_reducible assumption | with_reducible apply OutKeeps.keeps_if | with_reducible apply h_s
                | with_reducible apply State.after_keeps | with_reducible apply State.modMoor_keeps | with_reducible apply OutKeeps.next
                | split | intro

@[simp] theorem State.shedGroup_keeps {qq : List Instr} {bb : Prop} (s : State) (h_s : Keeps qq bb s)
    : Keeps qq bb (State.shedGroup s) := by
  unfold State.shedGroup
  try dsimp only
  repeat' first | with_reducible assumption | with_reducible apply keeps_if | with_reducible apply h_s
                | with_reducible apply State.modMoor_keeps | with_reducible apply State.dropPower_keeps | with_reducible apply foldl_keeps
                | split | intro

@[simp] theorem State.restoreGroup_keeps {qq : List Instr} {bb : Prop} (s : State) (h_s : Keeps qq bb s)
    : Keeps qq bb (State.restoreGroup s) := by
  unfold State.restoreGroup
  try dsimp only
  repeat' first | with_reducible assumption | with_reducible apply keeps_if | with_reducible apply h_s
                | with_reducible apply State.modMoor_keeps | with_reducible apply foldl_keeps | simp only [keeps_mk_iff] | split | intro

@[simp] theorem State.shedTick_keeps {qq : List Instr} {bb : Prop} (s : State) (h_s : Keeps qq bb s) : Keeps qq bb (State.shedTick s) := by
  unfold State.shedTick
  try dsimp only
  repeat' first | with_reducible assumption | with_reducible apply keeps_if | with_reducible apply h_s
                | with_reducible apply State.shedGroup_keeps | with_reducible apply State.restoreGroup_keeps | split | intro

@[simp] theorem execShedStep_keeps {qq : List Instr} {bb : Prop} (s : State) (h_s : Keeps qq bb s) : OutKeeps qq bb (execShedStep s) := by
  unfold execShedStep
  try dsimp only
  repeat' first | with_reducible assumption | with_reducible apply OutKeeps.keeps_if | with_reducible apply h_s
                | with_reducible apply State.after_keeps | with_reducible apply State.shedTick_keeps | with_reducible apply OutKeeps.next
                | split | intro

@[simp] theorem State.beginShed_keeps {qq : List Instr} {bb : Prop} (s : State) (h_s : Keeps qq bb s)
    : Keeps qq bb (State.beginShed s) := by
  unfold State.beginShed
  try dsimp only
  repeat' first | with_reducible assumption | with_reducible apply keeps_if | with_reducible apply h_s
                | with_reducible apply State.shedGroup_keeps | simp only [keeps_mk_iff] | split | intro

@[simp] theorem State.endShed_keeps {qq : List Instr} {bb : Prop} (s : State) (h_s : Keeps qq bb s) : Keeps qq bb (State.endShed s) := by
  unfold State.endShed
  try dsimp only
  repeat' first | with_reducible assumption | with_reducible apply keeps_if | with_reducible apply h_s
                | with_reducible apply State.restoreGroup_keeps | simp only [keeps_mk_iff] | split | intro

@[simp] theorem State.dropUnretained_keeps {qq : List Instr} {bb : Prop} (s : State) (h_s : Keeps qq bb s)
    : Keeps qq bb (State.dropUnretained s) := by
  unfold State.dropUnretained
  try dsimp only
  repeat' first | with_reducible assumption | with_reducible apply keeps_if | with_reducible apply h_s
                | with_reducible apply State.dropPower_keeps | with_reducible apply foldl_keeps | split | intro

@[simp] theorem State.dropPorts_keeps {qq : List Instr} {bb : Prop} (s : State) (h_s : Keeps qq bb s)
    : Keeps qq bb (State.dropPorts s) := by
  unfold State.dropPorts
  try dsimp only
  repeat' first | with_reducible assumption | with_reducible apply keeps_if | with_reducible apply h_s
                | with_reducible apply State.dropPower_keeps | with_reducible apply foldl_keeps | split | intro

@[simp] theorem State.powerCmd_keeps {qq : List Instr} {bb : Prop} (s : State) (f : Func) (ok : Bool) (n : Fin 16) (act : State → CmdEnd)
    (h_s : Keeps qq bb s) (h_act : ∀ v0, Keeps qq bb v0 → (act v0).Keeps qq bb) : (State.powerCmd s f ok n act).Keeps qq bb := by
  unfold State.powerCmd
  try dsimp only
  repeat' first | with_reducible assumption | with_reducible apply CmdEnd.keeps_if | with_reducible apply h_s | with_reducible apply h_act
                | with_reducible apply CmdEnd.done_keeps | with_reducible apply CmdEnd.started_keeps
                | with_reducible apply CmdEnd.parked_keeps | split | intro

@[simp] theorem State.powerDone_keeps {qq : List Instr} {bb : Prop} (s : State) (n : Fin 16) (h_s : Keeps qq bb s)
    : (State.powerDone s n).Keeps qq bb := by
  unfold State.powerDone
  try dsimp only
  repeat' first | with_reducible assumption | with_reducible apply CmdEnd.keeps_if | with_reducible apply h_s
                | with_reducible apply CmdEnd.done_keeps | with_reducible apply CmdEnd.started_keeps
                | with_reducible apply CmdEnd.parked_keeps | split | intro

@[simp] theorem State.powerOn_keeps {qq : List Instr} {bb : Prop} (s : State) (f : Func) (n : Fin 16) (h_s : Keeps qq bb s)
    : Keeps qq bb (State.powerOn s f n) := by
  unfold State.powerOn
  try dsimp only
  repeat' first | with_reducible assumption | with_reducible apply keeps_if | with_reducible apply h_s
                | with_reducible apply State.modMoor_keeps | with_reducible apply State.modSector_keeps | split | intro

@[simp] theorem State.powerOff_keeps {qq : List Instr} {bb : Prop} (s : State) (f : Func) (n : Fin 16) (cycle : Bool)
    (h_s : Keeps qq bb s) : (State.powerOff s f n cycle).Keeps qq bb := by
  unfold State.powerOff
  try dsimp only
  repeat' first | with_reducible assumption | with_reducible apply CmdEnd.keeps_if | with_reducible apply keeps_if
                | with_reducible apply h_s | with_reducible apply State.leavePartner_keeps | with_reducible apply State.modMoor_keeps
                | with_reducible apply State.powerOn_keeps | with_reducible apply State.powerDone_keeps
                | with_reducible apply CmdEnd.done_keeps | with_reducible apply CmdEnd.started_keeps
                | with_reducible apply CmdEnd.parked_keeps | simp only [keeps_mk_iff] | split | intro

@[simp] theorem execPortPowerStatus_keeps {qq : List Instr} {bb : Prop} (f : Func) (s : State) (h_s : Keeps qq bb s)
    : OutKeeps qq bb (execPortPowerStatus f s) := by
  unfold execPortPowerStatus
  try dsimp only
  repeat' first | with_reducible assumption | with_reducible apply OutKeeps.keeps_if | with_reducible apply h_s
                | with_reducible apply State.after_keeps | with_reducible apply State.runCommand_keeps
                | with_reducible apply State.powerCmd_keeps | with_reducible apply State.powerDone_keeps
                | with_reducible apply OutKeeps.next | split | intro

@[simp] theorem execPortPowerOff_keeps {qq : List Instr} {bb : Prop} (f : Func) (s : State) (h_s : Keeps qq bb s)
    : OutKeeps qq bb (execPortPowerOff f s) := by
  unfold execPortPowerOff
  try dsimp only
  repeat' first | with_reducible assumption | with_reducible apply OutKeeps.keeps_if | with_reducible apply h_s
                | with_reducible apply State.after_keeps | with_reducible apply State.runCommand_keeps
                | with_reducible apply State.powerCmd_keeps | with_reducible apply State.powerOff_keeps
                | with_reducible apply OutKeeps.next | split | intro

@[simp] theorem execPortPowerOn_keeps {qq : List Instr} {bb : Prop} (f : Func) (s : State) (h_s : Keeps qq bb s)
    : OutKeeps qq bb (execPortPowerOn f s) := by
  unfold execPortPowerOn
  try dsimp only
  repeat' first | with_reducible assumption | with_reducible apply OutKeeps.keeps_if | with_reducible apply h_s
                | with_reducible apply State.after_keeps | with_reducible apply State.runCommand_keeps
                | with_reducible apply State.powerCmd_keeps | with_reducible apply State.powerDone_keeps
                | with_reducible apply State.powerOn_keeps | with_reducible apply OutKeeps.next | split | intro

@[simp] theorem execPortPowerCycle_keeps {qq : List Instr} {bb : Prop} (f : Func) (s : State) (h_s : Keeps qq bb s)
    : OutKeeps qq bb (execPortPowerCycle f s) := by
  unfold execPortPowerCycle
  try dsimp only
  repeat' first | with_reducible assumption | with_reducible apply OutKeeps.keeps_if | with_reducible apply h_s
                | with_reducible apply State.after_keeps | with_reducible apply State.runCommand_keeps
                | with_reducible apply State.powerCmd_keeps | with_reducible apply State.powerOff_keeps
                | with_reducible apply OutKeeps.next | split | intro

@[simp] theorem execPortMeasure_keeps {qq : List Instr} {bb : Prop} (f : Func) (s : State) (h_s : Keeps qq bb s)
    : OutKeeps qq bb (execPortMeasure f s) := by
  unfold execPortMeasure
  try dsimp only
  repeat' first | with_reducible assumption | with_reducible apply OutKeeps.keeps_if | with_reducible apply h_s
                | with_reducible apply State.after_keeps | with_reducible apply State.runCommand_keeps
                | with_reducible apply State.powerCmd_keeps | with_reducible apply CmdEnd.done_keeps
                | with_reducible apply CmdEnd.started_keeps | with_reducible apply CmdEnd.parked_keeps
                | with_reducible apply OutKeeps.next | split | intro

@[simp] theorem State.endPower_keeps {qq : List Instr} {bb : Prop} (s : State) (n : Fin 16) (c : Func × Bool)
    (h_s : Keeps qq bb s) : Keeps qq bb (State.endPower s n c) := by
  unfold State.endPower
  try dsimp only
  repeat' first | with_reducible assumption | with_reducible apply keeps_if | with_reducible apply h_s
                | with_reducible apply State.powerOn_keeps | with_reducible apply State.finishCmd_keeps | split | intro

@[simp] theorem State.finishPower_keeps {qq : List Instr} {bb : Prop} (s : State) (p : Fin 17) (h_s : Keeps qq bb s)
    : Keeps qq bb (State.finishPower s p) := by
  unfold State.finishPower
  split
  · exact foldl_keeps _ _ _ (fun s c h => State.endPower_keeps s _ c h) (by simp [h_s])
  · exact h_s

@[simp] theorem State.atVsafe0v_keeps {qq : List Instr} {bb : Prop} (s : State) (p : Fin 17) (h_s : Keeps qq bb s)
    : Keeps qq bb (State.atVsafe0v s p) := by
  unfold State.atVsafe0v
  try dsimp only
  repeat' first | with_reducible assumption | with_reducible apply keeps_if | with_reducible apply h_s
                | with_reducible apply State.modEng_keeps | with_reducible apply State.modMoor_keeps
                | with_reducible apply State.finishPower_keeps | split | intro

@[simp] theorem State.writeMoor_keeps {qq : List Instr} {bb : Prop} (s : State) (r : Requester) (p : Fin 17) (off : Nat) (a : Nat)
    (v : DWord) (h_s : Keeps qq bb s) : Keeps qq bb (State.writeMoor s r p off a v) := by
  unfold State.writeMoor
  try dsimp only
  repeat' first | with_reducible assumption | with_reducible apply keeps_if | with_reducible apply keeps_dif | with_reducible apply h_s
                | with_reducible apply State.sealedWrite_keeps | with_reducible apply State.modMoor_keeps
                | with_reducible apply State.refuse_keeps | split | intro

@[simp] theorem State.writeSector_keeps {qq : List Instr} {bb : Prop} (s : State) (r : Requester) (q : Fin 4) (off : Nat) (a : Nat)
    (v : DWord) (h_s : Keeps qq bb s) : Keeps qq bb (State.writeSector s r q off a v) := by
  unfold State.writeSector
  try dsimp only
  repeat' first | with_reducible assumption | with_reducible apply keeps_if | with_reducible apply keeps_dif | with_reducible apply h_s
                | with_reducible apply State.sealedWrite_keeps | with_reducible apply State.modSector_keeps
                | with_reducible apply State.writeTarget_keeps | split | intro

@[simp] theorem State.writePower_keeps {qq : List Instr} {bb : Prop} (s : State) (r : Requester) (off : Nat) (v : DWord)
    (h_s : Keeps qq bb s) : Keeps qq bb (State.writePower s r off v) := by
  unfold State.writePower
  try dsimp only
  repeat' first | with_reducible assumption | with_reducible apply keeps_if | with_reducible apply keeps_dif | with_reducible apply h_s
                | with_reducible apply State.writeMoor_keeps | with_reducible apply State.writeSector_keeps
                | with_reducible apply State.sealedWrite_keeps | simp only [keeps_mk_iff] | split | intro

@[simp] theorem State.attachWakes_keeps {qq : List Instr} {bb : Prop} (s : State) (e : Fin 17) (h_s : Keeps qq bb s)
    : Keeps qq bb (State.attachWakes s e) := by
  unfold State.attachWakes
  try dsimp only
  repeat' first | with_reducible assumption | with_reducible apply keeps_if | with_reducible apply h_s
                | with_reducible apply State.modEng_keeps | with_reducible apply State.wakeSource_keeps | split | intro

@[simp] theorem State.ccDetect_keeps {qq : List Instr} {bb : Prop} (s : State) (e : Fin 17) (seen : CcSeen) (h_s : Keeps qq bb s)
    : Keeps qq bb (State.ccDetect s e seen) := by
  unfold State.ccDetect
  try dsimp only
  repeat' first | with_reducible assumption | with_reducible apply keeps_if | with_reducible apply h_s
                | with_reducible apply State.modEng_keeps | split | intro

@[simp] theorem execCcAttachDetect_keeps {qq : List Instr} {bb : Prop} (e : Fin 17) (seen : CcSeen) (s : State) (h_s : Keeps qq bb s)
    : OutKeeps qq bb (execCcAttachDetect e seen s) := by
  unfold execCcAttachDetect
  try dsimp only
  repeat' first | with_reducible assumption | with_reducible apply OutKeeps.keeps_if | with_reducible apply h_s
                | with_reducible apply State.after_keeps | with_reducible apply State.ccDetect_keeps | with_reducible apply OutKeeps.next
                | split | intro

@[simp] theorem State.partnerGone_keeps {qq : List Instr} {bb : Prop} (s : State) (e : Fin 17) (h_s : Keeps qq bb s)
    : Keeps qq bb (State.partnerGone s e) := by
  unfold State.partnerGone
  try dsimp only
  repeat' first | with_reducible assumption | with_reducible apply keeps_if | with_reducible apply h_s
                | with_reducible apply State.modEng_keeps | with_reducible apply State.unattach_keeps | split | intro

@[simp] theorem State.sinkDebounced_keeps {qq : List Instr} {bb : Prop} (s : State) (e : Fin 17) (orient : Bool) (ra : Bool)
    (h_s : Keeps qq bb s) : Keeps qq bb (State.sinkDebounced s e orient ra) := by
  unfold State.sinkDebounced
  try dsimp only
  repeat' first | with_reducible assumption | with_reducible apply keeps_if | with_reducible apply h_s
                | with_reducible apply State.modEng_keeps | with_reducible apply State.attachWakes_keeps | split | intro

@[simp] theorem State.sourceDebounced_keeps {qq : List Instr} {bb : Prop} (s : State) (e : Fin 17) (orient : Bool) (rp : Nat)
    (h_s : Keeps qq bb s) : Keeps qq bb (State.sourceDebounced s e orient rp) := by
  unfold State.sourceDebounced
  try dsimp only
  repeat' first | with_reducible assumption | with_reducible apply keeps_if | with_reducible apply h_s
                | with_reducible apply State.modEng_keeps | with_reducible apply State.attachSnk_keeps
                | with_reducible apply State.attachWakes_keeps | split | intro

@[simp] theorem State.ccDebounce_keeps {qq : List Instr} {bb : Prop} (s : State) (e : Fin 17) (seen : Option CcSeen) (h_s : Keeps qq bb s)
    : Keeps qq bb (State.ccDebounce s e seen) := by
  unfold State.ccDebounce
  try dsimp only
  repeat' first | with_reducible assumption | with_reducible apply keeps_if | with_reducible apply h_s
                | with_reducible apply State.sinkDebounced_keeps | with_reducible apply State.partnerGone_keeps
                | with_reducible apply State.sourceDebounced_keeps | with_reducible apply State.modEng_keeps | split | intro

@[simp] theorem execCcDebounceExpiry_keeps {qq : List Instr} {bb : Prop} (e : Fin 17) (seen : Option CcSeen) (s : State)
    (h_s : Keeps qq bb s) : OutKeeps qq bb (execCcDebounceExpiry e seen s) := by
  unfold execCcDebounceExpiry
  try dsimp only
  repeat' first | with_reducible assumption | with_reducible apply OutKeeps.keeps_if | with_reducible apply h_s
                | with_reducible apply State.after_keeps | with_reducible apply State.ccDebounce_keeps
                | with_reducible apply OutKeeps.next | split | intro

@[simp] theorem State.ccToggle_keeps {qq : List Instr} {bb : Prop} (s : State) (e : Fin 17) (h_s : Keeps qq bb s)
    : Keeps qq bb (State.ccToggle s e) := by
  unfold State.ccToggle
  try dsimp only
  repeat' first | with_reducible assumption | with_reducible apply keeps_if | with_reducible apply h_s
                | with_reducible apply State.modEng_keeps | with_reducible apply State.takePreference_keeps
                | with_reducible apply State.partnerGone_keeps | simp only [keeps_mk_iff] | split | intro

@[simp] theorem execDrpToggleExpiry_keeps {qq : List Instr} {bb : Prop} (e : Fin 17) (s : State) (h_s : Keeps qq bb s)
    : OutKeeps qq bb (execDrpToggleExpiry e s) := by
  unfold execDrpToggleExpiry
  try dsimp only
  repeat' first | with_reducible assumption | with_reducible apply OutKeeps.keeps_if | with_reducible apply h_s
                | with_reducible apply State.after_keeps | with_reducible apply State.ccToggle_keeps | with_reducible apply OutKeeps.next
                | split | intro

@[simp] theorem execAttachedSrcEntry_keeps {qq : List Instr} {bb : Prop} (e : Fin 17) (s : State) (h_s : Keeps qq bb s)
    : OutKeeps qq bb (execAttachedSrcEntry e s) := by
  unfold execAttachedSrcEntry
  try dsimp only
  repeat' first | with_reducible assumption | with_reducible apply OutKeeps.keeps_if | with_reducible apply h_s
                | with_reducible apply State.after_keeps | with_reducible apply State.attachSrc_keeps | with_reducible apply OutKeeps.next
                | split | intro

@[simp] theorem execCcDetach_keeps {qq : List Instr} {bb : Prop} (e : Fin 17) (s : State) (h_s : Keeps qq bb s)
    : OutKeeps qq bb (execCcDetach e s) := by
  unfold execCcDetach
  try dsimp only
  repeat' first | with_reducible assumption | with_reducible apply OutKeeps.keeps_if | with_reducible apply h_s
                | with_reducible apply State.after_keeps | with_reducible apply State.partnerGone_keeps
                | with_reducible apply OutKeeps.next | split | intro

@[simp] theorem execErrorRecoveryExpiry_keeps {qq : List Instr} {bb : Prop} (e : Fin 17) (s : State) (h_s : Keeps qq bb s)
    : OutKeeps qq bb (execErrorRecoveryExpiry e s) := by
  unfold execErrorRecoveryExpiry
  try dsimp only
  repeat' first | with_reducible assumption | with_reducible apply OutKeeps.keeps_if | with_reducible apply h_s
                | with_reducible apply State.after_keeps | with_reducible apply State.unattach_keeps | with_reducible apply OutKeeps.next
                | split | intro

@[simp] theorem execVconnOvercurrent_keeps {qq : List Instr} {bb : Prop} (e : Fin 17) (s : State) (h_s : Keeps qq bb s)
    : OutKeeps qq bb (execVconnOvercurrent e s) := by
  unfold execVconnOvercurrent
  try dsimp only
  repeat' first | with_reducible assumption | with_reducible apply OutKeeps.keeps_if | with_reducible apply h_s
                | with_reducible apply State.after_keeps | with_reducible apply State.ccChange_keeps
                | with_reducible apply State.modEng_keeps | with_reducible apply OutKeeps.next | split | intro

@[simp] theorem State.writeCcpCfg_keeps {qq : List Instr} {bb : Prop} (s : State) (r : Requester) (e : Fin 17) (v : DWord)
    (h_s : Keeps qq bb s) : Keeps qq bb (State.writeCcpCfg s r e v) := by
  unfold State.writeCcpCfg
  try dsimp only
  repeat' first | with_reducible assumption | with_reducible apply keeps_if | with_reducible apply h_s
                | with_reducible apply State.refuse_keeps | with_reducible apply State.followVconn_keeps
                | with_reducible apply State.modEng_keeps | with_reducible apply State.implicitSource_keeps | split | intro

@[simp] theorem execCcpCfgWrite_keeps {qq : List Instr} {bb : Prop} (p : Path) (e : Fin 17) (v : DWord) (s : State) (h_s : Keeps qq bb s)
    : OutKeeps qq bb (execCcpCfgWrite p e v s) := by
  unfold execCcpCfgWrite
  try dsimp only
  repeat' first | with_reducible assumption | with_reducible apply OutKeeps.keeps_if | with_reducible apply h_s
                | with_reducible apply State.after_keeps | with_reducible apply State.access_keeps
                | with_reducible apply State.writeCcpCfg_keeps | with_reducible apply OutKeeps.next | split | intro

@[simp] theorem State.putOnLine_keeps {qq : List Instr} {bb : Prop} (s : State) (e : Fin 17) (m : TxMsg) (chunk : Nat) (tries : Nat)
    (h_s : Keeps qq bb s) : Keeps qq bb (State.putOnLine s e m chunk tries) := by
  unfold State.putOnLine
  try dsimp only
  repeat' first | with_reducible assumption | with_reducible apply keeps_if | with_reducible apply h_s
                | with_reducible apply State.endTx_keeps | with_reducible apply State.emit_keeps | with_reducible apply State.modEng_keeps
                | with_reducible apply State.goodCrc_keeps | simp only [keeps_mk_iff] | split | intro

@[simp] theorem State.leaveEpr_keeps {qq : List Instr} {bb : Prop} (s : State) (e : Fin 17) (h_s : Keeps qq bb s)
    : Keeps qq bb (State.leaveEpr s e) := by
  unfold State.leaveEpr
  try dsimp only
  repeat' first | with_reducible assumption | with_reducible apply keeps_if | with_reducible apply h_s
                | with_reducible apply State.ccChange_keeps | with_reducible apply State.modEng_keeps | split | intro

@[simp] theorem State.onSend_keeps {qq : List Instr} {bb : Prop} (s : State) (e : Fin 17) (m : TxMsg) (h_s : Keeps qq bb s)
    : Keeps qq bb (State.onSend s e m) := by
  unfold State.onSend
  try dsimp only
  repeat' first | with_reducible assumption | with_reducible apply keeps_if | with_reducible apply h_s
                | with_reducible apply State.modEng_keeps | with_reducible apply State.ccChange_keeps
                | with_reducible apply State.leaveEpr_keeps | simp only [keeps_mk_iff] | split | intro

@[simp] theorem State.sendNow_keeps {qq : List Instr} {bb : Prop} (s : State) (e : Fin 17) (m : TxMsg) (h_s : Keeps qq bb s)
    : Keeps qq bb (State.sendNow s e m) := by
  unfold State.sendNow
  try dsimp only
  repeat' first | with_reducible assumption | with_reducible apply keeps_if | with_reducible apply h_s
                | with_reducible apply State.modEng_keeps | with_reducible apply State.endTx_keeps
                | with_reducible apply State.onSend_keeps | with_reducible apply State.putOnLine_keeps | simp only [keeps_mk_iff] | split
                | intro

@[simp] theorem State.sendOwn_keeps {qq : List Instr} {bb : Prop} (s : State) (e : Fin 17) (m : TxMsg) (h_s : Keeps qq bb s)
    : Keeps qq bb (State.sendOwn s e m) := by
  unfold State.sendOwn
  try dsimp only
  repeat' first | with_reducible assumption | with_reducible apply keeps_if | with_reducible apply h_s
                | with_reducible apply State.sendNow_keeps | split | intro

@[simp] theorem State.recordContract_keeps {qq : List Instr} {bb : Prop} (s : State) (e : Fin 17) (h_s : Keeps qq bb s)
    : Keeps qq bb (State.recordContract s e) := by
  unfold State.recordContract
  try dsimp only
  repeat' first | with_reducible assumption | with_reducible apply keeps_if | with_reducible apply h_s
                | with_reducible apply State.ccChange_keeps | with_reducible apply State.modEng_keeps | split | intro

@[simp] theorem State.swapState_keeps {qq : List Instr} {bb : Prop} (s : State) (e : Fin 17) (src : Bool) (h_s : Keeps qq bb s)
    : Keeps qq bb (State.swapState s e src) := by
  unfold State.swapState
  try dsimp only
  repeat' first | with_reducible assumption | with_reducible apply keeps_if | with_reducible apply h_s
                | with_reducible apply State.offerItem_keeps | with_reducible apply State.ccChange_keeps
                | with_reducible apply State.modEng_keeps | split | intro

@[simp] theorem State.startSwap_keeps {qq : List Instr} {bb : Prop} (s : State) (e : Fin 17) (h_s : Keeps qq bb s)
    : Keeps qq bb (State.startSwap s e) := by
  unfold State.startSwap
  try dsimp only
  repeat' first | with_reducible assumption | with_reducible apply keeps_if | with_reducible apply h_s
                | with_reducible apply State.modEng_keeps | with_reducible apply State.gateOff_keeps | split | intro

@[simp] theorem State.swapToSink_keeps {qq : List Instr} {bb : Prop} (s : State) (e : Fin 17) (h_s : Keeps qq bb s)
    : Keeps qq bb (State.swapToSink s e) := by
  unfold State.swapToSink
  try dsimp only
  repeat' first | with_reducible assumption | with_reducible apply keeps_if | with_reducible apply h_s
                | with_reducible apply State.sendOwn_keeps | with_reducible apply State.swapState_keeps | split | intro

@[simp] theorem State.swapReady_keeps {qq : List Instr} {bb : Prop} (s : State) (e : Fin 17) (h_s : Keeps qq bb s)
    : Keeps qq bb (State.swapReady s e) := by
  unfold State.swapReady
  try dsimp only
  repeat' first | with_reducible assumption | with_reducible apply keeps_if | with_reducible apply h_s
                | with_reducible apply State.modEng_keeps | with_reducible apply State.ccChange_keeps
                | with_reducible apply State.modMoor_keeps | with_reducible apply State.sendOwn_keeps
                | with_reducible apply State.followVconn_keeps | with_reducible apply State.implicitSource_keeps
                | with_reducible apply State.gateOn_keeps | with_reducible apply State.swapState_keeps
                | with_reducible apply State.leavePartner_keeps | split | intro

@[simp] theorem State.onAcked_keeps {qq : List Instr} {bb : Prop} (s : State) (e : Fin 17) (m : TxMsg) (h_s : Keeps qq bb s)
    : Keeps qq bb (State.onAcked s e m) := by
  unfold State.onAcked
  try dsimp only
  repeat' first | with_reducible assumption | with_reducible apply keeps_if | with_reducible apply h_s
                | with_reducible apply State.recordContract_keeps | with_reducible apply State.startSwap_keeps | split | intro

@[simp] theorem State.goodCrc_keeps {qq : List Instr} {bb : Prop} (s : State) (e : Fin 17) (k : Fin 3) (id : BitVec 3)
    (h_s : Keeps qq bb s) : Keeps qq bb (State.goodCrc s e k id) := by
  unfold State.goodCrc
  try dsimp only
  repeat' first | with_reducible assumption | with_reducible apply keeps_if | with_reducible apply h_s
                | with_reducible apply State.modEng_keeps | with_reducible apply State.endTx_keeps
                | with_reducible apply State.onAcked_keeps | simp only [keeps_mk_iff] | split | intro

@[simp] theorem State.preempt_keeps {qq : List Instr} {bb : Prop} (s : State) (e : Fin 17) (chunkAsk : Bool) (h_s : Keeps qq bb s)
    : Keeps qq bb (State.preempt s e chunkAsk) := by
  unfold State.preempt
  try dsimp only
  repeat' first | with_reducible assumption | with_reducible apply keeps_if | with_reducible apply h_s
                | with_reducible apply State.endTx_keeps | split | intro

@[simp] theorem State.answerCrc_keeps {qq : List Instr} {bb : Prop} (s : State) (e : Fin 17) (k : Fin 3) (h : Half) (h_s : Keeps qq bb s)
    : Keeps qq bb (State.answerCrc s e k h) := by
  unfold State.answerCrc
  try dsimp only
  repeat' first | with_reducible assumption | with_reducible apply keeps_if | with_reducible apply h_s
                | with_reducible apply State.emit_keeps | split | intro

@[simp] theorem State.acceptRx_keeps {qq : List Instr} {bb : Prop} (s : State) (e : Fin 17) (k : Fin 3) (h : Half) (h_s : Keeps qq bb s)
    : Keeps qq bb (State.acceptRx s e k h) := by
  unfold State.acceptRx
  try dsimp only
  repeat' first | with_reducible assumption | with_reducible apply keeps_if | with_reducible apply h_s
                | with_reducible apply State.modEng_keeps | with_reducible apply State.answerCrc_keeps | split | intro

@[simp] theorem State.actOnMessage_keeps {qq : List Instr} {bb : Prop} (s : State) (e : Fin 17) (h : Half) (payload : List Byte)
    (h_s : Keeps qq bb s) : Keeps qq bb (State.actOnMessage s e h payload) := by
  unfold State.actOnMessage
  try dsimp only
  repeat' first | with_reducible assumption | with_reducible apply keeps_if | with_reducible apply h_s
                | with_reducible apply State.modEng_keeps | with_reducible apply State.leaveEpr_keeps
                | with_reducible apply State.startSwap_keeps | with_reducible apply State.swapReady_keeps
                | with_reducible apply State.recordContract_keeps | simp only [keeps_mk_iff] | split | intro

@[simp] theorem State.holdAnswer_keeps {qq : List Instr} {bb : Prop} (s : State) (e : Fin 17) (h : Half) (payload : List Byte)
    (h_s : Keeps qq bb s) : Keeps qq bb (State.holdAnswer s e h payload) := by
  unfold State.holdAnswer
  try dsimp only
  repeat' first | with_reducible assumption | with_reducible apply keeps_if | with_reducible apply h_s
                | with_reducible apply State.sendOwn_keeps | with_reducible apply State.modEng_keeps | split | intro

@[simp] theorem State.wholeMessage_keeps {qq : List Instr} {bb : Prop} (s : State) (e : Fin 17) (k : Fin 3) (h : Half)
    (payload : List Byte) (h_s : Keeps qq bb s) : Keeps qq bb (State.wholeMessage s e k h payload) := by
  unfold State.wholeMessage
  try dsimp only
  repeat' first | with_reducible assumption | with_reducible apply keeps_if | with_reducible apply h_s
                | with_reducible apply State.actOnMessage_keeps | with_reducible apply State.modEng_keeps
                | with_reducible apply State.placeItem_keeps | with_reducible apply State.holdAnswer_keeps | simp only [keeps_mk_iff]
                | split | intro

@[simp] theorem State.takePart_keeps {qq : List Instr} {bb : Prop} (s : State) (e : Fin 17) (k : Fin 3) (h : Half) (payload : List Byte)
    (h_s : Keeps qq bb s) : Keeps qq bb (State.takePart s e k h payload) := by
  unfold State.takePart
  try dsimp only
  repeat' first | with_reducible assumption | with_reducible apply keeps_if | with_reducible apply h_s
                | with_reducible apply State.wholeMessage_keeps | with_reducible apply State.sendOwn_keeps
                | with_reducible apply State.putOnLine_keeps | with_reducible apply State.modEng_keeps | simp only [keeps_mk_iff] | split
                | intro

@[simp] theorem State.pdReceive_keeps {qq : List Instr} {bb : Prop} (s : State) (e : Fin 17) (k : Fin 3) (h : Half) (payload : List Byte)
    (h_s : Keeps qq bb s) : Keeps qq bb (State.pdReceive s e k h payload) := by
  unfold State.pdReceive
  try dsimp only
  repeat' first | with_reducible assumption | with_reducible apply keeps_if | with_reducible apply h_s
                | with_reducible apply State.goodCrc_keeps | with_reducible apply State.preempt_keeps
                | with_reducible apply State.answerCrc_keeps | with_reducible apply State.acceptRx_keeps
                | with_reducible apply State.takePart_keeps | with_reducible apply State.wholeMessage_keeps | split | intro

@[simp] theorem execPdMessageReceived_keeps {qq : List Instr} {bb : Prop} (e : Fin 17) (sop : Fin 3) (hdr : Half) (payload : List Byte)
    (s : State) (h_s : Keeps qq bb s) : OutKeeps qq bb (execPdMessageReceived e sop hdr payload s) := by
  unfold execPdMessageReceived
  try dsimp only
  repeat' first | with_reducible assumption | with_reducible apply OutKeeps.keeps_if | with_reducible apply h_s
                | with_reducible apply State.after_keeps | with_reducible apply State.pdReceive_keeps | with_reducible apply OutKeeps.next
                | split | intro

@[simp] theorem State.hardReset_keeps {qq : List Instr} {bb : Prop} (s : State) (e : Fin 17) (h_s : Keeps qq bb s)
    : Keeps qq bb (State.hardReset s e) := by
  unfold State.hardReset
  try dsimp only
  repeat' first | with_reducible assumption | with_reducible apply keeps_if | with_reducible apply h_s
                | with_reducible apply State.modEng_keeps | with_reducible apply State.endTx_keeps
                | with_reducible apply State.ccChange_keeps | split | intro

@[simp] theorem State.hardResetSeen_keeps {qq : List Instr} {bb : Prop} (s : State) (e : Fin 17) (h_s : Keeps qq bb s)
    : Keeps qq bb (State.hardResetSeen s e) := by
  unfold State.hardResetSeen
  try dsimp only
  repeat' first | with_reducible assumption | with_reducible apply keeps_if | with_reducible apply h_s
                | with_reducible apply State.offerItem_keeps | with_reducible apply State.hardReset_keeps | split | intro

@[simp] theorem execHardResetReceived_keeps {qq : List Instr} {bb : Prop} (e : Fin 17) (s : State) (h_s : Keeps qq bb s)
    : OutKeeps qq bb (execHardResetReceived e s) := by
  unfold execHardResetReceived
  try dsimp only
  repeat' first | with_reducible assumption | with_reducible apply OutKeeps.keeps_if | with_reducible apply h_s
                | with_reducible apply State.after_keeps | with_reducible apply State.hardResetSeen_keeps
                | with_reducible apply OutKeeps.next | split | intro

@[simp] theorem State.cableReset_keeps {qq : List Instr} {bb : Prop} (s : State) (e : Fin 17) (h_s : Keeps qq bb s)
    : Keeps qq bb (State.cableReset s e) := by
  unfold State.cableReset
  try dsimp only
  repeat' first | with_reducible assumption | with_reducible apply keeps_if | with_reducible apply h_s
                | with_reducible apply State.modEng_keeps | split | intro

@[simp] theorem execCableResetReceived_keeps {qq : List Instr} {bb : Prop} (e : Fin 17) (s : State) (h_s : Keeps qq bb s)
    : OutKeeps qq bb (execCableResetReceived e s) := by
  unfold execCableResetReceived
  try dsimp only
  repeat' first | with_reducible assumption | with_reducible apply OutKeeps.keeps_if | with_reducible apply keeps_if
                | with_reducible apply h_s | with_reducible apply State.after_keeps | with_reducible apply State.preempt_keeps
                | with_reducible apply State.cableReset_keeps | with_reducible apply State.offerItem_keeps
                | with_reducible apply OutKeeps.next | split | intro

@[simp] theorem State.sendHardReset_keeps {qq : List Instr} {bb : Prop} (s : State) (e : Fin 17) (h_s : Keeps qq bb s)
    : Keeps qq bb (State.sendHardReset s e) := by
  unfold State.sendHardReset
  try dsimp only
  repeat' first | with_reducible assumption | with_reducible apply keeps_if | with_reducible apply h_s
                | with_reducible apply State.hardReset_keeps | with_reducible apply State.emit_keeps | split | intro

@[simp] theorem State.readSlotWords_keeps {qq : List Instr} {bb : Prop} (s : State) (e : Fin 17) (n : Nat) (h_s : Keeps qq bb s)
    : Keeps qq bb (State.readSlotWords s e n).2 := by
  unfold State.readSlotWords
  try dsimp only
  repeat' first | with_reducible assumption | with_reducible apply keeps_if | with_reducible apply h_s | simp only [keeps_mk_iff]
                | simp only [keeps_hst_eq] | with_reducible apply KeepsH.of | with_reducible apply readWords_wf
                | exact wf_of_cells rfl rfl ‹_› | split | intro

@[simp] theorem State.startTx_keeps {qq : List Instr} {bb : Prop} (s : State) (e : Fin 17) (m : TxMsg) (h_s : Keeps qq bb s)
    : Keeps qq bb (State.startTx s e m) := by
  unfold State.startTx
  try dsimp only
  repeat' first | with_reducible assumption | with_reducible apply keeps_if | with_reducible apply h_s
                | with_reducible apply State.modEng_keeps | with_reducible apply State.sendNow_keeps | split | intro

@[simp] theorem State.transmitSlot_keeps {qq : List Instr} {bb : Prop} (s : State) (e : Fin 17) (kind : Nat) (amsStart : Bool)
    (amsEnd : Bool) (vbus : Nat) (h_s : Keeps qq bb s) : Keeps qq bb (State.transmitSlot s e kind amsStart amsEnd vbus) := by
  unfold State.transmitSlot
  try dsimp only
  repeat' first | with_reducible assumption | with_reducible apply keeps_if | with_reducible apply h_s
                | with_reducible apply State.endTx_keeps | with_reducible apply State.modEng_keeps
                | with_reducible apply State.readSlotWords_keeps | with_reducible apply State.startTx_keeps
                | refine of_pair1 (by assumption) ?_ | refine of_pair2 (by assumption) ?_ | split | intro

@[simp] theorem State.transmitReset_keeps {qq : List Instr} {bb : Prop} (s : State) (e : Fin 17) (hard : Bool) (amsEnd : Bool)
    (h_s : Keeps qq bb s) : Keeps qq bb (State.transmitReset s e hard amsEnd) := by
  unfold State.transmitReset
  try dsimp only
  repeat' first | with_reducible assumption | with_reducible apply keeps_if | with_reducible apply h_s
                | with_reducible apply State.modEng_keeps | with_reducible apply State.endTx_keeps
                | with_reducible apply State.sendHardReset_keeps | with_reducible apply State.emit_keeps
                | with_reducible apply State.cableReset_keeps | simp only [keeps_mk_iff] | split | intro

@[simp] theorem State.sensed_keeps {qq : List Instr} {bb : Prop} (s : State) (vbus : Option Nat) (h_s : Keeps qq bb s)
    : Keeps qq bb (State.sensed s vbus).2 := by
  unfold State.sensed
  try dsimp only
  repeat' first | with_reducible assumption | with_reducible apply keeps_if | with_reducible apply h_s
                | with_reducible apply State.freeHalf_keeps | split | intro

@[simp] theorem State.writeTxctl_keeps {qq : List Instr} {bb : Prop} (s : State) (r : Requester) (e : Fin 17) (v : DWord)
    (vbus : Option Nat) (h_s : Keeps qq bb s) : Keeps qq bb (State.writeTxctl s r e v vbus) := by
  unfold State.writeTxctl
  try dsimp only
  repeat' first | with_reducible assumption | with_reducible apply keeps_if | with_reducible apply h_s
                | with_reducible apply State.refuse_keeps | with_reducible apply State.modEng_keeps
                | with_reducible apply State.transmitReset_keeps | with_reducible apply State.sensed_keeps
                | with_reducible apply State.transmitSlot_keeps | simp only [keeps_mk_iff] | refine of_pair1 (by assumption) ?_
                | refine of_pair2 (by assumption) ?_ | split | intro

@[simp] theorem execPdTransmit_keeps {qq : List Instr} {bb : Prop} (p : Path) (e : Fin 17) (v : DWord) (vbus : Nat) (s : State)
    (h_s : Keeps qq bb s) : OutKeeps qq bb (execPdTransmit p e v vbus s) := by
  unfold execPdTransmit
  try dsimp only
  repeat' first | with_reducible assumption | with_reducible apply OutKeeps.keeps_if | with_reducible apply h_s
                | with_reducible apply State.after_keeps | with_reducible apply State.access_keeps
                | with_reducible apply State.writeTxctl_keeps | with_reducible apply OutKeeps.next | split | intro

@[simp] theorem execPdSendHardReset_keeps {qq : List Instr} {bb : Prop} (p : Path) (e : Fin 17) (v : DWord) (s : State)
    (h_s : Keeps qq bb s) : OutKeeps qq bb (execPdSendHardReset p e v s) := by
  unfold execPdSendHardReset
  try dsimp only
  repeat' first | with_reducible assumption | with_reducible apply OutKeeps.keeps_if | with_reducible apply h_s
                | with_reducible apply State.after_keeps | with_reducible apply State.access_keeps
                | with_reducible apply State.writeTxctl_keeps | with_reducible apply OutKeeps.next | split | intro

@[simp] theorem execPdSendCableReset_keeps {qq : List Instr} {bb : Prop} (p : Path) (e : Fin 17) (v : DWord) (s : State)
    (h_s : Keeps qq bb s) : OutKeeps qq bb (execPdSendCableReset p e v s) := by
  unfold execPdSendCableReset
  try dsimp only
  repeat' first | with_reducible assumption | with_reducible apply OutKeeps.keeps_if | with_reducible apply h_s
                | with_reducible apply State.after_keeps | with_reducible apply State.access_keeps
                | with_reducible apply State.writeTxctl_keeps | with_reducible apply OutKeeps.next | split | intro

@[simp] theorem State.crcTimeout_keeps {qq : List Instr} {bb : Prop} (s : State) (e : Fin 17) (h_s : Keeps qq bb s)
    : Keeps qq bb (State.crcTimeout s e) := by
  unfold State.crcTimeout
  try dsimp only
  repeat' first | with_reducible assumption | with_reducible apply keeps_if | with_reducible apply h_s
                | with_reducible apply State.putOnLine_keeps | with_reducible apply State.endTx_keeps
                | with_reducible apply State.modEng_keeps | split | intro

@[simp] theorem execGoodcrcTimeout_keeps {qq : List Instr} {bb : Prop} (e : Fin 17) (s : State) (h_s : Keeps qq bb s)
    : OutKeeps qq bb (execGoodcrcTimeout e s) := by
  unfold execGoodcrcTimeout
  try dsimp only
  repeat' first | with_reducible assumption | with_reducible apply OutKeeps.keeps_if | with_reducible apply h_s
                | with_reducible apply State.after_keeps | with_reducible apply State.crcTimeout_keeps
                | with_reducible apply OutKeeps.next | split | intro

@[simp] theorem State.sendWaiting_keeps {qq : List Instr} {bb : Prop} (s : State) (e : Fin 17) (stage : TxStage) (h_s : Keeps qq bb s)
    : Keeps qq bb (State.sendWaiting s e stage) := by
  unfold State.sendWaiting
  try dsimp only
  repeat' first | with_reducible assumption | with_reducible apply keeps_if | with_reducible apply h_s
                | with_reducible apply State.sendNow_keeps | split | intro

@[simp] theorem execSinkTxWaitEnd_keeps {qq : List Instr} {bb : Prop} (e : Fin 17) (s : State) (h_s : Keeps qq bb s)
    : OutKeeps qq bb (execSinkTxWaitEnd e s) := by
  unfold execSinkTxWaitEnd
  try dsimp only
  repeat' first | with_reducible assumption | with_reducible apply OutKeeps.keeps_if | with_reducible apply h_s
                | with_reducible apply State.after_keeps | with_reducible apply State.sendWaiting_keeps
                | with_reducible apply OutKeeps.next | split | intro

@[simp] theorem State.chunkTimeout_keeps {qq : List Instr} {bb : Prop} (s : State) (e : Fin 17) (h_s : Keeps qq bb s)
    : Keeps qq bb (State.chunkTimeout s e) := by
  unfold State.chunkTimeout
  try dsimp only
  repeat' first | with_reducible assumption | with_reducible apply keeps_if | with_reducible apply h_s
                | with_reducible apply State.freeHalf_keeps | with_reducible apply State.endTx_keeps
                | with_reducible apply State.modEng_keeps | split | intro

@[simp] theorem execChunkTimeout_keeps {qq : List Instr} {bb : Prop} (e : Fin 17) (s : State) (h_s : Keeps qq bb s)
    : OutKeeps qq bb (execChunkTimeout e s) := by
  unfold execChunkTimeout
  try dsimp only
  repeat' first | with_reducible assumption | with_reducible apply OutKeeps.keeps_if | with_reducible apply h_s
                | with_reducible apply State.after_keeps | with_reducible apply State.chunkTimeout_keeps
                | with_reducible apply OutKeeps.next | split | intro

@[simp] theorem State.psExpiry_keeps {qq : List Instr} {bb : Prop} (s : State) (e : Fin 17) (h_s : Keeps qq bb s)
    : Keeps qq bb (State.psExpiry s e) := by
  unfold State.psExpiry
  try dsimp only
  repeat' first | with_reducible assumption | with_reducible apply keeps_if | with_reducible apply h_s
                | with_reducible apply State.modEng_keeps | with_reducible apply State.gateOff_keeps | split | intro

@[simp] theorem execPsHardResetExpiry_keeps {qq : List Instr} {bb : Prop} (e : Fin 17) (s : State) (h_s : Keeps qq bb s)
    : OutKeeps qq bb (execPsHardResetExpiry e s) := by
  unfold execPsHardResetExpiry
  try dsimp only
  repeat' first | with_reducible assumption | with_reducible apply OutKeeps.keeps_if | with_reducible apply h_s
                | with_reducible apply State.after_keeps | with_reducible apply State.psExpiry_keeps | with_reducible apply OutKeeps.next
                | split | intro

@[simp] theorem State.recoverExpiry_keeps {qq : List Instr} {bb : Prop} (s : State) (e : Fin 17) (h_s : Keeps qq bb s)
    : Keeps qq bb (State.recoverExpiry s e) := by
  unfold State.recoverExpiry
  try dsimp only
  repeat' first | with_reducible assumption | with_reducible apply keeps_if | with_reducible apply h_s
                | with_reducible apply State.followVconn_keeps | with_reducible apply State.implicitSource_keeps
                | with_reducible apply State.gateOn_keeps | with_reducible apply State.modEng_keeps
                | with_reducible apply State.leavePartner_keeps | split | intro

@[simp] theorem execSrcRecoverExpiry_keeps {qq : List Instr} {bb : Prop} (e : Fin 17) (s : State) (h_s : Keeps qq bb s)
    : OutKeeps qq bb (execSrcRecoverExpiry e s) := by
  unfold execSrcRecoverExpiry
  try dsimp only
  repeat' first | with_reducible assumption | with_reducible apply OutKeeps.keeps_if | with_reducible apply h_s
                | with_reducible apply State.after_keeps | with_reducible apply State.recoverExpiry_keeps
                | with_reducible apply OutKeeps.next | split | intro

@[simp] theorem execSinkHardResetTimeout_keeps {qq : List Instr} {bb : Prop} (e : Fin 17) (s : State) (h_s : Keeps qq bb s)
    : OutKeeps qq bb (execSinkHardResetTimeout e s) := by
  unfold execSinkHardResetTimeout
  try dsimp only
  repeat' first | with_reducible assumption | with_reducible apply OutKeeps.keeps_if | with_reducible apply h_s
                | with_reducible apply State.after_keeps | with_reducible apply State.partnerGone_keeps
                | with_reducible apply OutKeeps.next | split | intro

@[simp] theorem execEprKeepaliveTimeout_keeps {qq : List Instr} {bb : Prop} (e : Fin 17) (s : State) (h_s : Keeps qq bb s)
    : OutKeeps qq bb (execEprKeepaliveTimeout e s) := by
  unfold execEprKeepaliveTimeout
  try dsimp only
  repeat' first | with_reducible assumption | with_reducible apply OutKeeps.keeps_if | with_reducible apply h_s
                | with_reducible apply State.after_keeps | with_reducible apply State.sendHardReset_keeps
                | with_reducible apply OutKeeps.next | split | intro

@[simp] theorem State.eprLimit_keeps {qq : List Instr} {bb : Prop} (s : State) (e : Fin 17) (h_s : Keeps qq bb s)
    : Keeps qq bb (State.eprLimit s e) := by
  unfold State.eprLimit
  try dsimp only
  repeat' first | with_reducible assumption | with_reducible apply keeps_if | with_reducible apply h_s
                | with_reducible apply State.sendHardReset_keeps | with_reducible apply State.modEng_keeps | split | intro

@[simp] theorem execEprExitLimit_keeps {qq : List Instr} {bb : Prop} (e : Fin 17) (s : State) (h_s : Keeps qq bb s)
    : OutKeeps qq bb (execEprExitLimit e s) := by
  unfold execEprExitLimit
  try dsimp only
  repeat' first | with_reducible assumption | with_reducible apply OutKeeps.keeps_if | with_reducible apply h_s
                | with_reducible apply State.after_keeps | with_reducible apply State.eprLimit_keeps | with_reducible apply OutKeeps.next
                | split | intro

@[simp] theorem execPpsTimeout_keeps {qq : List Instr} {bb : Prop} (e : Fin 17) (s : State) (h_s : Keeps qq bb s)
    : OutKeeps qq bb (execPpsTimeout e s) := by
  unfold execPpsTimeout
  try dsimp only
  repeat' first | with_reducible assumption | with_reducible apply OutKeeps.keeps_if | with_reducible apply h_s
                | with_reducible apply State.after_keeps | with_reducible apply State.sendHardReset_keeps
                | with_reducible apply OutKeeps.next | split | intro

@[simp] theorem execHoldingPsRdy_keeps {qq : List Instr} {bb : Prop} (e : Fin 17) (s : State) (h_s : Keeps qq bb s)
    : OutKeeps qq bb (execHoldingPsRdy e s) := by
  unfold execHoldingPsRdy
  try dsimp only
  repeat' first | with_reducible assumption | with_reducible apply OutKeeps.keeps_if | with_reducible apply h_s
                | with_reducible apply State.after_keeps | with_reducible apply State.sendOwn_keeps
                | with_reducible apply State.modEng_keeps | with_reducible apply OutKeeps.next | split | intro

@[simp] theorem State.rpChange_keeps {qq : List Instr} {bb : Prop} (s : State) (e : Fin 17) (rp : Fin 4) (h_s : Keeps qq bb s)
    : Keeps qq bb (State.rpChange s e rp) := by
  unfold State.rpChange
  try dsimp only
  repeat' first | with_reducible assumption | with_reducible apply keeps_if | with_reducible apply h_s
                | with_reducible apply State.modEng_keeps | with_reducible apply State.sendWaiting_keeps | split | intro

@[simp] theorem execCcRpChange_keeps {qq : List Instr} {bb : Prop} (e : Fin 17) (rp : Fin 4) (s : State) (h_s : Keeps qq bb s)
    : OutKeeps qq bb (execCcRpChange e rp s) := by
  unfold execCcRpChange
  try dsimp only
  repeat' first | with_reducible assumption | with_reducible apply OutKeeps.keeps_if | with_reducible apply h_s
                | with_reducible apply State.after_keeps | with_reducible apply State.rpChange_keeps | with_reducible apply OutKeeps.next
                | split | intro

@[simp] theorem execVbusAtVsafe0v_keeps {qq : List Instr} {bb : Prop} (n : Fin 17) (s : State) (h_s : Keeps qq bb s)
    : OutKeeps qq bb (execVbusAtVsafe0v n s) := by
  unfold execVbusAtVsafe0v
  try dsimp only
  repeat' first | with_reducible assumption | with_reducible apply OutKeeps.keeps_if | with_reducible apply h_s
                | with_reducible apply State.after_keeps | with_reducible apply State.swapToSink_keeps
                | with_reducible apply State.atVsafe0v_keeps | with_reducible apply OutKeeps.next | split | intro

@[simp] theorem State.writeRx_keeps {qq : List Instr} {bb : Prop} (s : State) (r : Requester) (e : Fin 17) (v : DWord)
    (h_s : Keeps qq bb s) : Keeps qq bb (State.writeRx s r e v) := by
  unfold State.writeRx
  try dsimp only
  repeat' first | with_reducible assumption | with_reducible apply keeps_if | with_reducible apply h_s
                | with_reducible apply State.refuse_keeps | with_reducible apply State.placeWaiting_keeps
                | with_reducible apply State.modEng_keeps | split | intro

@[simp] theorem execRxRelease_keeps {qq : List Instr} {bb : Prop} (p : Path) (e : Fin 17) (v : DWord) (s : State) (h_s : Keeps qq bb s)
    : OutKeeps qq bb (execRxRelease p e v s) := by
  unfold execRxRelease
  try dsimp only
  repeat' first | with_reducible assumption | with_reducible apply OutKeeps.keeps_if | with_reducible apply h_s
                | with_reducible apply State.after_keeps | with_reducible apply State.access_keeps
                | with_reducible apply State.writeRx_keeps | with_reducible apply OutKeeps.next | split | intro

@[simp] theorem State.writeCtr_keeps {qq : List Instr} {bb : Prop} (s : State) (e : Fin 17) (v : DWord) (h_s : Keeps qq bb s)
    : Keeps qq bb (State.writeCtr s e v) := by
  unfold State.writeCtr
  try dsimp only
  repeat' first | with_reducible assumption | with_reducible apply keeps_if | with_reducible apply h_s
                | with_reducible apply State.modEng_keeps | with_reducible apply State.placeWaiting_keeps | split | intro

@[simp] theorem State.writeMsgBase_keeps {qq : List Instr} {bb : Prop} (s : State) (r : Requester) (e : Fin 17) (v : DWord)
    (h_s : Keeps qq bb s) : Keeps qq bb (State.writeMsgBase s r e v) := by
  unfold State.writeMsgBase
  try dsimp only
  repeat' first | with_reducible assumption | with_reducible apply keeps_if | with_reducible apply h_s
                | with_reducible apply State.refuse_keeps | with_reducible apply State.modEng_keeps | split | intro

@[simp] theorem State.writeCcp_keeps {qq : List Instr} {bb : Prop} (s : State) (r : Requester) (off : Nat) (v : DWord)
    (h_s : Keeps qq bb s) : Keeps qq bb (State.writeCcp s r off v) := by
  unfold State.writeCcp
  try dsimp only
  repeat' first | with_reducible assumption | with_reducible apply keeps_if | with_reducible apply h_s
                | with_reducible apply State.writeCcpCfg_keeps | with_reducible apply State.modEng_keeps
                | with_reducible apply State.refuse_keeps | with_reducible apply State.writeMsgBase_keeps
                | with_reducible apply State.writeCtr_keeps | with_reducible apply State.writeRx_keeps
                | with_reducible apply State.writeTxctl_keeps | with_reducible apply keeps_dif | simp only [keeps_mk_iff] | split | intro

@[simp] theorem State.holdEngines_keeps {qq : List Instr} {bb : Prop} (s : State) (h_s : Keeps qq bb s)
    : Keeps qq bb (State.holdEngines s) := by
  unfold State.holdEngines
  try dsimp only
  repeat' first | with_reducible assumption | with_reducible apply keeps_if | with_reducible apply h_s | simp only [keeps_mk_iff] | split
                | intro

@[simp] theorem State.modClk_keeps {qq : List Instr} {bb : Prop} (s : State) (g : Clocks → Clocks) (h_s : Keeps qq bb s)
    : Keeps qq bb (State.modClk s g) := by
  unfold State.modClk
  try dsimp only
  repeat' first | with_reducible assumption | with_reducible apply keeps_if | with_reducible apply h_s | simp only [keeps_mk_iff] | split
                | intro

@[simp] theorem State.startFairway_keeps {qq : List Instr} {bb : Prop} (s : State) (fa : Fin 4) (h_s : Keeps qq bb s)
    : Keeps qq bb (State.startFairway s fa) := by
  unfold State.startFairway
  try dsimp only
  repeat' first | with_reducible assumption | with_reducible apply keeps_if | with_reducible apply h_s
                | with_reducible apply State.modFairway_keeps | with_reducible apply State.modClk_keeps | split | intro

@[simp] theorem State.startFairways_keeps {qq : List Instr} {bb : Prop} (s : State) (h_s : Keeps qq bb s)
    : Keeps qq bb (State.startFairways s) := by
  unfold State.startFairways
  try dsimp only
  repeat' first | with_reducible assumption | with_reducible apply keeps_if | with_reducible apply h_s
                | with_reducible apply State.startFairway_keeps | with_reducible apply foldl_keeps | split | intro

@[simp] theorem State.askFairway_keeps {qq : List Instr} {bb : Prop} (s : State) (fa : Fin 4) (h_s : Keeps qq bb s)
    : Keeps qq bb (State.askFairway s fa) := by
  unfold State.askFairway
  try dsimp only
  repeat' first | with_reducible assumption | with_reducible apply keeps_if | with_reducible apply h_s
                | with_reducible apply State.modClk_keeps | split | intro

@[simp] theorem State.startPortReset_keeps {qq : List Instr} {bb : Prop} (s : State) (n : Fin 16) (h_s : Keeps qq bb s)
    : Keeps qq bb (State.startPortReset s n) := by
  unfold State.startPortReset
  try dsimp only
  repeat' first | with_reducible assumption | with_reducible apply keeps_if | with_reducible apply h_s
                | with_reducible apply State.modClk_keeps | with_reducible apply State.modMoor_keeps
                | with_reducible apply State.leavePartner_keeps | with_reducible apply State.releasePort_keeps | split | intro

@[simp] theorem State.writeRstReq_keeps {qq : List Instr} {bb : Prop} (s : State) (r : Requester) (v : DWord) (h_s : Keeps qq bb s)
    : Keeps qq bb (State.writeRstReq s r v) := by
  unfold State.writeRstReq
  try dsimp only
  repeat' first | with_reducible assumption | with_reducible apply keeps_if | with_reducible apply h_s
                | with_reducible apply State.primaryWrite_keeps | with_reducible apply State.startPortReset_keeps
                | with_reducible apply State.startFairways_keeps | with_reducible apply State.askFairway_keeps
                | with_reducible apply foldl_keeps | split | intro

@[simp] theorem execFairwayReset_keeps {qq : List Instr} {bb : Prop} (p : Path) (n : Fin 4) (s : State) (h_s : Keeps qq bb s)
    : OutKeeps qq bb (execFairwayReset p n s) := by
  unfold execFairwayReset
  try dsimp only
  repeat' first | with_reducible assumption | with_reducible apply OutKeeps.keeps_if | with_reducible apply h_s
                | with_reducible apply State.after_keeps | with_reducible apply State.access_keeps
                | with_reducible apply State.writeRstReq_keeps | with_reducible apply OutKeeps.next | split | intro

@[simp] theorem State.endFairwayReset_keeps {qq : List Instr} {bb : Prop} (s : State) (fa : Fin 4) (pass : Bool) (h_s : Keeps qq bb s)
    : Keeps qq bb (State.endFairwayReset s fa pass) := by
  unfold State.endFairwayReset
  try dsimp only
  repeat' first | with_reducible assumption | with_reducible apply keeps_if | with_reducible apply h_s
                | with_reducible apply State.modFairway_keeps | with_reducible apply State.modClk_keeps | split | intro

@[simp] theorem execFairwayResetEnd_keeps {qq : List Instr} {bb : Prop} (n : Fin 4) (pass : Bool) (s : State) (h_s : Keeps qq bb s)
    : OutKeeps qq bb (execFairwayResetEnd n pass s) := by
  unfold execFairwayResetEnd
  try dsimp only
  repeat' first | with_reducible assumption | with_reducible apply OutKeeps.keeps_if | with_reducible apply h_s
                | with_reducible apply State.after_keeps | with_reducible apply State.endFairwayReset_keeps
                | with_reducible apply OutKeeps.next | split | intro

@[simp] theorem execPortReset_keeps {qq : List Instr} {bb : Prop} (p : Path) (n : Fin 16) (s : State) (h_s : Keeps qq bb s)
    : OutKeeps qq bb (execPortReset p n s) := by
  unfold execPortReset
  try dsimp only
  repeat' first | with_reducible assumption | with_reducible apply OutKeeps.keeps_if | with_reducible apply h_s
                | with_reducible apply State.after_keeps | with_reducible apply State.access_keeps
                | with_reducible apply State.writeRstReq_keeps | with_reducible apply OutKeeps.next | split | intro

@[simp] theorem State.endPortReset_keeps {qq : List Instr} {bb : Prop} (s : State) (n : Fin 16) (pass : Bool) (mooring : Bool)
    (h_s : Keeps qq bb s) : Keeps qq bb (State.endPortReset s n pass mooring) := by
  unfold State.endPortReset
  try dsimp only
  repeat' first | with_reducible assumption | with_reducible apply keeps_if | with_reducible apply h_s
                | with_reducible apply State.modClk_keeps | with_reducible apply State.modPort_keeps
                | with_reducible apply State.modMoor_keeps | with_reducible apply State.startFairways_keeps | split | intro

@[simp] theorem execPortResetEnd_keeps {qq : List Instr} {bb : Prop} (n : Fin 16) (pass : Bool) (mooring : Bool) (s : State)
    (h_s : Keeps qq bb s) : OutKeeps qq bb (execPortResetEnd n pass mooring s) := by
  unfold execPortResetEnd
  try dsimp only
  repeat' first | with_reducible assumption | with_reducible apply OutKeeps.keeps_if | with_reducible apply h_s
                | with_reducible apply State.after_keeps | with_reducible apply State.endPortReset_keeps
                | with_reducible apply OutKeeps.next | split | intro

@[simp] theorem execTrst_keeps {qq : List Instr} {bb : Prop} (s : State) (h_s : Keeps qq bb s) : OutKeeps qq bb (execTrst s) := by
  unfold execTrst
  try dsimp only
  repeat' first | with_reducible assumption | with_reducible apply OutKeeps.keeps_if | with_reducible apply h_s
                | with_reducible apply State.after_keeps | with_reducible apply State.modClk_keeps | with_reducible apply OutKeeps.next
                | split | intro

@[simp] theorem State.writeClk_keeps {qq : List Instr} {bb : Prop} (s : State) (r : Requester) (off : Nat) (v : DWord)
    (h_s : Keeps qq bb s) : Keeps qq bb (State.writeClk s r off v) := by
  unfold State.writeClk
  try dsimp only
  repeat' first | with_reducible assumption | with_reducible apply keeps_if | with_reducible apply keeps_dif | with_reducible apply h_s
                | with_reducible apply State.sealedWrite_keeps | with_reducible apply State.modClk_keeps
                | with_reducible apply State.writeRstReq_keeps | split | intro

end Sys2Proof.Machine
end

