-- ==== Sys2Proof/Laws/KeepLantern.lean ====
section
/-! SUPPORT. `Keeps`: what the operations of the Lantern, the Daymark and the store keep. -/

namespace Sys2Proof.Machine

@[simp] theorem State.modLan_keeps {qq : List Instr} {bb : Prop} (s : State) (g : Lantern → Lantern) (h_s : Keeps qq bb s)
    : Keeps qq bb (State.modLan s g) := by
  unfold State.modLan
  try dsimp only
  repeat' first | with_reducible assumption | with_reducible apply keeps_if | with_reducible apply h_s | simp only [keeps_mk_iff] | split
                | intro

@[simp] theorem State.modEp_keeps {qq : List Instr} {bb : Prop} (s : State) (i : Fin 32) (g : LanEp → LanEp) (h_s : Keeps qq bb s)
    : Keeps qq bb (State.modEp s i g) := by
  unfold State.modEp
  try dsimp only
  repeat' first | with_reducible assumption | with_reducible apply keeps_if | with_reducible apply h_s
                | with_reducible apply State.modLan_keeps | split | intro

@[simp] theorem State.writeLanConnect_keeps {qq : List Instr} {bb : Prop} (s : State) (r : Requester) (v : DWord) (h_s : Keeps qq bb s)
    : Keeps qq bb (State.writeLanConnect s r v) := by
  unfold State.writeLanConnect
  try dsimp only
  repeat' first | with_reducible assumption | with_reducible apply keeps_if | with_reducible apply h_s
                | with_reducible apply State.modLan_keeps | with_reducible apply State.refuse_keeps | split | intro

@[simp] theorem execLanConnectWrite_keeps {qq : List Instr} {bb : Prop} (p : Path) (v : DWord) (s : State) (h_s : Keeps qq bb s)
    : OutKeeps qq bb (execLanConnectWrite p v s) := by
  unfold execLanConnectWrite
  try dsimp only
  repeat' first | with_reducible assumption | with_reducible apply OutKeeps.keeps_if | with_reducible apply h_s
                | with_reducible apply State.after_keeps | with_reducible apply State.access_keeps
                | with_reducible apply State.writeLanConnect_keeps | with_reducible apply OutKeeps.next | split | intro

@[simp] theorem execLanternConnect_keeps {qq : List Instr} {bb : Prop} (s : State) (h_s : Keeps qq bb s)
    : OutKeeps qq bb (execLanternConnect s) := by
  unfold execLanternConnect
  try dsimp only
  repeat' first | with_reducible assumption | with_reducible apply OutKeeps.keeps_if | with_reducible apply h_s
                | with_reducible apply State.after_keeps | with_reducible apply State.modLan_keeps | with_reducible apply OutKeeps.next
                | split | intro

@[simp] theorem State.completeBuf_keeps {qq : List Instr} {bb : Prop} (s : State) (i : Fin 32) (second : Bool) (b : LanBuf)
    (h_s : Keeps qq bb s) : Keeps qq bb (State.completeBuf s i second b) := by
  unfold State.completeBuf
  try dsimp only
  repeat' first | with_reducible assumption | with_reducible apply keeps_if | with_reducible apply h_s
                | with_reducible apply State.modEp_keeps | with_reducible apply State.decrementEngine_keeps | split | intro

@[simp] theorem State.abortBuf_keeps {qq : List Instr} {bb : Prop} (s : State) (i : Fin 32) (second : Bool) (h_s : Keeps qq bb s)
    : Keeps qq bb (State.abortBuf s i second) := by
  unfold State.abortBuf
  try dsimp only
  repeat' first | with_reducible assumption | with_reducible apply keeps_if | with_reducible apply h_s
                | with_reducible apply State.completeBuf_keeps | split | intro

@[simp] theorem State.abortEp_keeps {qq : List Instr} {bb : Prop} (s : State) (i : Fin 32) (h_s : Keeps qq bb s)
    : Keeps qq bb (State.abortEp s i) := by
  unfold State.abortEp
  try dsimp only
  repeat' first | with_reducible assumption | with_reducible apply keeps_if | with_reducible apply h_s
                | with_reducible apply State.abortBuf_keeps | split | intro

@[simp] theorem State.lanClear_keeps {qq : List Instr} {bb : Prop} (s : State) (h_s : Keeps qq bb s) : Keeps qq bb (State.lanClear s) := by
  unfold State.lanClear
  try dsimp only
  repeat' first | with_reducible assumption | with_reducible apply keeps_if | with_reducible apply h_s
                | with_reducible apply State.abortEp_keeps | with_reducible apply State.modLan_keeps | with_reducible apply foldl_keeps
                | split | intro

@[simp] theorem execLanternDisconnect_keeps {qq : List Instr} {bb : Prop} (s : State) (h_s : Keeps qq bb s)
    : OutKeeps qq bb (execLanternDisconnect s) := by
  unfold execLanternDisconnect
  try dsimp only
  repeat' first | with_reducible assumption | with_reducible apply OutKeeps.keeps_if | with_reducible apply h_s
                | with_reducible apply State.after_keeps | with_reducible apply State.modLan_keeps
                | with_reducible apply State.lanClear_keeps | with_reducible apply OutKeeps.next | split | intro

@[simp] theorem execLanBusReset_keeps {qq : List Instr} {bb : Prop} (high : Bool) (s : State) (h_s : Keeps qq bb s)
    : OutKeeps qq bb (execLanBusReset high s) := by
  unfold execLanBusReset
  try dsimp only
  repeat' first | with_reducible assumption | with_reducible apply OutKeeps.keeps_if | with_reducible apply h_s
                | with_reducible apply State.after_keeps | with_reducible apply State.modLan_keeps
                | with_reducible apply State.lanClear_keeps | with_reducible apply OutKeeps.next | split | intro

@[simp] theorem State.lanSetup_keeps {qq : List Instr} {bb : Prop} (s : State) (b : Vector Byte 8) (h_s : Keeps qq bb s)
    : Keeps qq bb (State.lanSetup s b) := by
  unfold State.lanSetup
  try dsimp only
  repeat' first | with_reducible assumption | with_reducible apply keeps_if | with_reducible apply h_s
                | with_reducible apply State.abortEp_keeps | with_reducible apply State.emit_keeps
                | with_reducible apply State.modLan_keeps | with_reducible apply State.modEp_keeps
                | with_reducible apply State.decrementEngine_keeps | split | intro

@[simp] theorem execLanSetup_keeps {qq : List Instr} {bb : Prop} (bytes : Vector Byte 8) (s : State) (h_s : Keeps qq bb s)
    : OutKeeps qq bb (execLanSetup bytes s) := by
  unfold execLanSetup
  try dsimp only
  repeat' first | with_reducible assumption | with_reducible apply OutKeeps.keeps_if | with_reducible apply h_s
                | with_reducible apply State.after_keeps | with_reducible apply State.lanSetup_keeps | with_reducible apply OutKeeps.next
                | split | intro

@[simp] theorem State.statusDone_keeps {qq : List Instr} {bb : Prop} (s : State) (h_s : Keeps qq bb s)
    : Keeps qq bb (State.statusDone s) := by
  unfold State.statusDone
  try dsimp only
  repeat' first | with_reducible assumption | with_reducible apply keeps_if | with_reducible apply h_s
                | with_reducible apply State.modLan_keeps | split | intro

@[simp] theorem State.engineIn_keeps {qq : List Instr} {bb : Prop} (s : State) (acked : Bool) (h_s : Keeps qq bb s)
    : Keeps qq bb (State.engineIn s acked) := by
  unfold State.engineIn
  try dsimp only
  repeat' first | with_reducible assumption | with_reducible apply keeps_if | with_reducible apply h_s
                | with_reducible apply State.emit_keeps | with_reducible apply State.modLan_keeps | with_reducible apply State.modEp_keeps
                | with_reducible apply State.statusDone_keeps | split | intro

@[simp] theorem State.lanRead_keeps {qq : List Instr} {bb : Prop} (s : State) (i : Fin 32) (second : Bool) (start : Nat) (n : Nat)
    (h_s : Keeps qq bb s) : Keeps qq bb (State.lanRead s i second start n).2 := by
  unfold State.lanRead
  try dsimp only
  repeat' first | with_reducible assumption | with_reducible apply keeps_if | with_reducible apply h_s | simp only [keeps_mk_iff]
                | simp only [keeps_hst_eq] | with_reducible apply KeepsH.of | with_reducible apply readBytes_wf
                | exact wf_of_cells rfl rfl ‹_› | split | intro

@[simp] theorem State.lanStore_keeps {qq : List Instr} {bb : Prop} (s : State) (i : Fin 32) (second : Bool) (start : Nat)
    (bytes : List (Byte × Bool)) (h_s : Keeps qq bb s) : Keeps qq bb (State.lanStore s i second start bytes) := by
  unfold State.lanStore
  try dsimp only
  repeat' first | with_reducible assumption | with_reducible apply keeps_if | with_reducible apply keeps_dif | with_reducible apply h_s
                | with_reducible apply State.modLan_keeps | simp only [keeps_mk_iff] | simp only [keeps_hst_eq]
                | with_reducible apply KeepsH.of | with_reducible apply writeBytes_wf | exact wf_of_cells rfl rfl ‹_› | split | intro

@[simp] theorem State.bufferIn_keeps {qq : List Instr} {bb : Prop} (s : State) (e : Fin 16) (acked : Bool) (h_s : Keeps qq bb s)
    : Keeps qq bb (State.bufferIn s e acked) := by
  unfold State.bufferIn
  try dsimp only
  repeat' first | with_reducible assumption | with_reducible apply keeps_if | with_reducible apply h_s
                | with_reducible apply State.lanRead_keeps | with_reducible apply State.emit_keeps
                | with_reducible apply State.modEp_keeps | with_reducible apply State.completeBuf_keeps
                | with_reducible apply State.statusDone_keeps | split | intro

@[simp] theorem State.lanIn_keeps {qq : List Instr} {bb : Prop} (s : State) (e : Fin 16) (acked : Bool) (h_s : Keeps qq bb s)
    : Keeps qq bb (State.lanIn s e acked) := by
  unfold State.lanIn
  try dsimp only
  repeat' first | with_reducible assumption | with_reducible apply keeps_if | with_reducible apply h_s
                | with_reducible apply State.emit_keeps | with_reducible apply State.engineIn_keeps
                | with_reducible apply State.bufferIn_keeps | split | intro

@[simp] theorem execLanInToken_keeps {qq : List Instr} {bb : Prop} (ep : Fin 16) (acked : Bool) (s : State) (h_s : Keeps qq bb s)
    : OutKeeps qq bb (execLanInToken ep acked s) := by
  unfold execLanInToken
  try dsimp only
  repeat' first | with_reducible assumption | with_reducible apply OutKeeps.keeps_if | with_reducible apply h_s
                | with_reducible apply State.after_keeps | with_reducible apply State.lanIn_keeps | with_reducible apply OutKeeps.next
                | split | intro

@[simp] theorem State.bufferOut_keeps {qq : List Instr} {bb : Prop} (s : State) (e : Fin 16) (bytes : List (Byte × Bool))
    (h_s : Keeps qq bb s) : Keeps qq bb (State.bufferOut s e bytes) := by
  unfold State.bufferOut
  try dsimp only
  repeat' first | with_reducible assumption | with_reducible apply keeps_if | with_reducible apply h_s
                | with_reducible apply State.modEp_keeps | with_reducible apply State.lanStore_keeps
                | with_reducible apply State.completeBuf_keeps | with_reducible apply State.emit_keeps | split | intro

@[simp] theorem State.engineOut_keeps {qq : List Instr} {bb : Prop} (s : State) (bytes : List (Byte × Bool)) (h_s : Keeps qq bb s)
    : Keeps qq bb (State.engineOut s bytes) := by
  unfold State.engineOut
  try dsimp only
  repeat' first | with_reducible assumption | with_reducible apply keeps_if | with_reducible apply h_s
                | with_reducible apply State.emit_keeps | split | intro

@[simp] theorem State.lanOut_keeps {qq : List Instr} {bb : Prop} (s : State) (e : Fin 16) (toggle : Bool) (bytes : List (Byte × Bool))
    (h_s : Keeps qq bb s) : Keeps qq bb (State.lanOut s e toggle bytes) := by
  unfold State.lanOut
  try dsimp only
  repeat' first | with_reducible assumption | with_reducible apply keeps_if | with_reducible apply h_s
                | with_reducible apply State.emit_keeps | with_reducible apply State.engineOut_keeps
                | with_reducible apply State.bufferOut_keeps | split | intro

@[simp] theorem execLanOutToken_keeps {qq : List Instr} {bb : Prop} (ep : Fin 16) (toggle : Bool) (bytes : List (Byte × Bool)) (s : State)
    (h_s : Keeps qq bb s) : OutKeeps qq bb (execLanOutToken ep toggle bytes s) := by
  unfold execLanOutToken
  try dsimp only
  repeat' first | with_reducible assumption | with_reducible apply OutKeeps.keeps_if | with_reducible apply h_s
                | with_reducible apply State.after_keeps | with_reducible apply State.lanOut_keeps | with_reducible apply OutKeeps.next
                | split | intro

@[simp] theorem State.lanPing_keeps {qq : List Instr} {bb : Prop} (s : State) (e : Fin 16) (h_s : Keeps qq bb s)
    : Keeps qq bb (State.lanPing s e) := by
  unfold State.lanPing
  try dsimp only
  repeat' first | with_reducible assumption | with_reducible apply keeps_if | with_reducible apply h_s
                | with_reducible apply State.emit_keeps | with_reducible apply State.engineOut_keeps | split | intro

@[simp] theorem execLanPing_keeps {qq : List Instr} {bb : Prop} (ep : Fin 16) (s : State) (h_s : Keeps qq bb s)
    : OutKeeps qq bb (execLanPing ep s) := by
  unfold execLanPing
  try dsimp only
  repeat' first | with_reducible assumption | with_reducible apply OutKeeps.keeps_if | with_reducible apply h_s
                | with_reducible apply State.after_keeps | with_reducible apply State.lanPing_keeps | with_reducible apply OutKeeps.next
                | split | intro

@[simp] theorem State.lanGuard_keeps {qq : List Instr} {bb : Prop} (s : State) (r : Requester) (off : Nat) (engines : Bool)
    (act : State → State) (h_s : Keeps qq bb s) (h_act : ∀ v0, Keeps qq bb v0 → Keeps qq bb (act v0))
    : Keeps qq bb (State.lanGuard s r off engines act) := by
  unfold State.lanGuard
  try dsimp only
  repeat' first | with_reducible assumption | with_reducible apply keeps_if | with_reducible apply h_s | with_reducible apply h_act
                | with_reducible apply State.refuse_keeps | split | intro

@[simp] theorem State.writeLanAddr_keeps {qq : List Instr} {bb : Prop} (s : State) (r : Requester) (v : DWord) (h_s : Keeps qq bb s)
    : Keeps qq bb (State.writeLanAddr s r v) := by
  unfold State.writeLanAddr
  try dsimp only
  repeat' first | with_reducible assumption | with_reducible apply keeps_if | with_reducible apply h_s
                | with_reducible apply State.lanGuard_keeps | with_reducible apply State.modLan_keeps | split | intro

@[simp] theorem execLanAddrWrite_keeps {qq : List Instr} {bb : Prop} (p : Path) (v : DWord) (s : State) (h_s : Keeps qq bb s)
    : OutKeeps qq bb (execLanAddrWrite p v s) := by
  unfold execLanAddrWrite
  try dsimp only
  repeat' first | with_reducible assumption | with_reducible apply OutKeeps.keeps_if | with_reducible apply h_s
                | with_reducible apply State.after_keeps | with_reducible apply State.access_keeps
                | with_reducible apply State.writeLanAddr_keeps | with_reducible apply OutKeeps.next | split | intro

@[simp] theorem State.lanFault_keeps {qq : List Instr} {bb : Prop} (s : State) (kind : Nat) (i : Fin 32) (h_s : Keeps qq bb s)
    : Keeps qq bb (State.lanFault s kind i) := by
  unfold State.lanFault
  try dsimp only
  repeat' first | with_reducible assumption | with_reducible apply keeps_if | with_reducible apply h_s
                | with_reducible apply State.modLan_keeps | split | intro

@[simp] theorem State.writeBuf_keeps {qq : List Instr} {bb : Prop} (s : State) (r : Requester) (i : Fin 32) (second : Bool) (v : DWord)
    (h_s : Keeps qq bb s) : Keeps qq bb (State.writeBuf s r i second v) := by
  unfold State.writeBuf
  try dsimp only
  repeat' first | with_reducible assumption | with_reducible apply keeps_if | with_reducible apply h_s
                | with_reducible apply State.lanGuard_keeps | with_reducible apply State.modEp_keeps
                | with_reducible apply State.lanFault_keeps | split | intro

@[simp] theorem execBufferArm_keeps {qq : List Instr} {bb : Prop} (p : Path) (i : Fin 32) (second : Bool) (v : DWord) (s : State)
    (h_s : Keeps qq bb s) : OutKeeps qq bb (execBufferArm p i second v s) := by
  unfold execBufferArm
  try dsimp only
  repeat' first | with_reducible assumption | with_reducible apply OutKeeps.keeps_if | with_reducible apply h_s
                | with_reducible apply State.after_keeps | with_reducible apply State.access_keeps
                | with_reducible apply State.writeBuf_keeps | with_reducible apply OutKeeps.next | split | intro

@[simp] theorem State.writeEpCfg_keeps {qq : List Instr} {bb : Prop} (s : State) (r : Requester) (i : Fin 32) (v : DWord)
    (h_s : Keeps qq bb s) : Keeps qq bb (State.writeEpCfg s r i v) := by
  unfold State.writeEpCfg
  try dsimp only
  repeat' first | with_reducible assumption | with_reducible apply keeps_if | with_reducible apply h_s
                | with_reducible apply State.lanGuard_keeps | with_reducible apply State.refuse_keeps
                | with_reducible apply State.modEp_keeps | with_reducible apply State.lanFault_keeps | split | intro

@[simp] theorem execEpEnable_keeps {qq : List Instr} {bb : Prop} (p : Path) (i : Fin 32) (v : DWord) (s : State) (h_s : Keeps qq bb s)
    : OutKeeps qq bb (execEpEnable p i v s) := by
  unfold execEpEnable
  try dsimp only
  repeat' first | with_reducible assumption | with_reducible apply OutKeeps.keeps_if | with_reducible apply h_s
                | with_reducible apply State.after_keeps | with_reducible apply State.access_keeps
                | with_reducible apply State.writeEpCfg_keeps | with_reducible apply OutKeeps.next | split | intro

@[simp] theorem execEpStall_keeps {qq : List Instr} {bb : Prop} (p : Path) (i : Fin 32) (v : DWord) (s : State) (h_s : Keeps qq bb s)
    : OutKeeps qq bb (execEpStall p i v s) := by
  unfold execEpStall
  try dsimp only
  repeat' first | with_reducible assumption | with_reducible apply OutKeeps.keeps_if | with_reducible apply h_s
                | with_reducible apply State.after_keeps | with_reducible apply State.access_keeps
                | with_reducible apply State.writeEpCfg_keeps | with_reducible apply OutKeeps.next | split | intro

@[simp] theorem execLanSuspend_keeps {qq : List Instr} {bb : Prop} (s : State) (h_s : Keeps qq bb s)
    : OutKeeps qq bb (execLanSuspend s) := by
  unfold execLanSuspend
  try dsimp only
  repeat' first | with_reducible assumption | with_reducible apply OutKeeps.keeps_if | with_reducible apply h_s
                | with_reducible apply State.after_keeps | with_reducible apply State.modLan_keeps | with_reducible apply OutKeeps.next
                | split | intro

@[simp] theorem State.sendWaitingNotes_keeps {qq : List Instr} {bb : Prop} (s : State) (h_s : Keeps qq bb s)
    : Keeps qq bb (State.sendWaitingNotes s) := by
  unfold State.sendWaitingNotes
  try dsimp only
  repeat' first | with_reducible assumption | with_reducible apply keeps_if | with_reducible apply h_s
                | with_reducible apply State.notifyDue_keeps | with_reducible apply State.modLan_keeps | with_reducible apply foldl_keeps
                | split | intro

@[simp] theorem State.sendReply_keeps {qq : List Instr} {bb : Prop} (s : State) (h_s : Keeps qq bb s)
    : Keeps qq bb (State.sendReply s) := by
  unfold State.sendReply
  try dsimp only
  repeat' first | with_reducible assumption | with_reducible apply keeps_if | with_reducible apply h_s
                | with_reducible apply State.emit_keeps | simp only [keeps_mk_iff] | simp only [keeps_hst_eq]
                | with_reducible apply KeepsH.of | with_reducible apply readWords_wf | exact wf_of_cells rfl rfl ‹_› | split | intro

@[simp] theorem State.flushReply_keeps {qq : List Instr} {bb : Prop} (s : State) (h_s : Keeps qq bb s)
    : Keeps qq bb (State.flushReply s) := by
  unfold State.flushReply
  try dsimp only
  repeat' first | with_reducible assumption | with_reducible apply keeps_if | with_reducible apply h_s
                | with_reducible apply State.sendReply_keeps | split | intro

@[simp] theorem execLanResume_keeps {qq : List Instr} {bb : Prop} (s : State) (h_s : Keeps qq bb s) : OutKeeps qq bb (execLanResume s) := by
  unfold execLanResume
  try dsimp only
  repeat' first | with_reducible assumption | with_reducible apply OutKeeps.keeps_if | with_reducible apply h_s
                | with_reducible apply State.after_keeps | with_reducible apply State.flushReply_keeps
                | with_reducible apply State.sendWaitingNotes_keeps | with_reducible apply State.modLan_keeps
                | with_reducible apply OutKeeps.next | split | intro

@[simp] theorem State.lanLpm_keeps {qq : List Instr} {bb : Prop} (s : State) (link : Fin 16) (besl : Fin 16) (rwe : Bool)
    (h_s : Keeps qq bb s) : Keeps qq bb (State.lanLpm s link besl rwe) := by
  unfold State.lanLpm
  try dsimp only
  repeat' first | with_reducible assumption | with_reducible apply keeps_if | with_reducible apply h_s
                | with_reducible apply State.modLan_keeps | with_reducible apply State.emit_keeps | split | intro

@[simp] theorem execLanLpm_keeps {qq : List Instr} {bb : Prop} (link : Fin 16) (besl : Fin 16) (rwe : Bool) (s : State)
    (h_s : Keeps qq bb s) : OutKeeps qq bb (execLanLpm link besl rwe s) := by
  unfold execLanLpm
  try dsimp only
  repeat' first | with_reducible assumption | with_reducible apply OutKeeps.keeps_if | with_reducible apply h_s
                | with_reducible apply State.after_keeps | with_reducible apply State.lanLpm_keeps | with_reducible apply OutKeeps.next
                | split | intro

@[simp] theorem State.writeWake_keeps {qq : List Instr} {bb : Prop} (s : State) (r : Requester) (v : DWord) (idle : Bool)
    (h_s : Keeps qq bb s) : Keeps qq bb (State.writeWake s r v idle) := by
  unfold State.writeWake
  try dsimp only
  repeat' first | with_reducible assumption | with_reducible apply keeps_if | with_reducible apply h_s
                | with_reducible apply State.lanGuard_keeps | with_reducible apply State.modLan_keeps | split | intro

@[simp] theorem execLanWakeRequest_keeps {qq : List Instr} {bb : Prop} (p : Path) (v : DWord) (idle : Bool) (s : State)
    (h_s : Keeps qq bb s) : OutKeeps qq bb (execLanWakeRequest p v idle s) := by
  unfold execLanWakeRequest
  try dsimp only
  repeat' first | with_reducible assumption | with_reducible apply OutKeeps.keeps_if | with_reducible apply h_s
                | with_reducible apply State.after_keeps | with_reducible apply State.access_keeps
                | with_reducible apply State.writeWake_keeps | with_reducible apply OutKeeps.next | split | intro

@[simp] theorem execLanWakeEnd_keeps {qq : List Instr} {bb : Prop} (s : State) (h_s : Keeps qq bb s)
    : OutKeeps qq bb (execLanWakeEnd s) := by
  unfold execLanWakeEnd
  try dsimp only
  repeat' first | with_reducible assumption | with_reducible apply OutKeeps.keeps_if | with_reducible apply h_s
                | with_reducible apply State.after_keeps | with_reducible apply State.modLan_keeps | with_reducible apply OutKeeps.next
                | split | intro

@[simp] theorem State.lanSof_keeps {qq : List Instr} {bb : Prop} (s : State) (frame : Fin 2048) (offset : Nat) (h_s : Keeps qq bb s)
    : Keeps qq bb (State.lanSof s frame offset) := by
  unfold State.lanSof
  try dsimp only
  repeat' first | with_reducible assumption | with_reducible apply keeps_if | with_reducible apply h_s
                | with_reducible apply State.modLan_keeps | split | intro

@[simp] theorem execLanSof_keeps {qq : List Instr} {bb : Prop} (frame : Fin 2048) (offset : Nat) (s : State) (h_s : Keeps qq bb s)
    : OutKeeps qq bb (execLanSof frame offset s) := by
  unfold execLanSof
  try dsimp only
  repeat' first | with_reducible assumption | with_reducible apply OutKeeps.keeps_if | with_reducible apply h_s
                | with_reducible apply State.after_keeps | with_reducible apply State.lanSof_keeps | with_reducible apply OutKeeps.next
                | split | intro

@[simp] theorem execLanSofMissing_keeps {qq : List Instr} {bb : Prop} (s : State) (h_s : Keeps qq bb s)
    : OutKeeps qq bb (execLanSofMissing s) := by
  unfold execLanSofMissing
  try dsimp only
  repeat' first | with_reducible assumption | with_reducible apply OutKeeps.keeps_if | with_reducible apply h_s
                | with_reducible apply State.after_keeps | with_reducible apply State.modLan_keeps | with_reducible apply OutKeeps.next
                | split | intro

@[simp] theorem State.writeFwOut_keeps {qq : List Instr} {bb : Prop} (s : State) (r : Requester) (v : DWord) (h_s : Keeps qq bb s)
    : Keeps qq bb (State.writeFwOut s r v) := by
  unfold State.writeFwOut
  try dsimp only
  repeat' first | with_reducible assumption | with_reducible apply keeps_if | with_reducible apply h_s
                | with_reducible apply State.lanGuard_keeps | with_reducible apply State.flushReply_keeps
                | with_reducible apply State.modLan_keeps | split | intro

@[simp] theorem execFwReply_keeps {qq : List Instr} {bb : Prop} (p : Path) (v : DWord) (s : State) (h_s : Keeps qq bb s)
    : OutKeeps qq bb (execFwReply p v s) := by
  unfold execFwReply
  try dsimp only
  repeat' first | with_reducible assumption | with_reducible apply OutKeeps.keeps_if | with_reducible apply h_s
                | with_reducible apply State.after_keeps | with_reducible apply State.access_keeps
                | with_reducible apply State.writeFwOut_keeps | with_reducible apply OutKeeps.next | split | intro

@[simp] theorem State.lanAck_keeps {qq : List Instr} {bb : Prop} (s : State) (r : Requester) (off : Nat) (act : Lantern → Lantern)
    (h_s : Keeps qq bb s) : Keeps qq bb (State.lanAck s r off act) := by
  unfold State.lanAck
  try dsimp only
  repeat' first | with_reducible assumption | with_reducible apply keeps_if | with_reducible apply h_s
                | with_reducible apply State.modLan_keeps | with_reducible apply State.refuse_keeps | split | intro

@[simp] theorem State.writeDed_keeps {qq : List Instr} {bb : Prop} (s : State) (r : Requester) (off : Nat) (k : Fin 4) (a : Nat)
    (v : DWord) (h_s : Keeps qq bb s) : Keeps qq bb (State.writeDed s r off k a v) := by
  unfold State.writeDed
  try dsimp only
  repeat' first | with_reducible assumption | with_reducible apply keeps_if | with_reducible apply h_s
                | with_reducible apply State.lanGuard_keeps | with_reducible apply State.modLan_keeps | split | intro

@[simp] theorem State.writeLan_keeps {qq : List Instr} {bb : Prop} (s : State) (r : Requester) (off : Nat) (v : DWord)
    (h_s : Keeps qq bb s) : Keeps qq bb (State.writeLan s r off v) := by
  unfold State.writeLan
  refine keeps_if (fun _ => State.writeLanConnect_keeps _ _ _ h_s) (fun _ => ?_)
  refine keeps_if (fun _ => State.writeLanAddr_keeps _ _ _ h_s) (fun _ => ?_)
  refine keeps_if (fun _ => State.lanAck_keeps _ _ _ _ h_s) (fun _ => ?_)
  refine keeps_if (fun _ => State.lanAck_keeps _ _ _ _ h_s) (fun _ => ?_)
  refine keeps_if (fun _ => keeps_if (fun _ => State.modLan_keeps _ _ h_s) (fun _ => State.refuse_keeps _ _ _ _ h_s)) (fun _ => ?_)
  refine keeps_if (fun _ => State.writeWake_keeps _ _ _ _ (State.freeBit_keeps _ h_s)) (fun _ => ?_)
  refine keeps_if (fun _ => State.lanAck_keeps _ _ _ _ h_s) (fun _ => ?_)
  refine keeps_if (fun _ => State.lanGuard_keeps _ _ _ _ _ h_s (fun _ h => State.modLan_keeps _ _ h)) (fun _ => ?_)
  refine keeps_if (fun _ => State.lanAck_keeps _ _ _ _ h_s) (fun _ => ?_)
  refine keeps_dif (fun _ => ?_) (fun _ => ?_)
  · dsimp only
    split
    · exact State.writeEpCfg_keeps _ _ _ _ h_s
    · exact State.writeBuf_keeps _ _ _ _ _ h_s
    · exact State.writeBuf_keeps _ _ _ _ _ h_s
    · exact h_s
  refine keeps_dif (fun _ => State.writeDed_keeps _ _ _ _ _ _ h_s) (fun _ => ?_)
  refine keeps_if (fun _ => State.lanAck_keeps _ _ _ _ h_s) (fun _ => ?_)
  refine keeps_if (fun _ => State.lanGuard_keeps _ _ _ _ _ h_s (fun _ h => keeps_if (fun _ => State.modLan_keeps _ _ h) (fun _ => h))) (fun _ => ?_)
  refine keeps_if (fun _ => State.lanGuard_keeps _ _ _ _ _ h_s (fun _ h => State.modLan_keeps _ _ h)) (fun _ => ?_)
  refine keeps_if (fun _ => State.lanGuard_keeps _ _ _ _ _ h_s (fun _ h => State.modLan_keeps _ _ h)) (fun _ => ?_)
  refine keeps_if (fun _ => State.writeFwOut_keeps _ _ _ h_s) (fun _ => h_s)

@[simp] theorem State.modDay_keeps {qq : List Instr} {bb : Prop} (s : State) (g : Daymark → Daymark) (h_s : Keeps qq bb s)
    : Keeps qq bb (State.modDay s g) := by
  unfold State.modDay
  try dsimp only
  repeat' first | with_reducible assumption | with_reducible apply keeps_if | with_reducible apply h_s
                | with_reducible apply State.modReg_keeps | split | intro

@[simp] theorem State.endPass_keeps {qq : List Instr} {bb : Prop} (s : State) (h_s : Keeps qq bb s) : Keeps qq bb (State.endPass s) := by
  unfold State.endPass
  try dsimp only
  repeat' first | with_reducible assumption | with_reducible apply keeps_if | with_reducible apply h_s
                | with_reducible apply State.modDay_keeps | split | intro

@[simp] theorem State.beginPass_keeps {qq : List Instr} {bb : Prop} (s : State) (h_s : Keeps qq bb s)
    : Keeps qq bb (State.beginPass s) := by
  unfold State.beginPass
  try dsimp only
  repeat' first | with_reducible assumption | with_reducible apply keeps_if | with_reducible apply h_s
                | with_reducible apply State.modDay_keeps | split | intro

@[simp] theorem execDaymarkRegisterRead_keeps {qq : List Instr} {bb : Prop} (s : State) (h_s : Keeps qq bb s)
    : OutKeeps qq bb (execDaymarkRegisterRead s) := by
  unfold execDaymarkRegisterRead
  try dsimp only
  repeat' first | with_reducible assumption | with_reducible apply OutKeeps.keeps_if | with_reducible apply h_s
                | with_reducible apply State.after_keeps | with_reducible apply State.modDay_keeps | with_reducible apply OutKeeps.next
                | split | intro

@[simp] theorem State.capture_keeps {qq : List Instr} {bb : Prop} (s : State) (h_s : Keeps qq bb s) : Keeps qq bb (State.capture s) := by
  unfold State.capture
  try dsimp only
  repeat' first | with_reducible assumption | with_reducible apply keeps_if | with_reducible apply h_s
                | with_reducible apply State.modDay_keeps | simp only [keeps_mk_iff] | split | intro

@[simp] theorem State.loadRef_keeps {qq : List Instr} {bb : Prop} (s : State) (h_s : Keeps qq bb s) : Keeps qq bb (State.loadRef s) := by
  unfold State.loadRef
  try dsimp only
  repeat' first | with_reducible assumption | with_reducible apply keeps_if | with_reducible apply h_s
                | with_reducible apply State.modDay_keeps | split | intro

@[simp] theorem State.dayCommit_keeps {qq : List Instr} {bb : Prop} (s : State) (v : DWord) (h_s : Keeps qq bb s)
    : Keeps qq bb (State.dayCommit s v) := by
  unfold State.dayCommit
  try dsimp only
  repeat' first | with_reducible assumption | with_reducible apply keeps_if | with_reducible apply keeps_dif | with_reducible apply h_s
                | with_reducible apply State.capture_keeps | with_reducible apply State.loadRef_keeps | split | intro

@[simp] theorem State.writeCommit_keeps {qq : List Instr} {bb : Prop} (s : State) (p : Path) (v : DWord) (h_s : Keeps qq bb s)
    : Keeps qq bb (State.writeCommit s p v) := by
  unfold State.writeCommit
  try dsimp only
  repeat' first | with_reducible assumption | with_reducible apply keeps_if | with_reducible apply h_s
                | with_reducible apply State.accessGuarded_keeps | with_reducible apply State.dayCommit_keeps | split | intro

@[simp] theorem execDayCommitCapture_keeps {qq : List Instr} {bb : Prop} (p : Path) (v : DWord) (s : State) (h_s : Keeps qq bb s)
    : OutKeeps qq bb (execDayCommitCapture p v s) := by
  unfold execDayCommitCapture
  try dsimp only
  repeat' first | with_reducible assumption | with_reducible apply OutKeeps.keeps_if | with_reducible apply h_s
                | with_reducible apply State.after_keeps | with_reducible apply State.writeCommit_keeps
                | with_reducible apply OutKeeps.next | split | intro

@[simp] theorem execDayCommitLoad_keeps {qq : List Instr} {bb : Prop} (p : Path) (v : DWord) (s : State) (h_s : Keeps qq bb s)
    : OutKeeps qq bb (execDayCommitLoad p v s) := by
  unfold execDayCommitLoad
  try dsimp only
  repeat' first | with_reducible assumption | with_reducible apply OutKeeps.keeps_if | with_reducible apply h_s
                | with_reducible apply State.after_keeps | with_reducible apply State.writeCommit_keeps
                | with_reducible apply OutKeeps.next | split | intro

@[simp] theorem State.writeSealSet_keeps {qq : List Instr} {bb : Prop} (s : State) (r : Requester) (v : DWord) (h_s : Keeps qq bb s)
    : Keeps qq bb (State.writeSealSet s r v) := by
  unfold State.writeSealSet
  try dsimp only
  repeat' first | with_reducible assumption | with_reducible apply keeps_if | with_reducible apply h_s
                | with_reducible apply State.primaryWrite_keeps | with_reducible apply State.modReg_keeps | split | intro

@[simp] theorem execSealSetWrite_keeps {qq : List Instr} {bb : Prop} (p : Path) (v : DWord) (s : State) (h_s : Keeps qq bb s)
    : OutKeeps qq bb (execSealSetWrite p v s) := by
  unfold execSealSetWrite
  try dsimp only
  repeat' first | with_reducible assumption | with_reducible apply OutKeeps.keeps_if | with_reducible apply h_s
                | with_reducible apply State.after_keeps | with_reducible apply State.access_keeps
                | with_reducible apply State.writeSealSet_keeps | with_reducible apply OutKeeps.next | split | intro

@[simp] theorem execKeyHoleWrite_keeps {qq : List Instr} {bb : Prop} (p : Path) (v : DWord) (s : State) (h_s : Keeps qq bb s)
    : OutKeeps qq bb (execKeyHoleWrite p v s) := by
  unfold execKeyHoleWrite
  try dsimp only
  repeat' first | with_reducible assumption | with_reducible apply OutKeeps.keeps_if | with_reducible apply h_s
                | with_reducible apply State.after_keeps | with_reducible apply State.keyHole_keeps | with_reducible apply OutKeeps.next
                | split | intro

@[simp] theorem execKeyholeExpiry_keeps {qq : List Instr} {bb : Prop} (r : Requester) (s : State) (h_s : Keeps qq bb s)
    : OutKeeps qq bb (execKeyholeExpiry r s) := by
  unfold execKeyholeExpiry
  try dsimp only
  repeat' first | with_reducible assumption | with_reducible apply OutKeeps.keeps_if | with_reducible apply h_s
                | with_reducible apply State.after_keeps | with_reducible apply State.keyExpire_keeps | with_reducible apply OutKeeps.next
                | split | intro

@[simp] theorem State.writeDay_keeps {qq : List Instr} {bb : Prop} (s : State) (r : Requester) (off : Nat) (v : DWord)
    (h_s : Keeps qq bb s) : Keeps qq bb (State.writeDay s r off v) := by
  unfold State.writeDay
  try dsimp only
  repeat' first | with_reducible assumption | with_reducible apply keeps_if | with_reducible apply keeps_dif | with_reducible apply h_s
                | with_reducible apply State.modDay_keeps | with_reducible apply State.refuse_keeps
                | with_reducible apply State.primaryWrite_keeps | with_reducible apply State.modReg_keeps
                | with_reducible apply State.writeSealSet_keeps | split | intro

@[simp] theorem State.setRoute_keeps {qq : List Instr} {bb : Prop} (s : State) (m : Fin 75) (v : DWord) (h_s : Keeps qq bb s)
    : Keeps qq bb (State.setRoute s m v) := by
  unfold State.setRoute
  try dsimp only
  repeat' first | with_reducible assumption | with_reducible apply keeps_if | with_reducible apply h_s
                | with_reducible apply State.restateSource_keeps | with_reducible apply foldl_keeps | simp only [keeps_mk_iff] | split
                | intro

@[simp] theorem State.setMask_keeps {qq : List Instr} {bb : Prop} (s : State) (m : Fin 10) (v : DWord) (h_s : Keeps qq bb s)
    : Keeps qq bb (State.setMask s m v) := by
  unfold State.setMask
  try dsimp only
  repeat' first | with_reducible assumption | with_reducible apply keeps_if | with_reducible apply h_s
                | with_reducible apply State.restateSource_keeps | with_reducible apply foldl_keeps | simp only [keeps_mk_iff] | split
                | intro

@[simp] theorem State.writeEvt_keeps {qq : List Instr} {bb : Prop} (s : State) (r : Requester) (off : Nat) (v : DWord)
    (h_s : Keeps qq bb s) : Keeps qq bb (State.writeEvt s r off v) := by
  unfold State.writeEvt
  try dsimp only
  repeat' first | with_reducible assumption | with_reducible apply keeps_if | with_reducible apply keeps_dif | with_reducible apply h_s
                | with_reducible apply State.refuse_keeps | with_reducible apply State.sealedWrite_keeps
                | with_reducible apply State.setMask_keeps | with_reducible apply State.setRoute_keeps | simp only [keeps_mk_iff] | split
                | intro

@[simp] theorem State.modHst_keeps {qq : List Instr} {bb : Prop} (s : State) (g : HoldingStore → HoldingStore) (h_s : Keeps qq bb s)
    (h_g : s.hst.wf = true → (g s.hst).wf = true) : Keeps qq bb (State.modHst s g) :=
  ⟨h_s.1, fun hb => h_g (h_s.2 hb)⟩

@[simp] theorem State.drainMerge_keeps {qq : List Instr} {bb : Prop} (s : State) (row : Nat) (h_s : Keeps qq bb s)
    : Keeps qq bb (State.drainMerge s row) := by
  unfold State.drainMerge
  try dsimp only
  repeat' first | with_reducible assumption | with_reducible apply keeps_if | with_reducible apply h_s
                | with_reducible apply State.modHst_keeps | simp only [keeps_hst_eq] | with_reducible apply KeepsH.of
                | with_reducible apply drain_wf | exact wf_of_cells rfl rfl ‹_› | split | intro

@[simp] theorem execMergeDrain_keeps {qq : List Instr} {bb : Prop} (row : Fin 262144) (s : State) (h_s : Keeps qq bb s)
    : OutKeeps qq bb (execMergeDrain row s) := by
  unfold execMergeDrain
  try dsimp only
  repeat' first | with_reducible assumption | with_reducible apply OutKeeps.keeps_if | with_reducible apply h_s
                | with_reducible apply State.after_keeps | with_reducible apply State.drainMerge_keeps
                | with_reducible apply OutKeeps.next | split | intro

@[simp] theorem State.writeScrubCtl_keeps {qq : List Instr} {bb : Prop} (s : State) (r : Requester) (v : DWord) (h_s : Keeps qq bb s)
    : Keeps qq bb (State.writeScrubCtl s r v) := by
  unfold State.writeScrubCtl
  try dsimp only
  repeat' first | with_reducible assumption | with_reducible apply keeps_if | with_reducible apply h_s
                | with_reducible apply State.refuse_keeps | with_reducible apply State.modHst_keeps | exact wf_of_cells rfl rfl ‹_›
                | split | intro

@[simp] theorem execScrubGo_keeps {qq : List Instr} {bb : Prop} (p : Path) (v : DWord) (s : State) (h_s : Keeps qq bb s)
    : OutKeeps qq bb (execScrubGo p v s) := by
  unfold execScrubGo
  try dsimp only
  repeat' first | with_reducible assumption | with_reducible apply OutKeeps.keeps_if | with_reducible apply h_s
                | with_reducible apply State.after_keeps | with_reducible apply State.access_keeps
                | with_reducible apply State.writeScrubCtl_keeps | with_reducible apply OutKeeps.next | split | intro

@[simp] theorem execScrubStop_keeps {qq : List Instr} {bb : Prop} (p : Path) (v : DWord) (s : State) (h_s : Keeps qq bb s)
    : OutKeeps qq bb (execScrubStop p v s) := by
  unfold execScrubStop
  try dsimp only
  repeat' first | with_reducible assumption | with_reducible apply OutKeeps.keeps_if | with_reducible apply h_s
                | with_reducible apply State.after_keeps | with_reducible apply State.access_keeps
                | with_reducible apply State.writeScrubCtl_keeps | with_reducible apply OutKeeps.next | split | intro

@[simp] theorem execScrubRow_keeps {qq : List Instr} {bb : Prop} (s : State) (h_s : Keeps qq bb s) : OutKeeps qq bb (execScrubRow s) := by
  unfold execScrubRow
  try dsimp only
  repeat' first | with_reducible assumption | with_reducible apply OutKeeps.keeps_if | with_reducible apply h_s
                | with_reducible apply State.after_keeps | with_reducible apply State.modHst_keeps | with_reducible apply OutKeeps.next
                | simp only [keeps_hst_eq] | with_reducible apply KeepsH.of | with_reducible apply scrubRow_wf
                | exact wf_of_cells rfl rfl ‹_› | split | intro

@[simp] theorem State.writeScrubRow_keeps {qq : List Instr} {bb : Prop} (s : State) (r : Requester) (off : Nat) (v : DWord)
    (h_s : Keeps qq bb s) : Keeps qq bb (State.writeScrubRow s r off v) := by
  unfold State.writeScrubRow
  try dsimp only
  repeat' first | with_reducible assumption | with_reducible apply keeps_if | with_reducible apply h_s
                | with_reducible apply State.refuse_keeps | with_reducible apply State.modHst_keeps | exact wf_of_cells rfl rfl ‹_›
                | split | intro

@[simp] theorem State.managerWrite_keeps {qq : List Instr} {bb : Prop} (s : State) (r : Requester) (off : Nat) (act : State → State)
    (h_s : Keeps qq bb s) (h_act : ∀ v0, Keeps qq bb v0 → Keeps qq bb (act v0)) : Keeps qq bb (State.managerWrite s r off act) := by
  unfold State.managerWrite
  try dsimp only
  repeat' first | with_reducible assumption | with_reducible apply keeps_if | with_reducible apply h_s | with_reducible apply h_act
                | with_reducible apply State.refuse_keeps | split | intro

@[simp] theorem State.writeHst_keeps {qq : List Instr} {bb : Prop} (s : State) (r : Requester) (off : Nat) (v : DWord)
    (h_s : Keeps qq bb s) : Keeps qq bb (State.writeHst s r off v) := by
  unfold State.writeHst
  try dsimp only
  repeat' first | with_reducible assumption | with_reducible apply keeps_if | with_reducible apply keeps_dif | with_reducible apply h_s
                | with_reducible apply State.managerWrite_keeps | with_reducible apply State.modHst_keeps
                | with_reducible apply State.writeScrubRow_keeps | with_reducible apply State.writeScrubCtl_keeps
                | exact wf_of_cells rfl rfl ‹_› | split | intro

@[simp] theorem State.putSealed_keeps {qq : List Instr} {bb : Prop} (s : State) (off : Nat) (v : DWord) (h_s : Keeps qq bb s)
    : Keeps qq bb (State.putSealed s off v) := by
  unfold State.putSealed
  iterate 10
    refine keeps_if (fun _ => ?_) (fun _ => ?_)
    · exact h_s
  refine keeps_dif (fun _ => ?_) (fun _ => ?_)
  · exact ⟨h_s.1, h_s.2⟩
  refine keeps_dif (fun _ => ?_) (fun _ => ?_)
  · exact State.modMoor_keeps _ _ _ h_s
  refine keeps_dif (fun _ => ?_) (fun _ => ?_)
  · exact State.modSector_keeps _ _ _ h_s
  refine keeps_if (fun _ => ?_) (fun _ => ?_)
  · exact h_s
  refine keeps_dif (fun _ => ?_) (fun _ => ?_)
  · exact State.setMask_keeps _ _ _ h_s
  refine keeps_dif (fun _ => ?_) (fun _ => ?_)
  · exact State.setRoute_keeps _ _ _ h_s
  · exact h_s

@[simp] theorem State.upsetSealed_keeps {qq : List Instr} {bb : Prop} (s : State) (off : Nat) (byte : Nat) (bit : Nat)
    (h_s : Keeps qq bb s) : Keeps qq bb (State.upsetSealed s off byte bit) := by
  unfold State.upsetSealed
  try dsimp only
  repeat' first | with_reducible assumption | with_reducible apply keeps_if | with_reducible apply h_s
                | with_reducible apply State.putSealed_keeps | with_reducible apply State.modReg_keeps | split | intro

@[simp] theorem State.upsetLamp_keeps {qq : List Instr} {bb : Prop} (s : State) (fa : Fin 4) (i : Nat) (w : Fin 0x100000) (bit : Fin 18)
    (h_s : Keeps qq bb s) : Keeps qq bb (State.upsetLamp s fa i w bit) := by
  unfold State.upsetLamp
  try dsimp only
  repeat' first | with_reducible assumption | with_reducible apply keeps_if | with_reducible apply h_s
                | with_reducible apply State.modHst_keeps | with_reducible apply State.strike_keeps | simp only [keeps_mk_iff]
                | refine of_pair1 (by assumption) ?_ | refine of_pair2 (by assumption) ?_ | with_reducible apply flipStored_wf | split
                | intro

@[simp] theorem State.upsetItem_keeps {qq : List Instr} {bb : Prop} (s : State) (i : Nat) (head : Bool) (w : Fin 0x100000)
    (bit : Fin 18) (h_s : Keeps qq bb s) : Keeps qq bb (State.upsetItem s i head w bit) := by
  unfold State.upsetItem
  try dsimp only
  repeat' first | with_reducible assumption | with_reducible apply keeps_if | with_reducible apply h_s
                | with_reducible apply State.modHst_keeps | with_reducible apply State.strike_keeps
                | with_reducible apply State.modTnd_keeps | with_reducible apply State.modItem_keeps | simp only [keeps_mk_iff]
                | refine of_pair1 (by assumption) ?_ | refine of_pair2 (by assumption) ?_ | with_reducible apply flipStored_wf | split
                | intro

@[simp] theorem State.poisonCounter_keeps {qq : List Instr} {bb : Prop} (s : State) (c : Nat) (x : Counter) (h_s : Keeps qq bb s)
    : Keeps qq bb (State.poisonCounter s c x) := by
  unfold State.poisonCounter
  try dsimp only
  repeat' first | with_reducible assumption | with_reducible apply keeps_if | with_reducible apply h_s
                | with_reducible apply State.putCtr_keeps | with_reducible apply State.endItem_keeps | simp only [keeps_mk_iff] | split
                | intro

@[simp] theorem State.upsetCounter_keeps {qq : List Instr} {bb : Prop} (s : State) (c : Nat) (w : Fin 0x100000) (bit : Fin 18)
    (h_s : Keeps qq bb s) : Keeps qq bb (State.upsetCounter s c w bit) := by
  unfold State.upsetCounter
  try dsimp only
  repeat' first | with_reducible assumption | with_reducible apply keeps_if | with_reducible apply h_s
                | with_reducible apply State.modHst_keeps | with_reducible apply State.strike_keeps
                | with_reducible apply State.modTnd_keeps | with_reducible apply State.poisonCounter_keeps | simp only [keeps_mk_iff]
                | refine of_pair1 (by assumption) ?_ | refine of_pair2 (by assumption) ?_ | with_reducible apply flipStored_wf | split
                | intro

@[simp] theorem State.upset_keeps {qq : List Instr} {bb : Prop} (s : State) (u : UpsetAt) (h_s : Keeps qq bb s)
    : Keeps qq bb (State.upset s u) := by
  unfold State.upset
  try dsimp only
  repeat' first | with_reducible assumption | with_reducible apply keeps_if | with_reducible apply h_s
                | with_reducible apply State.modHst_keeps | with_reducible apply State.upsetSealed_keeps
                | with_reducible apply State.upsetLamp_keeps | with_reducible apply State.upsetItem_keeps
                | with_reducible apply State.upsetCounter_keeps | with_reducible apply State.modKeeper_keeps | simp only [keeps_mk_iff]
                | with_reducible apply flipArray_wf | with_reducible apply flipSpare_wf | with_reducible apply flipMerge_wf | split
                | intro

@[simp] theorem execUpset_keeps {qq : List Instr} {bb : Prop} (u : UpsetAt) (s : State) (h_s : Keeps qq bb s)
    : OutKeeps qq bb (execUpset u s) := by
  unfold execUpset
  try dsimp only
  repeat' first | with_reducible assumption | with_reducible apply OutKeeps.keeps_if | with_reducible apply h_s
                | with_reducible apply State.after_keeps | with_reducible apply State.upset_keeps | with_reducible apply OutKeeps.next
                | split | intro

end Sys2Proof.Machine
end

