-- ==== Sys2Proof/Laws/KeepModes.lean ====
section
/-! SUPPORT. `Keeps`: what the operations of modes, the boot, the supply and the tick keep. -/

namespace Sys2Proof.Machine

@[simp] theorem State.modMd_keeps {qq : List Instr} {bb : Prop} (s : State) (g : Modes → Modes) (h_s : Keeps qq bb s)
    : Keeps qq bb (State.modMd s g) := by
  unfold State.modMd
  try dsimp only
  repeat' first | with_reducible assumption | with_reducible apply keeps_if | with_reducible apply h_s | simp only [keeps_mk_iff] | split
                | intro

@[simp] theorem State.setRet_keeps {qq : List Instr} {bb : Prop} (s : State) (m : Mode) (h_s : Keeps qq bb s)
    : Keeps qq bb (State.setRet s m) := by
  unfold State.setRet
  try dsimp only
  repeat' first | with_reducible assumption | with_reducible apply keeps_if | with_reducible apply h_s
                | with_reducible apply State.modMd_keeps | split | intro

@[simp] theorem State.modeEvents_keeps {qq : List Instr} {bb : Prop} (s : State) (old : Mode) (m : Mode) (h_s : Keeps qq bb s)
    : Keeps qq bb (State.modeEvents s old m) := by
  unfold State.modeEvents
  try dsimp only
  repeat' first | with_reducible assumption | with_reducible apply keeps_if | with_reducible apply h_s
                | with_reducible apply State.postFnEvent_keeps | with_reducible apply foldl_keeps | split | intro

@[simp] theorem State.setMode_keeps {qq : List Instr} {bb : Prop} (s : State) (m : Mode) (h_s : Keeps qq bb s)
    : Keeps qq bb (State.setMode s m) := by
  unfold State.setMode
  try dsimp only
  repeat' first | with_reducible assumption | with_reducible apply keeps_if | with_reducible apply h_s
                | with_reducible apply State.modMd_keeps | with_reducible apply State.holdEngines_keeps
                | with_reducible apply State.reportLtr_keeps | with_reducible apply State.modeEvents_keeps | simp only [keeps_mk_iff]
                | split | intro

@[simp] theorem State.stopBus_keeps {qq : List Instr} {bb : Prop} (s : State) (n : Fin 16) (h_s : Keeps qq bb s)
    : Keeps qq bb (State.stopBus s n) := by
  unfold State.stopBus
  try dsimp only
  repeat' first | with_reducible assumption | with_reducible apply keeps_if | with_reducible apply h_s
                | with_reducible apply State.modPort_keeps | with_reducible apply State.finishPort_keeps | simp only [keeps_mk_iff]
                | split | intro

@[simp] theorem State.stopBuses_keeps {qq : List Instr} {bb : Prop} (s : State) (h_s : Keeps qq bb s)
    : Keeps qq bb (State.stopBuses s) := by
  unfold State.stopBuses
  try dsimp only
  repeat' first | with_reducible assumption | with_reducible apply keeps_if | with_reducible apply h_s
                | with_reducible apply State.stopBus_keeps | with_reducible apply foldl_keeps | simp only [keeps_mk_iff] | split | intro

@[simp] theorem State.startBuses_keeps {qq : List Instr} {bb : Prop} (s : State) (h_s : Keeps qq bb s)
    : Keeps qq bb (State.startBuses s) := by
  unfold State.startBuses
  try dsimp only
  repeat' first | with_reducible assumption | with_reducible apply keeps_if | with_reducible apply h_s | simp only [keeps_mk_iff] | split
                | intro

@[simp] theorem State.haltFairways_keeps {qq : List Instr} {bb : Prop} (s : State) (h_s : Keeps qq bb s)
    : Keeps qq bb (State.haltFairways s) := by
  unfold State.haltFairways
  try dsimp only
  repeat' first | with_reducible assumption | with_reducible apply keeps_if | with_reducible apply h_s
                | with_reducible apply State.modMd_keeps | with_reducible apply State.stopBuses_keeps
                | with_reducible apply State.loseTransfers_keeps | with_reducible apply foldl_keeps | split | intro

@[simp] theorem State.refuseMode_keeps {qq : List Instr} {bb : Prop} (s : State) (reason : Nat) (h_s : Keeps qq bb s)
    : Keeps qq bb (State.refuseMode s reason) := by
  unfold State.refuseMode
  try dsimp only
  repeat' first | with_reducible assumption | with_reducible apply keeps_if | with_reducible apply h_s
                | with_reducible apply State.modMd_keeps | split | intro

@[simp] theorem State.examineRequest_keeps {qq : List Instr} {bb : Prop} (s : State) (h_s : Keeps qq bb s)
    : Keeps qq bb (State.examineRequest s) := by
  unfold State.examineRequest
  try dsimp only
  repeat' first | with_reducible assumption | with_reducible apply keeps_if | with_reducible apply h_s
                | with_reducible apply State.modMd_keeps | with_reducible apply State.refuseMode_keeps | split | intro

@[simp] theorem State.writeMode_keeps {qq : List Instr} {bb : Prop} (s : State) (firmware : Bool) (code : Nat) (h_s : Keeps qq bb s)
    : Keeps qq bb (State.writeMode s firmware code) := by
  unfold State.writeMode
  try dsimp only
  repeat' first | with_reducible assumption | with_reducible apply keeps_if | with_reducible apply h_s
                | with_reducible apply State.modMd_keeps | with_reducible apply State.examineRequest_keeps | split | intro

@[simp] theorem State.modeReqBy_keeps {qq : List Instr} {bb : Prop} (s : State) (r : Requester) (code : Nat) (h_s : Keeps qq bb s)
    : Keeps qq bb (State.modeReqBy s r code) := by
  unfold State.modeReqBy
  try dsimp only
  repeat' first | with_reducible assumption | with_reducible apply keeps_if | with_reducible apply h_s
                | with_reducible apply State.writeMode_keeps | with_reducible apply State.refuse_keeps | split | intro

@[simp] theorem State.writeModeReq_keeps {qq : List Instr} {bb : Prop} (s : State) (p : Path) (v : DWord) (h_s : Keeps qq bb s)
    : Keeps qq bb (State.writeModeReq s p v) := by
  unfold State.writeModeReq
  try dsimp only
  repeat' first | with_reducible assumption | with_reducible apply keeps_if | with_reducible apply h_s
                | with_reducible apply State.accessGuarded_keeps | with_reducible apply State.modeReqBy_keeps
                | with_reducible apply State.keyConsume_keeps | with_reducible apply State.arrive_keeps | split | intro

@[simp] theorem State.recordRet_keeps {qq : List Instr} {bb : Prop} (s : State) (h_s : Keeps qq bb s)
    : Keeps qq bb (State.recordRet s) := by
  unfold State.recordRet
  try dsimp only
  repeat' first | with_reducible assumption | with_reducible apply keeps_if | with_reducible apply h_s
                | with_reducible apply State.setRet_keeps | simp only [keeps_mk_iff] | split | intro

@[simp] theorem State.going_keeps {qq : List Instr} {bb : Prop} (s : State) (m : Mode) (h_s : Keeps qq bb s)
    : Keeps qq bb (State.going s m) := by
  unfold State.going
  try dsimp only
  repeat' first | with_reducible assumption | with_reducible apply keeps_if | with_reducible apply h_s
                | with_reducible apply State.modMd_keeps | split | intro

@[simp] theorem State.beginSafe_keeps {qq : List Instr} {bb : Prop} (s : State) (cause : Nat) (h_s : Keeps qq bb s)
    : Keeps qq bb (State.beginSafe s cause) := by
  unfold State.beginSafe
  try dsimp only
  repeat' first | with_reducible assumption | with_reducible apply keeps_if | with_reducible apply h_s
                | with_reducible apply State.modMd_keeps | with_reducible apply State.going_keeps
                | with_reducible apply State.recordRet_keeps | with_reducible apply State.modHst_keeps
                | with_reducible apply State.loseAllItems_keeps | simp only [keeps_hst_eq] | with_reducible apply KeepsH.of
                | with_reducible apply drainAll_wf | exact wf_of_cells rfl rfl ‹_› | split | intro

@[simp] theorem State.beginUpdate_keeps {qq : List Instr} {bb : Prop} (s : State) (h_s : Keeps qq bb s)
    : Keeps qq bb (State.beginUpdate s) := by
  unfold State.beginUpdate
  try dsimp only
  repeat' first | with_reducible assumption | with_reducible apply keeps_if | with_reducible apply h_s
                | with_reducible apply State.modMd_keeps | with_reducible apply State.going_keeps
                | with_reducible apply State.recordRet_keeps | with_reducible apply State.modHst_keeps
                | with_reducible apply State.loseAllItems_keeps | simp only [keeps_mk_iff] | simp only [keeps_hst_eq]
                | with_reducible apply KeepsH.of | with_reducible apply drainAll_wf | exact wf_of_cells rfl rfl ‹_› | split | intro

@[simp] theorem State.beginRelight_keeps {qq : List Instr} {bb : Prop} (s : State) (h_s : Keeps qq bb s)
    : Keeps qq bb (State.beginRelight s) := by
  unfold State.beginRelight
  try dsimp only
  repeat' first | with_reducible assumption | with_reducible apply keeps_if | with_reducible apply h_s
                | with_reducible apply State.modHst_keeps | with_reducible apply State.going_keeps | simp only [keeps_hst_eq]
                | with_reducible apply KeepsH.of | with_reducible apply drainAll_wf | exact wf_of_cells rfl rfl ‹_› | split | intro

@[simp] theorem State.beginStandby_keeps {qq : List Instr} {bb : Prop} (s : State) (h_s : Keeps qq bb s)
    : Keeps qq bb (State.beginStandby s) := by
  unfold State.beginStandby
  try dsimp only
  repeat' first | with_reducible assumption | with_reducible apply keeps_if | with_reducible apply h_s
                | with_reducible apply State.dropPorts_keeps | with_reducible apply State.modMd_keeps
                | with_reducible apply State.stopBuses_keeps | with_reducible apply State.going_keeps | split | intro

@[simp] theorem State.beginNight_keeps {qq : List Instr} {bb : Prop} (s : State) (h_s : Keeps qq bb s)
    : Keeps qq bb (State.beginNight s) := by
  unfold State.beginNight
  try dsimp only
  repeat' first | with_reducible assumption | with_reducible apply keeps_if | with_reducible apply h_s
                | with_reducible apply State.dropUnretained_keeps | with_reducible apply State.modMd_keeps
                | with_reducible apply State.stopBuses_keeps | with_reducible apply State.going_keeps | split | intro

@[simp] theorem State.enterShed_keeps {qq : List Instr} {bb : Prop} (s : State) (ret : Mode) (h_s : Keeps qq bb s)
    : Keeps qq bb (State.enterShed s ret) := by
  unfold State.enterShed
  try dsimp only
  repeat' first | with_reducible assumption | with_reducible apply keeps_if | with_reducible apply h_s
                | with_reducible apply State.beginShed_keeps | with_reducible apply State.setMode_keeps
                | with_reducible apply State.setRet_keeps | split | intro

@[simp] theorem State.replaceRet_keeps {qq : List Instr} {bb : Prop} (s : State) (m : Mode) (h_s : Keeps qq bb s)
    : Keeps qq bb (State.replaceRet s m) := by
  unfold State.replaceRet
  try dsimp only
  repeat' first | with_reducible assumption | with_reducible apply keeps_if | with_reducible apply h_s
                | with_reducible apply State.modMd_keeps | with_reducible apply State.setRet_keeps
                | with_reducible apply State.stopBuses_keeps | with_reducible apply State.dropPorts_keeps
                | with_reducible apply State.dropUnretained_keeps | with_reducible apply State.startBuses_keeps | simp only [keeps_mk_iff]
                | split | intro

@[simp] theorem State.beginLeaveNight_keeps {qq : List Instr} {bb : Prop} (s : State) (h_s : Keeps qq bb s)
    : Keeps qq bb (State.beginLeaveNight s) := by
  unfold State.beginLeaveNight
  try dsimp only
  repeat' first | with_reducible assumption | with_reducible apply keeps_if | with_reducible apply h_s
                | with_reducible apply State.startBuses_keeps | with_reducible apply State.going_keeps | split | intro

@[simp] theorem State.wakeNight_keeps {qq : List Instr} {bb : Prop} (s : State) (h_s : Keeps qq bb s)
    : Keeps qq bb (State.wakeNight s) := by
  unfold State.wakeNight
  try dsimp only
  repeat' first | with_reducible assumption | with_reducible apply keeps_if | with_reducible apply h_s
                | with_reducible apply State.modMd_keeps | with_reducible apply State.beginLeaveNight_keeps | simp only [keeps_mk_iff]
                | split | intro

@[simp] theorem State.actRequest_keeps {qq : List Instr} {bb : Prop} (s : State) (h_s : Keeps qq bb s)
    : Keeps qq bb (State.actRequest s) := by
  unfold State.actRequest
  try dsimp only
  repeat' first | with_reducible assumption | with_reducible apply keeps_if | with_reducible apply h_s
                | with_reducible apply State.modMd_keeps | with_reducible apply State.replaceRet_keeps
                | with_reducible apply State.going_keeps | with_reducible apply State.setRet_keeps
                | with_reducible apply State.beginUpdate_keeps | with_reducible apply State.beginStandby_keeps
                | with_reducible apply State.beginRelight_keeps | split | intro

@[simp] theorem State.reexamine_keeps {qq : List Instr} {bb : Prop} (s : State) (h_s : Keeps qq bb s)
    : Keeps qq bb (State.reexamine s) := by
  unfold State.reexamine
  try dsimp only
  repeat' first | with_reducible assumption | with_reducible apply keeps_if | with_reducible apply h_s
                | with_reducible apply State.after_keeps | with_reducible apply State.modMd_keeps
                | with_reducible apply State.examineRequest_keeps | simp only [keeps_mk_iff] | split | intro

@[simp] theorem State.leaveShed_keeps {qq : List Instr} {bb : Prop} (s : State) (h_s : Keeps qq bb s)
    : Keeps qq bb (State.leaveShed s) := by
  unfold State.leaveShed
  try dsimp only
  repeat' first | with_reducible assumption | with_reducible apply keeps_if | with_reducible apply h_s
                | with_reducible apply State.beginUpdate_keeps | with_reducible apply State.endShed_keeps
                | with_reducible apply State.setMode_keeps | with_reducible apply State.reexamine_keeps | split | intro

@[simp] theorem State.actTriggers_keeps {qq : List Instr} {bb : Prop} (s : State) (h_s : Keeps qq bb s)
    : Keeps qq bb (State.actTriggers s) := by
  unfold State.actTriggers
  try dsimp only
  repeat' first | with_reducible assumption | with_reducible apply keeps_if | with_reducible apply h_s
                | with_reducible apply State.going_keeps | with_reducible apply State.beginSafe_keeps
                | with_reducible apply State.enterShed_keeps | with_reducible apply State.reexamine_keeps
                | with_reducible apply State.leaveShed_keeps | with_reducible apply State.wakeNight_keeps
                | with_reducible apply State.actRequest_keeps | with_reducible apply State.beginNight_keeps
                | with_reducible apply State.beginLeaveNight_keeps | with_reducible apply State.replaceRet_keeps
                | simp only [keeps_mk_iff] | split | intro

@[simp] theorem State.modBoot_keeps {qq : List Instr} {bb : Prop} (s : State) (g : Boot → Boot) (h_s : Keeps qq bb s)
    : Keeps qq bb (State.modBoot s g) := by
  unfold State.modBoot
  try dsimp only
  repeat' first | with_reducible assumption | with_reducible apply keeps_if | with_reducible apply h_s | simp only [keeps_mk_iff] | split
                | intro

@[simp] theorem State.slotResult_keeps {qq : List Instr} {bb : Prop} (s : State) (k : Fin 2) (code : Nat) (h_s : Keeps qq bb s)
    : Keeps qq bb (State.slotResult s k code) := by
  unfold State.slotResult
  try dsimp only
  repeat' first | with_reducible assumption | with_reducible apply keeps_if | with_reducible apply h_s
                | with_reducible apply State.modBoot_keeps | split | intro

@[simp] theorem State.kpr0_keeps {qq : List Instr} {bb : Prop} (s : State) (r : KRun) (h_s : Keeps qq bb s)
    : Keeps qq bb (State.kpr0 s r) := by
  unfold State.kpr0
  try dsimp only
  repeat' first | with_reducible assumption | with_reducible apply keeps_if | with_reducible apply h_s
                | with_reducible apply State.modKeeper_keeps | with_reducible apply State.modReq_keeps | simp only [keeps_mk_iff] | split
                | intro

@[simp] theorem State.bootFailed_keeps {qq : List Instr} {bb : Prop} (s : State) (h_s : Keeps qq bb s)
    : Keeps qq bb (State.bootFailed s) := by
  unfold State.bootFailed
  try dsimp only
  repeat' first | with_reducible assumption | with_reducible apply keeps_if | with_reducible apply h_s
                | with_reducible apply State.modBoot_keeps | with_reducible apply State.modLan_keeps
                | with_reducible apply State.kpr0_keeps | with_reducible apply State.setMode_keeps
                | with_reducible apply State.modMd_keeps | split | intro

@[simp] theorem State.trySlot_keeps {qq : List Instr} {bb : Prop} (s : State) (u0 : Nat) (h_s : Keeps qq bb s)
    : Keeps qq bb (State.trySlot s u0) := by
  induction u0 generalizing s with
  | zero => first | exact h_s | simp [State.trySlot, h_s]
  | succ n ih =>
    unfold State.trySlot
    try dsimp only
    repeat' first | with_reducible assumption | with_reducible apply keeps_if | with_reducible apply ih | with_reducible apply h_s
                  | with_reducible apply State.bootFailed_keeps | with_reducible apply State.emit_keeps
                  | with_reducible apply State.modBoot_keeps | with_reducible apply State.kpr0_keeps
                  | with_reducible apply State.slotResult_keeps | simp only [keeps_mk_iff] | split | intro

@[simp] theorem State.readFlash_keeps {qq : List Instr} {bb : Prop} (s : State) (fl : FlashRead) (h_s : Keeps qq bb s)
    : Keeps qq bb (State.readFlash s fl) := by
  unfold State.readFlash
  try dsimp only
  repeat' first | with_reducible assumption | with_reducible apply keeps_if | with_reducible apply h_s
                | with_reducible apply State.emit_keeps | with_reducible apply State.emitAll_keeps
                | with_reducible apply State.modBoot_keeps | simp only [keeps_mk_iff] | split | intro

@[simp] theorem State.startBoot_keeps {qq : List Instr} {bb : Prop} (s : State) (why : BootFor) (fl : FlashRead) (h_s : Keeps qq bb s)
    : Keeps qq bb (State.startBoot s why fl) := by
  unfold State.startBoot
  try dsimp only
  repeat' first | with_reducible assumption | with_reducible apply keeps_if | with_reducible apply h_s
                | with_reducible apply State.readFlash_keeps | with_reducible apply State.modBoot_keeps
                | with_reducible apply State.kpr0_keeps | with_reducible apply State.trySlot_keeps | simp only [keeps_mk_iff] | split
                | intro

@[simp] theorem State.loadBody_keeps {qq : List Instr} {bb : Prop} (s : State) (body : List Byte) (h_s : Keeps qq bb s)
    : Keeps qq bb (State.loadBody s body) := by
  unfold State.loadBody
  split
  · split
    · exact h_s
    · refine ⟨h_s.1, fun hb => ?_⟩
      apply foldl_snd_wf
      · intro a x w
        exact readBack_wf _ _ _ w
      apply foldl_wf
      · intro h x w
        exact loadBytes_wf _ _ _ w
      split
      · exact clearBank_wf _ _ (h_s.2 hb)
      · exact clearBank_wf _ _ (clearBank_wf _ _ (h_s.2 hb))
  · exact h_s

@[simp] theorem execImageBodyFetched_keeps {qq : List Instr} {bb : Prop} (body : List Byte) (s : State) (h_s : Keeps qq bb s)
    : OutKeeps qq bb (execImageBodyFetched body s) := by
  unfold execImageBodyFetched
  try dsimp only
  repeat' first | with_reducible assumption | with_reducible apply OutKeeps.keeps_if | with_reducible apply h_s
                | with_reducible apply State.after_keeps | with_reducible apply State.loadBody_keeps | with_reducible apply OutKeeps.next
                | split | intro

@[simp] theorem State.enterImage_keeps {qq : List Instr} {bb : Prop} (s : State) (k : Fin 2) (h_s : Keeps qq bb s)
    : Keeps qq bb (State.enterImage s k) := by
  unfold State.enterImage
  try dsimp only
  repeat' first | with_reducible assumption | with_reducible apply keeps_if | with_reducible apply h_s
                | with_reducible apply State.modBoot_keeps | with_reducible apply State.slotResult_keeps
                | with_reducible apply State.modKeeper_keeps | with_reducible apply State.kpr0_keeps | simp only [keeps_mk_iff] | split
                | intro

@[simp] theorem State.checkSlot_keeps {qq : List Instr} {bb : Prop} (s : State) (ok : Bool) (h_s : Keeps qq bb s)
    : Keeps qq bb (State.checkSlot s ok) := by
  unfold State.checkSlot
  try dsimp only
  repeat' first | with_reducible assumption | with_reducible apply keeps_if | with_reducible apply h_s
                | with_reducible apply State.trySlot_keeps | with_reducible apply State.slotResult_keeps
                | with_reducible apply State.enterImage_keeps | split | intro

@[simp] theorem execSignatureCheckDone_keeps {qq : List Instr} {bb : Prop} (ok : Bool) (s : State) (h_s : Keeps qq bb s)
    : OutKeeps qq bb (execSignatureCheckDone ok s) := by
  unfold execSignatureCheckDone
  try dsimp only
  repeat' first | with_reducible assumption | with_reducible apply OutKeeps.keeps_if | with_reducible apply h_s
                | with_reducible apply State.after_keeps | with_reducible apply State.checkSlot_keeps | with_reducible apply OutKeeps.next
                | split | intro

@[simp] theorem State.startIfRuns_keeps {qq : List Instr} {bb : Prop} (s : State) (h_s : Keeps qq bb s)
    : Keeps qq bb (State.startIfRuns s) := by
  unfold State.startIfRuns
  try dsimp only
  repeat' first | with_reducible assumption | with_reducible apply keeps_if | with_reducible apply h_s
                | with_reducible apply State.startBuses_keeps | split | intro

@[simp] theorem State.bootReady_keeps {qq : List Instr} {bb : Prop} (s : State) (h_s : Keeps qq bb s)
    : Keeps qq bb (State.bootReady s) := by
  unfold State.bootReady
  try dsimp only
  repeat' first | with_reducible assumption | with_reducible apply keeps_if | with_reducible apply h_s
                | with_reducible apply State.drainStores_keeps | with_reducible apply State.capture_keeps
                | with_reducible apply State.modBoot_keeps | with_reducible apply State.kpr0_keeps
                | with_reducible apply State.startIfRuns_keeps | with_reducible apply State.going_keeps | simp only [keeps_mk_iff] | split
                | intro

@[simp] theorem State.writeKprBoot_keeps {qq : List Instr} {bb : Prop} (s : State) (r : Requester) (v : DWord) (h_s : Keeps qq bb s)
    : Keeps qq bb (State.writeKprBoot s r v) := by
  unfold State.writeKprBoot
  try dsimp only
  repeat' first | with_reducible assumption | with_reducible apply keeps_if | with_reducible apply h_s
                | with_reducible apply State.bootReady_keeps | with_reducible apply State.refuse_keeps | split | intro

@[simp] theorem execBootReady_keeps {qq : List Instr} {bb : Prop} (p : Path) (s : State) (h_s : Keeps qq bb s)
    : OutKeeps qq bb (execBootReady p s) := by
  unfold execBootReady
  try dsimp only
  repeat' first | with_reducible assumption | with_reducible apply OutKeeps.keeps_if | with_reducible apply h_s
                | with_reducible apply State.after_keeps | with_reducible apply State.access_keeps
                | with_reducible apply State.writeKprBoot_keeps | with_reducible apply OutKeeps.next | split | intro

@[simp] theorem State.initTimeout_keeps {qq : List Instr} {bb : Prop} (s : State) (h_s : Keeps qq bb s)
    : Keeps qq bb (State.initTimeout s) := by
  unfold State.initTimeout
  try dsimp only
  repeat' first | with_reducible assumption | with_reducible apply keeps_if | with_reducible apply h_s
                | with_reducible apply State.drainStores_keeps | with_reducible apply State.slotResult_keeps
                | with_reducible apply State.trySlot_keeps | simp only [keeps_mk_iff] | split | intro

@[simp] theorem execInitTimeout_keeps {qq : List Instr} {bb : Prop} (s : State) (h_s : Keeps qq bb s)
    : OutKeeps qq bb (execInitTimeout s) := by
  unfold execInitTimeout
  try dsimp only
  repeat' first | with_reducible assumption | with_reducible apply OutKeeps.keeps_if | with_reducible apply h_s
                | with_reducible apply State.after_keeps | with_reducible apply State.initTimeout_keeps
                | with_reducible apply OutKeeps.next | split | intro

@[simp] theorem State.closePass_keeps {qq : List Instr} {bb : Prop} (s : State) (h_s : Keeps qq bb s)
    : Keeps qq bb (State.closePass s) := by
  unfold State.closePass
  try dsimp only
  repeat' first | with_reducible assumption | with_reducible apply keeps_if | with_reducible apply h_s
                | with_reducible apply State.endPass_keeps | with_reducible apply State.modBoot_keeps
                | with_reducible apply State.kpr0_keeps | with_reducible apply State.setMode_keeps | simp only [keeps_mk_iff] | split
                | intro

@[simp] theorem execCaptureComplete_keeps {qq : List Instr} {bb : Prop} (s : State) (h_s : Keeps qq bb s)
    : OutKeeps qq bb (execCaptureComplete s) := by
  unfold execCaptureComplete
  try dsimp only
  repeat' first | with_reducible assumption | with_reducible apply OutKeeps.keeps_if | with_reducible apply h_s
                | with_reducible apply State.after_keeps | with_reducible apply State.closePass_keeps | with_reducible apply OutKeeps.next
                | split | intro

@[simp] theorem State.writeKpr_keeps {qq : List Instr} {bb : Prop} (s : State) (r : Requester) (off : Nat) (v : DWord)
    (h_s : Keeps qq bb s) : Keeps qq bb (State.writeKpr s r off v) := by
  unfold State.writeKpr
  try dsimp only
  repeat' first | with_reducible assumption | with_reducible apply keeps_if | with_reducible apply keeps_dif | with_reducible apply h_s
                | with_reducible apply State.writeKprBoot_keeps | with_reducible apply State.managerWrite_keeps
                | with_reducible apply State.modKeeper_keeps | split | intro

@[simp] theorem execRequestStandby_keeps {qq : List Instr} {bb : Prop} (p : Path) (s : State) (h_s : Keeps qq bb s)
    : OutKeeps qq bb (execRequestStandby p s) := by
  unfold execRequestStandby
  try dsimp only
  repeat' first | with_reducible assumption | with_reducible apply OutKeeps.keeps_if | with_reducible apply h_s
                | with_reducible apply State.after_keeps | with_reducible apply State.writeModeReq_keeps
                | with_reducible apply OutKeeps.next | split | intro

@[simp] theorem execRequestLit_keeps {qq : List Instr} {bb : Prop} (p : Path) (s : State) (h_s : Keeps qq bb s)
    : OutKeeps qq bb (execRequestLit p s) := by
  unfold execRequestLit
  try dsimp only
  repeat' first | with_reducible assumption | with_reducible apply OutKeeps.keeps_if | with_reducible apply h_s
                | with_reducible apply State.after_keeps | with_reducible apply State.writeModeReq_keeps
                | with_reducible apply OutKeeps.next | split | intro

@[simp] theorem execRequestBridge_keeps {qq : List Instr} {bb : Prop} (p : Path) (s : State) (h_s : Keeps qq bb s)
    : OutKeeps qq bb (execRequestBridge p s) := by
  unfold execRequestBridge
  try dsimp only
  repeat' first | with_reducible assumption | with_reducible apply OutKeeps.keeps_if | with_reducible apply h_s
                | with_reducible apply State.after_keeps | with_reducible apply State.writeModeReq_keeps
                | with_reducible apply OutKeeps.next | split | intro

@[simp] theorem execRequestNight_keeps {qq : List Instr} {bb : Prop} (p : Path) (s : State) (h_s : Keeps qq bb s)
    : OutKeeps qq bb (execRequestNight p s) := by
  unfold execRequestNight
  try dsimp only
  repeat' first | with_reducible assumption | with_reducible apply OutKeeps.keeps_if | with_reducible apply h_s
                | with_reducible apply State.after_keeps | with_reducible apply State.writeModeReq_keeps
                | with_reducible apply OutKeeps.next | split | intro

@[simp] theorem execRequestSafe_keeps {qq : List Instr} {bb : Prop} (p : Path) (s : State) (h_s : Keeps qq bb s)
    : OutKeeps qq bb (execRequestSafe p s) := by
  unfold execRequestSafe
  try dsimp only
  repeat' first | with_reducible assumption | with_reducible apply OutKeeps.keeps_if | with_reducible apply h_s
                | with_reducible apply State.after_keeps | with_reducible apply State.writeModeReq_keeps
                | with_reducible apply OutKeeps.next | split | intro

@[simp] theorem execRequestRelight_keeps {qq : List Instr} {bb : Prop} (p : Path) (s : State) (h_s : Keeps qq bb s)
    : OutKeeps qq bb (execRequestRelight p s) := by
  unfold execRequestRelight
  try dsimp only
  repeat' first | with_reducible assumption | with_reducible apply OutKeeps.keeps_if | with_reducible apply h_s
                | with_reducible apply State.after_keeps | with_reducible apply State.writeModeReq_keeps
                | with_reducible apply OutKeeps.next | split | intro

@[simp] theorem execRequestUpdate_keeps {qq : List Instr} {bb : Prop} (p : Path) (s : State) (h_s : Keeps qq bb s)
    : OutKeeps qq bb (execRequestUpdate p s) := by
  unfold execRequestUpdate
  try dsimp only
  repeat' first | with_reducible assumption | with_reducible apply OutKeeps.keeps_if | with_reducible apply h_s
                | with_reducible apply State.after_keeps | with_reducible apply State.writeModeReq_keeps
                | with_reducible apply OutKeeps.next | split | intro

@[simp] theorem State.arriveIn_keeps {qq : List Instr} {bb : Prop} (s : State) (m : Mode) (fl : FlashRead) (h_s : Keeps qq bb s)
    : Keeps qq bb (State.arriveIn s m fl) := by
  unfold State.arriveIn
  try dsimp only
  repeat' first | with_reducible assumption | with_reducible apply keeps_if | with_reducible apply h_s
                | with_reducible apply State.beginShed_keeps | with_reducible apply State.modTnd_keeps
                | with_reducible apply State.startBoot_keeps | with_reducible apply State.kpr0_keeps | simp only [keeps_mk_iff] | split
                | intro

@[simp] theorem State.afterTransition_keeps {qq : List Instr} {bb : Prop} (s : State) (was : Mode) (h_s : Keeps qq bb s)
    : Keeps qq bb (State.afterTransition s was) := by
  unfold State.afterTransition
  try dsimp only
  repeat' first | with_reducible assumption | with_reducible apply keeps_if | with_reducible apply h_s
                | with_reducible apply State.examineRequest_keeps | with_reducible apply State.modMd_keeps
                | with_reducible apply State.reexamine_keeps | split | intro

@[simp] theorem State.endTransition_keeps {qq : List Instr} {bb : Prop} (s : State) (fl : FlashRead) (h_s : Keeps qq bb s)
    : Keeps qq bb (State.endTransition s fl) := by
  unfold State.endTransition
  try dsimp only
  repeat' first | with_reducible assumption | with_reducible apply keeps_if | with_reducible apply h_s
                | with_reducible apply State.going_keeps | with_reducible apply State.haltFairways_keeps
                | with_reducible apply State.setMode_keeps | with_reducible apply State.arriveIn_keeps
                | with_reducible apply State.afterTransition_keeps | simp only [keeps_mk_iff] | split | intro

@[simp] theorem execModeTransitionDone_keeps {qq : List Instr} {bb : Prop} (ha : FlashStart) (hb : ImageHeader) (s : State)
    (h_s : Keeps qq bb s) : OutKeeps qq bb (execModeTransitionDone ha hb s) := by
  unfold execModeTransitionDone
  try dsimp only
  repeat' first | with_reducible assumption | with_reducible apply OutKeeps.keeps_if | with_reducible apply keeps_if
                | with_reducible apply h_s | with_reducible apply State.after_keeps | with_reducible apply State.endTransition_keeps
                | with_reducible apply OutKeeps.next | split | intro

@[simp] theorem State.writeHeartbeat_keeps {qq : List Instr} {bb : Prop} (s : State) (r : Requester) (v : DWord) (h_s : Keeps qq bb s)
    : Keeps qq bb (State.writeHeartbeat s r v) := by
  unfold State.writeHeartbeat
  try dsimp only
  repeat' first | with_reducible assumption | with_reducible apply keeps_if | with_reducible apply h_s
                | with_reducible apply State.modMd_keeps | with_reducible apply State.refuse_keeps | split | intro

@[simp] theorem execHeartbeat_keeps {qq : List Instr} {bb : Prop} (k : Fin 12) (v : DWord) (s : State) (h_s : Keeps qq bb s)
    : OutKeeps qq bb (execHeartbeat k v s) := by
  unfold execHeartbeat
  try dsimp only
  repeat' first | with_reducible assumption | with_reducible apply OutKeeps.keeps_if | with_reducible apply h_s
                | with_reducible apply State.after_keeps | with_reducible apply State.access_keeps
                | with_reducible apply State.writeHeartbeat_keeps | with_reducible apply OutKeeps.next | split | intro

@[simp] theorem State.heartbeatLost_keeps {qq : List Instr} {bb : Prop} (s : State) (h_s : Keeps qq bb s)
    : Keeps qq bb (State.heartbeatLost s) := by
  unfold State.heartbeatLost
  try dsimp only
  repeat' first | with_reducible assumption | with_reducible apply keeps_if | with_reducible apply h_s
                | with_reducible apply State.modMd_keeps | split | intro

@[simp] theorem State.heartbeatFrame_keeps {qq : List Instr} {bb : Prop} (s : State) (h_s : Keeps qq bb s)
    : Keeps qq bb (State.heartbeatFrame s) := by
  unfold State.heartbeatFrame
  try dsimp only
  repeat' first | with_reducible assumption | with_reducible apply keeps_if | with_reducible apply h_s
                | with_reducible apply State.heartbeatLost_keeps | with_reducible apply State.modMd_keeps | split | intro

@[simp] theorem execHeartbeatLimitExpiry_keeps {qq : List Instr} {bb : Prop} (s : State) (h_s : Keeps qq bb s)
    : OutKeeps qq bb (execHeartbeatLimitExpiry s) := by
  unfold execHeartbeatLimitExpiry
  try dsimp only
  repeat' first | with_reducible assumption | with_reducible apply OutKeeps.keeps_if | with_reducible apply h_s
                | with_reducible apply State.after_keeps | with_reducible apply State.heartbeatLost_keeps
                | with_reducible apply OutKeeps.next | split | intro

@[simp] theorem execShedEntryFilterExpiry_keeps {qq : List Instr} {bb : Prop} (s : State) (h_s : Keeps qq bb s)
    : OutKeeps qq bb (execShedEntryFilterExpiry s) := by
  unfold execShedEntryFilterExpiry
  try dsimp only
  repeat' first | with_reducible assumption | with_reducible apply OutKeeps.keeps_if | with_reducible apply h_s
                | with_reducible apply State.after_keeps | with_reducible apply State.modMd_keeps | with_reducible apply OutKeeps.next
                | split | intro

@[simp] theorem execShedExitFilterExpiry_keeps {qq : List Instr} {bb : Prop} (s : State) (h_s : Keeps qq bb s)
    : OutKeeps qq bb (execShedExitFilterExpiry s) := by
  unfold execShedExitFilterExpiry
  try dsimp only
  repeat' first | with_reducible assumption | with_reducible apply OutKeeps.keeps_if | with_reducible apply h_s
                | with_reducible apply State.after_keeps | with_reducible apply State.modMd_keeps | with_reducible apply OutKeeps.next
                | split | intro

@[simp] theorem State.setLg_keeps {qq : List Instr} {bb : Prop} (s : State) (n : Nat) (high : Bool) (h_s : Keeps qq bb s)
    : Keeps qq bb (State.setLg s n high) := by
  unfold State.setLg
  try dsimp only
  repeat' first | with_reducible assumption | with_reducible apply keeps_if | with_reducible apply h_s | simp only [keeps_mk_iff] | split
                | intro

@[simp] theorem State.lgInput_keeps {qq : List Instr} {bb : Prop} (s : State) (n : Nat) (high : Bool) (h_s : Keeps qq bb s)
    : Keeps qq bb (State.lgInput s n high) := by
  unfold State.lgInput
  try dsimp only
  repeat' first | with_reducible assumption | with_reducible apply keeps_if | with_reducible apply h_s
                | with_reducible apply State.setLg_keeps | with_reducible apply State.wakeSource_keeps | split | intro

@[simp] theorem execLgInputChange_keeps {qq : List Instr} {bb : Prop} (n : Fin 16) (high : Bool) (s : State) (h_s : Keeps qq bb s)
    : OutKeeps qq bb (execLgInputChange n high s) := by
  unfold execLgInputChange
  try dsimp only
  repeat' first | with_reducible assumption | with_reducible apply OutKeeps.keeps_if | with_reducible apply h_s
                | with_reducible apply State.after_keeps | with_reducible apply State.lgInput_keeps | with_reducible apply OutKeeps.next
                | split | intro

@[simp] theorem execShedReqNChange_keeps {qq : List Instr} {bb : Prop} (high : Bool) (s : State) (h_s : Keeps qq bb s)
    : OutKeeps qq bb (execShedReqNChange high s) := by
  unfold execShedReqNChange
  try dsimp only
  repeat' first | with_reducible assumption | with_reducible apply OutKeeps.keeps_if | with_reducible apply h_s
                | with_reducible apply State.after_keeps | with_reducible apply State.lgInput_keeps | with_reducible apply OutKeeps.next
                | split | intro

@[simp] theorem execNightReqNChange_keeps {qq : List Instr} {bb : Prop} (high : Bool) (s : State) (h_s : Keeps qq bb s)
    : OutKeeps qq bb (execNightReqNChange high s) := by
  unfold execNightReqNChange
  try dsimp only
  repeat' first | with_reducible assumption | with_reducible apply OutKeeps.keeps_if | with_reducible apply h_s
                | with_reducible apply State.after_keeps | with_reducible apply State.lgInput_keeps | with_reducible apply OutKeeps.next
                | split | intro

@[simp] theorem execLaneWake_keeps {qq : List Instr} {bb : Prop} (s : State) (h_s : Keeps qq bb s) : OutKeeps qq bb (execLaneWake s) := by
  unfold execLaneWake
  try dsimp only
  repeat' first | with_reducible assumption | with_reducible apply OutKeeps.keeps_if | with_reducible apply h_s
                | with_reducible apply State.after_keeps | with_reducible apply State.lgInput_keeps | with_reducible apply OutKeeps.next
                | split | intro

@[simp] theorem execFrameOutFall_keeps {qq : List Instr} {bb : Prop} (s : State) (h_s : Keeps qq bb s)
    : OutKeeps qq bb (execFrameOutFall s) := by
  unfold execFrameOutFall
  try dsimp only
  repeat' first | with_reducible assumption | with_reducible apply OutKeeps.keeps_if | with_reducible apply h_s
                | with_reducible apply State.after_keeps | with_reducible apply OutKeeps.next | simp only [keeps_mk_iff] | split | intro

@[simp] theorem State.modUpd_keeps {qq : List Instr} {bb : Prop} (s : State) (g : Update → Update) (h_s : Keeps qq bb s)
    : Keeps qq bb (State.modUpd s g) := by
  unfold State.modUpd
  try dsimp only
  repeat' first | with_reducible assumption | with_reducible apply keeps_if | with_reducible apply h_s | simp only [keeps_mk_iff] | split
                | intro

@[simp] theorem State.leaveUpdate_keeps {qq : List Instr} {bb : Prop} (s : State) (result : Nat) (h_s : Keeps qq bb s)
    : Keeps qq bb (State.leaveUpdate s result) := by
  unfold State.leaveUpdate
  try dsimp only
  repeat' first | with_reducible assumption | with_reducible apply keeps_if | with_reducible apply h_s
                | with_reducible apply State.beginRelight_keeps | with_reducible apply State.modUpd_keeps | split | intro

@[simp] theorem State.updChunk_keeps {qq : List Instr} {bb : Prop} (s : State) (v : DWord) (h_s : Keeps qq bb s)
    : Keeps qq bb (State.updChunk s v) := by
  unfold State.updChunk
  try dsimp only
  repeat' first | with_reducible assumption | with_reducible apply keeps_if | with_reducible apply h_s
                | with_reducible apply State.modUpd_keeps | with_reducible apply State.emitAll_keeps | simp only [keeps_mk_iff] | split
                | intro

@[simp] theorem State.writeUpdCtl_keeps {qq : List Instr} {bb : Prop} (s : State) (r : Requester) (v : DWord) (h_s : Keeps qq bb s)
    : Keeps qq bb (State.writeUpdCtl s r v) := by
  unfold State.writeUpdCtl
  try dsimp only
  repeat' first | with_reducible assumption | with_reducible apply keeps_if | with_reducible apply h_s
                | with_reducible apply State.refuse_keeps | with_reducible apply State.modUpd_keeps
                | with_reducible apply State.leaveUpdate_keeps | with_reducible apply State.updChunk_keeps | split | intro

@[simp] theorem State.updAccess_keeps {qq : List Instr} {bb : Prop} (s : State) (p : Path) (v : DWord) (h_s : Keeps qq bb s)
    : Keeps qq bb (State.updAccess s p v) := by
  unfold State.updAccess
  try dsimp only
  repeat' first | with_reducible assumption | with_reducible apply keeps_if | with_reducible apply h_s
                | with_reducible apply State.access_keeps | with_reducible apply State.writeUpdCtl_keeps | split | intro

@[simp] theorem execUpdChunk_keeps {qq : List Instr} {bb : Prop} (p : Path) (v : DWord) (s : State) (h_s : Keeps qq bb s)
    : OutKeeps qq bb (execUpdChunk p v s) := by
  unfold execUpdChunk
  try dsimp only
  repeat' first | with_reducible assumption | with_reducible apply OutKeeps.keeps_if | with_reducible apply h_s
                | with_reducible apply State.after_keeps | with_reducible apply State.updAccess_keeps | with_reducible apply OutKeeps.next
                | split | intro

@[simp] theorem execUpdFinal_keeps {qq : List Instr} {bb : Prop} (p : Path) (v : DWord) (s : State) (h_s : Keeps qq bb s)
    : OutKeeps qq bb (execUpdFinal p v s) := by
  unfold execUpdFinal
  try dsimp only
  repeat' first | with_reducible assumption | with_reducible apply OutKeeps.keeps_if | with_reducible apply h_s
                | with_reducible apply State.after_keeps | with_reducible apply State.updAccess_keeps | with_reducible apply OutKeeps.next
                | split | intro

@[simp] theorem execUpdAbandon_keeps {qq : List Instr} {bb : Prop} (p : Path) (v : DWord) (s : State) (h_s : Keeps qq bb s)
    : OutKeeps qq bb (execUpdAbandon p v s) := by
  unfold execUpdAbandon
  try dsimp only
  repeat' first | with_reducible assumption | with_reducible apply OutKeeps.keeps_if | with_reducible apply h_s
                | with_reducible apply State.after_keeps | with_reducible apply State.updAccess_keeps | with_reducible apply OutKeeps.next
                | split | intro

@[simp] theorem State.chunkProgrammed_keeps {qq : List Instr} {bb : Prop} (s : State) (flashOk : Bool) (h : ImageHeader) (sigOk : Bool)
    (h_s : Keeps qq bb s) : Keeps qq bb (State.chunkProgrammed s flashOk h sigOk) := by
  unfold State.chunkProgrammed
  try dsimp only
  repeat' first | with_reducible assumption | with_reducible apply keeps_if | with_reducible apply h_s
                | with_reducible apply State.modUpd_keeps | with_reducible apply State.leaveUpdate_keeps | split | intro

@[simp] theorem execUpdChunkProgrammed_keeps {qq : List Instr} {bb : Prop} (flashOk : Bool) (h : ImageHeader) (sigOk : Bool) (s : State)
    (h_s : Keeps qq bb s) : OutKeeps qq bb (execUpdChunkProgrammed flashOk h sigOk s) := by
  unfold execUpdChunkProgrammed
  try dsimp only
  repeat' first | with_reducible assumption | with_reducible apply OutKeeps.keeps_if | with_reducible apply h_s
                | with_reducible apply State.after_keeps | with_reducible apply State.chunkProgrammed_keeps
                | with_reducible apply OutKeeps.next | split | intro

@[simp] theorem execFlashBusyTimeout_keeps {qq : List Instr} {bb : Prop} (s : State) (h_s : Keeps qq bb s)
    : OutKeeps qq bb (execFlashBusyTimeout s) := by
  unfold execFlashBusyTimeout
  try dsimp only
  repeat' first | with_reducible assumption | with_reducible apply OutKeeps.keeps_if | with_reducible apply h_s
                | with_reducible apply State.after_keeps | with_reducible apply State.modUpd_keeps | with_reducible apply OutKeeps.next
                | split | intro

@[simp] theorem State.writeSup_keeps {qq : List Instr} {bb : Prop} (s : State) (r : Requester) (off : Nat) (v : DWord)
    (h_s : Keeps qq bb s) : Keeps qq bb (State.writeSup s r off v) := by
  unfold State.writeSup
  try dsimp only
  repeat' first | with_reducible assumption | with_reducible apply keeps_if | with_reducible apply keeps_dif | with_reducible apply h_s
                | with_reducible apply State.sealedWrite_keeps | with_reducible apply State.modMd_keeps
                | with_reducible apply State.writeHeartbeat_keeps | with_reducible apply State.writeUpdCtl_keeps | split | intro

@[simp] theorem State.unfitPort_keeps {qq : List Instr} {bb : Prop} (s : State) (n : Fin 16) (h_s : Keeps qq bb s)
    : Keeps qq bb (State.unfitPort s n) := by
  unfold State.unfitPort
  try dsimp only
  repeat' first | with_reducible assumption | with_reducible apply keeps_if | with_reducible apply h_s
                | with_reducible apply State.leavePartner_keeps | split | intro

@[simp] theorem State.unfitLink_keeps {qq : List Instr} {bb : Prop} (s : State) (l : Link) (h_s : Keeps qq bb s)
    : Keeps qq bb (State.unfitLink s l) := by
  unfold State.unfitLink
  try dsimp only
  repeat' first | with_reducible assumption | with_reducible apply keeps_if | with_reducible apply h_s
                | with_reducible apply State.loseLink_keeps | split | intro

@[simp] theorem State.writeFit_keeps {qq : List Instr} {bb : Prop} (s : State) (r : Requester) (v : DWord) (h_s : Keeps qq bb s)
    : Keeps qq bb (State.writeFit s r v) := by
  unfold State.writeFit
  try dsimp only
  repeat' first | with_reducible assumption | with_reducible apply keeps_if | with_reducible apply h_s
                | with_reducible apply State.sealedWrite_keeps | with_reducible apply State.unfitPort_keeps
                | with_reducible apply State.unfitLink_keeps | with_reducible apply foldl_keeps | simp only [keeps_mk_iff] | split | intro

@[simp] theorem execTopFitWrite_keeps {qq : List Instr} {bb : Prop} (p : Path) (v : DWord) (s : State) (h_s : Keeps qq bb s)
    : OutKeeps qq bb (execTopFitWrite p v s) := by
  unfold execTopFitWrite
  try dsimp only
  repeat' first | with_reducible assumption | with_reducible apply OutKeeps.keeps_if | with_reducible apply h_s
                | with_reducible apply State.after_keeps | with_reducible apply State.access_keeps
                | with_reducible apply State.writeFit_keeps | with_reducible apply OutKeeps.next | split | intro

@[simp] theorem State.writeLgOut_keeps {qq : List Instr} {bb : Prop} (s : State) (r : Requester) (v : DWord) (h_s : Keeps qq bb s)
    : Keeps qq bb (State.writeLgOut s r v) := by
  unfold State.writeLgOut
  try dsimp only
  repeat' first | with_reducible assumption | with_reducible apply keeps_if | with_reducible apply h_s
                | with_reducible apply State.refuse_keeps | simp only [keeps_mk_iff] | split | intro

@[simp] theorem execTopLgOutWrite_keeps {qq : List Instr} {bb : Prop} (p : Path) (v : DWord) (s : State) (h_s : Keeps qq bb s)
    : OutKeeps qq bb (execTopLgOutWrite p v s) := by
  unfold execTopLgOutWrite
  try dsimp only
  repeat' first | with_reducible assumption | with_reducible apply OutKeeps.keeps_if | with_reducible apply h_s
                | with_reducible apply State.after_keeps | with_reducible apply State.access_keeps
                | with_reducible apply State.writeLgOut_keeps | with_reducible apply OutKeeps.next | split | intro

@[simp] theorem State.writeTop_keeps {qq : List Instr} {bb : Prop} (s : State) (r : Requester) (off : Nat) (v : DWord)
    (h_s : Keeps qq bb s) : Keeps qq bb (State.writeTop s r off v) := by
  unfold State.writeTop
  try dsimp only
  repeat' first | with_reducible assumption | with_reducible apply keeps_if | with_reducible apply keeps_dif | with_reducible apply h_s
                | with_reducible apply State.writeFit_keeps | with_reducible apply State.sealedWrite_keeps
                | with_reducible apply State.writeLgOut_keeps | with_reducible apply State.refuse_keeps
                | with_reducible apply State.primaryWrite_keeps | simp only [keeps_mk_iff] | split
                | intro

@[simp] theorem State.modSup_keeps {qq : List Instr} {bb : Prop} (s : State) (g : Supply → Supply) (h_s : Keeps qq bb s)
    : Keeps qq bb (State.modSup s g) := by
  unfold State.modSup
  try dsimp only
  repeat' first | with_reducible assumption | with_reducible apply keeps_if | with_reducible apply h_s | simp only [keeps_mk_iff] | split
                | intro

@[simp] theorem State.enterDark_keeps {qq : List Instr} {bb : Prop} (s : State) (h_s : Keeps qq bb s)
    : Keeps qq bb (State.enterDark s) := by
  exact ⟨h_s.1, fun _ => rfl⟩

@[simp] theorem State.darkFor_keeps {qq : List Instr} {bb : Prop} (s : State) (cause : Nat) (h_s : Keeps qq bb s)
    : Keeps qq bb (State.darkFor s cause) := by
  unfold State.darkFor
  try dsimp only
  repeat' first | with_reducible assumption | with_reducible apply keeps_if | with_reducible apply h_s
                | with_reducible apply State.enterDark_keeps | with_reducible apply State.modSup_keeps | split | intro

@[simp] theorem State.railFault_keeps {qq : List Instr} {bb : Prop} (s : State) (r : Rail) (h_s : Keeps qq bb s)
    : Keeps qq bb (State.railFault s r) := by
  unfold State.railFault
  try dsimp only
  repeat' first | with_reducible assumption | with_reducible apply keeps_if | with_reducible apply h_s
                | with_reducible apply State.enterDark_keeps | with_reducible apply State.modSup_keeps | split | intro

@[simp] theorem execVinRise_keeps {qq : List Instr} {bb : Prop} (s : State) (h_s : Keeps qq bb s) : OutKeeps qq bb (execVinRise s) := by
  unfold execVinRise
  try dsimp only
  repeat' first | with_reducible assumption | with_reducible apply OutKeeps.keeps_if | with_reducible apply h_s
                | with_reducible apply State.after_keeps | with_reducible apply State.modSup_keeps | with_reducible apply OutKeeps.next
                | split | intro

@[simp] theorem State.vinFall_keeps {qq : List Instr} {bb : Prop} (s : State) (h_s : Keeps qq bb s) : Keeps qq bb (State.vinFall s) := by
  unfold State.vinFall
  try dsimp only
  repeat' first | with_reducible assumption | with_reducible apply keeps_if | with_reducible apply h_s
                | with_reducible apply State.modSup_keeps | with_reducible apply State.enterDark_keeps
                | with_reducible apply State.darkFor_keeps | split | intro

@[simp] theorem execVinUvloFall_keeps {qq : List Instr} {bb : Prop} (s : State) (h_s : Keeps qq bb s)
    : OutKeeps qq bb (execVinUvloFall s) := by
  unfold execVinUvloFall
  try dsimp only
  repeat' first | with_reducible assumption | with_reducible apply OutKeeps.keeps_if | with_reducible apply h_s
                | with_reducible apply State.after_keeps | with_reducible apply State.vinFall_keeps | with_reducible apply OutKeeps.next
                | split | intro

@[simp] theorem execVinHighChange_keeps {qq : List Instr} {bb : Prop} (high : Bool) (s : State) (h_s : Keeps qq bb s)
    : OutKeeps qq bb (execVinHighChange high s) := by
  unfold execVinHighChange
  try dsimp only
  repeat' first | with_reducible assumption | with_reducible apply OutKeeps.keeps_if | with_reducible apply h_s
                | with_reducible apply State.after_keeps | with_reducible apply State.modSup_keeps | with_reducible apply OutKeeps.next
                | split | intro

@[simp] theorem execPuVbusValidRise_keeps {qq : List Instr} {bb : Prop} (s : State) (h_s : Keeps qq bb s)
    : OutKeeps qq bb (execPuVbusValidRise s) := by
  unfold execPuVbusValidRise
  try dsimp only
  repeat' first | with_reducible assumption | with_reducible apply OutKeeps.keeps_if | with_reducible apply h_s
                | with_reducible apply State.after_keeps | with_reducible apply State.modSup_keeps | with_reducible apply OutKeeps.next
                | split | intro

@[simp] theorem State.puFall_keeps {qq : List Instr} {bb : Prop} (s : State) (h_s : Keeps qq bb s) : Keeps qq bb (State.puFall s) := by
  unfold State.puFall
  try dsimp only
  repeat' first | with_reducible assumption | with_reducible apply keeps_if | with_reducible apply h_s
                | with_reducible apply State.modSup_keeps | with_reducible apply State.enterDark_keeps | simp only [keeps_mk_iff] | split
                | intro

@[simp] theorem execPuVbusValidFall_keeps {qq : List Instr} {bb : Prop} (s : State) (h_s : Keeps qq bb s)
    : OutKeeps qq bb (execPuVbusValidFall s) := by
  unfold execPuVbusValidFall
  try dsimp only
  repeat' first | with_reducible assumption | with_reducible apply OutKeeps.keeps_if | with_reducible apply h_s
                | with_reducible apply State.after_keeps | with_reducible apply State.puFall_keeps | with_reducible apply OutKeeps.next
                | split | intro

@[simp] theorem State.vbiasLost_keeps {qq : List Instr} {bb : Prop} (s : State) (h_s : Keeps qq bb s)
    : Keeps qq bb (State.vbiasLost s) := by
  unfold State.vbiasLost
  try dsimp only
  repeat' first | with_reducible assumption | with_reducible apply keeps_if | with_reducible apply h_s
                | with_reducible apply State.enterDark_keeps | simp only [keeps_mk_iff] | split | intro

@[simp] theorem execVbiasUvlo_keeps {qq : List Instr} {bb : Prop} (s : State) (h_s : Keeps qq bb s) : OutKeeps qq bb (execVbiasUvlo s) := by
  unfold execVbiasUvlo
  try dsimp only
  repeat' first | with_reducible assumption | with_reducible apply OutKeeps.keeps_if | with_reducible apply h_s
                | with_reducible apply State.after_keeps | with_reducible apply State.vbiasLost_keeps | with_reducible apply OutKeeps.next
                | split | intro

@[simp] theorem execPowerOnResetRelease_keeps {qq : List Instr} {bb : Prop} (s : State) (h_s : Keeps qq bb s)
    : OutKeeps qq bb (execPowerOnResetRelease s) := by
  unfold execPowerOnResetRelease
  try dsimp only
  repeat' first | with_reducible assumption | with_reducible apply OutKeeps.keeps_if | with_reducible apply h_s
                | with_reducible apply State.after_keeps | with_reducible apply State.modSup_keeps | with_reducible apply OutKeeps.next
                | split | intro

@[simp] theorem State.openSink_keeps {qq : List Instr} {bb : Prop} (s : State) (h_s : Keeps qq bb s)
    : Keeps qq bb (State.openSink s) := by
  unfold State.openSink
  try dsimp only
  repeat' first | with_reducible assumption | with_reducible apply keeps_if | with_reducible apply h_s | simp only [keeps_mk_iff] | split
                | intro

@[simp] theorem State.sampleStraps_keeps {qq : List Instr} {bb : Prop} (s : State) (x : StrapSample) (h_s : Keeps qq bb s)
    : Keeps qq bb (State.sampleStraps s x) := by
  unfold State.sampleStraps
  try dsimp only
  repeat' first | with_reducible assumption | with_reducible apply keeps_if | with_reducible apply h_s
                | with_reducible apply State.modSup_keeps | with_reducible apply State.modLan_keeps
                | with_reducible apply State.openSink_keeps | simp only [keeps_mk_iff] | split | intro

@[simp] theorem execStrapSample_keeps {qq : List Instr} {bb : Prop} (a : StrapSample) (b : StrapSample) (c : StrapSample) (s : State)
    (h_s : Keeps qq bb s) : OutKeeps qq bb (execStrapSample a b c s) := by
  unfold execStrapSample
  try dsimp only
  repeat' first | with_reducible assumption | with_reducible apply OutKeeps.keeps_if | with_reducible apply keeps_if
                | with_reducible apply h_s | with_reducible apply State.after_keeps | with_reducible apply State.sampleStraps_keeps
                | with_reducible apply OutKeeps.next | split | intro

@[simp] theorem execRailSequenceStart_keeps {qq : List Instr} {bb : Prop} (s : State) (h_s : Keeps qq bb s)
    : OutKeeps qq bb (execRailSequenceStart s) := by
  unfold execRailSequenceStart
  try dsimp only
  repeat' first | with_reducible assumption | with_reducible apply OutKeeps.keeps_if | with_reducible apply keeps_if
                | with_reducible apply h_s | with_reducible apply State.after_keeps | with_reducible apply State.openSink_keeps
                | with_reducible apply State.modSup_keeps | with_reducible apply OutKeeps.next | simp only [keeps_mk_iff] | split | intro

@[simp] theorem State.pgRise_keeps {qq : List Instr} {bb : Prop} (s : State) (r : Rail) (h_s : Keeps qq bb s)
    : Keeps qq bb (State.pgRise s r) := by
  unfold State.pgRise
  try dsimp only
  repeat' first | with_reducible assumption | with_reducible apply keeps_if | with_reducible apply h_s
                | with_reducible apply State.modSup_keeps | split | intro

@[simp] theorem execPowerGoodRise_keeps {qq : List Instr} {bb : Prop} (r : Rail) (s : State) (h_s : Keeps qq bb s)
    : OutKeeps qq bb (execPowerGoodRise r s) := by
  unfold execPowerGoodRise
  try dsimp only
  repeat' first | with_reducible assumption | with_reducible apply OutKeeps.keeps_if | with_reducible apply h_s
                | with_reducible apply State.after_keeps | with_reducible apply State.pgRise_keeps | with_reducible apply OutKeeps.next
                | split | intro

@[simp] theorem execEnableDelayExpiry_keeps {qq : List Instr} {bb : Prop} (s : State) (h_s : Keeps qq bb s)
    : OutKeeps qq bb (execEnableDelayExpiry s) := by
  unfold execEnableDelayExpiry
  try dsimp only
  repeat' first | with_reducible assumption | with_reducible apply OutKeeps.keeps_if | with_reducible apply h_s
                | with_reducible apply State.after_keeps | with_reducible apply State.modSup_keeps | with_reducible apply OutKeeps.next
                | split | intro

@[simp] theorem execPowerGoodWindowExpiry_keeps {qq : List Instr} {bb : Prop} (s : State) (h_s : Keeps qq bb s)
    : OutKeeps qq bb (execPowerGoodWindowExpiry s) := by
  unfold execPowerGoodWindowExpiry
  try dsimp only
  repeat' first | with_reducible assumption | with_reducible apply OutKeeps.keeps_if | with_reducible apply h_s
                | with_reducible apply State.after_keeps | with_reducible apply State.railFault_keeps | with_reducible apply OutKeeps.next
                | split | intro

@[simp] theorem State.pgFall_keeps {qq : List Instr} {bb : Prop} (s : State) (r : Rail) (h_s : Keeps qq bb s)
    : Keeps qq bb (State.pgFall s r) := by
  unfold State.pgFall
  try dsimp only
  repeat' first | with_reducible assumption | with_reducible apply keeps_if | with_reducible apply h_s
                | with_reducible apply State.railFault_keeps | with_reducible apply State.modSup_keeps | split | intro

@[simp] theorem execPowerGoodFall_keeps {qq : List Instr} {bb : Prop} (r : Rail) (s : State) (h_s : Keeps qq bb s)
    : OutKeeps qq bb (execPowerGoodFall r s) := by
  unfold execPowerGoodFall
  try dsimp only
  repeat' first | with_reducible assumption | with_reducible apply OutKeeps.keeps_if | with_reducible apply h_s
                | with_reducible apply State.after_keeps | with_reducible apply State.pgFall_keeps | with_reducible apply OutKeeps.next
                | split | intro

@[simp] theorem execRailFaultRetry_keeps {qq : List Instr} {bb : Prop} (s : State) (h_s : Keeps qq bb s)
    : OutKeeps qq bb (execRailFaultRetry s) := by
  unfold execRailFaultRetry
  try dsimp only
  repeat' first | with_reducible assumption | with_reducible apply OutKeeps.keeps_if | with_reducible apply h_s
                | with_reducible apply State.after_keeps | with_reducible apply State.modSup_keeps | with_reducible apply OutKeeps.next
                | split | intro

@[simp] theorem execPowerDownStep_keeps {qq : List Instr} {bb : Prop} (s : State) (h_s : Keeps qq bb s)
    : OutKeeps qq bb (execPowerDownStep s) := by
  unfold execPowerDownStep
  try dsimp only
  repeat' first | with_reducible assumption | with_reducible apply OutKeeps.keeps_if | with_reducible apply h_s
                | with_reducible apply State.after_keeps | with_reducible apply State.modSup_keeps | with_reducible apply OutKeeps.next
                | split | intro

@[simp] theorem State.calibrate_keeps {qq : List Instr} {bb : Prop} (s : State) (h_s : Keeps qq bb s)
    : Keeps qq bb (State.calibrate s) := by
  unfold State.calibrate
  try dsimp only
  repeat' first | with_reducible assumption | with_reducible apply keeps_if | with_reducible apply h_s
                | with_reducible apply State.modFairway_keeps | with_reducible apply foldl_keeps | split | intro

@[simp] theorem State.startBeacon_keeps {qq : List Instr} {bb : Prop} (s : State) (h_s : Keeps qq bb s)
    : Keeps qq bb (State.startBeacon s) := by
  unfold State.startBeacon
  try dsimp only
  repeat' first | with_reducible assumption | with_reducible apply keeps_if | with_reducible apply h_s | simp only [keeps_mk_iff] | split
                | intro

@[simp] theorem State.beginKindle_keeps {qq : List Instr} {bb : Prop} (s : State) (fl : FlashRead) (h_s : Keeps qq bb s)
    : Keeps qq bb (State.beginKindle s fl) := by
  unfold State.beginKindle
  try dsimp only
  repeat' first | with_reducible assumption | with_reducible apply keeps_if | with_reducible apply h_s
                | with_reducible apply State.modHst_keeps | with_reducible apply State.setMode_keeps
                | with_reducible apply State.startBeacon_keeps | with_reducible apply State.calibrate_keeps
                | with_reducible apply State.startBoot_keeps | simp only [keeps_mk_iff] | with_reducible apply clearBank_wf | split
                | intro

@[simp] theorem State.release__keeps {qq : List Instr} {bb : Prop} (s : State) (cal : BitVec 4) (calPu : Bool) (fl : FlashRead)
    (h_s : Keeps qq bb s) : Keeps qq bb (State.release_ s cal calPu fl) := by
  unfold State.release_
  try dsimp only
  repeat' first | with_reducible assumption | with_reducible apply keeps_if | with_reducible apply h_s
                | with_reducible apply State.modSup_keeps | with_reducible apply State.setMode_keeps
                | with_reducible apply State.startBeacon_keeps | with_reducible apply State.calibrate_keeps
                | with_reducible apply State.kpr0_keeps | with_reducible apply State.modHst_keeps
                | with_reducible apply State.startBoot_keeps | with_reducible apply State.beginKindle_keeps | simp only [keeps_mk_iff]
                | with_reducible apply clearBank_wf | split | intro

@[simp] theorem execCrystalStable_keeps {qq : List Instr} {bb : Prop} (cal : BitVec 4) (calPu : Bool) (ha : FlashStart)
    (hb : ImageHeader) (s : State) (h_s : Keeps qq bb s) : OutKeeps qq bb (execCrystalStable cal calPu ha hb s) := by
  unfold execCrystalStable
  try dsimp only
  repeat' first | with_reducible assumption | with_reducible apply OutKeeps.keeps_if | with_reducible apply keeps_if
                | with_reducible apply h_s | with_reducible apply State.after_keeps | with_reducible apply State.release__keeps
                | with_reducible apply OutKeeps.next | split | intro

@[simp] theorem execCrystalStartTimeout_keeps {qq : List Instr} {bb : Prop} (s : State) (h_s : Keeps qq bb s)
    : OutKeeps qq bb (execCrystalStartTimeout s) := by
  unfold execCrystalStartTimeout
  try dsimp only
  repeat' first | with_reducible assumption | with_reducible apply OutKeeps.keeps_if | with_reducible apply h_s
                | with_reducible apply State.after_keeps | with_reducible apply State.railFault_keeps | with_reducible apply OutKeeps.next
                | split | intro

@[simp] theorem execCrystalStop_keeps {qq : List Instr} {bb : Prop} (s : State) (h_s : Keeps qq bb s)
    : OutKeeps qq bb (execCrystalStop s) := by
  unfold execCrystalStop
  try dsimp only
  repeat' first | with_reducible assumption | with_reducible apply OutKeeps.keeps_if | with_reducible apply h_s
                | with_reducible apply State.after_keeps | with_reducible apply State.railFault_keeps | with_reducible apply OutKeeps.next
                | split | intro

@[simp] theorem execPllLockLoss_keeps {qq : List Instr} {bb : Prop} (s : State) (h_s : Keeps qq bb s)
    : OutKeeps qq bb (execPllLockLoss s) := by
  unfold execPllLockLoss
  try dsimp only
  repeat' first | with_reducible assumption | with_reducible apply OutKeeps.keeps_if | with_reducible apply h_s
                | with_reducible apply State.after_keeps | with_reducible apply State.railFault_keeps | with_reducible apply OutKeeps.next
                | split | intro

@[simp] theorem State.resetFall_keeps {qq : List Instr} {bb : Prop} (s : State) (h_s : Keeps qq bb s)
    : Keeps qq bb (State.resetFall s) := by
  unfold State.resetFall
  try dsimp only
  repeat' first | with_reducible assumption | with_reducible apply keeps_if | with_reducible apply h_s
                | with_reducible apply State.modSup_keeps | with_reducible apply State.darkFor_keeps
                | with_reducible apply State.enterDark_keeps | split | intro

@[simp] theorem execResetNLow_keeps {qq : List Instr} {bb : Prop} (s : State) (h_s : Keeps qq bb s) : OutKeeps qq bb (execResetNLow s) := by
  unfold execResetNLow
  try dsimp only
  repeat' first | with_reducible assumption | with_reducible apply OutKeeps.keeps_if | with_reducible apply h_s
                | with_reducible apply State.after_keeps | with_reducible apply State.resetFall_keeps | with_reducible apply OutKeeps.next
                | split | intro

@[simp] theorem execResetNRise_keeps {qq : List Instr} {bb : Prop} (s : State) (h_s : Keeps qq bb s)
    : OutKeeps qq bb (execResetNRise s) := by
  unfold execResetNRise
  try dsimp only
  repeat' first | with_reducible assumption | with_reducible apply OutKeeps.keeps_if | with_reducible apply h_s
                | with_reducible apply State.after_keeps | with_reducible apply State.modSup_keeps | with_reducible apply OutKeeps.next
                | split | intro

@[simp] theorem execWickOvercurrent_keeps {qq : List Instr} {bb : Prop} (s : State) (h_s : Keeps qq bb s)
    : OutKeeps qq bb (execWickOvercurrent s) := by
  unfold execWickOvercurrent
  try dsimp only
  repeat' first | with_reducible assumption | with_reducible apply OutKeeps.keeps_if | with_reducible apply keeps_if
                | with_reducible apply h_s | with_reducible apply State.after_keeps | with_reducible apply State.modSup_keeps
                | with_reducible apply State.enterDark_keeps | with_reducible apply OutKeeps.next | simp only [keeps_mk_iff] | split
                | intro

@[simp] theorem State.releasePullup_keeps {qq : List Instr} {bb : Prop} (s : State) (h_s : Keeps qq bb s)
    : Keeps qq bb (State.releasePullup s) := by
  unfold State.releasePullup
  try dsimp only
  repeat' first | with_reducible assumption | with_reducible apply keeps_if | with_reducible apply h_s
                | with_reducible apply State.modLan_keeps | with_reducible apply State.lanClear_keeps | split | intro

@[simp] theorem State.endWick_keeps {qq : List Instr} {bb : Prop} (s : State) (fl : FlashRead) (h_s : Keeps qq bb s)
    : Keeps qq bb (State.endWick s fl) := by
  unfold State.endWick
  try dsimp only
  repeat' first | with_reducible assumption | with_reducible apply keeps_if | with_reducible apply h_s
                | with_reducible apply State.modSup_keeps | with_reducible apply State.releasePullup_keeps
                | with_reducible apply State.kpr0_keeps | with_reducible apply State.beginKindle_keeps | simp only [keeps_mk_iff] | split
                | intro

@[simp] theorem execWickVinFilterExpiry_keeps {qq : List Instr} {bb : Prop} (ha : FlashStart) (hb : ImageHeader) (s : State)
    (h_s : Keeps qq bb s) : OutKeeps qq bb (execWickVinFilterExpiry ha hb s) := by
  unfold execWickVinFilterExpiry
  try dsimp only
  repeat' first | with_reducible assumption | with_reducible apply OutKeeps.keeps_if | with_reducible apply keeps_if
                | with_reducible apply h_s | with_reducible apply State.after_keeps | with_reducible apply State.endWick_keeps
                | with_reducible apply OutKeeps.next | split | intro

@[simp] theorem State.countTick_keeps {qq : List Instr} {bb : Prop} (s : State) (h_s : Keeps qq bb s)
    : Keeps qq bb (State.countTick s) := by
  unfold State.countTick
  try dsimp only
  repeat' first | with_reducible assumption | with_reducible apply keeps_if | with_reducible apply h_s | simp only [keeps_mk_iff] | split
                | intro

@[simp] theorem State.freezeTick_keeps {qq : List Instr} {bb : Prop} (s : State) (h_s : Keeps qq bb s)
    : Keeps qq bb (State.freezeTick s) := by
  unfold State.freezeTick
  try dsimp only
  repeat' first | with_reducible assumption | with_reducible apply keeps_if | with_reducible apply h_s | simp only [keeps_mk_iff] | split
                | intro

@[simp] theorem State.measure_keeps {qq : List Instr} {bb : Prop} (s : State) (env : TickEnv) (h_s : Keeps qq bb s)
    : Keeps qq bb (State.measure s env) := by
  unfold State.measure
  try dsimp only
  repeat' first | with_reducible assumption | with_reducible apply keeps_if | with_reducible apply h_s
                | with_reducible apply State.modMoor_keeps | with_reducible apply State.modSector_keeps | with_reducible apply foldl_keeps
                | simp only [keeps_mk_iff] | split | intro

@[simp] theorem State.messageDue_keeps {qq : List Instr} {bb : Prop} (s : State) (f : Func) (i : Fin 4) (h_s : Keeps qq bb s)
    : Keeps qq bb (State.messageDue s f i) := by
  unfold State.messageDue
  try dsimp only
  repeat' first | with_reducible assumption | with_reducible apply keeps_if | with_reducible apply h_s
                | with_reducible apply State.sendMessage_keeps | with_reducible apply State.modEvRing_keeps | simp only [keeps_mk_iff]
                | split | intro

@[simp] theorem State.moderate_keeps {qq : List Instr} {bb : Prop} (s : State) (n : Nat) (f : Func) (i : Fin 4) (h_s : Keeps qq bb s)
    : Keeps qq bb (State.moderate s n f i) := by
  unfold State.moderate
  try dsimp only
  repeat' first | with_reducible assumption | with_reducible apply keeps_if | with_reducible apply h_s
                | with_reducible apply State.modEvRing_keeps | with_reducible apply State.messageDue_keeps | simp only [keeps_mk_iff]
                | split | intro

@[simp] theorem State.moderateAll_keeps {qq : List Instr} {bb : Prop} (s : State) (n : Nat) (h_s : Keeps qq bb s)
    : Keeps qq bb (State.moderateAll s n) := by
  unfold State.moderateAll
  try dsimp only
  repeat' first | with_reducible assumption | with_reducible apply keeps_if | with_reducible apply h_s
                | with_reducible apply State.moderate_keeps | with_reducible apply foldl_keeps | split | intro

@[simp] theorem State.limitsAt_keeps {qq : List Instr} {bb : Prop} (s : State) (h_s : Keeps qq bb s) : Keeps qq bb (State.limitsAt s) := by
  unfold State.limitsAt
  try dsimp only
  repeat' first | with_reducible assumption | with_reducible apply keeps_if | with_reducible apply h_s
                | with_reducible apply State.keyTick_keeps | with_reducible apply State.watchKeeper_keeps
                | with_reducible apply foldl_keeps | split | intro

@[simp] theorem State.modesAt_keeps {qq : List Instr} {bb : Prop} (s : State) (h_s : Keeps qq bb s) : Keeps qq bb (State.modesAt s) := by
  unfold State.modesAt
  try dsimp only
  repeat' first | with_reducible assumption | with_reducible apply keeps_if | with_reducible apply h_s
                | with_reducible apply State.heartbeatFrame_keeps | with_reducible apply State.haltFairways_keeps
                | with_reducible apply State.actTriggers_keeps | split | intro

@[simp] theorem State.sendSof_keeps {qq : List Instr} {bb : Prop} (s : State) (n : Fin 16) (h_s : Keeps qq bb s)
    : Keeps qq bb (State.sendSof s n) := by
  unfold State.sendSof
  try dsimp only
  repeat' first | with_reducible assumption | with_reducible apply keeps_if | with_reducible apply h_s
                | with_reducible apply State.emit_keeps | simp only [keeps_mk_iff] | split | intro

@[simp] theorem State.startFrames_keeps {qq : List Instr} {bb : Prop} (s : State) (h_s : Keeps qq bb s)
    : Keeps qq bb (State.startFrames s) := by
  unfold State.startFrames
  try dsimp only
  repeat' first | with_reducible assumption | with_reducible apply keeps_if | with_reducible apply h_s
                | with_reducible apply State.suspendTicks_keeps | with_reducible apply State.stopBuses_keeps
                | with_reducible apply State.sendSof_keeps | with_reducible apply foldl_keeps | simp only [keeps_mk_iff] | split | intro

@[simp] theorem State.tick_keeps {qq : List Instr} {bb : Prop} (s : State) (env : TickEnv) (h_s : Keeps qq bb s)
    : Keeps qq bb (State.tick s env) := by
  unfold State.tick
  try dsimp only
  repeat' first | with_reducible assumption | with_reducible apply keeps_if | with_reducible apply h_s
                | with_reducible apply State.cutOff_keeps | with_reducible apply State.countTick_keeps
                | with_reducible apply State.measure_keeps | with_reducible apply State.freezeTick_keeps
                | with_reducible apply State.lampStep_keeps | with_reducible apply State.ptmCapture_keeps
                | with_reducible apply State.modesAt_keeps | with_reducible apply State.startFrames_keeps
                | with_reducible apply State.epochsAt_keeps | with_reducible apply State.limitsAt_keeps
                | with_reducible apply State.settle_keeps | with_reducible apply State.deliverAll_keeps
                | with_reducible apply State.moderateAll_keeps | with_reducible apply State.closePass_keeps
                | with_reducible apply State.beginPass_keeps | with_reducible apply State.openWalk_keeps | split | intro

@[simp] theorem execBeaconTick_keeps {qq : List Instr} {bb : Prop} (env : TickEnv) (s : State) (h_s : Keeps qq bb s)
    : OutKeeps qq bb (execBeaconTick env s) := by
  unfold execBeaconTick
  try dsimp only
  repeat' first | with_reducible assumption | with_reducible apply OutKeeps.keeps_if | with_reducible apply h_s
                | with_reducible apply State.after_keeps | with_reducible apply State.tick_keeps | with_reducible apply OutKeeps.next
                | split | intro

@[simp] theorem execModerationExpiry_keeps {qq : List Instr} {bb : Prop} (f : Func) (n : Fin 4) (s : State) (h_s : Keeps qq bb s)
    : OutKeeps qq bb (execModerationExpiry f n s) := by
  unfold execModerationExpiry
  try dsimp only
  repeat' first | with_reducible assumption | with_reducible apply OutKeeps.keeps_if | with_reducible apply h_s
                | with_reducible apply State.after_keeps | with_reducible apply State.messageDue_keeps
                | with_reducible apply OutKeeps.next | split | intro

end Sys2Proof.Machine
end

