-- ==== Sys2Proof/Laws/KeepKeepers.lean ====
section
/-! SUPPORT. `Keeps`: what the operations of registers and keepers keep. -/

namespace Sys2Proof.Machine

@[simp] theorem State.writeLogCtl_keeps {qq : List Instr} {bb : Prop} (s : State) (r : Requester) (off : Nat) (b : Fin 15) (v : DWord)
    (h_s : Keeps qq bb s) : Keeps qq bb (State.writeLogCtl s r off b v) := by
  unfold State.writeLogCtl
  try dsimp only
  repeat' first | with_reducible assumption | with_reducible apply keeps_if | with_reducible apply h_s
                | with_reducible apply State.refuse_keeps | with_reducible apply State.modLog_keeps | split | intro

@[simp] theorem State.writeLogSetup_keeps {qq : List Instr} {bb : Prop} (s : State) (r : Requester) (off : Nat) (b : Fin 15) (o : Nat)
    (v : DWord) (h_s : Keeps qq bb s) : Keeps qq bb (State.writeLogSetup s r off b o v) := by
  unfold State.writeLogSetup
  try dsimp only
  repeat' first | with_reducible assumption | with_reducible apply keeps_if | with_reducible apply keeps_dif | with_reducible apply h_s
                | with_reducible apply State.refuse_keeps | with_reducible apply State.stageLow_keeps
                | with_reducible apply State.dropStaged_keeps | with_reducible apply State.modLog_keeps | split | intro

@[simp] theorem State.writeLog_keeps {qq : List Instr} {bb : Prop} (s : State) (r : Requester) (off : Nat) (v : DWord)
    (h_s : Keeps qq bb s) : Keeps qq bb (State.writeLog s r off v) := by
  unfold State.writeLog
  try dsimp only
  repeat' first | with_reducible assumption | with_reducible apply keeps_if | with_reducible apply keeps_dif | with_reducible apply h_s
                | with_reducible apply State.primaryWrite_keeps | with_reducible apply State.writeLogCtl_keeps
                | with_reducible apply State.writeLogSetup_keeps | with_reducible apply State.managerWrite_keeps
                | with_reducible apply State.modLog_keeps | split | intro

@[simp] theorem State.writeBuy_keeps {qq : List Instr} {bb : Prop} (s : State) (r : Requester) (off : Nat) (v : DWord)
    (h_s : Keeps qq bb s) : Keeps qq bb (State.writeBuy s r off v) := by
  unfold State.writeBuy
  try dsimp only
  repeat' first | with_reducible assumption | with_reducible apply keeps_if | with_reducible apply h_s
                | with_reducible apply State.primaryWrite_keeps | with_reducible apply State.writeMboxArea_keeps
                | simp only [keeps_mk_iff] | split | intro

@[simp] theorem State.writeBcn_keeps {qq : List Instr} {bb : Prop} (s : State) (r : Requester) (off : Nat) (v : DWord)
    (h_s : Keeps qq bb s) : Keeps qq bb (State.writeBcn s r off v) := by
  unfold State.writeBcn
  try dsimp only
  repeat' first | with_reducible assumption | with_reducible apply keeps_if | with_reducible apply keeps_dif | with_reducible apply h_s
                | with_reducible apply State.managerWrite_keeps | with_reducible apply State.writePtmCtl_keeps | simp only [keeps_mk_iff]
                | split | intro

@[simp] theorem State.writeRngBlock_keeps {qq : List Instr} {bb : Prop} (s : State) (r : Requester) (off : Nat) (v : DWord)
    (h_s : Keeps qq bb s) : Keeps qq bb (State.writeRngBlock s r off v) := by
  unfold State.writeRngBlock
  try dsimp only
  repeat' first | with_reducible assumption | with_reducible apply keeps_if | with_reducible apply h_s
                | with_reducible apply State.refuse_keeps | with_reducible apply State.writeRng_keeps | split | intro

@[simp] theorem State.writeBar0_keeps {qq : List Instr} {bb : Prop} (s : State) (r : Requester) (off : Nat) (v : DWord)
    (h_s : Keeps qq bb s) : Keeps qq bb (State.writeBar0 s r off v) := by
  unfold State.writeBar0
  repeat' with_reducible refine keeps_if (fun _ => ?_) (fun _ => ?_)
  all_goals apply_rules [h_s,
    State.writeTop_keeps, State.writeSup_keeps, State.writeClk_keeps, State.writeDay_keeps, State.writeHlk_keeps,
    State.writeRngBlock_keeps, State.writeBcn_keeps, State.writeBus_keeps, State.writeCcp_keeps, State.writePower_keeps,
    State.writeLan_keeps, State.writeTnd_keeps, State.writeKpr_keeps, State.writeHst_keeps, State.writeBuy_keeps,
    State.writeLog_keeps, State.writeEvt_keeps]

@[simp] theorem State.writeSlot_keeps {qq : List Instr} {bb : Prop} (s : State) (r : Requester) (b : Fin 15) (off : Nat) (v : DWord)
    (h_s : Keeps qq bb s) : Keeps qq bb (State.writeSlot s r b off v) := by
  unfold State.writeSlot
  try dsimp only
  repeat' first | with_reducible assumption | with_reducible apply keeps_if | with_reducible apply h_s
                | with_reducible apply State.writeMbox_keeps | with_reducible apply State.writeRng_keeps | split | intro

@[simp] theorem State.writeRegister_keeps {qq : List Instr} {bb : Prop} (s : State) (p : Path) (off : Nat) (v : DWord)
    (h_s : Keeps qq bb s) : Keeps qq bb (State.writeRegister s p off v) := by
  unfold State.writeRegister
  try dsimp only
  repeat' first | with_reducible assumption | with_reducible apply keeps_if | with_reducible apply h_s
                | with_reducible apply State.writeModeReq_keeps | with_reducible apply State.writeCommit_keeps
                | with_reducible apply State.keyHole_keeps | with_reducible apply State.writeRevive_keeps
                | with_reducible apply State.access_keeps | with_reducible apply State.writeBar0_keeps | split | intro

@[simp] theorem State.wrongWidth_keeps {qq : List Instr} {bb : Prop} (s : State) (p : Path) (off : Nat) (h_s : Keeps qq bb s)
    : Keeps qq bb (State.wrongWidth s p off) := by
  unfold State.wrongWidth
  try dsimp only
  repeat' first | with_reducible assumption | with_reducible apply keeps_if | with_reducible apply h_s
                | with_reducible apply State.accessAny_keeps | with_reducible apply State.refuse_keeps
                | with_reducible apply State.access_keeps | simp only [keeps_mk_iff] | split | intro

@[simp] theorem State.registerWrite_keeps {qq : List Instr} {bb : Prop} (s : State) (p : Path) (off : Nat) (v : DWord)
    (h_s : Keeps qq bb s) : Keeps qq bb (State.registerWrite s p off v) := by
  unfold State.registerWrite
  try dsimp only
  repeat' first | with_reducible assumption | with_reducible apply keeps_if | with_reducible apply h_s
                | with_reducible apply State.turnAway_keeps | with_reducible apply State.wrongWidth_keeps
                | with_reducible apply State.arrive_keeps | with_reducible apply State.writeConfig_keeps
                | with_reducible apply State.writeMsix_keeps | with_reducible apply State.accessAny_keeps
                | with_reducible apply State.writeSlot_keeps | with_reducible apply State.writeRegister_keeps | simp only [keeps_mk_iff]
                | split | intro

@[simp] theorem State.hostWrite_keeps {qq : List Instr} {bb : Prop} (s : State) (p : Path) (off : Nat) (v : DWord) (hi : Option DWord)
    (h_s : Keeps qq bb s) : Keeps qq bb (State.hostWrite s p off v hi) := by
  unfold State.hostWrite
  try dsimp only
  repeat' first | with_reducible assumption | with_reducible apply keeps_if | with_reducible apply h_s
                | with_reducible apply State.registerWrite_keeps | with_reducible apply State.wrongWidth_keeps
                | with_reducible apply State.turnAway_keeps | simp only [keeps_mk_iff] | split | intro

@[simp] theorem execRegisterWrite_keeps {qq : List Instr} {bb : Prop} (p : Path) (off : Nat) (v : WriteData) (s : State)
    (h_s : Keeps qq bb s) : OutKeeps qq bb (execRegisterWrite p off v s) := by
  unfold execRegisterWrite
  try dsimp only
  repeat' first | with_reducible assumption | with_reducible apply OutKeeps.keeps_if | with_reducible apply keeps_if
                | with_reducible apply h_s | with_reducible apply State.after_keeps | with_reducible apply State.hostWrite_keeps
                | with_reducible apply OutKeeps.next | split | intro

@[simp] theorem State.readDWord_keeps {qq : List Instr} {bb : Prop} (s : State) (p : Path) (off : Nat) (h_s : Keeps qq bb s)
    : Keeps qq bb (State.readDWord s p off).2 := by
  unfold State.readDWord
  try dsimp only
  repeat' first | with_reducible assumption | with_reducible apply keeps_if | with_reducible apply h_s
                | with_reducible apply State.arrive_keeps | with_reducible apply State.modReq_keeps | split | intro

@[simp] theorem State.answerDWord_keeps {qq : List Instr} {bb : Prop} (s : State) (p : Path) (off : Nat) (h_s : Keeps qq bb s)
    : Keeps qq bb (State.answerDWord s p off) := by
  unfold State.answerDWord
  try dsimp only
  repeat' first | with_reducible assumption | with_reducible apply keeps_if | with_reducible apply h_s
                | with_reducible apply State.readDWord_keeps | with_reducible apply State.emit_keeps | split | intro

@[simp] theorem State.answerWord_keeps {qq : List Instr} {bb : Prop} (s : State) (k : Fin 12) (off : Nat) (h_s : Keeps qq bb s)
    : Keeps qq bb (State.answerWord s k off) := by
  unfold State.answerWord
  try dsimp only
  repeat' first | with_reducible assumption | with_reducible apply keeps_if | with_reducible apply h_s
                | with_reducible apply State.readWord16_keeps | with_reducible apply State.emit_keeps | split | intro

@[simp] theorem State.answerHost_keeps {qq : List Instr} {bb : Prop} (s : State) (l : Link) (p : Path) (off : Nat) (n : Nat)
    (h_s : Keeps qq bb s) : Keeps qq bb (State.answerHost s l p off n) := by
  unfold State.answerHost
  try dsimp only
  repeat' first | with_reducible assumption | with_reducible apply keeps_if | with_reducible apply h_s
                | with_reducible apply State.answerDWord_keeps | with_reducible apply State.wakeLink_keeps
                | with_reducible apply State.unsupported_keeps | with_reducible apply State.emit_keeps
                | with_reducible apply State.emitAll_keeps | split | intro

@[simp] theorem State.answerRead_keeps {qq : List Instr} {bb : Prop} (s : State) (p : Path) (off : Nat) (n : Nat) (h_s : Keeps qq bb s)
    : Keeps qq bb (State.answerRead s p off n) := by
  unfold State.answerRead
  try dsimp only
  repeat' first | with_reducible assumption | with_reducible apply keeps_if | with_reducible apply h_s
                | with_reducible apply State.turnAway_keeps | with_reducible apply State.answerWord_keeps
                | with_reducible apply State.bar2Read_keeps | with_reducible apply State.answerHost_keeps
                | with_reducible apply State.answerDWord_keeps | simp only [keeps_mk_iff] | split | intro

@[simp] theorem execShadowLowRead_keeps {qq : List Instr} {bb : Prop} (p : Path) (x : ReadSpan) (s : State) (h_s : Keeps qq bb s)
    : OutKeeps qq bb (execShadowLowRead p x s) := by
  unfold execShadowLowRead
  try dsimp only
  repeat' first | with_reducible assumption | with_reducible apply OutKeeps.keeps_if | with_reducible apply keeps_if
                | with_reducible apply h_s | with_reducible apply State.after_keeps | with_reducible apply State.answerRead_keeps
                | with_reducible apply OutKeeps.next | split | intro

@[simp] theorem execShadowHighRead_keeps {qq : List Instr} {bb : Prop} (p : Path) (off : Nat) (s : State) (h_s : Keeps qq bb s)
    : OutKeeps qq bb (execShadowHighRead p off s) := by
  unfold execShadowHighRead
  try dsimp only
  repeat' first | with_reducible assumption | with_reducible apply OutKeeps.keeps_if | with_reducible apply keeps_if
                | with_reducible apply h_s | with_reducible apply State.after_keeps | with_reducible apply State.answerRead_keeps
                | with_reducible apply OutKeeps.next | split | intro

@[simp] theorem execStagedLowWrite_keeps {qq : List Instr} {bb : Prop} (p : Path) (off : Nat) (v : DWord) (s : State)
    (h_s : Keeps qq bb s) : OutKeeps qq bb (execStagedLowWrite p off v s) := by
  unfold execStagedLowWrite
  try dsimp only
  repeat' first | with_reducible assumption | with_reducible apply OutKeeps.keeps_if | with_reducible apply h_s
                | with_reducible apply State.after_keeps | with_reducible apply State.registerWrite_keeps
                | with_reducible apply OutKeeps.next | split | intro

@[simp] theorem State.writeLowWord_keeps {qq : List Instr} {bb : Prop} (s : State) (k : Fin 12) (off : Nat) (w : Half) (bad : Bool)
    (h_s : Keeps qq bb s) : Keeps qq bb (State.writeLowWord s k off w bad) := by
  unfold State.writeLowWord
  try dsimp only
  repeat' first | with_reducible assumption | with_reducible apply keeps_if | with_reducible apply h_s
                | with_reducible apply State.refuse_keeps | with_reducible apply State.modReq_keeps | simp only [keeps_mk_iff] | split
                | intro

@[simp] theorem State.writeHighWord_keeps {qq : List Instr} {bb : Prop} (s : State) (k : Fin 12) (off : Nat) (w : Half) (bad : Bool)
    (h_s : Keeps qq bb s) : Keeps qq bb (State.writeHighWord s k off w bad) := by
  unfold State.writeHighWord
  try dsimp only
  repeat' first | with_reducible assumption | with_reducible apply keeps_if | with_reducible apply h_s
                | with_reducible apply State.refuse_keeps | with_reducible apply State.modReq_keeps
                | with_reducible apply State.writeRegister_keeps | simp only [keeps_mk_iff] | split | intro

@[simp] theorem execKeeperLowWordWrite_keeps {qq : List Instr} {bb : Prop} (k : Fin 12) (off : Nat) (w : Half) (bad : Bool) (s : State)
    (h_s : Keeps qq bb s) : OutKeeps qq bb (execKeeperLowWordWrite k off w bad s) := by
  unfold execKeeperLowWordWrite
  try dsimp only
  repeat' first | with_reducible assumption | with_reducible apply OutKeeps.keeps_if | with_reducible apply keeps_if
                | with_reducible apply h_s | with_reducible apply State.after_keeps | with_reducible apply State.writeLowWord_keeps
                | with_reducible apply OutKeeps.next | split | intro

@[simp] theorem execKeeperHighWordWrite_keeps {qq : List Instr} {bb : Prop} (k : Fin 12) (off : Nat) (w : Half) (bad : Bool) (s : State)
    (h_s : Keeps qq bb s) : OutKeeps qq bb (execKeeperHighWordWrite k off w bad s) := by
  unfold execKeeperHighWordWrite
  try dsimp only
  repeat' first | with_reducible assumption | with_reducible apply OutKeeps.keeps_if | with_reducible apply keeps_if
                | with_reducible apply h_s | with_reducible apply State.after_keeps | with_reducible apply State.writeHighWord_keeps
                | with_reducible apply OutKeeps.next | split | intro

@[simp] theorem execLogEnable_keeps {qq : List Instr} {bb : Prop} (p : Path) (b : Fin 15) (v : DWord) (s : State) (h_s : Keeps qq bb s)
    : OutKeeps qq bb (execLogEnable p b v s) := by
  unfold execLogEnable
  try dsimp only
  repeat' first | with_reducible assumption | with_reducible apply OutKeeps.keeps_if | with_reducible apply h_s
                | with_reducible apply State.after_keeps | with_reducible apply State.access_keeps
                | with_reducible apply State.writeLog_keeps | with_reducible apply OutKeeps.next | split | intro

@[simp] theorem execLogDisable_keeps {qq : List Instr} {bb : Prop} (p : Path) (b : Fin 15) (v : DWord) (s : State) (h_s : Keeps qq bb s)
    : OutKeeps qq bb (execLogDisable p b v s) := by
  unfold execLogDisable
  try dsimp only
  repeat' first | with_reducible assumption | with_reducible apply OutKeeps.keeps_if | with_reducible apply h_s
                | with_reducible apply State.after_keeps | with_reducible apply State.access_keeps
                | with_reducible apply State.writeLog_keeps | with_reducible apply OutKeeps.next | split | intro

@[simp] theorem State.fetchInstr_keeps {qq : List Instr} {bb : Prop} (s : State) (k : Fin 12) (h_s : Keeps qq bb s)
    : (State.fetchInstr s k).Keeps qq bb := by
  unfold State.fetchInstr
  try dsimp only
  repeat' first | with_reducible assumption | with_reducible apply keeps_if | with_reducible apply h_s
                | with_reducible apply State.modKeeper_keeps | with_reducible apply Fetched.word_keeps
                | with_reducible apply Fetched.trap_keeps | with_reducible apply Fetched.upset_keeps | simp only [keeps_mk_iff]
                | simp only [keeps_hst_eq] | with_reducible apply KeepsH.of | with_reducible apply readWords_wf
                | exact wf_of_cells rfl rfl ‹_› | split | intro

@[simp] theorem State.takeTrap_keeps {qq : List Instr} {bb : Prop} (s : State) (k : Fin 12) (cause : Nat) (addr : Nat)
    (h_s : Keeps qq bb s) : Keeps qq bb (State.takeTrap s k cause addr) := by
  unfold State.takeTrap
  try dsimp only
  repeat' first | with_reducible assumption | with_reducible apply keeps_if | with_reducible apply h_s
                | with_reducible apply State.modKeeper_keeps | with_reducible apply State.endOnKeeper_keeps
                | with_reducible apply State.drainStores_keeps | with_reducible apply State.modReq_keeps | split | intro

@[simp] theorem State.kfinish_keeps {qq : List Instr} {bb : Prop} (s : State) (k : Fin 12) (e : KEnd) (h_s : Keeps qq bb s)
    (h_e : e.Keeps qq bb) : Keeps qq bb (State.kfinish s k e) := by
  unfold State.kfinish
  cases e with
  | next s1 => exact State.modKeeper_keeps _ _ _ h_e
  | jump s1 pc => exact State.modKeeper_keeps _ _ _ h_e
  | trap c a s1 => exact State.takeTrap_keeps _ _ _ _ h_e
  | wait => exact h_s
  | ended s1 => exact h_e

@[simp] theorem State.runOp_keeps {qq : List Instr} {bb : Prop} (s : State) (k : Fin 12) (pick : DWord → Bool)
    (act : State → DWord → KEnd) (h_s : Keeps qq bb s) (h_act : ∀ v0 v1, Keeps qq bb v0 → (act v0 v1).Keeps qq bb)
    : Keeps qq bb (State.runOp s k pick act) := by
  unfold State.runOp
  have hf := State.fetchInstr_keeps s k h_s
  split
  · exact h_s
  · split
    · rename_i w s1 e
      rw [e] at hf
      split
      · exact State.kfinish_keeps _ _ _ hf (h_act _ _ hf)
      · exact h_s
    · exact h_s
    · rename_i s1 e
      rw [e] at hf
      exact State.fence_keeps _ _ _ hf

@[simp] theorem State.kset_keeps {qq : List Instr} {bb : Prop} (s : State) (k : Fin 12) (c : Nat) (v : Half) (h_s : Keeps qq bb s)
    : (State.kset s k c v).Keeps qq bb := by
  unfold State.kset
  try dsimp only
  repeat' first | with_reducible assumption | with_reducible apply KEnd.keeps_if | with_reducible apply h_s
                | with_reducible apply State.modKeeper_keeps | with_reducible apply KEnd.next_keeps | with_reducible apply KEnd.jump_keeps
                | with_reducible apply KEnd.trap_keeps | with_reducible apply KEnd.ended_keeps | exact KEnd.wait_keeps | split | intro

@[simp] theorem illegal_keeps {qq : List Instr} {bb : Prop} (s : State) (h_s : Keeps qq bb s) : (illegal s).Keeps qq bb := by
  unfold illegal
  try dsimp only
  repeat' first | with_reducible assumption | with_reducible apply KEnd.keeps_if | with_reducible apply h_s
                | with_reducible apply KEnd.next_keeps | with_reducible apply KEnd.jump_keeps | with_reducible apply KEnd.trap_keeps
                | with_reducible apply KEnd.ended_keeps | exact KEnd.wait_keeps | split | intro

@[simp] theorem State.kload_keeps {qq : List Instr} {bb : Prop} (s : State) (k : Fin 12) (a : Nat) (h_s : Keeps qq bb s)
    : Keeps qq bb (State.kload s k a).2 := by
  unfold State.kload
  try dsimp only
  repeat' first | with_reducible assumption | with_reducible apply keeps_if | with_reducible apply h_s
                | with_reducible apply State.loadWord_keeps | with_reducible apply State.drainStores_keeps | split | intro

@[simp] theorem State.keepRefusal_keeps {qq : List Instr} {bb : Prop} (s : State) (s1 : State) (h_s : Keeps qq bb s)
    : Keeps qq bb (State.keepRefusal s s1) := by
  unfold State.keepRefusal
  exact State.modReg_keeps _ _ h_s

@[simp] theorem State.storeReg_keeps {qq : List Instr} {bb : Prop} (s : State) (k : Fin 12) (a : Nat) (v : Half) (bad : Bool := false)
    (h_s : Keeps qq bb s) : Keeps qq bb (State.storeReg s k a v bad).1 := by
  unfold State.storeReg
  try dsimp only
  repeat' first | with_reducible assumption | with_reducible apply keeps_if | with_reducible apply h_s
                | with_reducible apply State.modReg_keeps | with_reducible apply State.writeLowWord_keeps
                | with_reducible apply State.writeHighWord_keeps | with_reducible apply State.refuse_keeps | simp only [keeps_mk_iff]
                | split | intro

@[simp] theorem State.storeNow_keeps {qq : List Instr} {bb : Prop} (s : State) (k : Fin 12) (a : Nat) (v : Half) (h_s : Keeps qq bb s)
    : Keeps qq bb (State.storeNow s k a v).1 := by
  unfold State.storeNow
  try dsimp only
  repeat' first | with_reducible assumption | with_reducible apply keeps_if | with_reducible apply h_s
                | with_reducible apply State.storeReg_keeps | with_reducible apply State.keepRefusal_keeps
                | with_reducible apply State.modSlot_keeps | with_reducible apply keeps_dif | simp only [keeps_mk_iff]
                | simp only [keeps_hst_eq] | with_reducible apply KeepsH.of | with_reducible apply writeBytes_wf
                | with_reducible apply readBytes_wf | with_reducible apply readWords_wf | exact wf_of_cells rfl rfl ‹_›
                | refine of_pair1 (by assumption) ?_ | refine of_pair2 (by assumption) ?_ | with_reducible apply writeWords_wf | split
                | intro

@[simp] theorem State.kstore_keeps {qq : List Instr} {bb : Prop} (s : State) (k : Fin 12) (a : Nat) (v : Half) (h_s : Keeps qq bb s)
    : (State.kstore s k a v).Keeps qq bb := by
  unfold State.kstore
  try dsimp only
  repeat' first | with_reducible assumption | with_reducible apply KEnd.keeps_if | with_reducible apply h_s
                | with_reducible apply State.storeNow_keeps | with_reducible apply State.drainStores_keeps
                | with_reducible apply State.modKeeper_keeps | with_reducible apply KEnd.next_keeps | with_reducible apply KEnd.jump_keeps
                | with_reducible apply KEnd.trap_keeps | with_reducible apply KEnd.ended_keeps | exact KEnd.wait_keeps
                | refine of_pair1 (by assumption) ?_ | refine of_pair2 (by assumption) ?_ | split | intro

@[simp] theorem State.kloads_keeps {qq : List Instr} {bb : Prop} (s : State) (k : Fin 12) (u0 : List Nat) (h_s : Keeps qq bb s)
    : Keeps qq bb (State.kloads s k u0).2 := by
  induction u0 generalizing s with
  | nil => exact h_s
  | cons x t ih =>
    unfold State.kloads
    try dsimp only
    repeat' first | with_reducible assumption | with_reducible apply keeps_if | with_reducible apply ih | with_reducible apply h_s
                  | with_reducible apply State.kload_keeps | split | intro

@[simp] theorem State.kstores_keeps {qq : List Instr} {bb : Prop} (s : State) (k : Fin 12) (u0 : List (Nat × Half)) (h_s : Keeps qq bb s)
    : Keeps qq bb (State.kstores s k u0).1 := by
  induction u0 generalizing s with
  | nil => exact h_s
  | cons x t ih =>
    unfold State.kstores
    try dsimp only
    repeat' first | with_reducible assumption | with_reducible apply keeps_if | with_reducible apply ih | with_reducible apply h_s
                  | with_reducible apply State.storeNow_keeps | refine of_pair1 (by assumption) ?_ | refine of_pair2 (by assumption) ?_
                  | split | intro

@[simp] theorem State.settleKeeper_keeps {qq : List Instr} {bb : Prop} (s : State) (k : Fin 12) (h_s : Keeps qq bb s)
    : Keeps qq bb (State.settleKeeper s k) := by
  unfold State.settleKeeper
  try dsimp only
  repeat' first | with_reducible assumption | with_reducible apply keeps_if | with_reducible apply h_s
                | with_reducible apply State.modKeeper_keeps | with_reducible apply State.modTnd_keeps | split | intro

@[simp] theorem State.kAlu_keeps {qq : List Instr} {bb : Prop} (s : State) (k : Fin 12) (w : DWord) (f : Half → Half → Half)
    (h_s : Keeps qq bb s) : (State.kAlu s k w f).Keeps qq bb := by
  unfold State.kAlu
  try dsimp only
  repeat' first | with_reducible assumption | with_reducible apply KEnd.keeps_if | with_reducible apply h_s
                | with_reducible apply illegal_keeps | with_reducible apply State.kset_keeps | with_reducible apply KEnd.next_keeps
                | with_reducible apply KEnd.jump_keeps | with_reducible apply KEnd.trap_keeps | with_reducible apply KEnd.ended_keeps
                | exact KEnd.wait_keeps | split | intro

@[simp] theorem State.kImmOp_keeps {qq : List Instr} {bb : Prop} (s : State) (k : Fin 12) (w : DWord) (ok : Bool) (f : Half → Half → Half)
    (h_s : Keeps qq bb s) : (State.kImmOp s k w ok f).Keeps qq bb := by
  unfold State.kImmOp
  try dsimp only
  repeat' first | with_reducible assumption | with_reducible apply KEnd.keeps_if | with_reducible apply h_s
                | with_reducible apply illegal_keeps | with_reducible apply State.kset_keeps | with_reducible apply KEnd.next_keeps
                | with_reducible apply KEnd.jump_keeps | with_reducible apply KEnd.trap_keeps | with_reducible apply KEnd.ended_keeps
                | exact KEnd.wait_keeps | split | intro

@[simp] theorem State.kBranch_keeps {qq : List Instr} {bb : Prop} (s : State) (k : Fin 12) (w : DWord) (f : Half → Half → Bool)
    (h_s : Keeps qq bb s) : (State.kBranch s k w f).Keeps qq bb := by
  unfold State.kBranch
  try dsimp only
  repeat' first | with_reducible assumption | with_reducible apply KEnd.keeps_if | with_reducible apply h_s
                | with_reducible apply illegal_keeps | with_reducible apply KEnd.next_keeps | with_reducible apply KEnd.jump_keeps
                | with_reducible apply KEnd.trap_keeps | with_reducible apply KEnd.ended_keeps | exact KEnd.wait_keeps | split | intro

@[simp] theorem execKprAdd_keeps {qq : List Instr} {bb : Prop} (k : Fin 12) (s : State) (h_s : Keeps qq bb s)
    : OutKeeps qq bb (execKprAdd k s) := by
  unfold execKprAdd
  try dsimp only
  repeat' first | with_reducible assumption | with_reducible apply OutKeeps.keeps_if | with_reducible apply h_s
                | with_reducible apply State.after_keeps | with_reducible apply State.runOp_keeps | with_reducible apply State.kAlu_keeps
                | with_reducible apply OutKeeps.next | split | intro

@[simp] theorem execKprSub_keeps {qq : List Instr} {bb : Prop} (k : Fin 12) (s : State) (h_s : Keeps qq bb s)
    : OutKeeps qq bb (execKprSub k s) := by
  unfold execKprSub
  try dsimp only
  repeat' first | with_reducible assumption | with_reducible apply OutKeeps.keeps_if | with_reducible apply h_s
                | with_reducible apply State.after_keeps | with_reducible apply State.runOp_keeps | with_reducible apply State.kAlu_keeps
                | with_reducible apply OutKeeps.next | split | intro

@[simp] theorem execKprAnd_keeps {qq : List Instr} {bb : Prop} (k : Fin 12) (s : State) (h_s : Keeps qq bb s)
    : OutKeeps qq bb (execKprAnd k s) := by
  unfold execKprAnd
  try dsimp only
  repeat' first | with_reducible assumption | with_reducible apply OutKeeps.keeps_if | with_reducible apply h_s
                | with_reducible apply State.after_keeps | with_reducible apply State.runOp_keeps | with_reducible apply State.kAlu_keeps
                | with_reducible apply OutKeeps.next | split | intro

@[simp] theorem execKprOr_keeps {qq : List Instr} {bb : Prop} (k : Fin 12) (s : State) (h_s : Keeps qq bb s)
    : OutKeeps qq bb (execKprOr k s) := by
  unfold execKprOr
  try dsimp only
  repeat' first | with_reducible assumption | with_reducible apply OutKeeps.keeps_if | with_reducible apply h_s
                | with_reducible apply State.after_keeps | with_reducible apply State.runOp_keeps | with_reducible apply State.kAlu_keeps
                | with_reducible apply OutKeeps.next | split | intro

@[simp] theorem execKprXor_keeps {qq : List Instr} {bb : Prop} (k : Fin 12) (s : State) (h_s : Keeps qq bb s)
    : OutKeeps qq bb (execKprXor k s) := by
  unfold execKprXor
  try dsimp only
  repeat' first | with_reducible assumption | with_reducible apply OutKeeps.keeps_if | with_reducible apply h_s
                | with_reducible apply State.after_keeps | with_reducible apply State.runOp_keeps | with_reducible apply State.kAlu_keeps
                | with_reducible apply OutKeeps.next | split | intro

@[simp] theorem execKprSll_keeps {qq : List Instr} {bb : Prop} (k : Fin 12) (s : State) (h_s : Keeps qq bb s)
    : OutKeeps qq bb (execKprSll k s) := by
  unfold execKprSll
  try dsimp only
  repeat' first | with_reducible assumption | with_reducible apply OutKeeps.keeps_if | with_reducible apply h_s
                | with_reducible apply State.after_keeps | with_reducible apply State.runOp_keeps | with_reducible apply State.kAlu_keeps
                | with_reducible apply OutKeeps.next | split | intro

@[simp] theorem execKprSrl_keeps {qq : List Instr} {bb : Prop} (k : Fin 12) (s : State) (h_s : Keeps qq bb s)
    : OutKeeps qq bb (execKprSrl k s) := by
  unfold execKprSrl
  try dsimp only
  repeat' first | with_reducible assumption | with_reducible apply OutKeeps.keeps_if | with_reducible apply h_s
                | with_reducible apply State.after_keeps | with_reducible apply State.runOp_keeps | with_reducible apply State.kAlu_keeps
                | with_reducible apply OutKeeps.next | split | intro

@[simp] theorem execKprSra_keeps {qq : List Instr} {bb : Prop} (k : Fin 12) (s : State) (h_s : Keeps qq bb s)
    : OutKeeps qq bb (execKprSra k s) := by
  unfold execKprSra
  try dsimp only
  repeat' first | with_reducible assumption | with_reducible apply OutKeeps.keeps_if | with_reducible apply h_s
                | with_reducible apply State.after_keeps | with_reducible apply State.runOp_keeps | with_reducible apply State.kAlu_keeps
                | with_reducible apply OutKeeps.next | split | intro

@[simp] theorem execKprMul_keeps {qq : List Instr} {bb : Prop} (k : Fin 12) (s : State) (h_s : Keeps qq bb s)
    : OutKeeps qq bb (execKprMul k s) := by
  unfold execKprMul
  try dsimp only
  repeat' first | with_reducible assumption | with_reducible apply OutKeeps.keeps_if | with_reducible apply h_s
                | with_reducible apply State.after_keeps | with_reducible apply State.runOp_keeps | with_reducible apply State.kAlu_keeps
                | with_reducible apply OutKeeps.next | split | intro

@[simp] theorem execKprMulhu_keeps {qq : List Instr} {bb : Prop} (k : Fin 12) (s : State) (h_s : Keeps qq bb s)
    : OutKeeps qq bb (execKprMulhu k s) := by
  unfold execKprMulhu
  try dsimp only
  repeat' first | with_reducible assumption | with_reducible apply OutKeeps.keeps_if | with_reducible apply h_s
                | with_reducible apply State.after_keeps | with_reducible apply State.runOp_keeps | with_reducible apply State.kAlu_keeps
                | with_reducible apply OutKeeps.next | split | intro

@[simp] theorem execKprSltu_keeps {qq : List Instr} {bb : Prop} (k : Fin 12) (s : State) (h_s : Keeps qq bb s)
    : OutKeeps qq bb (execKprSltu k s) := by
  unfold execKprSltu
  try dsimp only
  repeat' first | with_reducible assumption | with_reducible apply OutKeeps.keeps_if | with_reducible apply h_s
                | with_reducible apply State.after_keeps | with_reducible apply State.runOp_keeps | with_reducible apply State.kAlu_keeps
                | with_reducible apply OutKeeps.next | split | intro

@[simp] theorem execKprSlt_keeps {qq : List Instr} {bb : Prop} (k : Fin 12) (s : State) (h_s : Keeps qq bb s)
    : OutKeeps qq bb (execKprSlt k s) := by
  unfold execKprSlt
  try dsimp only
  repeat' first | with_reducible assumption | with_reducible apply OutKeeps.keeps_if | with_reducible apply h_s
                | with_reducible apply State.after_keeps | with_reducible apply State.runOp_keeps | with_reducible apply State.kAlu_keeps
                | with_reducible apply OutKeeps.next | split | intro

@[simp] theorem execKprAddi_keeps {qq : List Instr} {bb : Prop} (k : Fin 12) (s : State) (h_s : Keeps qq bb s)
    : OutKeeps qq bb (execKprAddi k s) := by
  unfold execKprAddi
  try dsimp only
  repeat' first | with_reducible assumption | with_reducible apply OutKeeps.keeps_if | with_reducible apply h_s
                | with_reducible apply State.after_keeps | with_reducible apply State.runOp_keeps
                | with_reducible apply State.kImmOp_keeps | with_reducible apply OutKeeps.next | split | intro

@[simp] theorem execKprAndi_keeps {qq : List Instr} {bb : Prop} (k : Fin 12) (s : State) (h_s : Keeps qq bb s)
    : OutKeeps qq bb (execKprAndi k s) := by
  unfold execKprAndi
  try dsimp only
  repeat' first | with_reducible assumption | with_reducible apply OutKeeps.keeps_if | with_reducible apply h_s
                | with_reducible apply State.after_keeps | with_reducible apply State.runOp_keeps
                | with_reducible apply State.kImmOp_keeps | with_reducible apply OutKeeps.next | split | intro

@[simp] theorem execKprOri_keeps {qq : List Instr} {bb : Prop} (k : Fin 12) (s : State) (h_s : Keeps qq bb s)
    : OutKeeps qq bb (execKprOri k s) := by
  unfold execKprOri
  try dsimp only
  repeat' first | with_reducible assumption | with_reducible apply OutKeeps.keeps_if | with_reducible apply h_s
                | with_reducible apply State.after_keeps | with_reducible apply State.runOp_keeps
                | with_reducible apply State.kImmOp_keeps | with_reducible apply OutKeeps.next | split | intro

@[simp] theorem execKprXori_keeps {qq : List Instr} {bb : Prop} (k : Fin 12) (s : State) (h_s : Keeps qq bb s)
    : OutKeeps qq bb (execKprXori k s) := by
  unfold execKprXori
  try dsimp only
  repeat' first | with_reducible assumption | with_reducible apply OutKeeps.keeps_if | with_reducible apply h_s
                | with_reducible apply State.after_keeps | with_reducible apply State.runOp_keeps
                | with_reducible apply State.kImmOp_keeps | with_reducible apply OutKeeps.next | split | intro

@[simp] theorem execKprSlli_keeps {qq : List Instr} {bb : Prop} (k : Fin 12) (s : State) (h_s : Keeps qq bb s)
    : OutKeeps qq bb (execKprSlli k s) := by
  unfold execKprSlli
  try dsimp only
  repeat' first | with_reducible assumption | with_reducible apply OutKeeps.keeps_if | with_reducible apply h_s
                | with_reducible apply State.after_keeps | with_reducible apply State.runOp_keeps
                | with_reducible apply State.kImmOp_keeps | with_reducible apply OutKeeps.next | split | intro

@[simp] theorem execKprSrli_keeps {qq : List Instr} {bb : Prop} (k : Fin 12) (s : State) (h_s : Keeps qq bb s)
    : OutKeeps qq bb (execKprSrli k s) := by
  unfold execKprSrli
  try dsimp only
  repeat' first | with_reducible assumption | with_reducible apply OutKeeps.keeps_if | with_reducible apply h_s
                | with_reducible apply State.after_keeps | with_reducible apply State.runOp_keeps
                | with_reducible apply State.kImmOp_keeps | with_reducible apply OutKeeps.next | split | intro

@[simp] theorem execKprSrai_keeps {qq : List Instr} {bb : Prop} (k : Fin 12) (s : State) (h_s : Keeps qq bb s)
    : OutKeeps qq bb (execKprSrai k s) := by
  unfold execKprSrai
  try dsimp only
  repeat' first | with_reducible assumption | with_reducible apply OutKeeps.keeps_if | with_reducible apply h_s
                | with_reducible apply State.after_keeps | with_reducible apply State.runOp_keeps
                | with_reducible apply State.kImmOp_keeps | with_reducible apply OutKeeps.next | split | intro

@[simp] theorem execKprMovi_keeps {qq : List Instr} {bb : Prop} (k : Fin 12) (s : State) (h_s : Keeps qq bb s)
    : OutKeeps qq bb (execKprMovi k s) := by
  unfold execKprMovi
  try dsimp only
  repeat' first | with_reducible assumption | with_reducible apply OutKeeps.keeps_if | with_reducible apply h_s
                | with_reducible apply State.after_keeps | with_reducible apply State.runOp_keeps
                | with_reducible apply State.kImmOp_keeps | with_reducible apply OutKeeps.next | split | intro

@[simp] theorem execKprSltui_keeps {qq : List Instr} {bb : Prop} (k : Fin 12) (s : State) (h_s : Keeps qq bb s)
    : OutKeeps qq bb (execKprSltui k s) := by
  unfold execKprSltui
  try dsimp only
  repeat' first | with_reducible assumption | with_reducible apply OutKeeps.keeps_if | with_reducible apply h_s
                | with_reducible apply State.after_keeps | with_reducible apply State.runOp_keeps
                | with_reducible apply State.kImmOp_keeps | with_reducible apply OutKeeps.next | split | intro

@[simp] theorem execKprSlti_keeps {qq : List Instr} {bb : Prop} (k : Fin 12) (s : State) (h_s : Keeps qq bb s)
    : OutKeeps qq bb (execKprSlti k s) := by
  unfold execKprSlti
  try dsimp only
  repeat' first | with_reducible assumption | with_reducible apply OutKeeps.keeps_if | with_reducible apply h_s
                | with_reducible apply State.after_keeps | with_reducible apply State.runOp_keeps
                | with_reducible apply State.kImmOp_keeps | with_reducible apply OutKeeps.next | split | intro

@[simp] theorem State.kLd_keeps {qq : List Instr} {bb : Prop} (s : State) (k : Fin 12) (w : DWord) (h_s : Keeps qq bb s)
    : (State.kLd s k w).Keeps qq bb := by
  unfold State.kLd
  try dsimp only
  repeat' first | with_reducible assumption | with_reducible apply KEnd.keeps_if | with_reducible apply h_s
                | with_reducible apply illegal_keeps | with_reducible apply State.kload_keeps | with_reducible apply State.kset_keeps
                | with_reducible apply KEnd.next_keeps | with_reducible apply KEnd.jump_keeps | with_reducible apply KEnd.trap_keeps
                | with_reducible apply KEnd.ended_keeps | exact KEnd.wait_keeps | split | intro

@[simp] theorem execKprLd_keeps {qq : List Instr} {bb : Prop} (k : Fin 12) (s : State) (h_s : Keeps qq bb s)
    : OutKeeps qq bb (execKprLd k s) := by
  unfold execKprLd
  try dsimp only
  repeat' first | with_reducible assumption | with_reducible apply OutKeeps.keeps_if | with_reducible apply h_s
                | with_reducible apply State.after_keeps | with_reducible apply State.runOp_keeps | with_reducible apply State.kLd_keeps
                | with_reducible apply OutKeeps.next | split | intro

@[simp] theorem State.kSt_keeps {qq : List Instr} {bb : Prop} (s : State) (k : Fin 12) (w : DWord) (h_s : Keeps qq bb s)
    : (State.kSt s k w).Keeps qq bb := by
  unfold State.kSt
  try dsimp only
  repeat' first | with_reducible assumption | with_reducible apply KEnd.keeps_if | with_reducible apply h_s
                | with_reducible apply illegal_keeps | with_reducible apply State.kstore_keeps | with_reducible apply KEnd.next_keeps
                | with_reducible apply KEnd.jump_keeps | with_reducible apply KEnd.trap_keeps | with_reducible apply KEnd.ended_keeps
                | exact KEnd.wait_keeps | split | intro

@[simp] theorem execKprSt_keeps {qq : List Instr} {bb : Prop} (k : Fin 12) (s : State) (h_s : Keeps qq bb s)
    : OutKeeps qq bb (execKprSt k s) := by
  unfold execKprSt
  try dsimp only
  repeat' first | with_reducible assumption | with_reducible apply OutKeeps.keeps_if | with_reducible apply h_s
                | with_reducible apply State.after_keeps | with_reducible apply State.runOp_keeps | with_reducible apply State.kSt_keeps
                | with_reducible apply OutKeeps.next | split | intro

@[simp] theorem State.postFor_keeps {qq : List Instr} {bb : Prop} (s : State) (f : Func) (n : Fin 4) (e : EventEntry)
    (h_s : Keeps qq bb s) : Keeps qq bb (State.postFor s f n e).2 := by
  unfold State.postFor
  try dsimp only
  repeat' first | with_reducible assumption | with_reducible apply keeps_if | with_reducible apply h_s
                | with_reducible apply State.postEvent_keeps | split | intro

@[simp] theorem State.kPost_keeps {qq : List Instr} {bb : Prop} (s : State) (k : Fin 12) (w : DWord) (h_s : Keeps qq bb s)
    : (State.kPost s k w).Keeps qq bb := by
  unfold State.kPost
  try dsimp only
  repeat' first | with_reducible assumption | with_reducible apply KEnd.keeps_if | with_reducible apply h_s
                | with_reducible apply illegal_keeps | with_reducible apply State.drainStores_keeps
                | with_reducible apply State.kloads_keeps | with_reducible apply State.postFor_keeps
                | with_reducible apply State.kset_keeps | with_reducible apply KEnd.next_keeps | with_reducible apply KEnd.jump_keeps
                | with_reducible apply KEnd.trap_keeps | with_reducible apply KEnd.ended_keeps | exact KEnd.wait_keeps
                | refine of_pair1 (by assumption) ?_ | refine of_pair2 (by assumption) ?_ | split | intro

@[simp] theorem execKprPost_keeps {qq : List Instr} {bb : Prop} (k : Fin 12) (s : State) (h_s : Keeps qq bb s)
    : OutKeeps qq bb (execKprPost k s) := by
  unfold execKprPost
  try dsimp only
  repeat' first | with_reducible assumption | with_reducible apply OutKeeps.keeps_if | with_reducible apply h_s
                | with_reducible apply State.after_keeps | with_reducible apply State.runOp_keeps | with_reducible apply State.kPost_keeps
                | with_reducible apply OutKeeps.next | split | intro

@[simp] theorem execKprBeq_keeps {qq : List Instr} {bb : Prop} (k : Fin 12) (s : State) (h_s : Keeps qq bb s)
    : OutKeeps qq bb (execKprBeq k s) := by
  unfold execKprBeq
  try dsimp only
  repeat' first | with_reducible assumption | with_reducible apply OutKeeps.keeps_if | with_reducible apply h_s
                | with_reducible apply State.after_keeps | with_reducible apply State.runOp_keeps
                | with_reducible apply State.kBranch_keeps | with_reducible apply OutKeeps.next | split | intro

@[simp] theorem execKprBne_keeps {qq : List Instr} {bb : Prop} (k : Fin 12) (s : State) (h_s : Keeps qq bb s)
    : OutKeeps qq bb (execKprBne k s) := by
  unfold execKprBne
  try dsimp only
  repeat' first | with_reducible assumption | with_reducible apply OutKeeps.keeps_if | with_reducible apply h_s
                | with_reducible apply State.after_keeps | with_reducible apply State.runOp_keeps
                | with_reducible apply State.kBranch_keeps | with_reducible apply OutKeeps.next | split | intro

@[simp] theorem execKprBltu_keeps {qq : List Instr} {bb : Prop} (k : Fin 12) (s : State) (h_s : Keeps qq bb s)
    : OutKeeps qq bb (execKprBltu k s) := by
  unfold execKprBltu
  try dsimp only
  repeat' first | with_reducible assumption | with_reducible apply OutKeeps.keeps_if | with_reducible apply h_s
                | with_reducible apply State.after_keeps | with_reducible apply State.runOp_keeps
                | with_reducible apply State.kBranch_keeps | with_reducible apply OutKeeps.next | split | intro

@[simp] theorem execKprBgeu_keeps {qq : List Instr} {bb : Prop} (k : Fin 12) (s : State) (h_s : Keeps qq bb s)
    : OutKeeps qq bb (execKprBgeu k s) := by
  unfold execKprBgeu
  try dsimp only
  repeat' first | with_reducible assumption | with_reducible apply OutKeeps.keeps_if | with_reducible apply h_s
                | with_reducible apply State.after_keeps | with_reducible apply State.runOp_keeps
                | with_reducible apply State.kBranch_keeps | with_reducible apply OutKeeps.next | split | intro

@[simp] theorem execKprBlt_keeps {qq : List Instr} {bb : Prop} (k : Fin 12) (s : State) (h_s : Keeps qq bb s)
    : OutKeeps qq bb (execKprBlt k s) := by
  unfold execKprBlt
  try dsimp only
  repeat' first | with_reducible assumption | with_reducible apply OutKeeps.keeps_if | with_reducible apply h_s
                | with_reducible apply State.after_keeps | with_reducible apply State.runOp_keeps
                | with_reducible apply State.kBranch_keeps | with_reducible apply OutKeeps.next | split | intro

@[simp] theorem execKprBge_keeps {qq : List Instr} {bb : Prop} (k : Fin 12) (s : State) (h_s : Keeps qq bb s)
    : OutKeeps qq bb (execKprBge k s) := by
  unfold execKprBge
  try dsimp only
  repeat' first | with_reducible assumption | with_reducible apply OutKeeps.keeps_if | with_reducible apply h_s
                | with_reducible apply State.after_keeps | with_reducible apply State.runOp_keeps
                | with_reducible apply State.kBranch_keeps | with_reducible apply OutKeeps.next | split | intro

@[simp] theorem State.kJmp_keeps {qq : List Instr} {bb : Prop} (s : State) (w : DWord) (h_s : Keeps qq bb s)
    : (State.kJmp s w).Keeps qq bb := by
  unfold State.kJmp
  try dsimp only
  repeat' first | with_reducible assumption | with_reducible apply KEnd.keeps_if | with_reducible apply h_s
                | with_reducible apply illegal_keeps | with_reducible apply KEnd.next_keeps | with_reducible apply KEnd.jump_keeps
                | with_reducible apply KEnd.trap_keeps | with_reducible apply KEnd.ended_keeps | exact KEnd.wait_keeps | split | intro

@[simp] theorem State.kJr_keeps {qq : List Instr} {bb : Prop} (s : State) (k : Fin 12) (w : DWord) (h_s : Keeps qq bb s)
    : (State.kJr s k w).Keeps qq bb := by
  unfold State.kJr
  try dsimp only
  repeat' first | with_reducible assumption | with_reducible apply KEnd.keeps_if | with_reducible apply h_s
                | with_reducible apply illegal_keeps | with_reducible apply KEnd.next_keeps | with_reducible apply KEnd.jump_keeps
                | with_reducible apply KEnd.trap_keeps | with_reducible apply KEnd.ended_keeps | exact KEnd.wait_keeps | split | intro

@[simp] theorem State.kCall_keeps {qq : List Instr} {bb : Prop} (s : State) (k : Fin 12) (target : BitVec 24) (h_s : Keeps qq bb s)
    : (State.kCall s k target).Keeps qq bb := by
  unfold State.kCall
  try dsimp only
  repeat' first | with_reducible assumption | with_reducible apply KEnd.keeps_if | with_reducible apply h_s
                | with_reducible apply State.modKeeper_keeps | with_reducible apply KEnd.next_keeps | with_reducible apply KEnd.jump_keeps
                | with_reducible apply KEnd.trap_keeps | with_reducible apply KEnd.ended_keeps | exact KEnd.wait_keeps | split | intro

@[simp] theorem State.kBackw_keeps {qq : List Instr} {bb : Prop} (s : State) (k : Fin 12) (w : DWord) (h_s : Keeps qq bb s)
    : (State.kBackw s k w).Keeps qq bb := by
  unfold State.kBackw
  try dsimp only
  repeat' first | with_reducible assumption | with_reducible apply KEnd.keeps_if | with_reducible apply h_s
                | with_reducible apply illegal_keeps | with_reducible apply State.modKeeper_keeps | with_reducible apply KEnd.next_keeps
                | with_reducible apply KEnd.jump_keeps | with_reducible apply KEnd.trap_keeps | with_reducible apply KEnd.ended_keeps
                | exact KEnd.wait_keeps | split | intro

@[simp] theorem execKprJmp_keeps {qq : List Instr} {bb : Prop} (k : Fin 12) (s : State) (h_s : Keeps qq bb s)
    : OutKeeps qq bb (execKprJmp k s) := by
  unfold execKprJmp
  try dsimp only
  repeat' first | with_reducible assumption | with_reducible apply OutKeeps.keeps_if | with_reducible apply h_s
                | with_reducible apply State.after_keeps | with_reducible apply State.runOp_keeps | with_reducible apply State.kJmp_keeps
                | with_reducible apply OutKeeps.next | split | intro

@[simp] theorem execKprJr_keeps {qq : List Instr} {bb : Prop} (k : Fin 12) (s : State) (h_s : Keeps qq bb s)
    : OutKeeps qq bb (execKprJr k s) := by
  unfold execKprJr
  try dsimp only
  repeat' first | with_reducible assumption | with_reducible apply OutKeeps.keeps_if | with_reducible apply h_s
                | with_reducible apply State.after_keeps | with_reducible apply State.runOp_keeps | with_reducible apply State.kJr_keeps
                | with_reducible apply OutKeeps.next | split | intro

@[simp] theorem execKprCallw_keeps {qq : List Instr} {bb : Prop} (k : Fin 12) (s : State) (h_s : Keeps qq bb s)
    : OutKeeps qq bb (execKprCallw k s) := by
  unfold execKprCallw
  try dsimp only
  repeat' first | with_reducible assumption | with_reducible apply OutKeeps.keeps_if | with_reducible apply h_s
                | with_reducible apply State.after_keeps | with_reducible apply State.runOp_keeps | with_reducible apply illegal_keeps
                | with_reducible apply State.kCall_keeps | with_reducible apply OutKeeps.next | split | intro

@[simp] theorem execKprCallwr_keeps {qq : List Instr} {bb : Prop} (k : Fin 12) (s : State) (h_s : Keeps qq bb s)
    : OutKeeps qq bb (execKprCallwr k s) := by
  unfold execKprCallwr
  try dsimp only
  repeat' first | with_reducible assumption | with_reducible apply OutKeeps.keeps_if | with_reducible apply h_s
                | with_reducible apply State.after_keeps | with_reducible apply State.runOp_keeps | with_reducible apply State.kCall_keeps
                | with_reducible apply illegal_keeps | with_reducible apply OutKeeps.next | split | intro

@[simp] theorem execKprBackw_keeps {qq : List Instr} {bb : Prop} (k : Fin 12) (s : State) (h_s : Keeps qq bb s)
    : OutKeeps qq bb (execKprBackw k s) := by
  unfold execKprBackw
  try dsimp only
  repeat' first | with_reducible assumption | with_reducible apply OutKeeps.keeps_if | with_reducible apply h_s
                | with_reducible apply State.after_keeps | with_reducible apply State.runOp_keeps
                | with_reducible apply State.kBackw_keeps | with_reducible apply OutKeeps.next | split | intro

@[simp] theorem State.readSpecial_keeps {qq : List Instr} {bb : Prop} (s : State) (k : Fin 12) (n : Nat) (x : Half × State)
    (h_s : Keeps qq bb s) (e : State.readSpecial s k n = some x) : Keeps qq bb x.2 := by
  unfold State.readSpecial at e
  dsimp only at e
  split at e
  · cases e; exact State.modKeeper_keeps _ _ _ h_s
  · cases e; exact State.modKeeper_keeps _ _ _ h_s
  · cases e; exact State.modKeeper_keeps _ _ _ (State.freeDWord_keeps _ h_s)
  · split at e
    · cases e; exact State.modKeeper_keeps _ _ _ h_s
    · cases e; exact State.freeHalf_keeps _ h_s
  · obtain ⟨v, -, rfl⟩ := Option.map_eq_some_iff.1 e
    exact h_s

@[simp] theorem State.kMovfs_keeps {qq : List Instr} {bb : Prop} (s : State) (k : Fin 12) (w : DWord) (h_s : Keeps qq bb s)
    : (State.kMovfs s k w).Keeps qq bb := by
  unfold State.kMovfs
  split
  · exact illegal_keeps _ h_s
  · split
    · rename_i v s1 e
      exact State.kset_keeps _ _ _ _ (State.readSpecial_keeps _ _ _ _ h_s e)
    · exact illegal_keeps _ h_s

@[simp] theorem State.kMovts_keeps {qq : List Instr} {bb : Prop} (s : State) (k : Fin 12) (w : DWord) (h_s : Keeps qq bb s)
    : (State.kMovts s k w).Keeps qq bb := by
  unfold State.kMovts
  try dsimp only
  repeat' first | with_reducible assumption | with_reducible apply KEnd.keeps_if | with_reducible apply h_s
                | with_reducible apply illegal_keeps | with_reducible apply State.modKeeper_keeps | with_reducible apply KEnd.next_keeps
                | with_reducible apply KEnd.jump_keeps | with_reducible apply KEnd.trap_keeps | with_reducible apply KEnd.ended_keeps
                | exact KEnd.wait_keeps | split | intro

@[simp] theorem State.kWget_keeps {qq : List Instr} {bb : Prop} (s : State) (k : Fin 12) (w : DWord) (h_s : Keeps qq bb s)
    : (State.kWget s k w).Keeps qq bb := by
  unfold State.kWget
  try dsimp only
  repeat' first | with_reducible assumption | with_reducible apply KEnd.keeps_if | with_reducible apply h_s
                | with_reducible apply illegal_keeps | with_reducible apply State.kset_keeps | with_reducible apply KEnd.next_keeps
                | with_reducible apply KEnd.jump_keeps | with_reducible apply KEnd.trap_keeps | with_reducible apply KEnd.ended_keeps
                | exact KEnd.wait_keeps | split | intro

@[simp] theorem State.kWput_keeps {qq : List Instr} {bb : Prop} (s : State) (k : Fin 12) (w : DWord) (h_s : Keeps qq bb s)
    : (State.kWput s k w).Keeps qq bb := by
  unfold State.kWput
  try dsimp only
  repeat' first | with_reducible assumption | with_reducible apply KEnd.keeps_if | with_reducible apply h_s
                | with_reducible apply illegal_keeps | with_reducible apply State.modKeeper_keeps | with_reducible apply KEnd.next_keeps
                | with_reducible apply KEnd.jump_keeps | with_reducible apply KEnd.trap_keeps | with_reducible apply KEnd.ended_keeps
                | exact KEnd.wait_keeps | split | intro

@[simp] theorem State.kResume_keeps {qq : List Instr} {bb : Prop} (s : State) (k : Fin 12) (w : DWord) (h_s : Keeps qq bb s)
    : (State.kResume s k w).Keeps qq bb := by
  unfold State.kResume
  try dsimp only
  repeat' first | with_reducible assumption | with_reducible apply KEnd.keeps_if | with_reducible apply h_s
                | with_reducible apply illegal_keeps | with_reducible apply State.modKeeper_keeps | with_reducible apply KEnd.next_keeps
                | with_reducible apply KEnd.jump_keeps | with_reducible apply KEnd.trap_keeps | with_reducible apply KEnd.ended_keeps
                | exact KEnd.wait_keeps | split | intro

@[simp] theorem execKprMovfs_keeps {qq : List Instr} {bb : Prop} (k : Fin 12) (s : State) (h_s : Keeps qq bb s)
    : OutKeeps qq bb (execKprMovfs k s) := by
  unfold execKprMovfs
  try dsimp only
  repeat' first | with_reducible assumption | with_reducible apply OutKeeps.keeps_if | with_reducible apply h_s
                | with_reducible apply State.after_keeps | with_reducible apply State.runOp_keeps
                | with_reducible apply State.kMovfs_keeps | with_reducible apply OutKeeps.next | split | intro

@[simp] theorem execKprMovts_keeps {qq : List Instr} {bb : Prop} (k : Fin 12) (s : State) (h_s : Keeps qq bb s)
    : OutKeeps qq bb (execKprMovts k s) := by
  unfold execKprMovts
  try dsimp only
  repeat' first | with_reducible assumption | with_reducible apply OutKeeps.keeps_if | with_reducible apply h_s
                | with_reducible apply State.after_keeps | with_reducible apply State.runOp_keeps
                | with_reducible apply State.kMovts_keeps | with_reducible apply OutKeeps.next | split | intro

@[simp] theorem execKprWget_keeps {qq : List Instr} {bb : Prop} (k : Fin 12) (s : State) (h_s : Keeps qq bb s)
    : OutKeeps qq bb (execKprWget k s) := by
  unfold execKprWget
  try dsimp only
  repeat' first | with_reducible assumption | with_reducible apply OutKeeps.keeps_if | with_reducible apply h_s
                | with_reducible apply State.after_keeps | with_reducible apply State.runOp_keeps | with_reducible apply State.kWget_keeps
                | with_reducible apply OutKeeps.next | split | intro

@[simp] theorem execKprWput_keeps {qq : List Instr} {bb : Prop} (k : Fin 12) (s : State) (h_s : Keeps qq bb s)
    : OutKeeps qq bb (execKprWput k s) := by
  unfold execKprWput
  try dsimp only
  repeat' first | with_reducible assumption | with_reducible apply OutKeeps.keeps_if | with_reducible apply h_s
                | with_reducible apply State.after_keeps | with_reducible apply State.runOp_keeps | with_reducible apply State.kWput_keeps
                | with_reducible apply OutKeeps.next | split | intro

@[simp] theorem execKprResume_keeps {qq : List Instr} {bb : Prop} (k : Fin 12) (s : State) (h_s : Keeps qq bb s)
    : OutKeeps qq bb (execKprResume k s) := by
  unfold execKprResume
  try dsimp only
  repeat' first | with_reducible assumption | with_reducible apply OutKeeps.keeps_if | with_reducible apply h_s
                | with_reducible apply State.after_keeps | with_reducible apply State.runOp_keeps
                | with_reducible apply State.kResume_keeps | with_reducible apply OutKeeps.next | split | intro

@[simp] theorem State.kParkw_keeps {qq : List Instr} {bb : Prop} (s : State) (k : Fin 12) (w : DWord) (h_s : Keeps qq bb s)
    : (State.kParkw s k w).Keeps qq bb := by
  unfold State.kParkw
  try dsimp only
  repeat' first | with_reducible assumption | with_reducible apply KEnd.keeps_if | with_reducible apply h_s
                | with_reducible apply illegal_keeps | with_reducible apply State.drainStores_keeps
                | with_reducible apply State.kstores_keeps | with_reducible apply State.modReg_keeps
                | with_reducible apply KEnd.next_keeps | with_reducible apply KEnd.jump_keeps | with_reducible apply KEnd.trap_keeps
                | with_reducible apply KEnd.ended_keeps | exact KEnd.wait_keeps | refine of_pair1 (by assumption) ?_
                | refine of_pair2 (by assumption) ?_ | split | intro

@[simp] theorem State.kFetchw_keeps {qq : List Instr} {bb : Prop} (s : State) (k : Fin 12) (w : DWord) (h_s : Keeps qq bb s)
    : (State.kFetchw s k w).Keeps qq bb := by
  unfold State.kFetchw
  try dsimp only
  repeat' first | with_reducible assumption | with_reducible apply KEnd.keeps_if | with_reducible apply h_s
                | with_reducible apply illegal_keeps | with_reducible apply State.kloads_keeps
                | with_reducible apply State.drainStores_keeps | with_reducible apply State.modKeeper_keeps
                | with_reducible apply KEnd.next_keeps | with_reducible apply KEnd.jump_keeps | with_reducible apply KEnd.trap_keeps
                | with_reducible apply KEnd.ended_keeps | exact KEnd.wait_keeps | refine of_pair1 (by assumption) ?_
                | refine of_pair2 (by assumption) ?_ | split | intro

@[simp] theorem State.kFence_keeps {qq : List Instr} {bb : Prop} (s : State) (k : Fin 12) (w : DWord) (h_s : Keeps qq bb s)
    : (State.kFence s k w).Keeps qq bb := by
  unfold State.kFence
  try dsimp only
  repeat' first | with_reducible assumption | with_reducible apply KEnd.keeps_if | with_reducible apply h_s
                | with_reducible apply illegal_keeps | with_reducible apply State.drainStores_keeps | with_reducible apply KEnd.next_keeps
                | with_reducible apply KEnd.jump_keeps | with_reducible apply KEnd.trap_keeps | with_reducible apply KEnd.ended_keeps
                | exact KEnd.wait_keeps | split | intro

@[simp] theorem execKprParkw_keeps {qq : List Instr} {bb : Prop} (k : Fin 12) (s : State) (h_s : Keeps qq bb s)
    : OutKeeps qq bb (execKprParkw k s) := by
  unfold execKprParkw
  try dsimp only
  repeat' first | with_reducible assumption | with_reducible apply OutKeeps.keeps_if | with_reducible apply h_s
                | with_reducible apply State.after_keeps | with_reducible apply State.runOp_keeps
                | with_reducible apply State.kParkw_keeps | with_reducible apply OutKeeps.next | split | intro

@[simp] theorem execKprFetchw_keeps {qq : List Instr} {bb : Prop} (k : Fin 12) (s : State) (h_s : Keeps qq bb s)
    : OutKeeps qq bb (execKprFetchw k s) := by
  unfold execKprFetchw
  try dsimp only
  repeat' first | with_reducible assumption | with_reducible apply OutKeeps.keeps_if | with_reducible apply h_s
                | with_reducible apply State.after_keeps | with_reducible apply State.runOp_keeps
                | with_reducible apply State.kFetchw_keeps | with_reducible apply OutKeeps.next | split | intro

@[simp] theorem execKprFence_keeps {qq : List Instr} {bb : Prop} (k : Fin 12) (s : State) (h_s : Keeps qq bb s)
    : OutKeeps qq bb (execKprFence k s) := by
  unfold execKprFence
  try dsimp only
  repeat' first | with_reducible assumption | with_reducible apply OutKeeps.keeps_if | with_reducible apply h_s
                | with_reducible apply State.after_keeps | with_reducible apply State.runOp_keeps
                | with_reducible apply State.kFence_keeps | with_reducible apply OutKeeps.next | split | intro

@[simp] theorem State.kDma_keeps {qq : List Instr} {bb : Prop} (s : State) (k : Fin 12) (w : DWord) (h_s : Keeps qq bb s)
    : (State.kDma s k w).Keeps qq bb := by
  unfold State.kDma
  try dsimp only
  repeat' first | with_reducible assumption | with_reducible apply KEnd.keeps_if | with_reducible apply h_s
                | with_reducible apply illegal_keeps | with_reducible apply State.drainStores_keeps
                | with_reducible apply State.modSlot_keeps | with_reducible apply State.issueSlot_keeps
                | with_reducible apply KEnd.next_keeps | with_reducible apply KEnd.jump_keeps | with_reducible apply KEnd.trap_keeps
                | with_reducible apply KEnd.ended_keeps | exact KEnd.wait_keeps | split | intro

@[simp] theorem State.kDwait_keeps {qq : List Instr} {bb : Prop} (s : State) (k : Fin 12) (w : DWord) (h_s : Keeps qq bb s)
    : (State.kDwait s k w).Keeps qq bb := by
  unfold State.kDwait
  try dsimp only
  repeat' first | with_reducible assumption | with_reducible apply KEnd.keeps_if | with_reducible apply h_s
                | with_reducible apply illegal_keeps | with_reducible apply State.kset_keeps | with_reducible apply KEnd.next_keeps
                | with_reducible apply KEnd.jump_keeps | with_reducible apply KEnd.trap_keeps | with_reducible apply KEnd.ended_keeps
                | exact KEnd.wait_keeps | split | intro

@[simp] theorem State.kDone_keeps {qq : List Instr} {bb : Prop} (s : State) (k : Fin 12) (w : DWord) (h_s : Keeps qq bb s)
    : (State.kDone s k w).Keeps qq bb := by
  unfold State.kDone
  try dsimp only
  repeat' first | with_reducible assumption | with_reducible apply KEnd.keeps_if | with_reducible apply h_s
                | with_reducible apply illegal_keeps | with_reducible apply State.endOnKeeper_keeps | with_reducible apply KEnd.next_keeps
                | with_reducible apply KEnd.jump_keeps | with_reducible apply KEnd.trap_keeps | with_reducible apply KEnd.ended_keeps
                | exact KEnd.wait_keeps | split | intro

@[simp] theorem execKprDma_keeps {qq : List Instr} {bb : Prop} (k : Fin 12) (s : State) (h_s : Keeps qq bb s)
    : OutKeeps qq bb (execKprDma k s) := by
  unfold execKprDma
  try dsimp only
  repeat' first | with_reducible assumption | with_reducible apply OutKeeps.keeps_if | with_reducible apply h_s
                | with_reducible apply State.after_keeps | with_reducible apply State.runOp_keeps | with_reducible apply State.kDma_keeps
                | with_reducible apply OutKeeps.next | split | intro

@[simp] theorem execKprDwait_keeps {qq : List Instr} {bb : Prop} (k : Fin 12) (s : State) (h_s : Keeps qq bb s)
    : OutKeeps qq bb (execKprDwait k s) := by
  unfold execKprDwait
  try dsimp only
  repeat' first | with_reducible assumption | with_reducible apply OutKeeps.keeps_if | with_reducible apply h_s
                | with_reducible apply State.after_keeps | with_reducible apply State.runOp_keeps
                | with_reducible apply State.kDwait_keeps | with_reducible apply OutKeeps.next | split | intro

@[simp] theorem execKprDone_keeps {qq : List Instr} {bb : Prop} (k : Fin 12) (s : State) (h_s : Keeps qq bb s)
    : OutKeeps qq bb (execKprDone k s) := by
  unfold execKprDone
  try dsimp only
  repeat' first | with_reducible assumption | with_reducible apply OutKeeps.keeps_if | with_reducible apply h_s
                | with_reducible apply State.after_keeps | with_reducible apply State.runOp_keeps | with_reducible apply State.kDone_keeps
                | with_reducible apply OutKeeps.next | split | intro

@[simp] theorem execIllegalInstruction_keeps {qq : List Instr} {bb : Prop} (k : Fin 12) (s : State) (h_s : Keeps qq bb s)
    : OutKeeps qq bb (execIllegalInstruction k s) := by
  unfold execIllegalInstruction
  refine OutKeeps.next (State.after_keeps _ _ ?_)
  have hf := State.fetchInstr_keeps s k h_s
  by_cases hr : (!s.kprRuns k) = true
  · rw [if_pos hr]; exact h_s
  rw [if_neg hr]
  generalize s.fetchInstr k = r at hf
  cases r with
  | word w s1 =>
    by_cases ho : opListed w = true
    · exact keeps_if (fun _ => h_s) (fun h => absurd ho h)
    · exact keeps_if (fun h => absurd h ho) (fun _ => State.takeTrap_keeps _ _ _ _ hf)
  | trap c s1 => exact State.takeTrap_keeps _ _ _ _ hf
  | upset s1 => exact State.fence_keeps _ _ _ hf

@[simp] theorem execStoreBufferDrain_keeps {qq : List Instr} {bb : Prop} (k : Fin 12) (s : State) (h_s : Keeps qq bb s)
    : OutKeeps qq bb (execStoreBufferDrain k s) := by
  unfold execStoreBufferDrain
  try dsimp only
  repeat' first | with_reducible assumption | with_reducible apply OutKeeps.keeps_if | with_reducible apply h_s
                | with_reducible apply State.after_keeps | with_reducible apply State.modKeeper_keeps | with_reducible apply OutKeeps.next
                | simp only [keeps_mk_iff] | simp only [keeps_hst_eq] | with_reducible apply KeepsH.of
                | with_reducible apply writeWords_wf | exact wf_of_cells rfl rfl ‹_› | split | intro

@[simp] theorem State.landSlot_keeps {qq : List Instr} {bb : Prop} (s : State) (k : Fin 12) (a : Nat) (v : Half) (bad : Bool)
    (h_s : Keeps qq bb s) : Keeps qq bb (State.landSlot s k a v bad) := by
  unfold State.landSlot
  try dsimp only
  repeat' first | with_reducible assumption | with_reducible apply keeps_if | with_reducible apply h_s
                | with_reducible apply State.modSlot_keeps | with_reducible apply keeps_dif | simp only [keeps_mk_iff] | split | intro

@[simp] theorem State.landBytes_keeps {qq : List Instr} {bb : Prop} (s : State) (k : Fin 12) (a : Nat) (u0 : List (Option (Byte × Bool)))
    (h_s : Keeps qq bb s) : Keeps qq bb (State.landBytes s k a u0) := by
  have step : ∀ (s : State) (a : Nat) (lo hi : Option (Byte × Bool)), Keeps qq bb s → Keeps qq bb (match s.placeOf a, lo, hi with
      | .reg, some l, some h => (s.storeReg k a (halfOfBytes h.1 l.1) (l.2 || h.2)).1
      | .slot, some l, some h => s.landSlot k a (halfOfBytes h.1 l.1) (l.2 || h.2)
      | .reg, _, _ => s
      | .slot, _, _ => s
      | _, some l, some h => { s with hst := s.hst.writeWords a [(halfOfBytes h.1 l.1, l.2 || h.2)] }
      | _, some l, none => { s with hst := s.hst.writeBytes (2 * a) [l] }
      | _, none, some h => { s with hst := s.hst.writeBytes (2 * a + 1) [h] }
      | _, none, none => s) := by
    intro s a lo hi h
    split
    · exact State.storeReg_keeps _ _ _ _ _ h
    · exact State.landSlot_keeps _ _ _ _ _ h
    · exact h
    · exact h
    · exact ⟨h.1, fun hb => writeWords_wf _ _ _ (h.2 hb)⟩
    · exact ⟨h.1, fun hb => writeBytes_wf _ _ _ (h.2 hb)⟩
    · exact ⟨h.1, fun hb => writeBytes_wf _ _ _ (h.2 hb)⟩
    · exact h
  suffices h : ∀ (n : Nat) (s : State) (a : Nat) (l : List (Option (Byte × Bool))), l.length ≤ n → Keeps qq bb s → Keeps qq bb (s.landBytes k a l) from
    h u0.length s a u0 (Nat.le_refl _) h_s
  intro n
  induction n with
  | zero =>
    intro s a l hl h
    cases l with
    | nil => exact h
    | cons x t => simp at hl
  | succ n ih =>
    intro s a l hl h
    match l with
    | [] => exact h
    | [lo] =>
      unfold State.landBytes
      split
      · exact h
      · exact h
      · exact ⟨h.1, fun hb => writeBytes_wf _ _ _ (h.2 hb)⟩
      · exact h
    | lo :: hi :: rest =>
      unfold State.landBytes
      exact ih _ _ _ (by simp at hl; omega) (step s a lo hi h)

@[simp] theorem State.endSlot_keeps {qq : List Instr} {bb : Prop} (s : State) (k : Fin 12) (n : Fin 4) (st : Status) (sub : Nat)
    (h_s : Keeps qq bb s) : Keeps qq bb (State.endSlot s k n st sub) := by
  unfold State.endSlot
  try dsimp only
  repeat' first | with_reducible assumption | with_reducible apply keeps_if | with_reducible apply h_s
                | with_reducible apply State.modSlot_keeps | with_reducible apply State.modKeeper_keeps
                | with_reducible apply State.settleKeeper_keeps | split | intro

@[simp] theorem State.dmaComplete_keeps {qq : List Instr} {bb : Prop} (s : State) (k : Fin 12) (n : Fin 4) (e : DmaEnd)
    (h_s : Keeps qq bb s) : Keeps qq bb (State.dmaComplete s k n e) := by
  unfold State.dmaComplete
  try dsimp only
  repeat' first | with_reducible assumption | with_reducible apply keeps_if | with_reducible apply h_s
                | with_reducible apply State.fnReadFault_keeps | with_reducible apply State.endSlot_keeps
                | with_reducible apply State.landBytes_keeps | split | intro

@[simp] theorem execDmaSlotComplete_keeps {qq : List Instr} {bb : Prop} (k : Fin 12) (slot : Fin 4) (e : DmaEnd) (s : State)
    (h_s : Keeps qq bb s) : OutKeeps qq bb (execDmaSlotComplete k slot e s) := by
  unfold execDmaSlotComplete
  try dsimp only
  repeat' first | with_reducible assumption | with_reducible apply OutKeeps.keeps_if | with_reducible apply h_s
                | with_reducible apply State.after_keeps | with_reducible apply State.dmaComplete_keeps
                | with_reducible apply OutKeeps.next | split | intro

@[simp] theorem State.missedOf_keeps {qq : List Instr} {bb : Prop} (s : State) (r : Ring) (frames : List Half) (total : Nat)
    (u0 : List Half) (h_s : Keeps qq bb s) : Keeps qq bb (State.missedOf s r frames total u0).2 := by
  induction u0 generalizing s with
  | nil => exact h_s
  | cons x t ih =>
    unfold State.missedOf
    try dsimp only
    repeat' first | with_reducible assumption | with_reducible apply keeps_if | with_reducible apply ih | with_reducible apply h_s
                  | with_reducible apply State.freeDWord_keeps | split | intro

end Sys2Proof.Machine
end

