-- ==== Sys2Proof/Laws/KeepMigration.lean ====
section
/-! SUPPORT. `Keeps`: what the operations of migration and the IBP engine keep. -/

namespace Sys2Proof.Machine

@[simp] theorem State.migOutcome_keeps {qq : List Instr} {bb : Prop} (s : State) (n : Nat) (h_s : Keeps qq bb s)
    : (State.migOutcome s n).Keeps qq bb := by
  unfold State.migOutcome
  try dsimp only
  repeat' first | with_reducible assumption | with_reducible apply CmdEnd.keeps_if | with_reducible apply h_s
                | with_reducible apply CmdEnd.done_keeps | with_reducible apply CmdEnd.started_keeps
                | with_reducible apply CmdEnd.parked_keeps | split | intro

@[simp] theorem State.buoyFreeze_keeps {qq : List Instr} {bb : Prop} (s : State) (f : Func) (e : Entry) (h_s : Keeps qq bb s)
    : (State.buoyFreeze s f e).Keeps qq bb := by
  unfold State.buoyFreeze
  try dsimp only
  repeat' first | with_reducible assumption | with_reducible apply CmdEnd.keeps_if | with_reducible apply h_s
                | with_reducible apply State.migOutcome_keeps | with_reducible apply State.modMigr_keeps
                | with_reducible apply State.postFnEvent_keeps | with_reducible apply State.forgetRequester_keeps
                | with_reducible apply CmdEnd.done_keeps | with_reducible apply CmdEnd.started_keeps
                | with_reducible apply CmdEnd.parked_keeps | split | intro

@[simp] theorem execBuoyFreeze_keeps {qq : List Instr} {bb : Prop} (f : Func) (s : State) (h_s : Keeps qq bb s)
    : OutKeeps qq bb (execBuoyFreeze f s) := by
  unfold execBuoyFreeze
  try dsimp only
  repeat' first | with_reducible assumption | with_reducible apply OutKeeps.keeps_if | with_reducible apply h_s
                | with_reducible apply State.after_keeps | with_reducible apply State.runCommand_keeps
                | with_reducible apply State.buoyFreeze_keeps | with_reducible apply OutKeeps.next | split | intro

@[simp] theorem State.freezeEnds_keeps {qq : List Instr} {bb : Prop} (s : State) (b : Fin 15) (h_s : Keeps qq bb s)
    : Keeps qq bb (State.freezeEnds s b) := by
  unfold State.freezeEnds
  try dsimp only
  repeat' first | with_reducible assumption | with_reducible apply keeps_if | with_reducible apply h_s
                | with_reducible apply State.modMigr_keeps | with_reducible apply State.finishCmd_keeps | split | intro

@[simp] theorem execBuoyFrozen_keeps {qq : List Instr} {bb : Prop} (b : Fin 15) (s : State) (h_s : Keeps qq bb s)
    : OutKeeps qq bb (execBuoyFrozen b s) := by
  unfold execBuoyFrozen
  try dsimp only
  repeat' first | with_reducible assumption | with_reducible apply OutKeeps.keeps_if | with_reducible apply h_s
                | with_reducible apply State.after_keeps | with_reducible apply State.freezeEnds_keeps
                | with_reducible apply OutKeeps.next | split | intro

@[simp] theorem State.thawRing_keeps {qq : List Instr} {bb : Prop} (s : State) (f : Func) (i : Fin 65) (h_s : Keeps qq bb s)
    : Keeps qq bb (State.thawRing s f i) := by
  unfold State.thawRing
  try dsimp only
  repeat' first | with_reducible assumption | with_reducible apply keeps_if | with_reducible apply h_s
                | with_reducible apply State.endParked_keeps | with_reducible apply State.rebindEnd_keeps | split | intro

@[simp] theorem State.thaw_keeps {qq : List Instr} {bb : Prop} (s : State) (b : Fin 15) (h_s : Keeps qq bb s)
    : Keeps qq bb (State.thaw s b) := by
  unfold State.thaw
  try dsimp only
  repeat' first | with_reducible assumption | with_reducible apply keeps_if | with_reducible apply h_s
                | with_reducible apply State.flushFn_keeps | with_reducible apply State.modMigr_keeps
                | with_reducible apply State.postFnEvent_keeps | with_reducible apply State.flushUnservedFn_keeps
                | with_reducible apply State.mailboxEvent_keeps | with_reducible apply State.thawRing_keeps
                | with_reducible apply State.resumeFn_keeps | with_reducible apply foldl_keeps | split | intro

@[simp] theorem State.buoyThaw_keeps {qq : List Instr} {bb : Prop} (s : State) (f : Func) (e : Entry) (h_s : Keeps qq bb s)
    : (State.buoyThaw s f e).Keeps qq bb := by
  unfold State.buoyThaw
  try dsimp only
  repeat' first | with_reducible assumption | with_reducible apply CmdEnd.keeps_if | with_reducible apply h_s
                | with_reducible apply State.migOutcome_keeps | with_reducible apply State.thaw_keeps
                | with_reducible apply CmdEnd.done_keeps | with_reducible apply CmdEnd.started_keeps
                | with_reducible apply CmdEnd.parked_keeps | split | intro

@[simp] theorem execBuoyThaw_keeps {qq : List Instr} {bb : Prop} (f : Func) (s : State) (h_s : Keeps qq bb s)
    : OutKeeps qq bb (execBuoyThaw f s) := by
  unfold execBuoyThaw
  try dsimp only
  repeat' first | with_reducible assumption | with_reducible apply OutKeeps.keeps_if | with_reducible apply h_s
                | with_reducible apply State.after_keeps | with_reducible apply State.runCommand_keeps
                | with_reducible apply State.buoyThaw_keeps | with_reducible apply OutKeeps.next | split | intro

@[simp] theorem State.exportBytes_keeps {qq : List Instr} {bb : Prop} (s : State) (f : Func) (addr : QWord) (bytes : List Byte)
    (poison : Bool) (h_s : Keeps qq bb s) : Keeps qq bb (State.exportBytes s f addr bytes poison) := by
  unfold State.exportBytes
  split
  · exact ⟨h_s.1, fun hb => writeBytes_wf _ _ _ (h_s.2 hb)⟩
  · exact State.issueWrite_keeps _ _ _ _ _ h_s

@[simp] theorem State.buoySave_keeps {qq : List Instr} {bb : Prop} (s : State) (f : Func) (bad : Option (Fin 4512)) (e : Entry)
    (h_s : Keeps qq bb s) : (State.buoySave s f bad e).Keeps qq bb := by
  unfold State.buoySave
  try dsimp only
  repeat' first | with_reducible assumption | with_reducible apply CmdEnd.keeps_if | with_reducible apply h_s
                | with_reducible apply State.migOutcome_keeps | with_reducible apply State.exportBytes_keeps
                | with_reducible apply CmdEnd.done_keeps | with_reducible apply CmdEnd.started_keeps
                | with_reducible apply CmdEnd.parked_keeps | simp only [keeps_mk_iff] | simp only [keeps_hst_eq]
                | with_reducible apply KeepsH.of | with_reducible apply writeWords_wf | exact wf_of_cells rfl rfl ‹_› | split | intro

@[simp] theorem execBuoySave_keeps {qq : List Instr} {bb : Prop} (f : Func) (bad : Option (Fin 4512)) (s : State) (h_s : Keeps qq bb s)
    : OutKeeps qq bb (execBuoySave f bad s) := by
  unfold execBuoySave
  try dsimp only
  repeat' first | with_reducible assumption | with_reducible apply OutKeeps.keeps_if | with_reducible apply h_s
                | with_reducible apply State.after_keeps | with_reducible apply State.runCommand_keeps
                | with_reducible apply State.buoySave_keeps | with_reducible apply OutKeeps.next | split | intro

@[simp] theorem State.importItems_keeps {qq : List Instr} {bb : Prop} (s : State) (f : Func) (addr : QWord) (w : Nat)
    (items : List FetchItem) (u0 : Nat) (h_s : Keeps qq bb s) : Keeps qq bb (State.importItems s f addr w items u0).1 := by
  induction u0 generalizing s f addr w items with
  | zero => first | exact h_s | simp [State.importItems, h_s]
  | succ n ih =>
    unfold State.importItems
    try dsimp only
    repeat' first | with_reducible assumption | with_reducible apply keeps_if | with_reducible apply ih | with_reducible apply h_s
                  | with_reducible apply State.fnReadFault_keeps | with_reducible apply State.poisonedFetch_keeps
                  | simp only [keeps_mk_iff] | simp only [keeps_hst_eq] | with_reducible apply KeepsH.of
                  | with_reducible apply writeBytes_wf | with_reducible apply readBytes_wf | with_reducible apply readWords_wf
                  | exact wf_of_cells rfl rfl ‹_› | with_reducible apply writeWords_wf | split | intro

@[simp] theorem State.importImage_keeps {qq : List Instr} {bb : Prop} (s : State) (f : Func) (b : Fin 15) (addr : QWord)
    (items : List FetchItem) (h_s : Keeps qq bb s) : Keeps qq bb (State.importImage s f b addr items).1 := by
  unfold State.importImage
  try dsimp only
  repeat' first | with_reducible assumption | with_reducible apply keeps_if | with_reducible apply h_s
                | with_reducible apply State.importItems_keeps | simp only [keeps_mk_iff] | simp only [keeps_hst_eq]
                | with_reducible apply KeepsH.of | with_reducible apply readWords_wf | with_reducible apply writeWords_wf
                | exact wf_of_cells rfl rfl ‹_› | split | intro

@[simp] theorem State.restoreRing_keeps {qq : List Instr} {bb : Prop} (s : State) (f : Func) (native : Bool) (ws : List Half) (i : Fin 65)
    (h_s : Keeps qq bb s) : Keeps qq bb (State.restoreRing s f native ws i) := by
  unfold State.restoreRing
  try dsimp only
  repeat' first | with_reducible assumption | with_reducible apply keeps_if | with_reducible apply h_s
                | with_reducible apply State.freeHalf_keeps | with_reducible apply State.modRing_keeps
                | with_reducible apply State.missedOf_keeps | split | intro

@[simp] theorem State.clearForRestore_keeps {qq : List Instr} {bb : Prop} (s : State) (f : Func) (h_s : Keeps qq bb s)
    : Keeps qq bb (State.clearForRestore s f) := by
  unfold State.clearForRestore
  try dsimp only
  repeat' first | with_reducible assumption | with_reducible apply keeps_if | with_reducible apply h_s
                | with_reducible apply State.freeItem_keeps | with_reducible apply State.modTnd_keeps | with_reducible apply foldl_keeps
                | simp only [keeps_mk_iff] | split | intro

@[simp] theorem State.restoreRings_keeps {qq : List Instr} {bb : Prop} (s : State) (b : Fin 15) (native : Bool) (ws : List Half)
    (h_s : Keeps qq bb s) : Keeps qq bb (State.restoreRings s b native ws) := by
  unfold State.restoreRings
  try dsimp only
  repeat' first | with_reducible assumption | with_reducible apply keeps_if | with_reducible apply h_s
                | with_reducible apply State.modFn_keeps | with_reducible apply State.restoreRing_keeps
                | with_reducible apply State.modMbox_keeps | with_reducible apply foldl_keeps | split | intro

@[simp] theorem State.restoreLamp_keeps {qq : List Instr} {bb : Prop} (s : State) (f : Func) (q : List Half) (h_s : Keeps qq bb s)
    : Keeps qq bb (State.restoreLamp s f q).1 := by
  unfold State.restoreLamp
  try dsimp only
  repeat' first | with_reducible assumption | with_reducible apply keeps_if | with_reducible apply h_s
                | with_reducible apply State.putLamp_keeps | simp only [keeps_mk_iff] | split | intro

@[simp] theorem State.restoreLamps_keeps {qq : List Instr} {bb : Prop} (s : State) (f : Func) (native : Bool) (ws : List Half)
    (h_s : Keeps qq bb s) : Keeps qq bb (State.restoreLamps s f native ws).1 := by
  unfold State.restoreLamps
  split
  · exact h_s
  · exact foldl_fst_keeps _ _ _ (fun a x h => State.restoreLamp_keeps _ _ _ h) h_s

@[simp] theorem State.restoreImage_keeps {qq : List Instr} {bb : Prop} (s : State) (b : Fin 15) (ws : List Half) (h_s : Keeps qq bb s)
    : (State.restoreImage s b ws).Keeps qq bb := by
  unfold State.restoreImage
  try dsimp only
  repeat' first | with_reducible assumption | with_reducible apply CmdEnd.keeps_if | with_reducible apply h_s
                | with_reducible apply State.restoreRings_keeps | with_reducible apply State.clearForRestore_keeps
                | with_reducible apply State.restoreLamps_keeps | with_reducible apply State.modMigr_keeps
                | with_reducible apply CmdEnd.done_keeps | with_reducible apply CmdEnd.started_keeps
                | with_reducible apply CmdEnd.parked_keeps | split | intro

@[simp] theorem State.restoreSlot_keeps {qq : List Instr} {bb : Prop} (s : State) (b : Fin 15) (failed : Bool) (poisoned : Bool)
    (h_s : Keeps qq bb s) : (State.restoreSlot s b failed poisoned).Keeps qq bb := by
  unfold State.restoreSlot
  try dsimp only
  repeat' first | with_reducible assumption | with_reducible apply CmdEnd.keeps_if | with_reducible apply h_s
                | with_reducible apply State.migOutcome_keeps | with_reducible apply State.restoreImage_keeps
                | with_reducible apply CmdEnd.done_keeps | with_reducible apply CmdEnd.started_keeps
                | with_reducible apply CmdEnd.parked_keeps | simp only [keeps_mk_iff] | simp only [keeps_hst_eq]
                | with_reducible apply KeepsH.of | with_reducible apply readWords_wf | exact wf_of_cells rfl rfl ‹_› | split | intro

@[simp] theorem State.buoyRestore_keeps {qq : List Instr} {bb : Prop} (s : State) (f : Func) (items : List FetchItem) (e : Entry)
    (h_s : Keeps qq bb s) : (State.buoyRestore s f items e).Keeps qq bb := by
  unfold State.buoyRestore
  try dsimp only
  repeat' first | with_reducible assumption | with_reducible apply CmdEnd.keeps_if | with_reducible apply h_s
                | with_reducible apply State.migOutcome_keeps | with_reducible apply State.importImage_keeps
                | with_reducible apply State.restoreSlot_keeps | with_reducible apply CmdEnd.done_keeps
                | with_reducible apply CmdEnd.started_keeps | with_reducible apply CmdEnd.parked_keeps | split | intro

@[simp] theorem execBuoyRestore_keeps {qq : List Instr} {bb : Prop} (f : Func) (import_ : List FetchItem) (s : State)
    (h_s : Keeps qq bb s) : OutKeeps qq bb (execBuoyRestore f import_ s) := by
  unfold execBuoyRestore
  try dsimp only
  repeat' first | with_reducible assumption | with_reducible apply OutKeeps.keeps_if | with_reducible apply h_s
                | with_reducible apply State.after_keeps | with_reducible apply State.runCommand_keeps
                | with_reducible apply State.buoyRestore_keeps | with_reducible apply OutKeeps.next | split | intro

@[simp] theorem State.buoyRehome_keeps {qq : List Instr} {bb : Prop} (s : State) (f : Func) (e : Entry) (h_s : Keeps qq bb s)
    : (State.buoyRehome s f e).Keeps qq bb := by
  unfold State.buoyRehome
  try dsimp only
  repeat' first | with_reducible assumption | with_reducible apply CmdEnd.keeps_if | with_reducible apply h_s
                | with_reducible apply State.migOutcome_keeps | with_reducible apply State.slotEvents_keeps
                | with_reducible apply State.modBuoy_keeps | with_reducible apply State.modReq_keeps
                | with_reducible apply State.modFn_keeps | with_reducible apply State.modMigr_keeps
                | with_reducible apply CmdEnd.done_keeps | with_reducible apply CmdEnd.started_keeps
                | with_reducible apply CmdEnd.parked_keeps | split | intro

@[simp] theorem execBuoyRehome_keeps {qq : List Instr} {bb : Prop} (f : Func) (s : State) (h_s : Keeps qq bb s)
    : OutKeeps qq bb (execBuoyRehome f s) := by
  unfold execBuoyRehome
  try dsimp only
  repeat' first | with_reducible assumption | with_reducible apply OutKeeps.keeps_if | with_reducible apply h_s
                | with_reducible apply State.after_keeps | with_reducible apply State.runCommand_keeps
                | with_reducible apply State.buoyRehome_keeps | with_reducible apply OutKeeps.next | split | intro

@[simp] theorem State.logSwap_keeps {qq : List Instr} {bb : Prop} (s : State) (f : Func) (e : Entry) (h_s : Keeps qq bb s)
    : (State.logSwap s f e).Keeps qq bb := by
  unfold State.logSwap
  try dsimp only
  repeat' first | with_reducible assumption | with_reducible apply CmdEnd.keeps_if | with_reducible apply h_s
                | with_reducible apply State.migOutcome_keeps | with_reducible apply State.modLog_keeps
                | with_reducible apply CmdEnd.done_keeps | with_reducible apply CmdEnd.started_keeps
                | with_reducible apply CmdEnd.parked_keeps | split | intro

@[simp] theorem execLogSwap_keeps {qq : List Instr} {bb : Prop} (f : Func) (s : State) (h_s : Keeps qq bb s)
    : OutKeeps qq bb (execLogSwap f s) := by
  unfold execLogSwap
  try dsimp only
  repeat' first | with_reducible assumption | with_reducible apply OutKeeps.keeps_if | with_reducible apply h_s
                | with_reducible apply State.after_keeps | with_reducible apply State.runCommand_keeps
                | with_reducible apply State.logSwap_keeps | with_reducible apply OutKeeps.next | split | intro

@[simp] theorem State.logStops_keeps {qq : List Instr} {bb : Prop} (s : State) (b : Fin 15) (f : Func) (h_s : Keeps qq bb s)
    : Keeps qq bb (State.logStops s b f) := by
  unfold State.logStops
  try dsimp only
  repeat' first | with_reducible assumption | with_reducible apply keeps_if | with_reducible apply h_s
                | with_reducible apply State.modLog_keeps | with_reducible apply State.postFnEvent_keeps | simp only [keeps_mk_iff]
                | split | intro

@[simp] theorem State.logFails_keeps {qq : List Instr} {bb : Prop} (s : State) (b : Fin 15) (f : Func) (kind : Nat) (addr : QWord)
    (h_s : Keeps qq bb s) : Keeps qq bb (State.logFails s b f kind addr) := by
  unfold State.logFails
  try dsimp only
  repeat' first | with_reducible assumption | with_reducible apply keeps_if | with_reducible apply h_s
                | with_reducible apply State.fnReadFault_keeps | with_reducible apply State.logStops_keeps | split | intro

@[simp] theorem State.mapRead_keeps {qq : List Instr} {bb : Prop} (s : State) (b : Fin 15) (e : ReadEnd) (h_s : Keeps qq bb s)
    : Keeps qq bb (State.mapRead s b e) := by
  unfold State.mapRead
  try dsimp only
  repeat' first | with_reducible assumption | with_reducible apply keeps_if | with_reducible apply h_s
                | with_reducible apply State.logStops_keeps | with_reducible apply State.wakeFn_keeps
                | with_reducible apply State.emit_keeps | with_reducible apply State.logWrite_keeps
                | with_reducible apply State.modLog_keeps | with_reducible apply State.logFails_keeps | with_reducible apply foldl_keeps
                | simp only [keeps_mk_iff] | split | intro

@[simp] theorem State.swapEnds_keeps {qq : List Instr} {bb : Prop} (s : State) (b : Fin 15) (h_s : Keeps qq bb s)
    : Keeps qq bb (State.swapEnds s b) := by
  unfold State.swapEnds
  try dsimp only
  repeat' first | with_reducible assumption | with_reducible apply keeps_if | with_reducible apply h_s
                | with_reducible apply State.finishCmd_keeps | with_reducible apply State.modLog_keeps | split | intro

@[simp] theorem State.loggingEnds_keeps {qq : List Instr} {bb : Prop} (s : State) (b : Fin 15) (h_s : Keeps qq bb s)
    : Keeps qq bb (State.loggingEnds s b) := by
  unfold State.loggingEnds
  try dsimp only
  repeat' first | with_reducible assumption | with_reducible apply keeps_if | with_reducible apply h_s
                | with_reducible apply State.modLog_keeps | with_reducible apply State.resumeFn_keeps | split | intro

@[simp] theorem State.readCompletes_keeps {qq : List Instr} {bb : Prop} (s : State) (what : ReadFor) (e : ReadEnd) (h_s : Keeps qq bb s)
    : Keeps qq bb (State.readCompletes s what e) := by
  unfold State.readCompletes
  try dsimp only
  repeat' first | with_reducible assumption | with_reducible apply keeps_if | with_reducible apply h_s
                | with_reducible apply State.outDataRead_keeps | with_reducible apply State.listRead_keeps
                | with_reducible apply State.mapRead_keeps | with_reducible apply State.loggingEnds_keeps
                | with_reducible apply State.swapEnds_keeps | split | intro

@[simp] theorem execDataReadCompletion_keeps {qq : List Instr} {bb : Prop} (what : ReadFor) (e : ReadEnd) (s : State)
    (h_s : Keeps qq bb s) : OutKeeps qq bb (execDataReadCompletion what e s) := by
  unfold execDataReadCompletion
  try dsimp only
  repeat' first | with_reducible assumption | with_reducible apply OutKeeps.keeps_if | with_reducible apply h_s
                | with_reducible apply State.after_keeps | with_reducible apply State.readCompletes_keeps
                | with_reducible apply OutKeeps.next | split | intro

@[simp] theorem State.modIbp_keeps {qq : List Instr} {bb : Prop} (s : State) (g : Ibp → Ibp) (h_s : Keeps qq bb s)
    : Keeps qq bb (State.modIbp s g) := by
  unfold State.modIbp
  try dsimp only
  repeat' first | with_reducible assumption | with_reducible apply keeps_if | with_reducible apply h_s
                | with_reducible apply State.modLan_keeps | split | intro

@[simp] theorem State.ibpErr_keeps {qq : List Instr} {bb : Prop} (s : State) (type : Nat) (status : Nat) (seq : BitVec 16)
    (h_s : Keeps qq bb s) : Keeps qq bb (State.ibpErr s type status seq) := by
  unfold State.ibpErr
  try dsimp only
  repeat' first | with_reducible assumption | with_reducible apply keeps_if | with_reducible apply h_s
                | with_reducible apply State.modIbp_keeps | split | intro

@[simp] theorem State.ibpSend_keeps {qq : List Instr} {bb : Prop} (type : Nat) (m : IbpMsg) (a : IbpAnswer) (h_a : a.Keeps qq bb)
    : Keeps qq bb (State.ibpSend type m a) := by
  unfold State.ibpSend
  dsimp only
  have h : Keeps qq bb (a.after.emit (.ibp (ibpResponse type m a.status a.poison a.data))) := State.emit_keeps _ _ h_a
  split <;> split
  · exact h
  · exact State.ibpErr_keeps _ _ _ _ h
  · exact State.modIbp_keeps _ _ h
  · exact State.modIbp_keeps _ _ (State.ibpErr_keeps _ _ _ _ h)

@[simp] theorem State.ibpReplay_keeps {qq : List Instr} {bb : Prop} (s : State) (type : Nat) (seq : BitVec 16) (h_s : Keeps qq bb s)
    : Keeps qq bb (State.ibpReplay s type seq) := by
  unfold State.ibpReplay
  try dsimp only
  repeat' first | with_reducible assumption | with_reducible apply keeps_if | with_reducible apply h_s
                | with_reducible apply State.ibpErr_keeps | with_reducible apply State.emit_keeps | split | intro

@[simp] theorem State.ibpRequest_keeps {qq : List Instr} {bb : Prop} (s : State) (type : Nat) (m : IbpMsg) (form : Bool)
    (act : State → IbpAnswer) (h_s : Keeps qq bb s) (h_act : ∀ v0, Keeps qq bb v0 → (act v0).Keeps qq bb)
    : Keeps qq bb (State.ibpRequest s type m form act) := by
  unfold State.ibpRequest
  try dsimp only
  repeat' first | with_reducible assumption | with_reducible apply keeps_if | with_reducible apply h_s | with_reducible apply h_act
                | with_reducible apply State.ibpReplay_keeps | with_reducible apply State.ibpSend_keeps | with_reducible apply ibpNo_keeps
                | split | intro

@[simp] theorem State.hello_keeps {qq : List Instr} {bb : Prop} (s : State) (h_s : Keeps qq bb s) : Keeps qq bb (State.hello s) := by
  unfold State.hello
  try dsimp only
  repeat' first | with_reducible assumption | with_reducible apply keeps_if | with_reducible apply h_s
                | with_reducible apply State.modIbp_keeps | split | intro

@[simp] theorem execIbpHello_keeps {qq : List Instr} {bb : Prop} (m : IbpMsg) (s : State) (h_s : Keeps qq bb s)
    : OutKeeps qq bb (execIbpHello m s) := by
  unfold execIbpHello
  try dsimp only
  repeat' first | with_reducible assumption | with_reducible apply OutKeeps.keeps_if | with_reducible apply h_s
                | with_reducible apply State.after_keeps | with_reducible apply State.ibpSend_keeps
                | with_reducible apply State.flushReply_keeps | with_reducible apply State.hello_keeps
                | with_reducible apply OutKeeps.next | with_reducible apply ibpOk_keeps | with_reducible apply ibpNo_keeps | split | intro

@[simp] theorem State.ibpRead_keeps {qq : List Instr} {bb : Prop} (s : State) (off : Nat) (n : Nat) (h_s : Keeps qq bb s)
    : Keeps qq bb (State.ibpRead s off n).2 := by
  unfold State.ibpRead
  split
  · exact h_s
  · exact foldl_snd_keeps _ _ _ (fun a x h => State.readDWord_keeps _ _ _ h) h_s

@[simp] theorem State.ibpRegRead_keeps {qq : List Instr} {bb : Prop} (s : State) (m : IbpMsg) (h_s : Keeps qq bb s)
    : (State.ibpRegRead s m).Keeps qq bb := by
  unfold State.ibpRegRead
  try dsimp only
  repeat' first | with_reducible assumption | with_reducible apply IbpAnswer.keeps_if | with_reducible apply h_s
                | with_reducible apply State.ibpRead_keeps | with_reducible apply ibpOk_keeps | with_reducible apply ibpNo_keeps | split
                | intro

@[simp] theorem execIbpRegRead_keeps {qq : List Instr} {bb : Prop} (m : IbpMsg) (s : State) (h_s : Keeps qq bb s)
    : OutKeeps qq bb (execIbpRegRead m s) := by
  unfold execIbpRegRead
  try dsimp only
  repeat' first | with_reducible assumption | with_reducible apply OutKeeps.keeps_if | with_reducible apply h_s
                | with_reducible apply State.after_keeps | with_reducible apply State.ibpRequest_keeps
                | with_reducible apply State.ibpRegRead_keeps | with_reducible apply OutKeeps.next | split | intro

@[simp] theorem State.ibpRegWrite_keeps {qq : List Instr} {bb : Prop} (s : State) (m : IbpMsg) (h_s : Keeps qq bb s)
    : (State.ibpRegWrite s m).Keeps qq bb := by
  unfold State.ibpRegWrite
  try dsimp only
  repeat' first | with_reducible assumption | with_reducible apply IbpAnswer.keeps_if | with_reducible apply h_s
                | with_reducible apply State.registerWrite_keeps | with_reducible apply ibpOk_keeps | with_reducible apply ibpNo_keeps
                | with_reducible apply foldl_keeps | split | intro

@[simp] theorem execIbpRegWrite_keeps {qq : List Instr} {bb : Prop} (m : IbpMsg) (s : State) (h_s : Keeps qq bb s)
    : OutKeeps qq bb (execIbpRegWrite m s) := by
  unfold execIbpRegWrite
  try dsimp only
  repeat' first | with_reducible assumption | with_reducible apply OutKeeps.keeps_if | with_reducible apply h_s
                | with_reducible apply State.after_keeps | with_reducible apply State.ibpRequest_keeps
                | with_reducible apply State.ibpRegWrite_keeps | with_reducible apply OutKeeps.next | split | intro

@[simp] theorem State.ibpMemRead_keeps {qq : List Instr} {bb : Prop} (s : State) (m : IbpMsg) (h_s : Keeps qq bb s)
    : (State.ibpMemRead s m).Keeps qq bb := by
  unfold State.ibpMemRead
  refine IbpAnswer.keeps_if (fun _ => h_s) (fun _ => ?_)
  exact ⟨h_s.1, fun hb => readWords_wf _ _ _ _ (h_s.2 hb)⟩

@[simp] theorem execIbpMemRead_keeps {qq : List Instr} {bb : Prop} (m : IbpMsg) (s : State) (h_s : Keeps qq bb s)
    : OutKeeps qq bb (execIbpMemRead m s) := by
  unfold execIbpMemRead
  try dsimp only
  repeat' first | with_reducible assumption | with_reducible apply OutKeeps.keeps_if | with_reducible apply h_s
                | with_reducible apply State.after_keeps | with_reducible apply State.ibpRequest_keeps
                | with_reducible apply State.ibpMemRead_keeps | with_reducible apply OutKeeps.next | split | intro

@[simp] theorem State.ibpMemWrite_keeps {qq : List Instr} {bb : Prop} (s : State) (m : IbpMsg) (h_s : Keeps qq bb s)
    : (State.ibpMemWrite s m).Keeps qq bb := by
  unfold State.ibpMemWrite
  try dsimp only
  repeat' first | with_reducible assumption | with_reducible apply IbpAnswer.keeps_if | with_reducible apply h_s
                | with_reducible apply ibpOk_keeps | with_reducible apply ibpNo_keeps | simp only [keeps_mk_iff]
                | simp only [keeps_hst_eq] | with_reducible apply KeepsH.of | with_reducible apply writeBytes_wf
                | exact wf_of_cells rfl rfl ‹_› | split | intro

@[simp] theorem execIbpMemWrite_keeps {qq : List Instr} {bb : Prop} (m : IbpMsg) (s : State) (h_s : Keeps qq bb s)
    : OutKeeps qq bb (execIbpMemWrite m s) := by
  unfold execIbpMemWrite
  try dsimp only
  repeat' first | with_reducible assumption | with_reducible apply OutKeeps.keeps_if | with_reducible apply h_s
                | with_reducible apply State.after_keeps | with_reducible apply State.ibpRequest_keeps
                | with_reducible apply State.ibpMemWrite_keeps | with_reducible apply OutKeeps.next | split | intro

@[simp] theorem State.ibpDoorbell_keeps {qq : List Instr} {bb : Prop} (s : State) (d : DWord) (h_s : Keeps qq bb s)
    : Keeps qq bb (State.ibpDoorbell s d) := by
  unfold State.ibpDoorbell
  try dsimp only
  repeat' first | with_reducible assumption | with_reducible apply keeps_if | with_reducible apply h_s
                | with_reducible apply State.keyElsewhere_keeps | with_reducible apply State.ringDoorbell_keeps | split | intro

@[simp] theorem State.ibpDoorbells_keeps {qq : List Instr} {bb : Prop} (s : State) (m : IbpMsg) (h_s : Keeps qq bb s)
    : (State.ibpDoorbells s m).Keeps qq bb := by
  unfold State.ibpDoorbells
  try dsimp only
  repeat' first | with_reducible assumption | with_reducible apply IbpAnswer.keeps_if | with_reducible apply keeps_if
                | with_reducible apply h_s | with_reducible apply State.ibpDoorbell_keeps | with_reducible apply ibpOk_keeps
                | with_reducible apply ibpNo_keeps | with_reducible apply IbpAnswer.mk_keeps | with_reducible apply foldl_keeps | split
                | intro

@[simp] theorem execIbpDoorbell_keeps {qq : List Instr} {bb : Prop} (m : IbpMsg) (s : State) (h_s : Keeps qq bb s)
    : OutKeeps qq bb (execIbpDoorbell m s) := by
  unfold execIbpDoorbell
  try dsimp only
  repeat' first | with_reducible assumption | with_reducible apply OutKeeps.keeps_if | with_reducible apply h_s
                | with_reducible apply State.after_keeps | with_reducible apply State.ibpRequest_keeps
                | with_reducible apply State.ibpDoorbells_keeps | with_reducible apply OutKeeps.next | split | intro

@[simp] theorem State.deliverFw_keeps {qq : List Instr} {bb : Prop} (s : State) (payload : List Byte) (h_s : Keeps qq bb s)
    : Keeps qq bb (State.deliverFw s payload) := by
  unfold State.deliverFw
  try dsimp only
  repeat' first | with_reducible assumption | with_reducible apply keeps_if | with_reducible apply h_s
                | with_reducible apply State.modIbp_keeps | with_reducible apply State.decrementEngine_keeps | simp only [keeps_mk_iff]
                | simp only [keeps_hst_eq] | with_reducible apply KeepsH.of | with_reducible apply writeWords_wf
                | exact wf_of_cells rfl rfl ‹_› | split | intro

@[simp] theorem State.ibpFwMsg_keeps {qq : List Instr} {bb : Prop} (s : State) (m : IbpMsg) (h_s : Keeps qq bb s)
    : (State.ibpFwMsg s m).Keeps qq bb := by
  unfold State.ibpFwMsg
  try dsimp only
  repeat' first | with_reducible assumption | with_reducible apply IbpAnswer.keeps_if | with_reducible apply h_s
                | with_reducible apply State.deliverFw_keeps | with_reducible apply ibpOk_keeps | with_reducible apply ibpNo_keeps | split
                | intro

@[simp] theorem execIbpFwMsg_keeps {qq : List Instr} {bb : Prop} (m : IbpMsg) (s : State) (h_s : Keeps qq bb s)
    : OutKeeps qq bb (execIbpFwMsg m s) := by
  unfold execIbpFwMsg
  try dsimp only
  repeat' first | with_reducible assumption | with_reducible apply OutKeeps.keeps_if | with_reducible apply h_s
                | with_reducible apply State.after_keeps | with_reducible apply State.ibpRequest_keeps
                | with_reducible apply State.ibpFwMsg_keeps | with_reducible apply OutKeeps.next | split | intro

@[simp] theorem execIbpBadMessage_keeps {qq : List Instr} {bb : Prop} (type : BitVec 8) (m : IbpMsg) (s : State) (h_s : Keeps qq bb s)
    : OutKeeps qq bb (execIbpBadMessage type m s) := by
  unfold execIbpBadMessage
  try dsimp only
  repeat' first | with_reducible assumption | with_reducible apply OutKeeps.keeps_if | with_reducible apply h_s
                | with_reducible apply State.after_keeps | with_reducible apply State.ibpSend_keeps
                | with_reducible apply State.ibpRequest_keeps | with_reducible apply OutKeeps.next | with_reducible apply ibpNo_keeps
                | split | intro

@[simp] theorem execSmbRegRead_keeps {qq : List Instr} {bb : Prop} (a : SmbTarget) (s : State) (h_s : Keeps qq bb s)
    : OutKeeps qq bb (execSmbRegRead a s) := by
  unfold execSmbRegRead
  try dsimp only
  repeat' first | with_reducible assumption | with_reducible apply OutKeeps.keeps_if | with_reducible apply keeps_if
                | with_reducible apply h_s | with_reducible apply State.after_keeps | with_reducible apply State.emit_keeps
                | with_reducible apply State.readDWord_keeps | with_reducible apply OutKeeps.next | split | intro

@[simp] theorem execSmbRegWrite_keeps {qq : List Instr} {bb : Prop} (a : SmbTarget) (_v : DWord) (s : State) (h_s : Keeps qq bb s)
    : OutKeeps qq bb (execSmbRegWrite a _v s) := by
  unfold execSmbRegWrite
  try dsimp only
  repeat' first | with_reducible assumption | with_reducible apply OutKeeps.keeps_if | with_reducible apply keeps_if
                | with_reducible apply h_s | with_reducible apply State.after_keeps | with_reducible apply State.emit_keeps
                | with_reducible apply OutKeeps.next | split | intro

@[simp] theorem execSmbClockTimeout_keeps {qq : List Instr} {bb : Prop} (s : State) (h_s : Keeps qq bb s)
    : OutKeeps qq bb (execSmbClockTimeout s) := by
  unfold execSmbClockTimeout
  try dsimp only
  repeat' first | with_reducible assumption | with_reducible apply OutKeeps.keeps_if | with_reducible apply h_s
                | with_reducible apply State.after_keeps | with_reducible apply OutKeeps.next | simp only [keeps_mk_iff] | split | intro

end Sys2Proof.Machine
end

