-- ==== Sys2Proof/Laws/Powers.lean ====
section
/-! SUPPORT. What an engine tells the Tender, and what that leads to, leaves the CC/PD engines and the power paths alone. -/

namespace Sys2Proof.Machine

/-- The CC/PD engines, the Moorings and the sectors, and the Lantern but for its engine and its wake request. -/
def State.powers (s : State) : CcPd × Power × Lantern := (s.ccp, s.pwr, { s.lan with ibp := {}, wakeReq := false })

@[simp] theorem State.powers_evt (s : State) (v : Events) : ({ s with evt := v } : State).powers = s.powers := rfl
@[simp] theorem State.powers_hst (s : State) (v : HoldingStore) : ({ s with hst := v } : State).powers = s.powers := rfl
@[simp] theorem State.powers_out (s : State) (v : List Output) : ({ s with out := v } : State).powers = s.powers := rfl
@[simp] theorem State.powers_lnk (s : State) (v : Links) : ({ s with lnk := v } : State).powers = s.powers := rfl
@[simp] theorem State.powers_rng (s : State) (v : Rings) : ({ s with rng := v } : State).powers = s.powers := rfl
@[simp] theorem State.powers_tnd (s : State) (v : Tender) : ({ s with tnd := v } : State).powers = s.powers := rfl
@[simp] theorem State.powers_mig (s : State) (v : Migration) : ({ s with mig := v } : State).powers = s.powers := rfl
@[simp] theorem State.powers_fwy (s : State) (v : Fairways) : ({ s with fwy := v } : State).powers = s.powers := rfl
@[simp] theorem State.powers_freeSeq (s : State) (v : Nat) : ({ s with freeSeq := v } : State).powers = s.powers := rfl
@[simp] theorem State.powers_lan (s : State) (v : Ibp) (w : Bool) :
    ({ s with lan := { s.lan with ibp := v, wakeReq := w } } : State).powers = s.powers := rfl

/-- A fold of operations that leave the parts alone leaves them alone. -/
theorem foldl_powers {α : Type} (f : State → α → State) (h : ∀ s x, (f s x).powers = s.powers) (l : List α) (s : State) :
    (l.foldl f s).powers = s.powers := by
  induction l generalizing s with
  | nil => rfl
  | cons a t ih => rw [List.foldl_cons, ih, h]

@[simp] theorem State.emit_powers (s : State) (o : Output) : (s.emit o).powers = s.powers := rfl
@[simp] theorem State.freeBit_powers (s : State) : (s.freeBit).2.powers = s.powers := rfl
@[simp] theorem State.modFn_powers (s : State) (f : Func) (g : FuncState → FuncState) : (s.modFn f g).powers = s.powers := rfl
@[simp] theorem State.modRing_powers (s : State) (f : Func) (r : Fin 65) (g : Ring → Ring) : (s.modRing f r g).powers = s.powers := rfl
@[simp] theorem State.modEvRing_powers (s : State) (f : Func) (n : Fin 4) (g : EventRing → EventRing) : (s.modEvRing f n g).powers = s.powers := rfl
@[simp] theorem State.modLink_powers (s : State) (l : Link) (g : LinkState → LinkState) : (s.modLink l g).powers = s.powers := rfl
@[simp] theorem State.modLog_powers (s : State) (b : Fin 15) (g : Logbook → Logbook) : (s.modLog b g).powers = s.powers := rfl
@[simp] theorem State.modPort_powers (s : State) (n : Fin 16) (g : Port → Port) : (s.modPort n g).powers = s.powers := rfl
@[simp] theorem State.modFairway_powers (s : State) (f : Fin 4) (g : Fairway → Fairway) : (s.modFairway f g).powers = s.powers := rfl
@[simp] theorem State.dropDev_powers (s : State) (h : Nat) : (s.dropDev h).powers = s.powers := rfl
@[simp] theorem State.settle_powers (s : State) : s.settle.powers = s.powers := by
  unfold State.settle; (try dsimp only); (repeat' split) <;> simp [foldl_powers]
@[simp] theorem State.logWrite_powers (s : State) (f : Func) (a : Nat) (n : Nat) : (s.logWrite f a n).powers = s.powers := by
  unfold State.logWrite; (try dsimp only); (repeat' split) <;> simp [foldl_powers]
@[simp] theorem State.wakeLink_powers (s : State) (l : Link) : (s.wakeLink l).powers = s.powers := rfl
@[simp] theorem State.wakeFn_powers (s : State) (f : Func) : (s.wakeFn f).powers = s.powers := by
  unfold State.wakeFn; (try dsimp only); (repeat' split) <;> simp [foldl_powers]
@[simp] theorem State.issueWrite_powers (s : State) (f : Func) (addr : QWord) (bytes : List Byte) (poisoned : Bool) : (s.issueWrite f addr bytes poisoned).powers = s.powers := by
  unfold State.issueWrite; (try dsimp only); (repeat' split) <;> simp [foldl_powers]
@[simp] theorem State.ringFault_powers (s : State) (f : Func) (ring : Nat) (kind : Nat) (index : BitVec 16) : (s.ringFault f ring kind index).powers = s.powers := rfl
@[simp] theorem State.evFullUpdate_powers (s : State) (f : Func) (n : Fin 4) : (s.evFullUpdate f n).powers = s.powers := by
  unfold State.evFullUpdate; (try dsimp only); (repeat' split) <;> simp [foldl_powers]
@[simp] theorem State.sendNotify_powers (s : State) (n : Fin 4) : (s.sendNotify n).powers = s.powers := rfl
@[simp] theorem State.holdNotify_powers (s : State) (n : Fin 4) : (s.holdNotify n).powers = s.powers := rfl
@[simp] theorem State.notifyDue_powers (s : State) (n : Fin 4) : (s.notifyDue n).powers = s.powers := by
  unfold State.notifyDue; (try dsimp only); (repeat' split) <;> simp [foldl_powers]
@[simp] theorem State.disarmRing_powers (s : State) (f : Func) (n : Fin 4) : (s.disarmRing f n).powers = s.powers := rfl
@[simp] theorem State.sendMessage_powers (s : State) (f : Func) (n : Fin 4) : (s.sendMessage f n).powers = s.powers := by
  unfold State.sendMessage; (try dsimp only); (repeat' split) <;> simp [foldl_powers]
@[simp] theorem State.writeEvent_powers (s : State) (f : Func) (n : Fin 4) (e : EventEntry) : (s.writeEvent f n e).powers = s.powers := by
  unfold State.writeEvent; (try dsimp only); (repeat' split) <;> simp [foldl_powers]
@[simp] theorem State.postEvent_powers (s : State) (f : Func) (n : Fin 4) (e : EventEntry) : (s.postEvent f n e).powers = s.powers := by
  unfold State.postEvent; (try dsimp only); (repeat' split) <;> simp [foldl_powers]
@[simp] theorem State.postFnEvent_powers (s : State) (f : Func) (kind : Nat) (d0 : DWord) (d1 : DWord) (d2 : DWord) : (s.postFnEvent f kind d0 d1 d2).powers = s.powers := by
  unfold State.postFnEvent; (try dsimp only); (repeat' split) <;> simp [foldl_powers]
@[simp] theorem State.modTnd_powers (s : State) (g : Tender → Tender) : (s.modTnd g).powers = s.powers := rfl
@[simp] theorem State.tndFault_powers (s : State) (kind : Nat) (ctr : Nat) (src : Nat) : (s.tndFault kind ctr src).powers = s.powers := rfl
@[simp] theorem State.modItem_powers (s : State) (i : Nat) (g : Item → Item) : (s.modItem i g).powers = s.powers := by
  unfold State.modItem; (try dsimp only); (repeat' split) <;> simp [foldl_powers]
@[simp] theorem State.putCtr_powers (s : State) (c : Nat) (x : Counter) : (s.putCtr c x).powers = s.powers := rfl
@[simp] theorem State.makeReady_powers (s : State) (i : Nat) : (s.makeReady i).powers = s.powers := by
  unfold State.makeReady; (try dsimp only); (repeat' split) <;> simp [foldl_powers]
@[simp] theorem State.decrement_powers (s : State) (c : Nat) (tag : DWord) : (s.decrement c tag).2.powers = s.powers := by
  unfold State.decrement; (try dsimp only); (repeat' split) <;> simp [foldl_powers]
@[simp] theorem State.decrementBy_powers (s : State) (f : Func) (c : Nat) (tag : DWord) : (s.decrementBy f c tag).2.powers = s.powers := by
  unfold State.decrementBy; (try dsimp only); (repeat' split) <;> simp [foldl_powers]
@[simp] theorem State.decrementEngine_powers (s : State) (c : Nat) (tag : DWord) : (s.decrementEngine c tag).powers = s.powers := by
  unfold State.decrementEngine; (try dsimp only); (repeat' split) <;> simp [foldl_powers]

@[simp] theorem State.decrementEngine_eng (s : State) (c : Nat) (tag : DWord) (e : Fin 17) : (s.decrementEngine c tag).eng e = s.eng e := by
  have h := congrArg Prod.fst (s.decrementEngine_powers c tag)
  simp only [State.powers] at h
  simp [State.eng, h]

@[simp] theorem State.decrementEngine_pwr (s : State) (c : Nat) (tag : DWord) : (s.decrementEngine c tag).pwr = s.pwr :=
  congrArg (fun x => x.2.1) (s.decrementEngine_powers c tag)

/-- The Lantern but for its engine and its wake request is left alone too. -/
theorem State.decrementEngine_lan (s : State) (c : Nat) (tag : DWord) :
    ({ (s.decrementEngine c tag).lan with ibp := {}, wakeReq := false } : Lantern) = { s.lan with ibp := {}, wakeReq := false } :=
  congrArg (fun x => x.2.2) (s.decrementEngine_powers c tag)

@[simp] theorem State.storeWords_eng (s : State) (w : Nat) (l : List (Half × Bool)) (e : Fin 17) : (s.storeWords w l).eng e = s.eng e := by
  unfold State.storeWords; split <;> rfl

@[simp] theorem State.storeWords_pwr (s : State) (w : Nat) (l : List (Half × Bool)) : (s.storeWords w l).pwr = s.pwr := by
  unfold State.storeWords; split <;> rfl

/-- An item placed for firmware moves the engine's RX sequence and nothing else of it. -/
theorem State.placeItem_eng (s : State) (e : Fin 17) (k : Nat) (h : Half) (b : List Byte) :
    (s.placeItem e k h b).eng e = { s.eng e with rxSeq := (s.eng e).rxSeq + 1 } := by
  simp [State.placeItem]

@[simp] theorem State.placeItem_pwr (s : State) (e : Fin 17) (k : Nat) (h : Half) (b : List Byte) : (s.placeItem e k h b).pwr = s.pwr := by
  simp [State.placeItem]

/-- Items that wait for a slot touch the RX sequence and the waiting list of their engine, and no power path. -/
theorem State.placeWaiting_eng (fuel : Nat) (s : State) (e : Fin 17) :
    (s.placeWaiting e fuel).pwr = s.pwr ∧
      ∃ w a, (s.placeWaiting e fuel).eng e = { s.eng e with waiting := w, rxSeq := a } := by
  induction fuel generalizing s with
  | zero => exact ⟨rfl, (s.eng e).waiting, (s.eng e).rxSeq, rfl⟩
  | succ n ih =>
    unfold State.placeWaiting
    dsimp only
    split
    · exact ⟨rfl, (s.eng e).waiting, (s.eng e).rxSeq, rfl⟩
    · split
      · obtain ⟨h1, w, a, h2⟩ := ih ((s.modEng e (fun x => { x with waiting := _ })).placeItem e _ _ [])
        refine ⟨by rw [h1]; simp, w, a, ?_⟩
        rw [h2, State.placeItem_eng]
        simp
      · exact ⟨rfl, (s.eng e).waiting, (s.eng e).rxSeq, rfl⟩

/-- An item offered to firmware touches the RX sequence and the waiting list of its engine, and no power path (R334). -/
theorem State.offerItem_eng (s : State) (e : Fin 17) (k : Nat) (h : Half) :
    (s.offerItem e k h).pwr = s.pwr ∧ ∃ w a, (s.offerItem e k h).eng e = { s.eng e with waiting := w, rxSeq := a } := by
  unfold State.offerItem
  split
  · exact ⟨rfl, (s.eng e).waiting, (s.eng e).rxSeq, rfl⟩
  · obtain ⟨h1, w, a, h2⟩ := State.placeWaiting_eng 4 (s.modEng e (fun x =>
      { x with waiting := x.waiting.filter (fun w => w.kind != k) ++ [{ kind := k, header := h }] })) e
    exact ⟨h1, w, a, by rw [h2]; simp⟩

/-- A transmission that ends touches what describes transmissions in its engine, and no power path (R335). -/
theorem State.endTx_eng (s : State) (e : Fin 17) (r : Nat) :
    (s.endTx e r).pwr = s.pwr ∧
      ∃ t g n q, (s.endTx e r).eng e = { s.eng e with tx := t, txStage := g, txng := n, txResult := q } := by
  unfold State.endTx
  dsimp only
  split
  · exact ⟨rfl, (s.eng e).tx, (s.eng e).txStage, (s.eng e).txng, (s.eng e).txResult, rfl⟩
  · rename_i m _
    split
    · exact ⟨by simp, none, .idle, (s.eng e).txng && !m.amsEnd, r, by simp⟩
    · exact ⟨by simp, none, .idle, (s.eng e).txng && !m.amsEnd, (s.eng e).txResult, by simp⟩

end Sys2Proof.Machine
end

