-- ==== Sys2Proof/Machine/Balls.lean ====
section
/-! DEFINITION. What each signal ball does (R44, Table 2.5): in DARK, in Reset, in Initial, and as the state drives it afterwards.
Choices: log 7. -/

namespace Sys2Proof.Machine

/-- The signal balls, by the rows of Table 2.5 that the device drives or terminates. -/
inductive Ball where
  | portData (n : Fin 16)
  | portCc (n : Fin 16)
  | portGate (n : Fin 16)
  | portDsch (n : Fin 16)
  | puData
  | puCc
  | puGateIn
  | puGateOut
  | secVset (q : Fin 4)
  | secEn (q : Fin 4)
  | hlTx (l : Link)
  | hlRx (l : Link)
  | hlClkreq (l : Link)
  | hlWake (l : Link)
  | spiClk
  | spiCs
  | spiIo0
  | spiIo1
  | spiIo2
  | spiIo3
  | smbLine
  | alert
  | xtal
  | bias (f : Fin 4)
  | enable (r : Rail)
  | tdo
deriving DecidableEq, Repr

/-- What a ball is seen to do. -/
inductive Drive where
  /-- Unpowered, high impedance or open. -/
  | free
  | low
  | high
  /-- An open-drain output let go, and one pulled low. -/
  | released
  | pulled
  /-- Both data lines carry the host pull-downs; a CC line carries a termination that its engine applies. -/
  | pullDowns
  | engine
  | deadRd
  | pullUp
  /-- An analog output at a level. -/
  | level
  | electricalIdle
  | terminated
  | active
deriving DecidableEq, Repr

/-- A push-pull level. -/
def Drive.of (b : Bool) : Drive := if b then .high else .low

/-- An open-drain output. -/
def Drive.drain (b : Bool) : Drive := if b then .pulled else .released

/-- The always-on reset holds the device, or it has no VBIAS: before the straps are sampled (R44, R49, R102). -/
def State.ballsReset (s : State) : Bool :=
  match s.sup.stage with
  | .held | .strapWait | .downIo | .downCore => true
  | _ => false

/-- A rail of the balls is powered (Table 2.4): VDD_IO for IO18, VDD_PHY for the USB, PCIe and analog balls. -/
def State.railUp (s : State) (r : Rail) : Bool :=
  match r with
  | .core => s.sup.enCore && s.sup.pgCore
  | .io => s.sup.enIo && s.sup.pgIo
  | .phy => s.sup.enPhy && s.sup.pgPhy

/-- The PHY of a link is powered (R51, R151). -/
def State.linkPowered (s : State) (l : Link) : Bool := s.railUp .phy && s.mode ≠ .wick && !s.strap1 && s.linkFit l

/-- A ball supplied from VBIAS or from VAON: free while VBIAS is absent. -/
def State.biased (s : State) (d : Drive) : Drive := if s.sup.vbias then d else .free

/-- A ball supplied from a sequenced rail: unpowered until it is up. -/
def State.railed (s : State) (r : Rail) (d : Drive) : Drive := if s.railUp r then d else .free

/-- What a ball does in the present state (R44, Table 2.5). A flash access drives the SPI balls as Table 19.11 says. A link asks for its
reference clock while it is out of reset and neither in L1.2 nor in L2, as PCI Express has it (PRESUMED, log 7). -/
def State.ball (s : State) (b : Ball) : Drive :=
  match b with
  | .portData n => s.railed .phy (if (s.port n).failed then .free else .pullDowns)
  | .portCc n => if s.ballsReset || !s.sup.vbias || (s.eng (pathOf n)).state = .disabled then .free else .engine
  | .portGate n => .of (s.moor (pathOf n)).gate
  | .portDsch n => s.biased (.drain (s.dsch (pathOf n)))
  | .puData => s.railed .phy (if s.lan.pullup then .pullUp else .free)
  | .puCc => if s.ballsReset || !s.sup.vbias || s.mode = .dark then .deadRd else .engine
  | .puGateIn => .of s.pins.puGateIn
  | .puGateOut => .of (s.moor pu).gate
  | .secVset q => s.railed .phy (if (s.sector q).en then .level else .free)
  | .secEn q => .of (s.sector q).en
  | .hlTx l => if s.linkPowered l then (if (s.link l).up then .active else .electricalIdle) else .free
  | .hlRx l => if s.linkPowered l then .terminated else .free
  | .hlClkreq l => s.railed .phy (.drain (s.linkPowered l && !s.linkInReset l && !((s.link l).l1 && (s.link l).l12) && !(s.link l).l2))
  | .hlWake l => s.railed .phy (.drain (s.link l).wakeDrive)
  | .spiClk => s.railed .io (if s.flashBusy then .active else .low)
  | .spiCs => s.railed .io (.of (!s.flashBusy))
  | .spiIo0 => s.railed .io (if s.flashBusy then .active else .low)
  | .spiIo1 => s.railed .io (if s.flashBusy then .active else .free)
  | .spiIo2 => s.railed .io (if s.flashBusy then .active else .high)
  | .spiIo3 => s.railed .io (if s.flashBusy then .active else .high)
  | .smbLine => s.biased .released
  | .alert => s.biased (.drain s.alertLow)
  | .xtal => s.railed .phy .active
  | .bias _ => s.railed .phy .active
  | .enable .core => s.biased (.of s.sup.enCore)
  | .enable .io => s.biased (.of s.sup.enIo)
  | .enable .phy => s.biased (.of s.sup.enPhy)
  | .tdo => .free

end Sys2Proof.Machine
end

