-- ==== Sys2Proof/WellFormed.lean ====
section
/-! DEFINITION. Well-formed commands: what a sender or the outside world can supply. Operands of a fixed width carry their bound in
their type; the checks here are for the rest. A command that is not well formed still has a meaning: the step never asks. -/

namespace Sys2Proof

open Machine

/-- A register offset of manager BAR0 (R117). -/
def offsetOk (off : Nat) : Bool := decide (off < 0x100000)

/-- A cause from 1 to the highest code of its table. -/
def causeOk (cause top : Nat) : Bool := decide (1 ≤ cause) && decide (cause ≤ top)

/-- A flash header that can be read has its 512 bytes (Table 15.12). -/
def Machine.ImageHeader.wf (h : ImageHeader) : Bool := !h.readable || decide (h.bytes.length = 512)

/-- The kind of a failed read is one of the three of R163. -/
def Machine.FetchItem.wf (x : FetchItem) : Bool :=
  match x with
  | .failed kind => causeOk kind 3
  | _ => true

/-- A failed read has one of the three kinds of R163, and one completion holds at most the 4,096 bytes of a request. -/
def Machine.ReadEnd.wf (x : ReadEnd) : Bool :=
  match x with
  | .data bytes _ => decide (bytes.length ≤ 4096)
  | .failed kind => causeOk kind 3
  | .poisoned => true

/-- A keeper DMA request moves 1 to 4,096 bytes (Table 15.10). -/
def Machine.DmaEnd.wf (x : DmaEnd) : Bool :=
  decide ((match x with
    | .done bytes => bytes.length
    | .failed _ arrived => arrived.length) ≤ 4096)

/-- A data packet of a USB 2.0 bus has at most 1,024 bytes (Table 10.4). -/
def Machine.UsbEnd.wf (x : UsbEnd) : Bool :=
  match x with
  | .data bytes _ _ => decide (bytes.length ≤ 1024)
  | _ => true

/-- A device answers its packet size in one byte (R281). -/
def Machine.AddressAnswer.wf (x : AddressAnswer) : Bool :=
  match x with
  | .ok maxp => decide (maxp < 256)
  | _ => true

/-- A source advertises one of three currents (R309). -/
def Machine.CcSeen.wf (x : CcSeen) : Bool :=
  match x with
  | .source _ rp => causeOk rp 3
  | _ => true

/-- An IBP message has at most 4,096 bytes, sixteen of them its header (Table 13.7). -/
def Machine.IbpMsg.wf (m : IbpMsg) : Bool := decide (m.payload.length ≤ 4080)

/-- A tick measures each power path and each sector at most once (R361, R365). -/
def Machine.TickEnv.wf (e : TickEnv) : Bool :=
  decide ((e.meas.map Prod.fst).Nodup) && decide ((e.secMeas.map Prod.fst).Nodup)

/-- An upset names a place that exists; the words of the records lie in their regions (Table 16.1). -/
def Machine.UpsetAt.wf (u : UpsetAt) : Bool :=
  match u with
  | .merge row _ _ => decide (row < 0x40000)
  | .sealedByte off _ _ => offsetOk off && decide (off % 4 = 0)
  | .lamp _ i w _ => decide (i < 0x200) && decide (0x080000 ≤ w.val ∧ w.val < 0x090000)
  | .item i _ w _ => decide (i < 0x1000) && decide (0x090000 ≤ w.val ∧ w.val < 0x0B0000)
  | .counter c w _ => decide (c < 0x800) && decide (0x090000 ≤ w.val ∧ w.val < 0x0B0000)
  | .icache _ addr => decide (addr < 0x1000000)
  | .store _ _ | .spare _ _ _ => true

/-- What a sender or the outside world can supply with a command. A command that is not named has operands of bounded types only. -/
def Instr.wf (c : Instr) : Bool :=
  match c with
  | .crystalStable _ _ ha hb | .wickVinFilterExpiry ha hb | .modeTransitionDone ha hb => ha.a.wf && hb.wf
  | .imageBodyFetched body => decide (body.length ≤ 0x100000)
  | .updChunkProgrammed _ h _ => h.wf
  | .registerWrite _ off _ | .stagedLowWrite _ off _ | .mailboxSend _ off _ | .mailboxAck _ off _ => offsetOk off
  | .keeperLowWordWrite _ off _ _ | .keeperHighWordWrite _ off _ _ | .shadowHighRead _ off => offsetOk off
  | .shadowLowRead _ x => decide (x.off < 0x200000) && decide (1 ≤ x.n) && decide (x.n ≤ 128)
  | .smbRegRead a | .smbRegWrite a _ => decide (a.off < 2 ^ 32)
  | .beaconTick env => env.wf
  | .ringFetchComplete _ _ items => decide (items.length ≤ 4) && items.all FetchItem.wf
  | .buoyRestore _ items => items.all FetchItem.wf
  | .beaconSample _ ns => decide (ns < 2 ^ 20)
  | .lightListWalk t | .bulkCircuitVisit t => decide (t.ns < 125000)
  | .devAddress _ ans => ans.wf
  | .transactionEnd _ _ e => e.wf
  | .portFail _ cause | .fairwayFail _ cause => causeOk cause 3
  | .sectorFault _ cause => causeOk cause 6
  | .mooringFail _ cause => causeOk cause 5
  | .dmaSlotComplete _ _ e => e.wf
  | .dataReadCompletion _ e => e.wf
  | .ccAttachDetect _ seen => seen.wf
  | .ccDebounceExpiry _ seen => seen.all CcSeen.wf
  | .pdMessageReceived _ _ _ payload => decide (payload.length ≤ 264)
  | .pdTransmit _ _ _ vbus => decide (vbus < 2 ^ 13)
  | .lanOutToken _ _ bytes => decide (bytes.length ≤ 1024)
  | .lanSof _ offset => decide (offset < 2 ^ 16)
  | .ibpHello m | .ibpRegRead m | .ibpRegWrite m | .ibpMemRead m | .ibpMemWrite m | .ibpDoorbell m | .ibpFwMsg m => m.wf
  | .bar2Write _ addr bytes => decide (addr + bytes.length ≤ 0x200000)
  | .upset u => u.wf
  | _ => true

end Sys2Proof
end

