-- ==== Sys2Proof/Tests/Slice0.lean ====
section
/-! SUPPORT. Tests: the states that meet the hypotheses of each statement, worked cases of the spec, and ill-formed commands. -/

namespace Sys2Proof.Tests

set_option Elab.async false

open Sys2Proof Sys2Proof.Machine

/-- A descriptor or command entry of a TYPE with its parameters, tag 0x0100, Cycle bit of the first lap. -/
def ent (ty : Nat) (ps : List Nat) : Entry :=
  Vector.ofFn (fun i : Fin 8 =>
    BitVec.ofNat 32 (if i.val = 7 then ty * 256 + 1 else if i.val = 6 then 0x01000000 else ps.getD i.val 0))

/-- LIT on VIN with both links up, fifteen slots each, every ring open, and every function's memory space and mastering
enabled. -/
def lit : State :=
  { State.reset with
    sup := { vinValid := true, vbias := true, stage := .up, enCore := true, enIo := true, enPhy := true, pgCore := true, pgIo := true
             pgPhy := true }
    md := { mode := .lit }
    clk := { xtalOk := true, pllLock := true, refclkOk := Vector.replicate 2 true }
    lnk :=
      { State.reset.lnk with
        link := Vector.replicate 2 { up := true, perst := false, speed := 3, width := 2, vfEnable := true, numVFs := 15, aspmEnable := true
                                     ptmEnable := true, cfg := { vfMse := true } }
        msix := Vector.replicate 32 { memory := true, busMaster := true }
        buoy := Vector.replicate 15 { home := some .a, grant := 0xFFF } }
    rng := { fn := Vector.replicate 18 { rings := Vector.replicate 65 { opened := true, size := 4 }
                                         evts := Vector.replicate 4 { opened := true, size := 4, armed := true } } }
    bcn := { rate := .microframe, started := true } }

/-- The same in another mode. -/
def inMode (m : Mode) : State := lit.modMd (fun d => { d with mode := m })

/-- A function's ring with staged entries from index 0 on. -/
def stagedOn (s : State) (f : Func) (r : Fin 65) (es : List Entry) : State :=
  s.modRing f r (fun x =>
    { x with opened := true, size := 4, pi := BitVec.ofNat 16 es.length, ci := 0
             staged := es.zipIdx.map (fun e => { index := BitVec.ofNat 16 e.2, entry := some e.1, kind := .memory }) })

/-- A command at the head of a function's Command Ring. -/
def issuing (s : State) (f : Func) (e : Entry) : State := stagedOn s f 0 [e]

/-- Keeper 0 runs work item 0 of MF-A with an instruction in its cache at PC 0. -/
def running (w : DWord) (g : Keeper → Keeper) : State :=
  (lit.modTnd (fun t => { t with items := [(0, { dwords := Vector.replicate 6 0, owner := .mfA, state := .running, keeper := some 0 })] })).modKeeper 0
    (fun x => g { x with run := .item 0, icache := [{ base := 0, words := [(hiHalf w, false), (loHalf w, false)] }] })

/-- What a path brings, by its four conditions at once. -/
theorem brings {s : State} {p : Machine.Path} {r : Requester}
    (h : s.pathLive p = true ∧ p.reachesBar0 = true ∧ p ≠ .smbus ∧ s.requesterOf p = some r) : s.Brings p r := h

/-- A command that a function issues, by the checks of R211 at once. -/
theorem issues {s : State} {f : Func} {ty : Nat} {i : Half} {e : Entry}
    (h : s.cmdHead f = some { index := i, entry := some e, kind := .memory } ∧ etype e = ty ∧ (s.fn f).tagStatus (cmdTag e) = none ∧
      s.cmdLost f ty = false ∧ cmdReservedOk e = true) : s.Issues f ty i e (s.consume f 0 1) :=
  ⟨⟨.memory, h.1⟩, h.2.1, h.2.2.1, h.2.2.2.1, h.2.2.2.2, rfl⟩

/-- A cached instruction is fetched and changes nothing (R426). -/
theorem fetches_cached {s : State} {k : Fin 12} {w : DWord} (hr : s.kprRuns k = true)
    (hp : (s.keeper k).pc.toNat % 2 = 0 ∧ (s.placeOf (s.keeper k).pc.toNat).fetch = true) {l : CacheLine}
    (hl : (s.keeper k).line ((s.keeper k).pc.toNat / 8 * 8) = some l)
    (hg : ((l.parcels (s.keeper k).pc.toNat).1.2 || (l.parcels (s.keeper k).pc.toNat).2.2) = false)
    (hw : ofHalves (l.parcels (s.keeper k).pc.toNat).1.1 (l.parcels (s.keeper k).pc.toNat).2.1 = w) : s.Fetches k w s := by
  refine ⟨hr, ?_⟩
  simp only [State.fetchInstr, hl, hg, hw, hp.1, hp.2]
  simp

/-- A number in little-endian bytes. -/
def le (n v : Nat) : List Byte := (List.range n).map (fun i => BitVec.ofNat 8 (v / 256 ^ i))

/-- An image header in good form (Table 15.12): sequence number 5, a body of 32 bytes that is one code segment. -/
def header : ImageHeader :=
  { readable := true, keyHashMatch := true
    bytes := le 4 0x4E52564F ++ le 2 1 ++ le 2 0 ++ le 4 5 ++ le 1 0 ++ le 1 0 ++ le 2 0 ++ le 4 0 ++ le 4 2 ++ le 4 32 ++ le 2 1 ++ le 2 0
      ++ List.replicate 0x20 0 ++ (le 4 0 ++ le 4 32 ++ le 4 0 ++ le 4 1) ++ List.replicate (512 - 0x50) 0 }

/-- A Daymark pass that has read every register, begun after the capture. -/
def fullPass : DayPass := { next := 100000, captures := true }

/-- A running item whose watch of one microframe has run out. -/
def watched : Item :=
  { dwords := #v[0, 0, 0, 0, 0, 0], owner := .mfA, state := .running, keeper := some 0, dispatchedAt := 0xFFFFFFFF }

/-- A transfer descriptor of a TYPE with its dwords, in the first lap. -/
def dsc (ty : Nat) (ps : List Nat) : Entry :=
  Vector.ofFn (fun i : Fin 8 => BitVec.ofNat 32 (if i.val = 7 then ty * 256 + 1 else ps.getD i.val 0))

/-- A high-speed device at address 1 of fairway 0, on P0, with bulk IN 1, bulk OUT 2 and interrupt IN 3. -/
def dev : DevRec :=
  { inst := 1, port := 0
    eps := [(0, { xtype := 0, mult := 1, maxp := 64 }), (3, { xtype := 2, mult := 1, maxp := 512 }), (4, { xtype := 2, mult := 1, maxp := 512 }),
            (7, { xtype := 3, mult := 1, maxp := 64 })] }

/-- The device is attached and MF-A's rings 1 to 3 are bound to its endpoints. -/
def bound : State :=
  (((({ lit with fwy := { lit.fwy with fwy := lit.fwy.fwy.set 0 { devs := [(1, dev)], insts := [(1, 1)] } } } : State).modPort 0
    (fun p => { p with state := .enabled, speed := some .high })).modRing .mfA 1 (fun r => { r with bind := 0x800101A0, bindInst := 1 })).modRing .mfA 2
      (fun r => { r with bind := 0x80010220, bindInst := 1 })).modRing .mfA 3 (fun r => { r with bind := 0x800103B0, bindInst := 1 })

/-- A transfer in its data stage. -/
def moving (es : List Entry) : Transfer := { first := 0, entries := es, stage := .data, bufs := [(0x1000, 512)] }

/-- A waiting work item of MF-A with tag 7. -/
def posted : Item := { dwords := #v[0, 0, 0, 0, 1, 7], owner := .mfA, state := .ready }

/-- A word of the Holding Store that nothing has written reads 0 with good parity. -/
theorem reset_row (c r : Nat) : ({} : HoldingStore).readRow c r = (List.replicate 8 (0, false), {}) := rfl

/-- So does every word of a read of the empty store, whose registers stay. -/
theorem reset_access (c r k n : Nat) :
    ({} : HoldingStore).accessRow c r k n = (List.replicate n ((0, false), (0, false)), {}) := by
  have hw : ∀ j, wordAt (List.replicate 8 (0, false)) j = ((0, false), (0, false)) := by
    intro j
    simp only [wordAt, List.getD_eq_getElem?_getD, List.getElem?_replicate]
    split <;> split <;> rfl
  have hm : (List.range n).map (fun i => wordAt (List.replicate 8 (0, false)) (k + i)) = List.replicate n ((0, false), (0, false)) := by
    simp only [hw, List.map_const', List.length_range]
  have hp : (List.replicate n (((0, false), (0, false)) : RowByte × RowByte)).any wordPoisoned = false := by
    simp [wordPoisoned]
  simp only [HoldingStore.accessRow, reset_row, hm, hp]; rfl

/-- A run of words of the empty store. -/
theorem reset_run (c : Nat) : ∀ (f w n : Nat), n ≤ f → ({} : HoldingStore).readRun c w n f = (List.replicate n (0, false), {}) := by
  intro f
  induction f with
  | zero => intro w n h; obtain rfl : n = 0 := by omega
            rfl
  | succ f ih =>
    intro w n h
    by_cases h0 : n = 0
    · subst h0; rfl
    · have hk : n = min n (4 - w % 4) + (n - min n (4 - w % 4)) := by omega
      simp only [HoldingStore.readRun, h0, if_false, reset_access, ih _ (n - min n (4 - w % 4)) (by omega)]
      rw [List.map_replicate, show (wordData ((0, false), (0, false)), wordPoisoned ((0, false), (0, false))) = ((0 : Half), false) from rfl,
        List.replicate_append_replicate, ← hk]

/-- The image slots after reset hold zeros. -/
theorem reset_slot (b : Fin 15) :
    State.reset.hst.readWords 0x1C (imageBase b) imageWords =
      ((List.replicate imageWords 0).map (fun w => (w, false)), State.reset.hst) := by
  rw [List.map_replicate]; exact reset_run _ _ _ _ (by omega)

/-- The hypotheses of each clause of RailsFollowTheSupply can be met. -/
theorem test_RailsFollowTheSupply_met :
    (∃ (s : State), s.wick = false) ∧
    (∃ (s : State), s.wick = true) ∧
    (∃ (s : State), s.mode = .dark ∧ s.sup.stage = .held ∧ s.sup.present = true ∧ s.sup.resetLow = false ∧ s.sup.retry = false ∧
        s.sup.stuck = false ∧ s.sup.wickHold = false) ∧
    (∃ (s : State), s.sup.stage = .strapWait) ∧
    (∃ (s : State), s.sup.stage = .ready ∧ s.sup.present = true ∧ s.towardWick = false) ∧
    (∃ (s : State), s.sup.stage = .ready ∧ s.sup.present = true ∧ s.towardWick = true) ∧
    (∃ (s : State), s.sup.stage = .waitPg .core ∧ s.sup.enCore = true) ∧
    (∃ (s : State), s.sup.stage = .delay .core) ∧
    (∃ (s : State), s.sup.stage = .waitPg .io ∧ s.sup.enIo = true) ∧
    (∃ (s : State), s.sup.stage = .delay .io) ∧
    (∃ (s : State), s.sup.stage = .waitPg .phy ∧ s.sup.enPhy = true) ∧
    (∃ (s : State), s.sup.stage = .downIo ∧ s.sup.enCore = true) ∧
    (∃ (s : State), s.sup.stage = .downCore) :=
  ⟨⟨lit, by decide +kernel⟩,
   ⟨inMode .wick, by decide +kernel⟩,
   ⟨{ State.reset with sup := { vinValid := true, vbias := true } }, by and_intros <;> decide +kernel⟩,
   ⟨{ State.reset with sup := { stage := .strapWait } }, by decide +kernel⟩,
   ⟨{ State.reset with sup := { stage := .ready, vinValid := true, vbias := true } }, by and_intros <;> decide +kernel⟩,
   ⟨{ State.reset with sup := { stage := .ready, puValid := true, vbias := true } }, by and_intros <;> decide +kernel⟩,
   ⟨{ State.reset with sup := { stage := .waitPg .core, enCore := true } }, by and_intros <;> decide +kernel⟩,
   ⟨{ State.reset with sup := { stage := .delay .core } }, by decide +kernel⟩,
   ⟨{ State.reset with sup := { stage := .waitPg .io, enIo := true } }, by and_intros <;> decide +kernel⟩,
   ⟨{ State.reset with sup := { stage := .delay .io } }, by decide +kernel⟩,
   ⟨{ State.reset with sup := { stage := .waitPg .phy, enPhy := true } }, by and_intros <;> decide +kernel⟩,
   ⟨{ State.reset with sup := { stage := .downIo, enCore := true } }, by and_intros <;> decide +kernel⟩,
   ⟨{ State.reset with sup := { stage := .downCore } }, by decide +kernel⟩⟩

/-- The hypotheses of each clause of DarkAndItsCauses can be met. -/
theorem test_DarkAndItsCauses_met :
    (∃ (s : State), s.mode ≠ .dark ∧ s.mode ≠ .wick ∧ s.sup.vinValid = true) ∧
    (∃ (s : State), s.mode = .wick) ∧
    (∃ (s : State), s.sup.vinValid = false) ∧
    (∃ (s : State) (r : Rail), s.sup.stage = .waitPg r) ∧
    (∃ (s : State), s.sup.stage = .up ∧ s.sup.pgIo = true) ∧
    (∃ (s : State), s.sup.stage = .crystal) ∧
    (∃ (s : State), s.clk.xtalOk = true) ∧
    (∃ (s : State), s.clk.pllLock = true) ∧
    (∃ (s : State), s.pins.puGateIn = true) ∧
    (∃ (s : State), s.sup.enIo = true) :=
  ⟨⟨lit, by and_intros <;> decide +kernel⟩,
   ⟨inMode .wick, by decide +kernel⟩,
   ⟨State.reset, by decide +kernel⟩,
   ⟨{ State.reset with sup := { stage := .waitPg .io } }, .io, by decide +kernel⟩,
   ⟨lit, by and_intros <;> decide +kernel⟩,
   ⟨{ State.reset with sup := { stage := .crystal } }, by decide +kernel⟩,
   ⟨lit, by decide +kernel⟩,
   ⟨lit, by decide +kernel⟩,
   ⟨{ inMode .wick with pins := { puGateIn := true } }, by decide +kernel⟩,
   ⟨lit, by decide +kernel⟩⟩

/-- The hypotheses of each clause of SequencesEndInTheirModes can be met. -/
theorem test_SequencesEndInTheirModes_met :
    (∃ (s : State), s.sup.stage = .crystal) ∧
    (∃ (s : State), s.mode = .wick ∧ s.sup.wickVin = true) :=
  ⟨⟨{ State.reset with sup := { stage := .crystal } }, by decide +kernel⟩,
   ⟨{ inMode .wick with sup := { wickVin := true } }, by and_intros <;> decide +kernel⟩⟩

/-- The hypotheses of each clause of ModeRequestsAreJudged can be met. -/
theorem test_ModeRequestsAreJudged_met :
    (∃ (s : State) (p : Path) (r : Requester), s.Brings p r ∧ ((s.arrive p).keyConsume r 0x01000).isPrimary r = true) ∧
    (∃ (s : State) (p : Path) (r : Requester), s.Brings p r ∧ s.KeyOpen p r 0x01000 ∧ (s.unlocked p r 0x01000).isPrimary r = true) ∧
    (∃ (s : State) (code : Nat), code ≠ s.md.req ∧ s.md.going.isSome = true) ∧
    (∃ (s : State) (code : Nat) (n : _), code ≠ s.md.req ∧ s.md.going = none ∧ s.judgeMode code = .refuse n) ∧
    (∃ (s : State) (code : Nat), code ≠ s.md.req ∧ s.md.going = none ∧ s.judgeMode code = .go .safe ∧ s.md.safeHeld = none) ∧
    (∃ (s : State) (code : Nat), code ≠ s.md.req ∧ s.md.going = none ∧ s.judgeMode code = .go .night) :=
  ⟨⟨lit, .mgr .a, .mfA, brings (by and_intros <;> decide +kernel), by decide +kernel⟩,
   ⟨lit.setKeyhole .mfA { state := .opened }, .mgr .a, .mfA, brings (by and_intros <;> decide +kernel), (by unfold State.KeyOpen; decide +kernel),
       by decide +kernel⟩,
   ⟨lit.modMd (fun d => { d with going := some .standby }), 4, by and_intros <;> decide +kernel⟩,
   ⟨lit, 5, 1, by and_intros <;> decide +kernel⟩,
   ⟨lit, 8, by and_intros <;> decide +kernel⟩,
   ⟨lit, 6, by and_intros <;> decide +kernel⟩⟩

/-- The hypotheses of each clause of ModesAndPinsFollow can be met. -/
theorem test_ModesAndPinsFollow_met :
    (∃ (s : State) (m : Mode), s.md.going = some m ∧ m ≠ .relight ∧ m ≠ .update ∧ m ≠ .shed ∧ s.md.after = none ∧ s.md.reqHeld = false) ∧
    (∃ (s : State) (k : Fin 12), s.pathLive (.keeper k) = true) ∧
    (∃ (s : State), s.mode.safeFrom = true ∧ fieldNat s.md.safeCfg 0 8 ≤ s.md.missed ∧ s.md.safeHeld = none) ∧
    (∃ (s : State), s.mode ≠ .dark) ∧
    (∃ (s : State), s.shedReq = false) ∧
    (∃ (n : Fin 16), n ≠ 0) ∧
    (∃ (s : State), s.lgLevel 0 = true ∧ s.laneWakeOn = true) :=
  ⟨⟨lit.modMd (fun d => { d with going := some .standby }), .standby, by and_intros <;> decide +kernel⟩,
   ⟨running 0 id, 0, by decide +kernel⟩,
   ⟨lit.modMd (fun d => { d with missed := 8 }), by and_intros <;> decide +kernel⟩,
   ⟨lit, by decide +kernel⟩,
   ⟨lit, by decide +kernel⟩,
   ⟨15, by decide +kernel⟩,
   ⟨{ lit with pins := { lgMode0 := 3, lgIn := 1 } }, by and_intros <;> decide +kernel⟩⟩

/-- The hypotheses of each clause of UpdateAndTopRegisters can be met. -/
theorem test_UpdateAndTopRegisters_met :
    (∃ (s : State) (s1 : State) (p : Path) (r : Requester) (v : DWord), s.Brings p r ∧ s1 = s.arrived p r 0x01034 ∧ s1.isPrimary r = true ∧
        s1.mode = .update ∧ s1.md.going = none ∧ s1.upd.busy = false ∧ 1 ≤ fieldNat v 0 9 ∧ fieldNat v 0 9 ≤ 256 ∧ hiHalf v = s1.upd.lastSeq + 1 ∧
        s1.upd.kib + fieldNat v 0 9 ≤ 1024) ∧
    (∃ (s : State), s.upd.busy = true ∧ s.upd.final = false) ∧
    (∃ (s : State) (h : ImageHeader), s.upd.busy = true ∧ s.upd.final = true ∧ s.headerResult h false = 0 ∧ s.kpr.imageSeq.toNat < h.seq) ∧
    (∃ (s : State) (s1 : State) (p : Path) (r : Requester), s.Brings p r ∧ s1 = s.arrived p r 0x00010 ∧
        (s1.isPrimary r || s1.kindleWindow r) = true ∧ s1.isSealed 1 = false) ∧
    (∃ (s : State) (s1 : State) (p : Path) (r : Requester), s.Brings p r ∧ s1 = s.arrived p r 0x00028 ∧ s1.isPrimary r = true) ∧
    (∃ (s : State) (s1 : State) (p : Path) (r : Requester), s.Brings p r ∧ s1 = s.arrived p r 0x00028 ∧ s1.isPrimary r = false ∧
        r.isKeeper = true) :=
  ⟨⟨inMode .update, _, .mgr .a, .mfA, 0x00010100, brings (by and_intros <;> decide +kernel), rfl, by and_intros <;> decide +kernel⟩,
   ⟨lit.modUpd (fun u => { u with busy := true }), by and_intros <;> decide +kernel⟩,
   ⟨lit.modUpd (fun u => { u with busy := true, final := true }), header, by and_intros <;> decide +kernel⟩,
   ⟨lit, _, .mgr .a, .mfA, brings (by and_intros <;> decide +kernel), rfl, by and_intros <;> decide +kernel⟩,
   ⟨lit, _, .mgr .a, .mfA, brings (by and_intros <;> decide +kernel), rfl, by decide +kernel⟩,
   ⟨running 0 id, _, .keeper 0, .keeper 0, brings (by and_intros <;> decide +kernel), rfl, by and_intros <;> decide +kernel⟩⟩

/-- The hypotheses of each clause of BootRunsAndEnds can be met. -/
theorem test_BootRunsAndEnds_met :
    (∃ (s : State) (k : Fin 2) (body : List Byte), s.boot.stage = .fetching k ∧ body.length = s.boot.fetchLen k) ∧
    (∃ (s : State) (k : Fin 2), s.boot.stage = .checking k ∧ s.boot.bodyPoison = false) ∧
    (∃ (s : State) (u : State) (k : Fin 2), s.boot.stage = .running k ∧ u = (s.drainStores 0).slotResult k 0x09) ∧
    (∃ (s : State) (s1 : State) (k : Fin 2), s.pathLive (.keeper 0) = true ∧ s1 = s.arrived (.keeper 0) (.keeper 0) 0xA0010 ∧ s1.initRuns = true ∧
        s1.boot.stage = .running k ∧ s1.boot.purpose = .kindle) ∧
    (∃ (s : State) (s1 : State) (k : Fin 2), s.pathLive (.keeper 0) = true ∧ s1 = s.arrived (.keeper 0) (.keeper 0) 0xA0010 ∧ s1.initRuns = true ∧
        s1.boot.stage = .running k ∧ s1.boot.purpose = .relight) ∧
    (∃ (s : State) (p : DayPass), s.reg.day.pass = some p ∧ s.reg.day.captured p = true ∧ p.complete = true ∧ p.parityAt = none ∧
        s.boot.stage = .committing) :=
  ⟨⟨(lit.modBoot (fun b => { b with stage := .fetching 0, header := Vector.replicate 2 header })), 0, (List.replicate 32 0),
      by and_intros <;> decide +kernel⟩,
   ⟨(lit.modBoot (fun b => { b with stage := .checking 1 })), 1, by and_intros <;> decide +kernel⟩,
   ⟨(lit.modBoot (fun b => { b with stage := .running 0 })), _, 0, by decide +kernel, rfl⟩,
   ⟨((inMode .kindle).modBoot (fun b => { b with stage := .running 0 })).modKeeper 0 (fun x => { x with run := .program 1 }), _, 0,
       by decide +kernel, rfl, by and_intros <;> decide +kernel⟩,
   ⟨((inMode .relight).modBoot (fun b => { b with stage := .running 0, purpose := .relight })).modKeeper 0 (fun x => { x with run := .program 2 }), _, 0, by decide +kernel, rfl, by and_intros <;> decide +kernel⟩,
   ⟨((inMode .kindle).modBoot (fun b => { b with stage := .committing })).modDay (fun d => { d with capturing := true, pass := some fullPass }),
       fullPass, by and_intros <;> decide +kernel⟩⟩

/-- The hypotheses of each clause of LinksComeAndGo can be met. -/
theorem test_LinksComeAndGo_met :
    (∃ (s : State) (l : Link), (s.link l).perst = false) ∧
    (∃ (s : State) (l : Link), (s.link l).up = true ∧ (s.mode = .standby ∨ s.mode = .night)) ∧
    (∃ (s : State) (l : Link), s.mayTrain l = true ∧ (s.link l).up = false ∧ (s.link l).wakeDrive = false) ∧
    (∃ (s : State) (x : L1Entry) (d3 : Bool), (s.link x.link).up = true ∧ d3 = (s.lnk.msix[msixIdx x.link 0 (by omega)]).d3hot ∧
        (d3 = true ∨ s.mayL2 = true ∧ (s.link x.link).aspmEnable = true)) ∧
    (∃ (s : State) (l : Link), (s.link l).up = true) ∧
    (∃ (s : State) (l : Link), s.linkOpen l = true) ∧
    (∃ (s : State) (l : Link) (i : Fin 15), s.pathLive (.slotCfg l i) = true) :=
  ⟨⟨lit, .a, by decide +kernel⟩,
   ⟨inMode .night, .a, by and_intros <;> decide +kernel⟩,
   ⟨lit.modLink .a (fun x => { x with up := false }), .a, by and_intros <;> decide +kernel⟩,
   ⟨inMode .standby, { link := .a, clkreq := false }, false, by and_intros <;> decide +kernel⟩,
   ⟨lit, .a, by decide +kernel⟩,
   ⟨lit, .a, by decide +kernel⟩,
   ⟨lit, .a, 14, by decide +kernel⟩⟩

/-- The hypotheses of each clause of FunctionsAreReset can be met. -/
theorem test_FunctionsAreReset_met :
    (∃ (s : State) (l : Link) (i : Fin 15), s.pathLive (.slotCfg l i) = true ∧ s.slotState l i = 1) ∧
    (∃ (s : State) (l : Link) (i : Fin 15), s.pathLive (.slotCfg l i) = true ∧ s.slotState l i ≠ 1) ∧
    (∃ (s : State) (l : Link), s.linkOpen l = true ∧ (s.link l).vfEnable = true) :=
  ⟨⟨lit, .a, 14, by and_intros <;> decide +kernel⟩,
   ⟨lit, .b, 0, by and_intros <;> decide +kernel⟩,
   ⟨lit, .a, by and_intros <;> decide +kernel⟩⟩

/-- The hypotheses of each clause of ElementsAreReset can be met. -/
theorem test_ElementsAreReset_met :
    (∃ (s : State) (s1 : State) (p : Path) (r : Requester) (n : Fin 4), s.Brings p r ∧ s1 = s.arrived p r 0x0200C ∧ s1.isPrimary r = true ∧
        s1.portResetOn n = false ∧ (portsOf n).any (fun i => s1.portFit i) = true) ∧
    (∃ (s : State) (s1 : State) (p : Path) (r : Requester) (n : Fin 16), s.Brings p r ∧ s1 = s.arrived p r 0x0200C ∧ s1.isPrimary r = true ∧
        s1.portFit n = true) ∧
    (∃ (s : State) (n : Fin 4) (pass : Bool), bitOf s.clk.fwyOn n.val = true ∧ pass = false) ∧
    (∃ (s : State) (n : Fin 16), bitOf s.clk.portOn n.val = true) :=
  ⟨⟨lit, _, .mgr .a, .mfA, 3, brings (by and_intros <;> decide +kernel), rfl, by and_intros <;> decide +kernel⟩,
   ⟨lit, _, .mgr .a, .mfA, 15, brings (by and_intros <;> decide +kernel), rfl, by and_intros <;> decide +kernel⟩,
   ⟨{ lit with clk := { lit.clk with fwyOn := 8 } }, 3, false, by and_intros <;> decide +kernel⟩,
   ⟨{ lit with clk := { lit.clk with portOn := 0x8000 } }, 15, by decide +kernel⟩⟩

/-- The hypotheses of each clause of AssignmentsByThePrimary can be met. -/
theorem test_AssignmentsByThePrimary_met :
    (∃ (s : State) (s1 : State) (f : Func) (i : Half) (e : Entry) (b : Fin 15) (l : Link), s.Issues f 0x20 i e s1 ∧ s1.isPrimaryFn f = true ∧
        buoyParam e = some b ∧ fieldNat e[0] 10 22 = 0 ∧ fieldNat e[0] 4 4 = 0 ∧ paramsZero e [1, 2, 3, 4, 5] = true ∧
        fieldNat e[0] 8 2 = (if l = .b then 1 else 0) ∧ s1.slotExists l b = true ∧ s1.linkFit l = true ∧ (s1.buoy b).home = none) ∧
    (∃ (s : State) (s1 : State) (f : Func) (i : Half) (e : Entry) (b : Fin 15), s.Issues f 0x20 i e s1 ∧ s1.isPrimaryFn f = true ∧
        buoyParam e = some b ∧ fieldNat e[0] 10 22 = 0 ∧ fieldNat e[0] 4 4 = 0 ∧ paramsZero e [1, 2, 3, 4, 5] = true ∧ fieldNat e[0] 8 2 = 3 ∧
        (s1.buoy b).home.isSome = true) ∧
    (∃ (s : State) (s1 : State) (f : Func) (i : Half) (e : Entry) (b : Fin 15), s.Issues f 0x20 i e s1 ∧ s1.isPrimaryFn f = true ∧
        buoyParam e = some b ∧ fieldNat e[0] 10 22 = 0 ∧ fieldNat e[0] 4 4 = 0 ∧ paramsZero e [1, 2, 3, 4, 5] = true ∧ fieldNat e[0] 8 2 = 3 ∧
        (s1.buoy b).home.isSome = true) ∧
    (∃ (s : State) (s1 : State) (f : Func) (i : Half) (e : Entry) (o : Func), s.Issues f 0x21 i e s1 ∧ s1.isPrimaryFn f = true ∧
        ownerParam e = some o ∧ fieldNat e[0] 16 16 = 0 ∧ e[0] ≠ 0 ∧ fieldNat e[1] 8 24 = 0 ∧ paramsZero e [2, 3, 4, 5] = true ∧
        ((List.finRange 16).filter (fun n => bitOf e[0] n.val)).isEmpty = false ∧
        s1.assignGone ((List.finRange 16).filter (fun n => bitOf e[0] n.val)) o = false) ∧
    (∃ (s : State) (s1 : State) (f : Func) (i : Half) (e : Entry) (b : Fin 15), s.Issues f 0x22 i e s1 ∧ s1.isPrimaryFn f = true ∧
        buoyParam e = some b ∧ fieldNat e[0] 4 28 = 0 ∧ fieldNat e[1] 12 20 = 0 ∧ paramsZero e [2, 3, 4, 5] = true) ∧
    (∃ (s : State) (l : Link) (addr : Nat) (bytes : List Byte), s.pathLive (.bar2 l) = true ∧ s.bar2Open = true ∧
        s.isPrimary (Func.manager l).requester = true ∧ addr + bytes.length ≤ 2 * storeWords) ∧
    (∃ (s : State) (s1 : State) (f : Func) (i : Half) (e : Entry), s.Issues f 0x20 i e s1 ∧ s1.isPrimaryFn f = false) ∧
    (∃ (s : State) (s1 : State) (f : Func) (i : Half) (e : Entry), s.Issues f 0x21 i e s1 ∧ s1.isPrimaryFn f = false) ∧
    (∃ (s : State) (s1 : State) (f : Func) (i : Half) (e : Entry), s.Issues f 0x22 i e s1 ∧ s1.isPrimaryFn f = false) :=
  ⟨⟨issuing (lit.modBuoy 3 (fun x => { x with home := none })) .mfA (ent 0x20 [4]), _, .mfA, 0, (ent 0x20 [4]), 3, .a,
      issues (by and_intros <;> decide +kernel), by and_intros <;> decide +kernel⟩,
   ⟨issuing (lit) .mfA (ent 0x20 [0x304]), _, .mfA, 0, (ent 0x20 [0x304]), 3, issues (by and_intros <;> decide +kernel),
       by and_intros <;> decide +kernel⟩,
   ⟨issuing (lit) .mfA (ent 0x20 [0x304]), _, .mfA, 0, (ent 0x20 [0x304]), 3, issues (by and_intros <;> decide +kernel),
       by and_intros <;> decide +kernel⟩,
   ⟨issuing (lit) .mfA (ent 0x21 [0x8001, 0x22]), _, .mfA, 0, (ent 0x21 [0x8001, 0x22]), (.buoy 1), issues (by and_intros <;> decide +kernel),
       by and_intros <;> decide +kernel⟩,
   ⟨issuing (lit) .mfA (ent 0x22 [15, 0xFFF]), _, .mfA, 0, (ent 0x22 [15, 0xFFF]), 14, issues (by and_intros <;> decide +kernel),
       by and_intros <;> decide +kernel⟩,
   ⟨inMode .service, .a, 0x1FFFFF, [0x55], by and_intros <;> decide +kernel⟩,
   ⟨issuing (lit) .mfB (ent 0x20 [3]), _, .mfB, 0, (ent 0x20 [3]), issues (by and_intros <;> decide +kernel), by decide +kernel⟩,
   ⟨issuing (lit) .mfB (ent 0x21 [3]), _, .mfB, 0, (ent 0x21 [3]), issues (by and_intros <;> decide +kernel), by decide +kernel⟩,
   ⟨issuing (lit) (.buoy 2) (ent 0x22 [3]), _, (.buoy 2), 0, (ent 0x22 [3]), issues (by and_intros <;> decide +kernel), by decide +kernel⟩⟩

/-- The hypotheses of each clause of RegisterWritesAreTakenOrRefused can be met. -/
theorem test_RegisterWritesAreTakenOrRefused_met :
    (∃ (s : State) (p : Path) (r : Requester) (off : Nat), s.Brings p r ∧ off % 4 = 0 ∧ off < 0x100000 ∧ off ≠ 0x01000 ∧ off ≠ 0x03000 ∧
        off ≠ 0x04000 ∧ off ≠ 0xA0000) ∧
    (∃ (s : State) (p : Path) (off : Nat), s.pathLive p = true ∧ off % 8 = 0) ∧
    (∃ (s : State) (l : Link) (i : Fin 15) (off : Nat), s.pathLive (.slot l i) = true ∧ s.slotState l i = 1 ∧ off % 4 = 0 ∧ off < 0x8000) ∧
    (∃ (s : State) (l : Link) (i : Fin 15) (off : Nat), s.pathLive (.slot l i) = true ∧ off % 4 = 0 ∧ 0x8000 ≤ off ∧ off < 0x8040) ∧
    (∃ (s : State) (l : Link) (off : Nat), s.pathLive (.mgrMsix l) = true ∧ off % 4 = 0 ∧ off < 0x40) ∧
    (∃ (s : State) (l : Link) (off : Nat), s.linkOpen l = true ∧ off % 4 = 0) ∧
    (∃ (s : State) (l : Link) (i : Fin 15) (off : Nat), s.pathLive (.slotCfg l i) = true ∧ off % 4 = 0) ∧
    (∃ (s : State) (p : Path) (r : Requester) (off : Nat), s.Brings p r ∧ off % 4 ≠ 0 ∧ inPushWindow p off = false) ∧
    (∃ (s : State) (p : Path) (r : Requester) (off : Nat), s.Brings p r ∧ off % 8 ≠ 0 ∧ inPushWindow p off = false) ∧
    (∃ (s : State) (p : Path) (off : Nat), s.pathLive p = true ∧ off % 4 ≠ 0 ∧ inPushWindow p off = true) ∧
    (∃ (r : Requester), r ≠ .smbus) ∧
    (∃ (off : Nat), off ≠ 0x01000 ∧ off ≠ 0x03000 ∧ off ≠ 0x04000 ∧ off ≠ 0xA0000) :=
  ⟨⟨lit, .mgr .a, .mfA, 0xFFFFC, brings (by and_intros <;> decide +kernel), by and_intros <;> decide +kernel⟩,
   ⟨lit, .mgr .a, 0xFFFF8, by and_intros <;> decide +kernel⟩,
   ⟨lit, .a, 14, 0x7FFC, by and_intros <;> decide +kernel⟩,
   ⟨lit, .b, 14, 0x803C, by and_intros <;> decide +kernel⟩,
   ⟨lit, .a, 0x3C, by and_intros <;> decide +kernel⟩,
   ⟨lit, .a, 0xFFC, by and_intros <;> decide +kernel⟩,
   ⟨lit, .b, 14, 0xFFC, by and_intros <;> decide +kernel⟩,
   ⟨lit, .mgr .a, .mfA, 0xFFFFF, brings (by and_intros <;> decide +kernel), by and_intros <;> decide +kernel⟩,
   ⟨lit, .mgr .a, .mfA, 0xFFFFC, brings (by and_intros <;> decide +kernel), by and_intros <;> decide +kernel⟩,
   ⟨lit, .slot .a 14, 0x107E, by and_intros <;> decide +kernel⟩,
   ⟨(.keeper 11), by decide +kernel⟩,
   ⟨0xFFFFC, by and_intros <;> decide +kernel⟩⟩

/-- The hypotheses of each clause of SealedRegistersAreGuarded can be met. -/
theorem test_SealedRegistersAreGuarded_met :
    (∃ (s : State) (r : Requester), (s.isPrimary r || s.kindleWindow r) = false) ∧
    (∃ (s : State) (r : Requester) (group : Nat), (s.isPrimary r || s.kindleWindow r) = true ∧ s.isSealed group = true) ∧
    (∃ (s : State) (r : Requester) (group : Nat), (s.isPrimary r || s.kindleWindow r) = true ∧ s.isSealed group = false) ∧
    (∃ (s : State) (s1 : State) (p : Path) (r : Requester), s.Brings p r ∧ s1 = s.arrived p r 0x05000 ∧ s1.isPrimary r = true) ∧
    (∃ (s : State) (s1 : State) (p : Path) (r : Requester), s.Brings p r ∧ s1 = s.arrived p r 0x05000 ∧ s1.isPrimary r = false) :=
  ⟨⟨lit, .mfB, by decide +kernel⟩,
   ⟨lit.modReg (fun x => { x with sealSet := 0x3F }), .mfA, 5, by and_intros <;> decide +kernel⟩,
   ⟨lit, .mfA, 5, by and_intros <;> decide +kernel⟩,
   ⟨lit, _, .mgr .a, .mfA, brings (by and_intros <;> decide +kernel), rfl, by decide +kernel⟩,
   ⟨lit, _, .mgr .b, .mfB, brings (by and_intros <;> decide +kernel), rfl, by decide +kernel⟩⟩

/-- The hypotheses of each clause of KeyholeGuardsItsRegisters can be met. -/
theorem test_KeyholeGuardsItsRegisters_met :
    (∃ (s : State) (p : Path) (r : Requester), s.Brings p r ∧ (s.isPrimary r = true ∨ r = .bootRom) ∧ (s.arrive p).keyState r = .armed) ∧
    (∃ (s : State) (p : Path) (r : Requester) (v : DWord), s.Brings p r ∧ (s.isPrimary r = true ∨ r = .bootRom) ∧ (s.arrive p).keyState r = .half ∧
        v ≠ 0xB4A9 ∧ v ≠ 0x4B56) ∧
    (∃ (s : State) (p : Path) (r : Requester), s.Brings p r ∧ s.isPrimary r = false ∧ r ≠ .bootRom) ∧
    (∃ (s : State) (r : Requester) (k : Keyhole), s.keyhole r = some k ∧ k.state ≠ .armed ∧ 8 ≤ k.ticks) ∧
    (∃ (s : State) (r : Requester), s.keyState r ≠ .opened ∧ r ≠ .smbus) :=
  ⟨⟨lit, .mgr .a, .mfA, brings (by and_intros <;> decide +kernel), by and_intros <;> decide +kernel⟩,
   ⟨lit.setKeyhole .mfA { state := .half }, .mgr .a, .mfA, 0, brings (by and_intros <;> decide +kernel), by and_intros <;> decide +kernel⟩,
   ⟨lit, .mgr .b, .mfB, brings (by and_intros <;> decide +kernel), by and_intros <;> decide +kernel⟩,
   ⟨lit.setKeyhole .mfA { state := .opened, ticks := 8 }, .mfA, { state := .opened, ticks := 8 }, by and_intros <;> decide +kernel⟩,
   ⟨lit, .mfA, by and_intros <;> decide +kernel⟩⟩

/-- The hypotheses of each clause of DaymarkChecksTheRegisters can be met. -/
theorem test_DaymarkChecksTheRegisters_met :
    (∃ (s : State) (p : Path) (r : Requester), s.Brings p r ∧ s.KeyOpen p r 0x03000) ∧
    (∃ (d : Daymark) (p : DayPass), d.capturing = false ∧ d.stale = false ∧ p.comparable = true) ∧
    (∃ (d : Daymark) (p : DayPass), d.captured p = true) :=
  ⟨⟨lit.setKeyhole .mfA { state := .opened }, .mgr .a, .mfA, brings (by and_intros <;> decide +kernel), (by unfold State.KeyOpen; decide +kernel)⟩,
   ⟨{ stale := false }, {}, by and_intros <;> decide +kernel⟩,
   ⟨{ capturing := true }, fullPass, by decide +kernel⟩⟩

/-- The hypotheses of each clause of RegistersAreAccessedInParts can be met. -/
theorem test_RegistersAreAccessedInParts_met :
    (∃ (s : State) (p : Path) (off : Nat), s.pathLive p = true ∧ low64 p off = true ∧ (∀ k, p ≠ .keeper k) ∧ p ≠ .bootRom ∧
        s.poisonedReg off = false) ∧
    (∃ (s : State) (l : Link) (p : Path) (off : Nat), s.pathLive p = true ∧ pathLink p = some l ∧ p ≠ .bar2 l ∧ off % 8 = 0 ∧
        s.poisonedReg off = false) ∧
    (∃ (s : State) (off : Nat), s.pathLive .bootRom = true ∧ low64 .bootRom off = true) ∧
    (∃ (s : State) (p : Path) (off : Nat), s.pathLive p = true ∧ low64 p off = true ∧ (∀ k, p ≠ .keeper k) ∧ p ≠ .bootRom ∧
        s.poisonedReg (off + 4) = false) ∧
    (∃ (s : State) (k : Fin 12) (off : Nat), s.pathLive (.keeper k) = true ∧ low64 (.keeper k) off = true ∧ off % 4 = 0) ∧
    (∃ (s : State) (p : Path) (r : Requester) (off : Nat), s.requesterOf p = some r ∧ (s.arrive p).requesterOf p = some r ∧ low64 p off = true ∧
        low64 p (off + 4) = false ∧ (∀ k, p ≠ .keeper k)) ∧
    (∃ (s : State) (s1 : State) (p : Path) (r : Requester) (n : Fin 32), s.Brings p r ∧ low64 p (0x10400 + 0x10 * n.val) = true ∧
        s1 = s.arrived p r (0x10400 + 0x10 * n.val) ∧ s1.isPrimary r = true ∧ s1.isSealed 4 = false) ∧
    (∃ (s : State) (k : Fin 12) (off : Nat) (lo : Half), s.pathLive (.keeper k) = true ∧ off % 4 = 0 ∧ off < 0x100000 ∧
        (s.reqState (.keeper k)).stagedWord = some (off, lo)) ∧
    (∃ (s : State) (k : Fin 12) (off : Nat), s.pathLive (.keeper k) = true ∧ off % 4 = 0 ∧ off < 0x100000 ∧
        (s.reqState (.keeper k)).stagedWord = none) :=
  ⟨⟨lit, .mgr .a, 0x10400, by and_intros <;> decide +kernel⟩,
   ⟨lit, .a, .mgr .a, 0x10400, by and_intros <;> decide +kernel⟩,
   ⟨(inMode .kindle).modKeeper 0 (fun x => { x with run := .bootRom }), 0x10400, by and_intros <;> decide +kernel⟩,
   ⟨lit, .mgr .a, 0x10400, by and_intros <;> decide +kernel⟩,
   ⟨running 0 id, 0, 0x10400, by and_intros <;> decide +kernel⟩,
   ⟨lit, .mgr .a, .mfA, 0x105F0, by and_intros <;> decide +kernel⟩,
   ⟨lit, _, .mgr .a, .mfA, 31, brings (by and_intros <;> decide +kernel), by decide +kernel, rfl, by and_intros <;> decide +kernel⟩,
   ⟨(running 0 id).modReq (.keeper 0) (fun x => { x with stagedWord := some (0x40C, 7) }), 0, 0x40C, 7, by and_intros <;> decide +kernel⟩,
   ⟨running 0 id, 0, 0xFFFFC, by and_intros <;> decide +kernel⟩⟩

/-- The hypotheses of each clause of SmbusOnlyReads can be met. -/
theorem test_SmbusOnlyReads_met :
    (∃ (s : State) (off : Nat), s.mode ≠ .dark ∧ s.mode ≠ .wick ∧ off % 4 = 0 ∧ off < 0x100000) ∧
    (∃ (off : Nat), (low64 .smbus off = true ∨ off < 4 ∨ low64 .smbus (off - 4) = false)) ∧
    (∃ (s : State), s.mode ≠ .dark ∧ s.mode ≠ .wick) ∧
    (∃ (s : State) (a : SmbTarget), a.adr ≠ s.smbAddress) :=
  ⟨⟨lit, 0xFFFFC, by and_intros <;> decide +kernel⟩,
   ⟨0x10400, by decide +kernel⟩,
   ⟨lit, by and_intros <;> decide +kernel⟩,
   ⟨lit, { adr := 0x59, off := 0 }, by decide +kernel⟩⟩

/-- The hypotheses of each clause of LogbookStartsAndEnds can be met. -/
theorem test_LogbookStartsAndEnds_met :
    (∃ (s : State) (s1 : State) (p : Path) (r : Requester) (b : Fin 15) (v : DWord), s.Brings p r ∧ s1 = s.arrived p r (logCtlOff b) ∧
        s1.isPrimary r = true ∧ bitOf v 31 = true ∧ (s1.log b).logging = false ∧ (s1.log b).inRange = true ∧ (s1.buoy b).home.isSome = true) ∧
    (∃ (s : State) (s1 : State) (p : Path) (r : Requester) (b : Fin 15) (v : DWord), s.Brings p r ∧ s1 = s.arrived p r (logCtlOff b) ∧
        s1.isPrimary r = true ∧ bitOf v 31 = true ∧ (s1.log b).logging = true) ∧
    (∃ (s : State) (s1 : State) (p : Path) (r : Requester) (b : Fin 15) (v : DWord), s.Brings p r ∧ s1 = s.arrived p r (logCtlOff b) ∧
        s1.isPrimary r = true ∧ bitOf v 31 = false) :=
  ⟨⟨lit.modLog 14 (fun x => { x with rangeHi := 0, pages := 1 }), _, .mgr .a, .mfA, 14, 0x80000000, brings (by and_intros <;> decide +kernel),
      rfl, by and_intros <;> decide +kernel⟩,
   ⟨lit.modLog 0 (fun x => { x with logging := true }), _, .mgr .a, .mfA, 0, 0x80000000, brings (by and_intros <;> decide +kernel), rfl,
       by and_intros <;> decide +kernel⟩,
   ⟨lit, _, .mgr .a, .mfA, 0, 0, brings (by and_intros <;> decide +kernel), rfl, by and_intros <;> decide +kernel⟩⟩

/-- The hypotheses of each clause of BeaconCountsAndPairs can be met. -/
theorem test_BeaconCountsAndPairs_met :
    (∃ (s : State), s.bcn.rate ≠ .stopped) ∧
    (∃ (s : State), s.tenderOn = true ∧ s.tnd.epochAt ≠ some s.bcn.count) ∧
    (∃ (s : State) (k : Fin 12) (i : Nat) (x : Item), (s.keeper k).run = .item i ∧ s.item i = some x ∧ s.watchDue x = true) ∧
    (∃ (s : State) (f : Func) (n : Fin 4), (s.evRing f n).opened = true ∧ s.isFrozen f = false ∧ (s.evRing f n).armed = true ∧
        ((s.evRing f n).actInterval = 0 ∨ (s.evRing f n).actCount ≠ 0 ∧
        (s.evRing f n).actCount ≤ (s.evRing f n).sinceMsg ∨ (s.evRing f n).tickDue = true) ∧ s.canMaster f = true) ∧
    (∃ (s : State) (n : DWord), s.tnd.epochAt = some n) ∧
    (∃ (s : State) (l : Link), s.ptmOn l = true ∧ s.bcn.ptmAsked[l.idx] = true) ∧
    (∃ (s : State) (s1 : State) (p : Path) (r : Requester) (v : DWord), s.Brings p r ∧ s1 = s.arrived p r 0x30040 ∧ s1.isPrimary r = true ∧
        fieldNat v 0 2 = 2) :=
  ⟨⟨lit, by decide +kernel⟩,
   ⟨lit, by and_intros <;> decide +kernel⟩,
   ⟨(running 0 id).modTnd (fun t => { t with items := [(0, watched)] }), 0, 0, watched, by and_intros <;> decide +kernel⟩,
   ⟨lit, .mfA, 3, by and_intros <;> decide +kernel⟩,
   ⟨lit.modTnd (fun t => { t with epochAt := some 7 }), 7, by decide +kernel⟩,
   ⟨{ lit with bcn := { lit.bcn with ptmAsked := Vector.replicate 2 true } }, .a, by and_intros <;> decide +kernel⟩,
   ⟨lit, _, .mgr .a, .mfA, 2, brings (by and_intros <;> decide +kernel), rfl, by and_intros <;> decide +kernel⟩⟩

/-- The hypotheses of each clause of DoorbellsMoveIndices can be met. -/
theorem test_DoorbellsMoveIndices_met :
    (∃ (s : State) (s1 : State) (p : Path) (f : Func) (ring : Fin 65) (v : DWord), s.RingsAt p f 0 s1 ∧ fieldNat v 8 8 = 0 ∧
        ringOf f (fieldNat v 0 8) = some ring ∧ (s1.ring f ring).opened = true ∧
        idxDist (hiHalf v) (s1.ring f ring).ci ≤ 2 ^ (s1.ring f ring).size) ∧
    (∃ (s : State) (s1 : State) (p : Path) (f : Func) (ring : Fin 65) (v : DWord), s.RingsAt p f 0 s1 ∧ fieldNat v 8 8 = 0 ∧
        ringOf f (fieldNat v 0 8) = some ring ∧ (s1.ring f ring).opened = true ∧
        2 ^ (s1.ring f ring).size < idxDist (hiHalf v) (s1.ring f ring).ci) ∧
    (∃ (s : State) (s1 : State) (p : Path) (f : Func) (n : Fin 4) (v : DWord), s.RingsAt p f 0 s1 ∧ fieldNat v 8 8 = 0 ∧
        fieldNat v 0 8 = 0xE0 + n.val ∧ (s1.evRing f n).opened = true ∧
        idxDist (hiHalf v) (s1.evRing f n).hci ≤ idxDist (s1.evRing f n).ep (s1.evRing f n).hci) ∧
    (∃ (s : State) (s1 : State) (p : Path) (f : Func) (v : DWord), s.RingsAt p f 0 s1 ∧ fieldNat v 8 8 ≠ 0) :=
  ⟨⟨lit, _, .mgr .a, .mfA, 64, 0x00100040, ⟨by decide +kernel, by decide +kernel, .mfA, 0x20000, by decide +kernel, by decide +kernel,
      by decide +kernel, rfl⟩, by and_intros <;> decide +kernel⟩,
   ⟨lit, _, .mgr .a, .mfA, 64, 0x00110040, ⟨by decide +kernel, by decide +kernel, .mfA, 0x20000, by decide +kernel, by decide +kernel,
       by decide +kernel, rfl⟩, by and_intros <;> decide +kernel⟩,
   ⟨lit.modEvRing .mfA 3 (fun x => { x with ep := 16 }), _, .mgr .a, .mfA, 3, 0x001000E3, ⟨by decide +kernel, by decide +kernel, .mfA, 0x20000,
       by decide +kernel, by decide +kernel, by decide +kernel, rfl⟩, by and_intros <;> decide +kernel⟩,
   ⟨lit, _, .mgr .a, .mfA, 0x100, ⟨by decide +kernel, by decide +kernel, .mfA, 0x20000, by decide +kernel, by decide +kernel, by decide +kernel,
       rfl⟩, by decide +kernel⟩⟩

/-- The hypotheses of each clause of EntriesReachTheirRings can be met. -/
theorem test_EntriesReachTheirRings_met :
    (∃ (s : State) (s1 : State) (p : Path) (f : Func) (w : Fin 32), s.RingsAt p f (0x1000 + 4 * w.val) s1 ∧ f ≠ .bridge) ∧
    (∃ (s : State) (s1 : State) (p : Path) (f : Func) (ring : Fin 65) (v : DWord), s.RingsAt p f 4 s1 ∧ f ≠ .bridge ∧ fieldNat v 11 5 = 0 ∧
        ringOf f (fieldNat v 0 8) = some ring ∧ (s1.ring f ring).opened = true ∧ fieldNat v 8 3 = 1 ∧
        idxDist (hiHalf v) (s1.ring f ring).ci ≤ 2 ^ (s1.ring f ring).size) ∧
    (∃ (s : State) (s1 : State) (p : Path) (f : Func) (ring : Fin 65) (v : DWord), s.RingsAt p f 4 s1 ∧ f ≠ .bridge ∧ fieldNat v 11 5 = 0 ∧
        ringOf f (fieldNat v 0 8) = some ring ∧ (s1.ring f ring).opened = true ∧ (fieldNat v 8 3 = 0 ∨ 4 < fieldNat v 8 3)) ∧
    (∃ (s : State) (s1 : State) (p : Path) (f : Func) (r : Fin 65) (v : DWord), s.RingsAt p f (0x2008 + 0x20 * r.val) s1 ∧ r.val ≤ lastRing f ∧
        (s1.ring f r).opened = false ∧ bitOf v 31 = true ∧ 4 ≤ fieldNat v 24 4 ∧ fieldNat v 24 4 ≤ 12 ∧ fieldNat v 16 2 ≤ 1 ∧ fieldNat v 8 2 = 0 ∧
        baseOk f (s1.ring f r).baseLo (s1.ring f r).baseHi (fieldNat v 24 4) = true ∧ (s1.evRing f 0).opened = true) ∧
    (∃ (s : State) (s1 : State) (p : Path) (f : Func) (r : Fin 65), s.RingsAt p f (0x2008 + 0x20 * r.val) s1 ∧ r.val ≤ lastRing f ∧
        (s1.ring f r).opened = true) ∧
    (∃ (s : State) (s1 : State) (p : Path) (f : Func) (n : Fin 4), s.RingsAt p f (0x2A08 + 0x20 * n.val) s1 ∧ (s1.evRing f n).opened = true) ∧
    (∃ (s : State) (s1 : State) (p : Path) (f : Func) (n : Fin 4) (v : DWord), s.RingsAt p f (0x2A08 + 0x20 * n.val) s1 ∧ f ≠ .bridge ∧
        (s1.evRing f n).opened = false ∧ bitOf v 31 = true ∧ 4 ≤ fieldNat v 24 4 ∧ fieldNat v 24 4 ≤ 12 ∧
        baseOk f (s1.evRing f n).baseLo (s1.evRing f n).baseHi (fieldNat v 24 4) = true) ∧
    (∃ (s : State) (f : Func) (r : Fin 65) (i : Half) (e : Entry), s.mayFetch f r = true ∧ f ≠ .bridge ∧ (s.ring f r).wanted = some i ∧
        ecycle e = cycleAt (s.ring f r).size i) ∧
    (∃ (s : State) (f : Func) (r : Fin 65) (i : Half) (e : Entry), s.mayFetch f r = true ∧ f ≠ .bridge ∧ (s.ring f r).wanted = some i ∧
        ecycle e ≠ cycleAt (s.ring f r).size i) :=
  ⟨⟨lit, _, .slot .a 2, (.buoy 2), 31, ⟨by decide +kernel, by decide +kernel, (.buoy 2), 0, by decide +kernel, by decide +kernel,
      by decide +kernel, rfl⟩, by decide +kernel⟩,
   ⟨lit, _, .slot .a 2, (.buoy 2), 5, 0x00010105, ⟨by decide +kernel, by decide +kernel, (.buoy 2), 0, by decide +kernel, by decide +kernel,
       by decide +kernel, rfl⟩, by and_intros <;> decide +kernel⟩,
   ⟨lit, _, .slot .a 2, (.buoy 2), 5, 0x00010505, ⟨by decide +kernel, by decide +kernel, (.buoy 2), 0, by decide +kernel, by decide +kernel,
       by decide +kernel, rfl⟩, by and_intros <;> decide +kernel⟩,
   ⟨lit.modRing .mfA 64 (fun x => { x with opened := false }), _, .mgr .a, .mfA, 64, 0x8C000000, ⟨by decide +kernel, by decide +kernel, .mfA,
       0x20000, by decide +kernel, by decide +kernel, by decide +kernel, rfl⟩, by and_intros <;> decide +kernel⟩,
   ⟨lit, _, .mgr .a, .mfA, 64, ⟨by decide +kernel, by decide +kernel, .mfA, 0x20000, by decide +kernel, by decide +kernel, by decide +kernel,
       rfl⟩, by and_intros <;> decide +kernel⟩,
   ⟨lit, _, .mgr .a, .mfA, 3, ⟨by decide +kernel, by decide +kernel, .mfA, 0x20000, by decide +kernel, by decide +kernel, by decide +kernel, rfl⟩,
       by decide +kernel⟩,
   ⟨lit.modEvRing .mfA 3 (fun x => { x with opened := false }), _, .mgr .a, .mfA, 3, 0x8C000000, ⟨by decide +kernel, by decide +kernel, .mfA,
       0x20000, by decide +kernel, by decide +kernel, by decide +kernel, rfl⟩, by and_intros <;> decide +kernel⟩,
   ⟨lit.modRing .mfA 64 (fun x => { x with pi := 1 }), .mfA, 64, 0, (ent 0x01 []), by and_intros <;> decide +kernel⟩,
   ⟨lit.modRing .mfA 64 (fun x => { x with pi := 1 }), .mfA, 64, 0, (Vector.replicate 8 0), by and_intros <;> decide +kernel⟩⟩

/-- The hypotheses of each clause of NoopSucceeds can be met. -/
theorem test_NoopSucceeds_met :
    (∃ (s : State) (s1 : State) (f : Func) (i : Half) (e : Entry), s.Issues f 0x01 i e s1 ∧ paramsZero e [0, 1, 2, 3, 4, 5] = true) ∧
    (∃ (s : State) (s1 : State) (f : Func) (i : Half) (e : Entry), s.Issues f 0x01 i e s1 ∧ paramsZero e [0, 1, 2, 3, 4, 5] = false) :=
  ⟨⟨issuing (lit) .mfA (ent 0x01 []), _, .mfA, 0, (ent 0x01 []), issues (by and_intros <;> decide +kernel), by decide +kernel⟩,
   ⟨issuing (lit) .mfA (ent 0x01 [0, 0, 0, 0, 0, 1]), _, .mfA, 0, (ent 0x01 [0, 0, 0, 0, 0, 1]), issues (by and_intros <;> decide +kernel),
       by decide +kernel⟩⟩

/-- The hypotheses of each clause of CommandRingEntriesEnd can be met. -/
theorem test_CommandRingEntriesEnd_met :
    (∃ (s : State) (f : Func) (i : Half) (k : CopyKind), s.cmdHead f = some { index := i, entry := none, kind := k }) ∧
    (∃ (s : State) (s1 : State) (f : Func) (i : Half) (e : Entry), s.Issues f (etype e) i e s1 ∧ cmdDefined e = false) ∧
    (∃ (s : State) (f : Func) (i : Half) (e : Entry) (k : CopyKind) (st : Nat), s.cmdHead f = some { index := i, entry := some e, kind := k } ∧
        etype e = 0x01 ∧ (s.fn f).tagStatus (cmdTag e) = some st) ∧
    (∃ (s : State) (s1 : State) (f : Func) (i : Half) (e : Entry) (ring : Fin 65), s.Issues f 0x02 i e s1 ∧
        ringOf f (fieldNat e[0] 0 8) = some ring ∧ fieldNat e[0] 8 24 = 0 ∧ e[1] &&& ~~~bindMask = 0 ∧ paramsZero e [2, 3, 4, 5] = true ∧
        ring.val ≠ 0 ∧ s1.carriesLamp f ring = false ∧ (s1.ring f ring).rebind = none) ∧
    (∃ (s : State) (f : Func) (ring : Fin 65) (b : Rebind), (s.ring f ring).rebind = some b ∧ (s.ring f ring).drained b.mark = true ∧
        s.isHeld f = false) :=
  ⟨⟨lit.modRing .mfA 0 (fun x => { x with pi := 1, staged := [{ index := 0, entry := none, kind := .memory }] }), .mfA, 0, .memory,
      by decide +kernel⟩,
   ⟨issuing (lit) .mfA (ent 0x7F []), _, .mfA, 0, (ent 0x7F []), issues (by and_intros <;> decide +kernel), by decide +kernel⟩,
   ⟨(issuing lit .mfA (ent 0x01 [])).modFn .mfA (fun x => { x with tags := [(0x0100, 1)] }), .mfA, 0, (ent 0x01 []), .memory, 1,
       by and_intros <;> decide +kernel⟩,
   ⟨issuing (lit) .mfA (ent 0x02 [64, 0x800101A0]), _, .mfA, 0, (ent 0x02 [64, 0x800101A0]), 64, issues (by and_intros <;> decide +kernel),
       by and_intros <;> decide +kernel⟩,
   ⟨lit.modRing .mfA 64 (fun x => { x with rebind := some { tag := 1, index := 0, mark := 0, newBind := 0 } }), .mfA, 64,
       { tag := 1, index := 0, mark := 0, newBind := 0 }, by and_intros <;> decide +kernel⟩⟩

/-- The hypotheses of each clause of MailboxesDeliver can be met. -/
theorem test_MailboxesDeliver_met :
    (∃ (s : State) (s1 : State) (l : Link) (b : Fin 15), s.pathLive (.slot l b) = true ∧ s.slotState l b = 1 ∧
        s1 = s.arrived (.slot l b) (.buoy b) 0x3040) ∧
    (∃ (s : State) (s1 : State) (p : Path) (r : Requester) (b : Fin 15), s.Brings p r ∧ s1 = s.arrived p r (0xC8040 + 0x100 * b.val) ∧
        s1.isPrimary r = true) ∧
    (∃ (s : State) (s1 : State) (l : Link) (b : Fin 15), s.pathLive (.slot l b) = true ∧ s.slotState l b = 1 ∧
        s1 = s.arrived (.slot l b) (.buoy b) 0x30C4) ∧
    (∃ (s : State) (s1 : State) (p : Path) (r : Requester) (b : Fin 15), s.Brings p r ∧ s1 = s.arrived p r (0xC80C4 + 0x100 * b.val) ∧
        s1.isPrimary r = true) ∧
    (∃ (s : State) (x : MboxSide) (v : DWord), sendResult (s.sends x) (hiHalf v) (fieldNat v 0 5) ≠ 1) ∧
    (∃ (s : State) (x : MboxSide) (v : DWord), sendResult (s.sends x) (hiHalf v) (fieldNat v 0 5) = 1) ∧
    (∃ (s : State) (s1 : State) (l : Link), s.Brings (.mgr l) (Func.manager l).requester ∧
        s1 = s.arrived (.mgr l) (Func.manager l).requester 0xC9040) ∧
    (∃ (s : State) (s1 : State) (l : Link), s.Brings (.mgr l) (Func.manager l).requester ∧
        s1 = s.arrived (.mgr l) (Func.manager l).requester 0xC90C4) ∧
    (∃ (s : State) (x : MboxSide) (v : DWord), loHalf v = (s.sends x.peer).inSeq) ∧
    (∃ (s : State) (x : MboxSide) (v : DWord), loHalf v ≠ (s.sends x.peer).inSeq) :=
  ⟨⟨lit, _, .a, 14, by decide +kernel, by decide +kernel, rfl⟩,
   ⟨lit, _, .mgr .a, .mfA, 14, brings (by and_intros <;> decide +kernel), rfl, by decide +kernel⟩,
   ⟨lit, _, .a, 14, by decide +kernel, by decide +kernel, rfl⟩,
   ⟨lit, _, .mgr .a, .mfA, 14, brings (by and_intros <;> decide +kernel), rfl, by decide +kernel⟩,
   ⟨lit, (.tenant 0), 0x00020001, by decide +kernel⟩,
   ⟨lit, (.tenant 0), 0x00010010, by decide +kernel⟩,
   ⟨lit, _, .b, brings (by and_intros <;> decide +kernel), rfl⟩,
   ⟨lit, _, .b, brings (by and_intros <;> decide +kernel), rfl⟩,
   ⟨lit, (.tenant 0), 0, by decide +kernel⟩,
   ⟨lit, (.tenant 0), 1, by decide +kernel⟩⟩

/-- The hypotheses of each clause of LampsAndWalks can be met. -/
theorem test_LampsAndWalks_met :
    (∃ (s : State) (t : ServeTime), s.engineOn t.fa = true ∧ s.bcn.walked[t.fa] = false ∧ (s.walkFrom t.fa t.ns (s.walkOrder t.fa)).2 = true) ∧
    (∃ (s : State) (t : ServeTime), s.engineOn t.fa = true ∧ s.bcn.walked[t.fa] = false ∧ s.lamps t.fa = []) ∧
    (∃ (s : State) (t : ServeTime), s.engineOn t.fa = true ∧ s.bcn.walked[t.fa] = true) ∧
    (∃ (s : State) (s1 : State) (f : Func) (i : Half) (e : Entry) (ring : Fin 65) (d : DevRec) (er : EpRec) (n : Nat) (p : Placement),
        s.Issues f 0x30 i e s1 ∧ ringOf f (fieldNat e[0] 0 8) = some ring ∧ ring.val ≠ 0 ∧ fieldNat e[0] 8 24 = 0 ∧ fieldNat e[1] 28 3 = 0 ∧
        fieldNat e[1] 4 12 = 0 ∧ fieldNat e[2] 16 16 = 0 ∧ paramsZero e [3, 4, 5] = true ∧ fieldNat e[1] 0 4 ≤ 12 ∧ bitOf e[1] 31 = false ∧
        fieldNat e[1] 16 12 < 2 ^ fieldNat e[1] 0 4 ∧ (s1.ring f ring).opened = true ∧ s1.carriesLamp f ring = false ∧
        (s1.ring f ring).rebind = none ∧ (s1.ring f ring).bound = true ∧ (s1.ring f ring).xtype ≠ 0 ∧ (s1.ring f ring).xtype ≠ 2 ∧
        s1.boundEp (s1.ring f ring) = some (d, er) ∧ d.speed = .high ∧ d.isSplit = false ∧ s1.portOwner d.port = f ∧
        s1.lampOn (s1.ring f ring).dev (s1.ring f ring).ep (s1.ring f ring).dirIn = none ∧ s1.freeLamp (handleFa (s1.ring f ring).dev) = some n ∧
        s1.choose (handleFa (s1.ring f ring).dev) (s1.lampFor f ring d er (fieldNat e[1] 0 4) (fieldNat e[1] 16 12) (fieldNat e[2] 0 16)) false (fieldNat e[1] 16 12) = some p ∧ p.failure = none) ∧
    (∃ (s : State) (s1 : State) (f : Func) (i : Half) (e : Entry) (ring : Fin 65) (fa : Fin 4) (n : Nat) (x : Lamp), s.Issues f 0x31 i e s1 ∧
        ringOf f (fieldNat e[0] 0 8) = some ring ∧ fieldNat e[0] 8 24 = 0 ∧ paramsZero e [1, 2, 3, 4, 5] = true ∧ ring.val ≠ 0 ∧
        s1.lampOf f ring = some (fa, n, x)) ∧
    (∃ (s : State) (s1 : State) (f : Func) (i : Half) (e : Entry), s.Issues f 0x32 i e s1 ∧ paramsZero e [0, 1, 2, 3, 4, 5] = true) :=
  ⟨⟨{ stagedOn bound .mfA 3 [dsc 1 [0x1000, 0, 64]] with bcn := { bound.bcn with walked := Vector.replicate 4 false, lists := #v[[(0, { owner := .mfA, ring := 3, dev := 1, ep := 3, dirIn := true, maxp := 64, run := .due })], [], [], []] } }, { fa := 0, ns := 0 }, by and_intros <;> decide +kernel⟩,
   ⟨{ lit with bcn := { lit.bcn with walked := Vector.replicate 4 false } }, { fa := 3, ns := 0 }, by and_intros <;> decide +kernel⟩,
   ⟨lit, { fa := 3, ns := 0 }, by and_intros <;> decide +kernel⟩,
   ⟨issuing (bound) .mfA (ent 0x30 [3, 0, 100]), _, .mfA, 0, (ent 0x30 [3, 0, 100]), 3, dev, { xtype := 3, mult := 1, maxp := 64 }, 0,
       (State.place (State.consume (issuing bound .mfA (ent 0x30 [3, 0,
       100])) .mfA 0 1) 0 (State.lampFor (State.consume (issuing bound .mfA (ent 0x30 [3, 0,
       100])) .mfA 0 1) .mfA 3 dev { xtype := 3, mult := 1, maxp := 64 } 0 0 100) 0), issues (by and_intros <;> decide +kernel),
       by and_intros <;> decide +kernel⟩,
   ⟨issuing ({ bound with bcn := { bound.bcn with lists := #v[[(0, { owner := .mfA, ring := 3, dev := 1, ep := 3, dirIn := true, maxp := 64, run := .due })], [], [], []] } }) .mfA (ent 0x31 [3]), _, .mfA, 0, (ent 0x31 [3]), 3, 0, 0, { owner := .mfA, ring := 3, dev := 1, ep := 3, dirIn := true, maxp := 64, run := .due }, issues (by and_intros <;> decide +kernel), by and_intros <;> decide +kernel⟩,
   ⟨issuing (lit) .mfA (ent 0x32 []), _, .mfA, 0, (ent 0x32 []), issues (by and_intros <;> decide +kernel), by decide +kernel⟩⟩

/-- The hypotheses of each clause of TransfersRunAndEnd can be met. -/
theorem test_TransfersRunAndEnd_met :
    (∃ (s : State) (s1 : State) (f : Func) (r : Fin 65) (l : List Staged) (st : Status) (sub : Nat), s1 = (s.flushUnserved f r).resumeParked f r ∧
        s1.ringRuns f r = true ∧ (s1.ring f r).head = some l ∧ markerSeq (l.filterMap (fun x => x.entry)) = false ∧ s1.judge f r l = some (st,
        sub)) ∧
    (∃ (s : State) (s1 : State) (f : Func) (r : Fin 65) (l : List Staged) (d : DevRec) (e : EpRec), s1 = (s.flushUnserved f r).resumeParked f r ∧
        s1.ringRuns f r = true ∧ (s1.ring f r).head = some l ∧ markerSeq (l.filterMap (fun x => x.entry)) = false ∧ s1.judge f r l = none ∧
        s1.boundEp (s1.ring f r) = some (d, e) ∧ (s1.ring f r).xtype % 2 = 0 ∧ s1.canMaster f = true ∧ s1.portCarries d.port = true ∧
        s1.endpointBusy f r = false) ∧
    (∃ (s : State) (s1 : State) (f : Func) (r : Fin 65) (l : List Staged), s1 = s.flushUnserved f r ∧ s1.ringRuns f r = true ∧
        (s1.ring f r).head = some l ∧ headType l = some 7 ∧ s1.judge f r l = none) ∧
    (∃ (s : State) (s1 : State) (f : Func) (r : Fin 65) (l : List Staged), s1 = s.flushUnserved f r ∧ s1.ringRuns f r = true ∧
        (s1.ring f r).head = some l ∧ headType l = some 8 ∧ s1.judge f r l = none) ∧
    (∃ (s : State) (s1 : State) (f : Func) (r : Fin 65) (t : Transfer) (sub : Nat), (s.ring f r).cur = some t ∧ t.onBus = true ∧
        s.bcn.orphans.any (fun x => x.isOf f r) = false ∧ s1 = s.modCur f r (fun t => { t with onBus := false, split := false }) ∧
        t.goneSub = some sub) ∧
    (∃ (s : State) (s1 : State) (f : Func) (r : Fin 65) (t : Transfer) (d : DevRec) (ep : EpRec), (s.ring f r).cur = some t ∧ t.onBus = true ∧
        s.bcn.orphans.any (fun x => x.isOf f r) = false ∧ s1 = s.modCur f r (fun t => { t with onBus := false, split := false }) ∧
        s.boundEp (s.ring f r) = some (d, ep) ∧ t.goneSub = none ∧ t.disowned = false ∧ (s.ring f r).xtype ≠ 1) ∧
    (∃ (s : State) (s1 : State) (f : Func) (r : Fin 65) (t : Transfer) (d : DevRec) (ep : EpRec), (s.ring f r).cur = some t ∧ t.onBus = true ∧
        s.bcn.orphans.any (fun x => x.isOf f r) = false ∧ s1 = s.modCur f r (fun t => { t with onBus := false, split := false }) ∧
        s.boundEp (s.ring f r) = some (d, ep) ∧ t.goneSub = none ∧ t.disowned = false ∧ (s.ring f r).xtype = 1) ∧
    (∃ (s : State) (s1 : State) (f : Func) (r : Fin 65) (t : Transfer) (d : DevRec) (ep : EpRec), (s.ring f r).cur = some t ∧ t.onBus = true ∧
        s.bcn.orphans.any (fun x => x.isOf f r) = false ∧ s1 = s.modCur f r (fun t => { t with onBus := false, split := false }) ∧
        s.boundEp (s.ring f r) = some (d, ep) ∧ t.goneSub = none ∧ t.disowned = false) ∧
    (∃ (s : State) (s1 : State) (f : Func) (r : Fin 65) (t : Transfer) (d : DevRec) (ep : EpRec), (s.ring f r).cur = some t ∧ t.onBus = true ∧
        s.bcn.orphans.any (fun x => x.isOf f r) = false ∧ s1 = s.modCur f r (fun t => { t with onBus := false, split := false }) ∧
        s.boundEp (s.ring f r) = some (d, ep) ∧ t.goneSub = none ∧ t.disowned = false) ∧
    (∃ (s : State) (s1 : State) (f : Func) (r : Fin 65) (t : Transfer) (d : DevRec) (ep : EpRec), (s.ring f r).cur = some t ∧ t.onBus = true ∧
        s.bcn.orphans.any (fun x => x.isOf f r) = false ∧ s1 = s.modCur f r (fun t => { t with onBus := false, split := false }) ∧
        s.boundEp (s.ring f r) = some (d, ep) ∧ t.goneSub = none ∧ t.disowned = false ∧ t.tokenIn (s.ring f r) = true ∧ d.isSplit = false) ∧
    (∃ (s : State) (s1 : State) (f : Func) (r : Fin 65) (t : Transfer) (d : DevRec) (ep : EpRec), (s.ring f r).cur = some t ∧ t.onBus = true ∧
        s.bcn.orphans.any (fun x => x.isOf f r) = false ∧ s1 = s.modCur f r (fun t => { t with onBus := false, split := false }) ∧
        s.boundEp (s.ring f r) = some (d, ep) ∧ t.goneSub = none ∧ t.disowned = false ∧ t.tokenIn (s.ring f r) = false ∧ ep.ping = false ∧
        d.isSplit = false) ∧
    (∃ (s : State) (f : Func) (r : Fin 65) (t : Transfer) (d : DevRec) (ep : EpRec) (bytes : List Byte), (s.ring f r).cur = some t ∧
        s.boundEp (s.ring f r) = some (d, ep) ∧ f ≠ .bridge ∧ t.stage = .data ∧ t.asked = true ∧ t.outData = none ∧ s.canMaster f = true ∧
        bytes.length = t.packetLen ep.maxp) ∧
    (∃ (s : State) (f : Func) (r : Fin 65) (t : Transfer) (d : DevRec) (ep : EpRec) (x : Entry) (rest : List Entry) (bytes : List Byte),
        (s.ring f r).cur = some t ∧ s.boundEp (s.ring f r) = some (d, ep) ∧ f ≠ .bridge ∧ s.canMaster f = true ∧ t.stage = .lists ∧
        t.asked = true ∧ t.todo = x :: rest ∧ listElements false bytes (fieldNat x[2] 0 7) = none) :=
  ⟨⟨stagedOn bound .mfA 1 [dsc 9 []], _, .mfA, 1, ([{ index := 0, entry := some (dsc 9 []), kind := .memory }]), .malformed, 0, rfl,
      by and_intros <;> decide +kernel⟩,
   ⟨stagedOn bound .mfA 1 [dsc 1 [0x1000, 0, 512]], _, .mfA, 1, ([{ index := 0, entry := some (dsc 1 [0x1000, 0, 512]), kind := .memory }]), dev,
       { xtype := 2, mult := 1, maxp := 512 }, rfl, by and_intros <;> decide +kernel⟩,
   ⟨stagedOn bound .mfA 64 [dsc 7 []], _, .mfA, 64, ([{ index := 0, entry := some (dsc 7 []), kind := .memory }]), rfl,
       by and_intros <;> decide +kernel⟩,
   ⟨stagedOn bound .mfA 64 [dsc 8 [0, 0, 0, 0x80000005]], _, .mfA, 64,
       ([{ index := 0, entry := some (dsc 8 [0, 0, 0, 0x80000005]), kind := .memory }]), rfl, by and_intros <;> decide +kernel⟩,
   ⟨bound.modRing .mfA 1 (fun x => { x with cur := some ({ { moving [dsc 1 [0x1000, 0, 512]] with onBus := true } with goneSub := some 1 }) }), _,
       .mfA, 1, ({ { moving [dsc 1 [0x1000, 0, 512]] with onBus := true } with goneSub := some 1 }), 1, by decide +kernel, by decide +kernel,
       by decide +kernel, rfl, by decide +kernel⟩,
   ⟨bound.modRing .mfA 1 (fun x => { x with cur := some ({ moving [dsc 1 [0x1000, 0, 512]] with onBus := true }) }), _, .mfA, 1,
       ({ moving [dsc 1 [0x1000, 0, 512]] with onBus := true }), dev, { xtype := 2, mult := 1, maxp := 512 }, by decide +kernel,
       by decide +kernel, by decide +kernel, rfl, by and_intros <;> decide +kernel⟩,
   ⟨({ bound with fwy := { bound.fwy with fwy := bound.fwy.fwy.set 0 { devs := [(1, { dev with eps := [(7, { xtype := 1, mult := 1, maxp := 64 })] })], insts := [(1, 1)] } } } : State).modRing .mfA 3 (fun x => { x with bind := 0x80010390, cur := some ({ moving [dsc 1 [0x1000, 0, 512]] with onBus := true }) }), _, .mfA, 3, ({ moving [dsc 1 [0x1000, 0, 512]] with onBus := true }), { dev with eps := [(7, { xtype := 1, mult := 1, maxp := 64 })] }, { xtype := 1, mult := 1, maxp := 64 }, by decide +kernel, by decide +kernel, by decide +kernel, rfl, by and_intros <;> decide +kernel⟩,
   ⟨bound.modRing .mfA 1 (fun x => { x with cur := some ({ moving [dsc 1 [0x1000, 0, 512]] with onBus := true }) }), _, .mfA, 1,
       ({ moving [dsc 1 [0x1000, 0, 512]] with onBus := true }), dev, { xtype := 2, mult := 1, maxp := 512 }, by decide +kernel,
       by decide +kernel, by decide +kernel, rfl, by and_intros <;> decide +kernel⟩,
   ⟨bound.modRing .mfA 1 (fun x => { x with cur := some ({ moving [dsc 1 [0x1000, 0, 512]] with onBus := true }) }), _, .mfA, 1,
       ({ moving [dsc 1 [0x1000, 0, 512]] with onBus := true }), dev, { xtype := 2, mult := 1, maxp := 512 }, by decide +kernel,
       by decide +kernel, by decide +kernel, rfl, by and_intros <;> decide +kernel⟩,
   ⟨bound.modRing .mfA 1 (fun x => { x with cur := some ({ moving [dsc 1 [0x1000, 0, 512]] with onBus := true }) }), _, .mfA, 1,
       ({ moving [dsc 1 [0x1000, 0, 512]] with onBus := true }), dev, { xtype := 2, mult := 1, maxp := 512 }, by decide +kernel,
       by decide +kernel, by decide +kernel, rfl, by and_intros <;> decide +kernel⟩,
   ⟨bound.modRing .mfA 2 (fun x => { x with cur := some ({ moving [dsc 1 [0x1000, 0, 512]] with onBus := true }) }), _, .mfA, 2,
       ({ moving [dsc 1 [0x1000, 0, 512]] with onBus := true }), dev, { xtype := 2, mult := 1, maxp := 512 }, by decide +kernel,
       by decide +kernel, by decide +kernel, rfl, by and_intros <;> decide +kernel⟩,
   ⟨bound.modRing .mfA 2 (fun x => { x with cur := some ({ moving [dsc 1 [0x1000, 0, 512]] with asked := true }) }), .mfA, 2,
       ({ moving [dsc 1 [0x1000, 0, 512]] with asked := true }), dev, { xtype := 2, mult := 1, maxp := 512 }, (List.replicate 512 7),
       by and_intros <;> decide +kernel⟩,
   ⟨bound.modRing .mfA 2 (fun x => { x with cur := some ({ moving [dsc 1 [0x1000, 0, 512]] with stage := .lists, asked := true, todo := [dsc 6 [0x1000, 0, 1]] }) }), .mfA, 2, ({ moving [dsc 1 [0x1000, 0, 512]] with stage := .lists, asked := true, todo := [dsc 6 [0x1000, 0, 1]] }), dev, { xtype := 2, mult := 1, maxp := 512 }, (dsc 6 [0x1000, 0, 1]), [], [], by and_intros <;> decide +kernel⟩⟩

/-- The hypotheses of each clause of CountersAndItemsAreCommanded can be met. -/
theorem test_CountersAndItemsAreCommanded_met :
    (∃ (s : State) (s1 : State) (f : Func) (i : Half) (e : Entry), s.Issues f 0x40 i e s1 ∧ fieldNat e[0] 28 4 = 1 ∧ counterParamsOk e = true ∧
        s1.mayDecrement f (ctrParam e) = true ∧ s1.waitingLinked (ctrParam e) = false) ∧
    (∃ (s : State) (s1 : State) (f : Func) (i : Half) (e : Entry), s.Issues f 0x40 i e s1 ∧ fieldNat e[0] 28 4 = 2 ∧ counterParamsOk e = true ∧
        s1.mayDecrement f (ctrParam e) = true) ∧
    (∃ (s : State) (s1 : State) (f : Func) (i : Half) (e : Entry), s.Issues f 0x40 i e s1 ∧ fieldNat e[0] 28 4 = 3 ∧ counterParamsOk e = true ∧
        s1.mayDecrement f (ctrParam e) = true ∧ s1.waitingLinked (ctrParam e) = false) ∧
    (∃ (s : State), keysRise (s.tnd.counters.map Prod.fst) = true) ∧
    (∃ (s : State) (s1 : State) (f : Func) (i : Half) (e : Entry), s.Issues f 0x40 i e s1 ∧ fieldNat e[0] 28 4 = 4 ∧ counterParamsOk e = true ∧
        s1.mayDecrement f (ctrParam e) = true) ∧
    (∃ (s : State) (s1 : State) (f : Func) (i : Half) (e : Entry), s.Issues f 0x40 i e s1 ∧ fieldNat e[0] 28 4 = 4 ∧ counterParamsOk e = true ∧
        s1.mayDecrement f (ctrParam e) = false) ∧
    (∃ (s : State) (s1 : State) (f : Func) (i : Half) (e : Entry), s.Issues f 0x41 i e s1 ∧ (s1.postItem f (descriptorOf e)).1.status = .success) ∧
    (∃ (s : State) (s1 : State) (f : Func) (i : Half) (e : Entry) (x : Item), s.Issues f 0x42 i e s1 ∧ fieldNat e[0] 12 20 = 0 ∧ paramsZero e [2,
        3, 4, 5] = true ∧ s1.item (fieldNat e[0] 0 12) = some x ∧ x.owner = f ∧ x.tag = e[1] ∧ x.state ≠ .running) ∧
    (∃ (s : State) (s1 : State) (f : Func) (i : Half) (e : Entry) (x : Item), s.Issues f 0x42 i e s1 ∧ fieldNat e[0] 12 20 = 0 ∧ paramsZero e [2,
        3, 4, 5] = true ∧ s1.item (fieldNat e[0] 0 12) = some x ∧ x.owner ≠ f ∧ s1.isPrimaryFn f = false) :=
  ⟨⟨issuing (lit) .mfA (ent 0x40 [0x100007FF, 0x8C000FFF]), _, .mfA, 0, (ent 0x40 [0x100007FF, 0x8C000FFF]),
      issues (by and_intros <;> decide +kernel), by and_intros <;> decide +kernel⟩,
   ⟨issuing (lit) .mfA (ent 0x40 [0x200007FF, 0xDF000000]), _, .mfA, 0, (ent 0x40 [0x200007FF, 0xDF000000]),
       issues (by and_intros <;> decide +kernel), by and_intros <;> decide +kernel⟩,
   ⟨issuing (lit) .mfA (ent 0x40 [0x300007FF]), _, .mfA, 0, (ent 0x40 [0x300007FF]), issues (by and_intros <;> decide +kernel),
       by and_intros <;> decide +kernel⟩,
   ⟨lit, by decide +kernel⟩,
   ⟨issuing (lit) .mfA (ent 0x40 [0x400007FF]), _, .mfA, 0, (ent 0x40 [0x400007FF]), issues (by and_intros <;> decide +kernel),
       by and_intros <;> decide +kernel⟩,
   ⟨issuing (lit.modTnd (fun t => { t with counters := [(2047, { state := .counting, owner := .mfB, value := 1 })] })) (.buoy 0) (ent 0x40 [0x400007FF]), _, (.buoy 0), 0, (ent 0x40 [0x400007FF]), issues (by and_intros <;> decide +kernel), by and_intros <;> decide +kernel⟩,
   ⟨issuing (lit) .mfA (ent 0x41 [0, 0, 0, 0, 1, 0x40000000]), _, .mfA, 0, (ent 0x41 [0, 0, 0, 0, 1, 0x40000000]),
       issues (by and_intros <;> decide +kernel), by decide +kernel⟩,
   ⟨issuing (lit.modTnd (fun t => { t with items := [(0, posted)] })) .mfA (ent 0x42 [0, 7]), _, .mfA, 0, (ent 0x42 [0, 7]), posted,
       issues (by and_intros <;> decide +kernel), by and_intros <;> decide +kernel⟩,
   ⟨issuing (lit.modTnd (fun t => { t with items := [(0, posted)] })) .mfB (ent 0x42 [0, 7]), _, .mfB, 0, (ent 0x42 [0, 7]), posted,
       issues (by and_intros <;> decide +kernel), by and_intros <;> decide +kernel⟩⟩

/-- The hypotheses of each clause of KeepersAndTheTender can be met. -/
theorem test_KeepersAndTheTender_met :
    (∃ (s : State) (s1 : State) (k : Fin 12) (f : Func), s.pathLive (.keeper k) = true ∧ s1 = s.arrived (.keeper k) (.keeper k) 0x90218 ∧
        descriptorOk (s1.tnd.kpost[k]).post = true ∧ s1.keeperOwner k = some f ∧ s1.granted k f = true ∧
        (s1.postItem f (s1.tnd.kpost[k]).post).1.status = .success ∧ (s1.postItem f (s1.tnd.kpost[k]).post).1.outcome = 0) ∧
    (∃ (s : State) (s1 : State) (k : Fin 12) (f : Func), s.pathLive (.keeper k) = true ∧ s1 = s.arrived (.keeper k) (.keeper k) 0x90224 ∧
        0x40 ≤ fieldNat (s1.tnd.kpost[k]).decTag 24 8 ∧ fieldNat (s1.tnd.kpost[k]).decTag 24 8 ≤ 0xDF ∧ s1.keeperOwner k = some f ∧
        s1.granted k f = true) ∧
    (∃ (s : State) (s1 : State) (k : Fin 12), s.pathLive (.keeper k) = true ∧ s1 = s.arrived (.keeper k) (.keeper k) 0x90224 ∧
        0x40 ≤ fieldNat (s1.tnd.kpost[k]).decTag 24 8 ∧ fieldNat (s1.tnd.kpost[k]).decTag 24 8 ≤ 0xDF ∧ s1.keeperOwner k = none) ∧
    (∃ (s : State) (i : Nat) (k : Fin 12) (x : Item), s.tenderOn = true ∧ s.nextDispatch = some (i, k) ∧ s.item i = some x ∧ x.badHead = false ∧
        x.badBody = false) ∧
    (∃ (s : State) (i : Nat) (k : Fin 12) (x : Item), s.tenderOn = true ∧ s.nextDispatch = some (i, k) ∧ s.item i = some x ∧ x.badHead = false ∧
        x.badBody = true) ∧
    (∃ (s : State) (k : Fin 12), s.cdRuns (39 + k.val) = true) ∧
    (∃ (s : State) (k : Fin 12), (s.keeper k).fenced = false) ∧
    (∃ (s : State) (s1 : State) (p : Path) (r : Requester) (v : DWord) (k : Fin 12), s.Brings p r ∧ s.KeyOpen p r 0xA0000 ∧
        s1 = s.unlocked p r 0xA0000 ∧ s1.isPrimary r = true ∧ fieldNat v 0 4 = k.val ∧ (s1.keeper k).fenced = true ∧ s1.tnd.revivePending = false) ∧
    (∃ (s : State) (k : Fin 12), s.tnd.revivePending = true ∧ s.tnd.reviveKeeper = k.val ∧ s.reviveClock k = true) :=
  ⟨⟨(running 0 id).modKpost 0 (fun x => { x with post := #v[0, 0, 0, 0, 1, 0x40000000], decTag := 0xDF000000 }), _, 0, .mfA, by decide +kernel,
      rfl, by and_intros <;> decide +kernel⟩,
   ⟨(running 0 id).modKpost 0 (fun x => { x with post := #v[0, 0, 0, 0, 1, 0x40000000], decTag := 0xDF000000 }), _, 0, .mfA, by decide +kernel,
       rfl, by and_intros <;> decide +kernel⟩,
   ⟨((running 0 id).modKpost 0 (fun x => { x with post := #v[0, 0, 0, 0, 1, 0x40000000], decTag := 0xDF000000 })).modKeeper 0 (fun x => { x with run := .program 1 }), _, 0, by decide +kernel, rfl, by and_intros <;> decide +kernel⟩,
   ⟨lit.modTnd (fun t => { t with items := [(0, { posted with dwords := #v[0, 0, 0, 0, 0x800, 7] })], ready := t.ready.set 0 [0] }), 0, 11,
       { posted with dwords := #v[0, 0, 0, 0, 0x800, 7] }, by and_intros <;> decide +kernel⟩,
   ⟨lit.modTnd (fun t => { t with items := [(0, { posted with dwords := #v[0, 0, 0, 0, 0x800, 7], badBody := true })], ready := t.ready.set 0 [0] }), 0, 11, { posted with dwords := #v[0, 0, 0, 0, 0x800, 7], badBody := true }, by and_intros <;> decide +kernel⟩,
   ⟨running 0 id, 0, by decide +kernel⟩,
   ⟨lit, 11, by decide +kernel⟩,
   ⟨(lit.setKeyhole .mfA { state := .opened }).modKeeper 11 (fun x => { x with fenced := true }), _, .mgr .a, .mfA, 11, 11,
       brings (by and_intros <;> decide +kernel), (by unfold State.KeyOpen; decide +kernel), rfl, by and_intros <;> decide +kernel⟩,
   ⟨(lit.modKeeper 11 (fun x => { x with fenced := true })).modTnd (fun t => { t with revivePending := true, reviveKeeper := 11 }), 11,
       by and_intros <;> decide +kernel⟩⟩

/-- The hypotheses of each clause of KeeperArithmetic can be met. -/
theorem test_KeeperArithmetic_met :
    (∃ (s : State) (s1 : State) (k : Fin 12) (w : DWord) (a : Half) (b : Half), s.Fetches k w s1 ∧ kOp w = 0x01 ∧ fieldNat w 0 6 = 0 ∧
        kA w < 0x18 ∧ kB w < 0x18 ∧ kC w < 0x18 ∧ a = (s1.keeper k).reg (kB w) ∧ b = (s1.keeper k).reg (kC w) ∧ kFn w = 0x00) ∧
    (∃ (s : State) (s1 : State) (k : Fin 12) (w : DWord) (a : Half) (b : Half), s.Fetches k w s1 ∧ kOp w = 0x01 ∧ fieldNat w 0 6 = 0 ∧
        kA w < 0x18 ∧ kB w < 0x18 ∧ kC w < 0x18 ∧ a = (s1.keeper k).reg (kB w) ∧ b = (s1.keeper k).reg (kC w) ∧ kFn w = 0x01) ∧
    (∃ (s : State) (s1 : State) (k : Fin 12) (w : DWord) (a : Half) (b : Half), s.Fetches k w s1 ∧ kOp w = 0x01 ∧ fieldNat w 0 6 = 0 ∧
        kA w < 0x18 ∧ kB w < 0x18 ∧ kC w < 0x18 ∧ a = (s1.keeper k).reg (kB w) ∧ b = (s1.keeper k).reg (kC w) ∧ kFn w = 0x02) ∧
    (∃ (s : State) (s1 : State) (k : Fin 12) (w : DWord) (a : Half) (b : Half), s.Fetches k w s1 ∧ kOp w = 0x01 ∧ fieldNat w 0 6 = 0 ∧
        kA w < 0x18 ∧ kB w < 0x18 ∧ kC w < 0x18 ∧ a = (s1.keeper k).reg (kB w) ∧ b = (s1.keeper k).reg (kC w) ∧ kFn w = 0x03) ∧
    (∃ (s : State) (s1 : State) (k : Fin 12) (w : DWord) (a : Half) (b : Half), s.Fetches k w s1 ∧ kOp w = 0x01 ∧ fieldNat w 0 6 = 0 ∧
        kA w < 0x18 ∧ kB w < 0x18 ∧ kC w < 0x18 ∧ a = (s1.keeper k).reg (kB w) ∧ b = (s1.keeper k).reg (kC w) ∧ kFn w = 0x04) ∧
    (∃ (s : State) (s1 : State) (k : Fin 12) (w : DWord) (a : Half) (b : Half), s.Fetches k w s1 ∧ kOp w = 0x01 ∧ fieldNat w 0 6 = 0 ∧
        kA w < 0x18 ∧ kB w < 0x18 ∧ kC w < 0x18 ∧ a = (s1.keeper k).reg (kB w) ∧ b = (s1.keeper k).reg (kC w) ∧ kFn w = 0x05) ∧
    (∃ (s : State) (s1 : State) (k : Fin 12) (w : DWord) (a : Half) (b : Half), s.Fetches k w s1 ∧ kOp w = 0x01 ∧ fieldNat w 0 6 = 0 ∧
        kA w < 0x18 ∧ kB w < 0x18 ∧ kC w < 0x18 ∧ a = (s1.keeper k).reg (kB w) ∧ b = (s1.keeper k).reg (kC w) ∧ kFn w = 0x06) ∧
    (∃ (s : State) (s1 : State) (k : Fin 12) (w : DWord) (a : Half) (b : Half), s.Fetches k w s1 ∧ kOp w = 0x01 ∧ fieldNat w 0 6 = 0 ∧
        kA w < 0x18 ∧ kB w < 0x18 ∧ kC w < 0x18 ∧ a = (s1.keeper k).reg (kB w) ∧ b = (s1.keeper k).reg (kC w) ∧ kFn w = 0x07) ∧
    (∃ (s : State) (s1 : State) (k : Fin 12) (w : DWord) (a : Half) (b : Half), s.Fetches k w s1 ∧ kOp w = 0x01 ∧ fieldNat w 0 6 = 0 ∧
        kA w < 0x18 ∧ kB w < 0x18 ∧ kC w < 0x18 ∧ a = (s1.keeper k).reg (kB w) ∧ b = (s1.keeper k).reg (kC w) ∧ kFn w = 0x08) ∧
    (∃ (s : State) (s1 : State) (k : Fin 12) (w : DWord) (a : Half) (b : Half), s.Fetches k w s1 ∧ kOp w = 0x01 ∧ fieldNat w 0 6 = 0 ∧
        kA w < 0x18 ∧ kB w < 0x18 ∧ kC w < 0x18 ∧ a = (s1.keeper k).reg (kB w) ∧ b = (s1.keeper k).reg (kC w) ∧ kFn w = 0x09) ∧
    (∃ (s : State) (s1 : State) (k : Fin 12) (w : DWord) (a : Half) (b : Half), s.Fetches k w s1 ∧ kOp w = 0x01 ∧ fieldNat w 0 6 = 0 ∧
        kA w < 0x18 ∧ kB w < 0x18 ∧ kC w < 0x18 ∧ a = (s1.keeper k).reg (kB w) ∧ b = (s1.keeper k).reg (kC w) ∧ kFn w = 0x0A) ∧
    (∃ (s : State) (s1 : State) (k : Fin 12) (w : DWord) (a : Half) (b : Half), s.Fetches k w s1 ∧ kOp w = 0x01 ∧ fieldNat w 0 6 = 0 ∧
        kA w < 0x18 ∧ kB w < 0x18 ∧ kC w < 0x18 ∧ a = (s1.keeper k).reg (kB w) ∧ b = (s1.keeper k).reg (kC w) ∧ kFn w = 0x0B) ∧
    (∃ (s : State) (s1 : State) (k : Fin 12) (w : DWord) (a : Half), s.Fetches k w s1 ∧ kA w < 0x18 ∧ kB w < 0x18 ∧ a = (s1.keeper k).reg (kB w) ∧
        kOp w = 0x02) ∧
    (∃ (s : State) (s1 : State) (k : Fin 12) (w : DWord) (a : Half), s.Fetches k w s1 ∧ kA w < 0x18 ∧ kB w < 0x18 ∧ a = (s1.keeper k).reg (kB w) ∧
        kOp w = 0x03) ∧
    (∃ (s : State) (s1 : State) (k : Fin 12) (w : DWord) (a : Half), s.Fetches k w s1 ∧ kA w < 0x18 ∧ kB w < 0x18 ∧ a = (s1.keeper k).reg (kB w) ∧
        kOp w = 0x04) ∧
    (∃ (s : State) (s1 : State) (k : Fin 12) (w : DWord) (a : Half), s.Fetches k w s1 ∧ kA w < 0x18 ∧ kB w < 0x18 ∧ a = (s1.keeper k).reg (kB w) ∧
        kOp w = 0x05) ∧
    (∃ (s : State) (s1 : State) (k : Fin 12) (w : DWord) (a : Half), s.Fetches k w s1 ∧ kA w < 0x18 ∧ kB w < 0x18 ∧ a = (s1.keeper k).reg (kB w) ∧
        kOp w = 0x06 ∧ fieldNat w 4 12 = 0) ∧
    (∃ (s : State) (s1 : State) (k : Fin 12) (w : DWord) (a : Half), s.Fetches k w s1 ∧ kA w < 0x18 ∧ kB w < 0x18 ∧ a = (s1.keeper k).reg (kB w) ∧
        kOp w = 0x07 ∧ fieldNat w 4 12 = 0) ∧
    (∃ (s : State) (s1 : State) (k : Fin 12) (w : DWord) (a : Half), s.Fetches k w s1 ∧ kA w < 0x18 ∧ kB w < 0x18 ∧ a = (s1.keeper k).reg (kB w) ∧
        kOp w = 0x08 ∧ fieldNat w 4 12 = 0) ∧
    (∃ (s : State) (s1 : State) (k : Fin 12) (w : DWord) (a : Half), s.Fetches k w s1 ∧ kA w < 0x18 ∧ kB w < 0x18 ∧ a = (s1.keeper k).reg (kB w) ∧
        kOp w = 0x09 ∧ kB w = 0) ∧
    (∃ (s : State) (s1 : State) (k : Fin 12) (w : DWord) (a : Half), s.Fetches k w s1 ∧ kA w < 0x18 ∧ kB w < 0x18 ∧ a = (s1.keeper k).reg (kB w) ∧
        kOp w = 0x0A) ∧
    (∃ (s : State) (s1 : State) (k : Fin 12) (w : DWord) (a : Half), s.Fetches k w s1 ∧ kA w < 0x18 ∧ kB w < 0x18 ∧ a = (s1.keeper k).reg (kB w) ∧
        kOp w = 0x0B) :=
  ⟨⟨running 0x06F66000 (id), _, 0, 0x06F66000, _, _,
      fetches_cached (l := { base := 0, words := [(hiHalf 0x06F66000, false), (loHalf 0x06F66000, false)] }) (by decide +kernel) (by decide +kernel) (by decide +kernel) (by decide +kernel) (by decide +kernel), by decide +kernel, by decide +kernel, by decide +kernel, by decide +kernel, by decide +kernel, rfl, rfl, by decide +kernel⟩,
   ⟨running 0x06F66040 (id), _, 0, 0x06F66040, _, _,
       fetches_cached (l := { base := 0, words := [(hiHalf 0x06F66040, false), (loHalf 0x06F66040, false)] }) (by decide +kernel) (by decide +kernel) (by decide +kernel) (by decide +kernel) (by decide +kernel), by decide +kernel, by decide +kernel, by decide +kernel, by decide +kernel, by decide +kernel, rfl, rfl, by decide +kernel⟩,
   ⟨running 0x06F66080 (id), _, 0, 0x06F66080, _, _,
       fetches_cached (l := { base := 0, words := [(hiHalf 0x06F66080, false), (loHalf 0x06F66080, false)] }) (by decide +kernel) (by decide +kernel) (by decide +kernel) (by decide +kernel) (by decide +kernel), by decide +kernel, by decide +kernel, by decide +kernel, by decide +kernel, by decide +kernel, rfl, rfl, by decide +kernel⟩,
   ⟨running 0x06F660C0 (id), _, 0, 0x06F660C0, _, _,
       fetches_cached (l := { base := 0, words := [(hiHalf 0x06F660C0, false), (loHalf 0x06F660C0, false)] }) (by decide +kernel) (by decide +kernel) (by decide +kernel) (by decide +kernel) (by decide +kernel), by decide +kernel, by decide +kernel, by decide +kernel, by decide +kernel, by decide +kernel, rfl, rfl, by decide +kernel⟩,
   ⟨running 0x06F66100 (id), _, 0, 0x06F66100, _, _,
       fetches_cached (l := { base := 0, words := [(hiHalf 0x06F66100, false), (loHalf 0x06F66100, false)] }) (by decide +kernel) (by decide +kernel) (by decide +kernel) (by decide +kernel) (by decide +kernel), by decide +kernel, by decide +kernel, by decide +kernel, by decide +kernel, by decide +kernel, rfl, rfl, by decide +kernel⟩,
   ⟨running 0x06F66140 (id), _, 0, 0x06F66140, _, _,
       fetches_cached (l := { base := 0, words := [(hiHalf 0x06F66140, false), (loHalf 0x06F66140, false)] }) (by decide +kernel) (by decide +kernel) (by decide +kernel) (by decide +kernel) (by decide +kernel), by decide +kernel, by decide +kernel, by decide +kernel, by decide +kernel, by decide +kernel, rfl, rfl, by decide +kernel⟩,
   ⟨running 0x06F66180 (id), _, 0, 0x06F66180, _, _,
       fetches_cached (l := { base := 0, words := [(hiHalf 0x06F66180, false), (loHalf 0x06F66180, false)] }) (by decide +kernel) (by decide +kernel) (by decide +kernel) (by decide +kernel) (by decide +kernel), by decide +kernel, by decide +kernel, by decide +kernel, by decide +kernel, by decide +kernel, rfl, rfl, by decide +kernel⟩,
   ⟨running 0x06F661C0 (id), _, 0, 0x06F661C0, _, _,
       fetches_cached (l := { base := 0, words := [(hiHalf 0x06F661C0, false), (loHalf 0x06F661C0, false)] }) (by decide +kernel) (by decide +kernel) (by decide +kernel) (by decide +kernel) (by decide +kernel), by decide +kernel, by decide +kernel, by decide +kernel, by decide +kernel, by decide +kernel, rfl, rfl, by decide +kernel⟩,
   ⟨running 0x06F66200 (id), _, 0, 0x06F66200, _, _,
       fetches_cached (l := { base := 0, words := [(hiHalf 0x06F66200, false), (loHalf 0x06F66200, false)] }) (by decide +kernel) (by decide +kernel) (by decide +kernel) (by decide +kernel) (by decide +kernel), by decide +kernel, by decide +kernel, by decide +kernel, by decide +kernel, by decide +kernel, rfl, rfl, by decide +kernel⟩,
   ⟨running 0x06F66240 (id), _, 0, 0x06F66240, _, _,
       fetches_cached (l := { base := 0, words := [(hiHalf 0x06F66240, false), (loHalf 0x06F66240, false)] }) (by decide +kernel) (by decide +kernel) (by decide +kernel) (by decide +kernel) (by decide +kernel), by decide +kernel, by decide +kernel, by decide +kernel, by decide +kernel, by decide +kernel, rfl, rfl, by decide +kernel⟩,
   ⟨running 0x06F66280 (id), _, 0, 0x06F66280, _, _,
       fetches_cached (l := { base := 0, words := [(hiHalf 0x06F66280, false), (loHalf 0x06F66280, false)] }) (by decide +kernel) (by decide +kernel) (by decide +kernel) (by decide +kernel) (by decide +kernel), by decide +kernel, by decide +kernel, by decide +kernel, by decide +kernel, by decide +kernel, rfl, rfl, by decide +kernel⟩,
   ⟨running 0x06F662C0 (id), _, 0, 0x06F662C0, _, _,
       fetches_cached (l := { base := 0, words := [(hiHalf 0x06F662C0, false), (loHalf 0x06F662C0, false)] }) (by decide +kernel) (by decide +kernel) (by decide +kernel) (by decide +kernel) (by decide +kernel), by decide +kernel, by decide +kernel, by decide +kernel, by decide +kernel, by decide +kernel, rfl, rfl, by decide +kernel⟩,
   ⟨running 0x0AF68000 (id), _, 0, 0x0AF68000, _,
       fetches_cached (l := { base := 0, words := [(hiHalf 0x0AF68000, false), (loHalf 0x0AF68000, false)] }) (by decide +kernel) (by decide +kernel) (by decide +kernel) (by decide +kernel) (by decide +kernel), by decide +kernel, by decide +kernel, rfl, by decide +kernel⟩,
   ⟨running 0x0EF68000 (id), _, 0, 0x0EF68000, _,
       fetches_cached (l := { base := 0, words := [(hiHalf 0x0EF68000, false), (loHalf 0x0EF68000, false)] }) (by decide +kernel) (by decide +kernel) (by decide +kernel) (by decide +kernel) (by decide +kernel), by decide +kernel, by decide +kernel, rfl, by decide +kernel⟩,
   ⟨running 0x12F68000 (id), _, 0, 0x12F68000, _,
       fetches_cached (l := { base := 0, words := [(hiHalf 0x12F68000, false), (loHalf 0x12F68000, false)] }) (by decide +kernel) (by decide +kernel) (by decide +kernel) (by decide +kernel) (by decide +kernel), by decide +kernel, by decide +kernel, rfl, by decide +kernel⟩,
   ⟨running 0x16F68000 (id), _, 0, 0x16F68000, _,
       fetches_cached (l := { base := 0, words := [(hiHalf 0x16F68000, false), (loHalf 0x16F68000, false)] }) (by decide +kernel) (by decide +kernel) (by decide +kernel) (by decide +kernel) (by decide +kernel), by decide +kernel, by decide +kernel, rfl, by decide +kernel⟩,
   ⟨running 0x1AF6000F (id), _, 0, 0x1AF6000F, _,
       fetches_cached (l := { base := 0, words := [(hiHalf 0x1AF6000F, false), (loHalf 0x1AF6000F, false)] }) (by decide +kernel) (by decide +kernel) (by decide +kernel) (by decide +kernel) (by decide +kernel), by decide +kernel, by decide +kernel, rfl, by and_intros <;> decide +kernel⟩,
   ⟨running 0x1EF6000F (id), _, 0, 0x1EF6000F, _,
       fetches_cached (l := { base := 0, words := [(hiHalf 0x1EF6000F, false), (loHalf 0x1EF6000F, false)] }) (by decide +kernel) (by decide +kernel) (by decide +kernel) (by decide +kernel) (by decide +kernel), by decide +kernel, by decide +kernel, rfl, by and_intros <;> decide +kernel⟩,
   ⟨running 0x22F6000F (id), _, 0, 0x22F6000F, _,
       fetches_cached (l := { base := 0, words := [(hiHalf 0x22F6000F, false), (loHalf 0x22F6000F, false)] }) (by decide +kernel) (by decide +kernel) (by decide +kernel) (by decide +kernel) (by decide +kernel), by decide +kernel, by decide +kernel, rfl, by and_intros <;> decide +kernel⟩,
   ⟨running 0x26E0FFFF (id), _, 0, 0x26E0FFFF, _,
       fetches_cached (l := { base := 0, words := [(hiHalf 0x26E0FFFF, false), (loHalf 0x26E0FFFF, false)] }) (by decide +kernel) (by decide +kernel) (by decide +kernel) (by decide +kernel) (by decide +kernel), by decide +kernel, by decide +kernel, rfl, by and_intros <;> decide +kernel⟩,
   ⟨running 0x2AF68000 (id), _, 0, 0x2AF68000, _,
       fetches_cached (l := { base := 0, words := [(hiHalf 0x2AF68000, false), (loHalf 0x2AF68000, false)] }) (by decide +kernel) (by decide +kernel) (by decide +kernel) (by decide +kernel) (by decide +kernel), by decide +kernel, by decide +kernel, rfl, by decide +kernel⟩,
   ⟨running 0x2EF68000 (id), _, 0, 0x2EF68000, _,
       fetches_cached (l := { base := 0, words := [(hiHalf 0x2EF68000, false), (loHalf 0x2EF68000, false)] }) (by decide +kernel) (by decide +kernel) (by decide +kernel) (by decide +kernel) (by decide +kernel), by decide +kernel, by decide +kernel, rfl, by decide +kernel⟩⟩

/-- The hypotheses of each clause of IllegalInstructionsTrap can be met. -/
theorem test_IllegalInstructionsTrap_met :
    (∃ (s : State) (s1 : State) (k : Fin 12) (w : DWord), s.Fetches k w s1 ∧ kOp w = 0x01 ∧ kFn w = 0x00 ∧
        (fieldNat w 0 6 ≠ 0 ∨ 0x18 ≤ kA w ∨ 0x18 ≤ kB w ∨ 0x18 ≤ kC w)) ∧
    (∃ (s : State) (s1 : State) (k : Fin 12) (w : DWord), s.Fetches k w s1 ∧ opListed w = false) ∧
    (∃ (s : State) (s1 : State) (k : Fin 12) (c : Nat), s.kprRuns k = true ∧ s.fetchInstr k = .trap c s1) ∧
    (∃ (s : State) (k : Fin 12) (i : Nat), (s.keeper k).run = .item i ∧ (s.keeper k).trapped = false) :=
  ⟨⟨running 0x07000000 (id), _, 0, 0x07000000,
      fetches_cached (l := { base := 0, words := [(hiHalf 0x07000000, false), (loHalf 0x07000000, false)] }) (by decide +kernel) (by decide +kernel) (by decide +kernel) (by decide +kernel) (by decide +kernel), by and_intros <;> decide +kernel⟩,
   ⟨running 0x00000000 (id), _, 0, 0x00000000,
       fetches_cached (l := { base := 0, words := [(hiHalf 0x00000000, false), (loHalf 0x00000000, false)] }) (by decide +kernel) (by decide +kernel) (by decide +kernel) (by decide +kernel) (by decide +kernel), by decide +kernel⟩,
   ⟨(running 0 id).modKeeper 0 (fun x => { x with pc := 1 }), _, 0, 0x02, by decide +kernel, rfl⟩,
   ⟨running 0 id, 0, 0, by and_intros <;> decide +kernel⟩⟩

/-- The hypotheses of each clause of KeeperControlFlow can be met. -/
theorem test_KeeperControlFlow_met :
    (∃ (s : State) (s1 : State) (k : Fin 12) (w : DWord) (a : Half) (b : Half) (go : BitVec 24), s.Fetches k w s1 ∧ kA w < 0x18 ∧ kB w < 0x18 ∧
        a = (s1.keeper k).reg (kA w) ∧ b = (s1.keeper k).reg (kB w) ∧ go = (s1.keeper k).pc + 2 * (kImm w).signExtend 24 ∧ kOp w = 0x20) ∧
    (∃ (s : State) (s1 : State) (k : Fin 12) (w : DWord) (a : Half) (b : Half) (go : BitVec 24), s.Fetches k w s1 ∧ kA w < 0x18 ∧ kB w < 0x18 ∧
        a = (s1.keeper k).reg (kA w) ∧ b = (s1.keeper k).reg (kB w) ∧ go = (s1.keeper k).pc + 2 * (kImm w).signExtend 24 ∧ kOp w = 0x21) ∧
    (∃ (s : State) (s1 : State) (k : Fin 12) (w : DWord) (a : Half) (b : Half) (go : BitVec 24), s.Fetches k w s1 ∧ kA w < 0x18 ∧ kB w < 0x18 ∧
        a = (s1.keeper k).reg (kA w) ∧ b = (s1.keeper k).reg (kB w) ∧ go = (s1.keeper k).pc + 2 * (kImm w).signExtend 24 ∧ kOp w = 0x22) ∧
    (∃ (s : State) (s1 : State) (k : Fin 12) (w : DWord) (a : Half) (b : Half) (go : BitVec 24), s.Fetches k w s1 ∧ kA w < 0x18 ∧ kB w < 0x18 ∧
        a = (s1.keeper k).reg (kA w) ∧ b = (s1.keeper k).reg (kB w) ∧ go = (s1.keeper k).pc + 2 * (kImm w).signExtend 24 ∧ kOp w = 0x23) ∧
    (∃ (s : State) (s1 : State) (k : Fin 12) (w : DWord) (a : Half) (b : Half) (go : BitVec 24), s.Fetches k w s1 ∧ kA w < 0x18 ∧ kB w < 0x18 ∧
        a = (s1.keeper k).reg (kA w) ∧ b = (s1.keeper k).reg (kB w) ∧ go = (s1.keeper k).pc + 2 * (kImm w).signExtend 24 ∧ kOp w = 0x24) ∧
    (∃ (s : State) (s1 : State) (k : Fin 12) (w : DWord) (a : Half) (b : Half) (go : BitVec 24), s.Fetches k w s1 ∧ kA w < 0x18 ∧ kB w < 0x18 ∧
        a = (s1.keeper k).reg (kA w) ∧ b = (s1.keeper k).reg (kB w) ∧ go = (s1.keeper k).pc + 2 * (kImm w).signExtend 24 ∧ kOp w = 0x25) ∧
    (∃ (s : State) (s1 : State) (k : Fin 12) (w : DWord), s.Fetches k w s1 ∧ kOp w = 0x28 ∧ fieldNat w 24 2 = 0) ∧
    (∃ (s : State) (s1 : State) (k : Fin 12) (w : DWord), s.Fetches k w s1 ∧ kOp w = 0x29 ∧ fieldNat w 0 16 = 0 ∧ kB w < 0x18) ∧
    (∃ (s : State) (s1 : State) (k : Fin 12) (w : DWord), s.Fetches k w s1 ∧ (s1.keeper k).trapped = false ∧ (s1.keeper k).held < 8 ∧
        kOp w = 0x2A ∧ fieldNat w 24 2 = 0) ∧
    (∃ (s : State) (s1 : State) (k : Fin 12) (w : DWord), s.Fetches k w s1 ∧ (s1.keeper k).trapped = false ∧ (s1.keeper k).held < 8 ∧
        kOp w = 0x2B ∧ fieldNat w 0 16 = 0 ∧ kB w < 0x18) ∧
    (∃ (s : State) (s1 : State) (k : Fin 12) (w : DWord), s.Fetches k w s1 ∧ (s1.keeper k).trapped = false ∧ kOp w = 0x2C ∧ fieldNat w 0 26 = 0 ∧
        1 < (s1.keeper k).held) ∧
    (∃ (s : State) (s1 : State) (k : Fin 12) (w : DWord), s.Fetches k w s1 ∧ (s1.keeper k).trapped = false ∧ kOp w = 0x2A ∧ fieldNat w 24 2 = 0 ∧
        8 ≤ (s1.keeper k).held) ∧
    (∃ (s : State) (s1 : State) (k : Fin 12) (w : DWord), s.Fetches k w s1 ∧ (s1.keeper k).trapped = false ∧ kOp w = 0x2C ∧ fieldNat w 0 26 = 0 ∧
        (s1.keeper k).held ≤ 1 ∧ (s1.keeper k).parked = 0) :=
  ⟨⟨running 0x82F68000 (id), _, 0, 0x82F68000, _, _, _,
      fetches_cached (l := { base := 0, words := [(hiHalf 0x82F68000, false), (loHalf 0x82F68000, false)] }) (by decide +kernel) (by decide +kernel) (by decide +kernel) (by decide +kernel) (by decide +kernel), by decide +kernel, by decide +kernel, rfl, rfl, rfl, by decide +kernel⟩,
   ⟨running 0x86F68000 (id), _, 0, 0x86F68000, _, _, _,
       fetches_cached (l := { base := 0, words := [(hiHalf 0x86F68000, false), (loHalf 0x86F68000, false)] }) (by decide +kernel) (by decide +kernel) (by decide +kernel) (by decide +kernel) (by decide +kernel), by decide +kernel, by decide +kernel, rfl, rfl, rfl, by decide +kernel⟩,
   ⟨running 0x8AF68000 (id), _, 0, 0x8AF68000, _, _, _,
       fetches_cached (l := { base := 0, words := [(hiHalf 0x8AF68000, false), (loHalf 0x8AF68000, false)] }) (by decide +kernel) (by decide +kernel) (by decide +kernel) (by decide +kernel) (by decide +kernel), by decide +kernel, by decide +kernel, rfl, rfl, rfl, by decide +kernel⟩,
   ⟨running 0x8EF68000 (id), _, 0, 0x8EF68000, _, _, _,
       fetches_cached (l := { base := 0, words := [(hiHalf 0x8EF68000, false), (loHalf 0x8EF68000, false)] }) (by decide +kernel) (by decide +kernel) (by decide +kernel) (by decide +kernel) (by decide +kernel), by decide +kernel, by decide +kernel, rfl, rfl, rfl, by decide +kernel⟩,
   ⟨running 0x92F68000 (id), _, 0, 0x92F68000, _, _, _,
       fetches_cached (l := { base := 0, words := [(hiHalf 0x92F68000, false), (loHalf 0x92F68000, false)] }) (by decide +kernel) (by decide +kernel) (by decide +kernel) (by decide +kernel) (by decide +kernel), by decide +kernel, by decide +kernel, rfl, rfl, rfl, by decide +kernel⟩,
   ⟨running 0x96F68000 (id), _, 0, 0x96F68000, _, _, _,
       fetches_cached (l := { base := 0, words := [(hiHalf 0x96F68000, false), (loHalf 0x96F68000, false)] }) (by decide +kernel) (by decide +kernel) (by decide +kernel) (by decide +kernel) (by decide +kernel), by decide +kernel, by decide +kernel, rfl, rfl, rfl, by decide +kernel⟩,
   ⟨running 0xA0FFFFFF (id), _, 0, 0xA0FFFFFF,
       fetches_cached (l := { base := 0, words := [(hiHalf 0xA0FFFFFF, false), (loHalf 0xA0FFFFFF, false)] }) (by decide +kernel) (by decide +kernel) (by decide +kernel) (by decide +kernel) (by decide +kernel), by and_intros <;> decide +kernel⟩,
   ⟨running 0xA4170000 (id), _, 0, 0xA4170000,
       fetches_cached (l := { base := 0, words := [(hiHalf 0xA4170000, false), (loHalf 0xA4170000, false)] }) (by decide +kernel) (by decide +kernel) (by decide +kernel) (by decide +kernel) (by decide +kernel), by and_intros <;> decide +kernel⟩,
   ⟨running 0xA8FFFFFF (fun x => { x with held := 7 }), _, 0, 0xA8FFFFFF,
       fetches_cached (l := { base := 0, words := [(hiHalf 0xA8FFFFFF, false), (loHalf 0xA8FFFFFF, false)] }) (by decide +kernel) (by decide +kernel) (by decide +kernel) (by decide +kernel) (by decide +kernel), by and_intros <;> decide +kernel⟩,
   ⟨running 0xAC170000 (fun x => { x with held := 7 }), _, 0, 0xAC170000,
       fetches_cached (l := { base := 0, words := [(hiHalf 0xAC170000, false), (loHalf 0xAC170000, false)] }) (by decide +kernel) (by decide +kernel) (by decide +kernel) (by decide +kernel) (by decide +kernel), by and_intros <;> decide +kernel⟩,
   ⟨running 0xB0000000 (fun x => { x with held := 2 }), _, 0, 0xB0000000,
       fetches_cached (l := { base := 0, words := [(hiHalf 0xB0000000, false), (loHalf 0xB0000000, false)] }) (by decide +kernel) (by decide +kernel) (by decide +kernel) (by decide +kernel) (by decide +kernel), by and_intros <;> decide +kernel⟩,
   ⟨running 0xA8000000 (fun x => { x with held := 8 }), _, 0, 0xA8000000,
       fetches_cached (l := { base := 0, words := [(hiHalf 0xA8000000, false), (loHalf 0xA8000000, false)] }) (by decide +kernel) (by decide +kernel) (by decide +kernel) (by decide +kernel) (by decide +kernel), by and_intros <;> decide +kernel⟩,
   ⟨running 0xB0000000 (fun x => { x with held := 1 }), _, 0, 0xB0000000,
       fetches_cached (l := { base := 0, words := [(hiHalf 0xB0000000, false), (loHalf 0xB0000000, false)] }) (by decide +kernel) (by decide +kernel) (by decide +kernel) (by decide +kernel) (by decide +kernel), by and_intros <;> decide +kernel⟩⟩

/-- The hypotheses of each clause of KeeperSystemInstructions can be met. -/
theorem test_KeeperSystemInstructions_met :
    (∃ (s : State) (s1 : State) (k : Fin 12) (w : DWord), s.Fetches k w s1 ∧ (s1.keeper k).trapped = true ∧ kOp w = 0x34 ∧ fieldNat w 0 26 = 0) ∧
    (∃ (s : State) (s1 : State) (k : Fin 12) (w : DWord) (v : Half), s.Fetches k w s1 ∧ (s1.keeper k).trapped = true ∧ kOp w = 0x32 ∧
        fieldNat w 12 4 = 0 ∧ fieldNat w 0 8 = 0 ∧ kA w < 0x18 ∧
        (s1.keeper k).winReg ((s1.keeper k).named (fieldNat w 8 3) (bitOf w 11)) (kB w) = some v) ∧
    (∃ (s : State) (s1 : State) (k : Fin 12) (w : DWord) (y : Keeper), s.Fetches k w s1 ∧ (s1.keeper k).trapped = true ∧ kOp w = 0x33 ∧
        fieldNat w 12 4 = 0 ∧ fieldNat w 0 8 = 0 ∧ kA w < 0x18 ∧
        (s1.keeper k).setWinReg ((s1.keeper k).named (fieldNat w 8 3) (bitOf w 11)) (kB w) ((s1.keeper k).reg (kA w)) = some y) ∧
    (∃ (s : State) (s1 : State) (k : Fin 12) (w : DWord), s.Fetches k w s1 ∧ (s1.keeper k).trapped = true ∧ kOp w = 0x35 ∧ kB w < 0x18 ∧
        (∀ a ∈ addrsFrom ((s1.keeper k).frameAddr w) 14, (s1.placeOf a).store = true ∧ s1.placeOf a ≠ .reg ∧ s1.placeOf a ≠ .slot)) ∧
    (∃ (s : State) (s1 : State) (k : Fin 12) (w : DWord) (ws : List Half) (u : State), s.Fetches k w s1 ∧ (s1.keeper k).trapped = true ∧
        kOp w = 0x36 ∧ kB w < 0x18 ∧ (∀ a ∈ addrsFrom ((s1.keeper k).frameAddr w) 14, (s1.placeOf a).load = true) ∧
        (s1.drainStores k).kloads k (addrsFrom ((s1.keeper k).frameAddr w) 14) = ((ws, none), u)) ∧
    (∃ (s : State) (s1 : State) (u : State) (k : Fin 12) (w : DWord) (v : Half), s.Fetches k w s1 ∧ kOp w = 0x30 ∧ formatSOk w = true ∧
        s1.readSpecial k (fieldNat w 8 8) = some (v, u)) ∧
    (∃ (s : State) (s1 : State) (k : Fin 12) (w : DWord) (y : Keeper), s.Fetches k w s1 ∧ kOp w = 0x31 ∧ formatSOk w = true ∧
        (s1.keeper k).writeSpecial (fieldNat w 8 8) ((s1.keeper k).reg (kA w)) = some y) :=
  ⟨⟨running 0xD0000000 (fun x => { x with trapped := true }), _, 0, 0xD0000000,
      fetches_cached (l := { base := 0, words := [(hiHalf 0xD0000000, false), (loHalf 0xD0000000, false)] }) (by decide +kernel) (by decide +kernel) (by decide +kernel) (by decide +kernel) (by decide +kernel), by and_intros <;> decide +kernel⟩,
   ⟨running 0xCAF90F00 (fun x => { x with trapped := true }), _, 0, 0xCAF90F00, _,
       fetches_cached (l := { base := 0, words := [(hiHalf 0xCAF90F00, false), (loHalf 0xCAF90F00, false)] }) (by decide +kernel) (by decide +kernel) (by decide +kernel) (by decide +kernel) (by decide +kernel), by decide +kernel, by decide +kernel, by decide +kernel, by decide +kernel, by decide +kernel, rfl⟩,
   ⟨running 0xCEF90F00 (fun x => { x with trapped := true }), _, 0, 0xCEF90F00, _,
       fetches_cached (l := { base := 0, words := [(hiHalf 0xCEF90F00, false), (loHalf 0xCEF90F00, false)] }) (by decide +kernel) (by decide +kernel) (by decide +kernel) (by decide +kernel) (by decide +kernel), by decide +kernel, by decide +kernel, by decide +kernel, by decide +kernel, by decide +kernel, rfl⟩,
   ⟨running 0xD4E10000 (fun x => { x with trapped := true, seg := #v[4, 4, 4, 4] }), _, 0, 0xD4E10000,
       fetches_cached (l := { base := 0, words := [(hiHalf 0xD4E10000, false), (loHalf 0xD4E10000, false)] }) (by decide +kernel) (by decide +kernel) (by decide +kernel) (by decide +kernel) (by decide +kernel), by and_intros <;> decide +kernel⟩,
   ⟨running 0xD8E10000 (fun x => { x with trapped := true, seg := #v[4, 4, 4, 4] }), _, 0, 0xD8E10000, _, _,
       fetches_cached (l := { base := 0, words := [(hiHalf 0xD8E10000, false), (loHalf 0xD8E10000, false)] }) (by decide +kernel) (by decide +kernel) (by decide +kernel) (by decide +kernel) (by decide +kernel), by decide +kernel, by decide +kernel, by decide +kernel, by decide +kernel, rfl⟩,
   ⟨running 0xC2E01900 (id), _, _, 0, 0xC2E01900, _,
       fetches_cached (l := { base := 0, words := [(hiHalf 0xC2E01900, false), (loHalf 0xC2E01900, false)] }) (by decide +kernel) (by decide +kernel) (by decide +kernel) (by decide +kernel) (by decide +kernel), by decide +kernel, by decide +kernel, rfl⟩,
   ⟨running 0xC6E00700 (id), _, 0, 0xC6E00700, _,
       fetches_cached (l := { base := 0, words := [(hiHalf 0xC6E00700, false), (loHalf 0xC6E00700, false)] }) (by decide +kernel) (by decide +kernel) (by decide +kernel) (by decide +kernel) (by decide +kernel), by decide +kernel, by decide +kernel, rfl⟩⟩

/-- The hypotheses of each clause of KeeperMemoryAndItems can be met. -/
theorem test_KeeperMemoryAndItems_met :
    (∃ (s : State) (s1 : State) (k : Fin 12) (w : DWord) (a : Nat), s.Fetches k w s1 ∧ 0x10 ≤ kOp w ∧ kOp w < 0x14 ∧ kA w < 0x18 ∧ kB w < 0x18 ∧
        a = (s1.keeper k).effective (segOf w) (kB w) ((kImm w).signExtend 32) ∧ (s1.placeOf a).load = true ∧ (s1.kload k a).1.2 = false) ∧
    (∃ (s : State) (s1 : State) (k : Fin 12) (w : DWord) (a : Nat), s.Fetches k w s1 ∧ 0x10 ≤ kOp w ∧ kOp w < 0x14 ∧ kA w < 0x18 ∧ kB w < 0x18 ∧
        a = (s1.keeper k).effective (segOf w) (kB w) ((kImm w).signExtend 32) ∧ (s1.placeOf a).load = true ∧ (s1.kload k a).1.2 = true) ∧
    (∃ (s : State) (s1 : State) (k : Fin 12) (w : DWord) (a : Nat), s.Fetches k w s1 ∧ 0x10 ≤ kOp w ∧ kOp w < 0x14 ∧ kA w < 0x18 ∧ kB w < 0x18 ∧
        a = (s1.keeper k).effective (segOf w) (kB w) ((kImm w).signExtend 32) ∧ (s1.placeOf a).load = false) ∧
    (∃ (s : State) (s1 : State) (k : Fin 12) (w : DWord) (a : Nat), s.Fetches k w s1 ∧ 0x14 ≤ kOp w ∧ kOp w < 0x18 ∧ kA w < 0x18 ∧ kB w < 0x18 ∧
        a = (s1.keeper k).effective (segOf w) (kB w) ((kImm w).signExtend 32) ∧ (s1.placeOf a).store = true ∧ s1.placeOf a ≠ .reg ∧
        s1.placeOf a ≠ .slot ∧ (s1.keeper k).storeBuf.length < 4) ∧
    (∃ (s : State) (s1 : State) (k : Fin 12) (w : DWord) (a : Nat) (n : Fin 4), s.Fetches k w s1 ∧ 0x14 ≤ kOp w ∧ kOp w < 0x18 ∧ kA w < 0x18 ∧
        kB w < 0x18 ∧ a = (s1.keeper k).effective (segOf w) (kB w) ((kImm w).signExtend 32) ∧ s1.placeOf a = .slot ∧
        n.val = (a - 0xC00000) / 8 % 4 ∧ (((s1.drainStores k).keeper k).dma[n]).busy = false) ∧
    (∃ (s : State) (s1 : State) (k : Fin 12) (w : DWord) (a : Nat) (n : Fin 4), s.Fetches k w s1 ∧ 0x14 ≤ kOp w ∧ kOp w < 0x18 ∧ kA w < 0x18 ∧
        kB w < 0x18 ∧ a = (s1.keeper k).effective (segOf w) (kB w) ((kImm w).signExtend 32) ∧ a % 8 < 6 ∧ s1.placeOf a = .slot ∧
        n.val = (a - 0xC00000) / 8 % 4 ∧ (((s1.drainStores k).keeper k).dma[n]).busy = true) ∧
    (∃ (s : State) (s1 : State) (k : Fin 12) (w : DWord) (a : Nat) (u : State), s.Fetches k w s1 ∧ 0x14 ≤ kOp w ∧ kOp w < 0x18 ∧ kA w < 0x18 ∧
        kB w < 0x18 ∧ a = (s1.keeper k).effective (segOf w) (kB w) ((kImm w).signExtend 32) ∧ s1.placeOf a = .reg ∧
        (s1.drainStores k).storeReg k a ((s1.keeper k).reg (kA w)) = (u, false) ∧ (u.keeper k).run = (s1.keeper k).run) ∧
    (∃ (s : State) (s1 : State) (k : Fin 12) (w : DWord) (a : Nat), s.Fetches k w s1 ∧ 0x14 ≤ kOp w ∧ kOp w < 0x18 ∧ kA w < 0x18 ∧ kB w < 0x18 ∧
        a = (s1.keeper k).effective (segOf w) (kB w) ((kImm w).signExtend 32) ∧ (s1.placeOf a).store = false) ∧
    (∃ (s : State) (k : Fin 12) (a : Nat) (v : Half) (rest : List (Nat × Half)), (s.keeper k).storeBuf = (a, v) :: rest) ∧
    (∃ (s : State) (s1 : State) (u : State) (k : Fin 12) (w : DWord) (i : Nat) (x : Item) (as_ : List Nat) (ws : List Half), s.Fetches k w s1 ∧
        0x18 ≤ kOp w ∧ kOp w < 0x1C ∧ kA w < 0x18 ∧ kB w < 0x18 ∧ (s1.keeper k).run = .item i ∧ s1.item i = some x ∧
        as_ = addrsFrom ((s1.keeper k).effective (segOf w) (kB w) ((kImm w).signExtend 32)) 8 ∧ (∀ a ∈ as_, (s1.placeOf a).load = true) ∧
        (s1.drainStores k).kloads k as_ = ((ws, none), u) ∧ u.granted k x.owner = true) ∧
    (∃ (s : State) (s1 : State) (k : Fin 12) (w : DWord), s.Fetches k w s1 ∧ kOp w = 0x38 ∧ fieldNat w 0 26 = 0 ∧
        (s1.keeper k).dma.toList.any (fun d => d.busy && d.toHost && !d.issued) = false) ∧
    (∃ (s : State) (s1 : State) (k : Fin 12) (w : DWord) (n : Fin 4), s.Fetches k w s1 ∧ kOp w = 0x3A ∧ fieldNat w 2 19 = 0 ∧ kA w < 0x18 ∧
        fieldNat w 0 2 = n.val ∧ ((s1.keeper k).dma[n]).busy = false) ∧
    (∃ (s : State) (s1 : State) (k : Fin 12) (w : DWord) (i : Nat), s.Fetches k w s1 ∧ kOp w = 0x3B ∧ fieldNat w 0 26 = 0 ∧
        (s1.keeper k).run = .item i ∧ (s1.keeper k).dma.toList.all DmaSlot.idle = true) ∧
    (∃ (s : State) (s1 : State) (s2 : State) (k : Fin 12) (w : DWord) (n : Fin 4) (f : Func), s.Fetches k w s1 ∧ kOp w = 0x39 ∧
        fieldNat w 2 24 = 0 ∧ fieldNat w 0 2 = n.val ∧ s2 = s1.drainStores k ∧ ((s2.keeper k).dma[n]).busy = false ∧
        s2.slotOk (s2.keeper k).dma[n] = true ∧ s2.slotFuncOf (s2.keeper k).dma[n] = some f ∧
        bitOf (s2.lnk.win[((s2.keeper k).dma[n]).win]).ctl k.val = true ∧ s2.granted k f = true ∧
        (s2.modSlot k n (fun d => { d with busy := true, issued := false, sub := 0, status := 0 })).dmaGoes f = true) ∧
    (∃ (s : State) (k : Fin 12) (n : Fin 4), ((s.keeper k).dma[n]).busy = true ∧ ((s.keeper k).dma[n]).issued = true) :=
  ⟨⟨running 0x4EF60000 (fun x => { x with seg := #v[4, 4, 4, 4] }), _, 0, 0x4EF60000, _,
      fetches_cached (l := { base := 0, words := [(hiHalf 0x4EF60000, false), (loHalf 0x4EF60000, false)] }) (by decide +kernel) (by decide +kernel) (by decide +kernel) (by decide +kernel) (by decide +kernel), by decide +kernel, by decide +kernel, by decide +kernel, by decide +kernel, rfl, by and_intros <;> decide +kernel⟩,
   ⟨(running 0x4EF60000 (fun x => { x with seg := #v[4, 4, 4, 4] })).modHst (fun h => { h with wrong := [0x80000, 0x80001] }), _, 0, 0x4EF60000,
       _, fetches_cached (l := { base := 0, words := [(hiHalf 0x4EF60000, false), (loHalf 0x4EF60000, false)] }) (by decide +kernel) (by decide +kernel) (by decide +kernel) (by decide +kernel) (by decide +kernel), by decide +kernel, by decide +kernel, by decide +kernel, by decide +kernel, rfl, by and_intros <;> decide +kernel⟩,
   ⟨running 0x4EF60000 (fun x => { x with seg := #v[0x7F, 0x7F, 0x7F, 0x7F] }), _, 0, 0x4EF60000, _,
       fetches_cached (l := { base := 0, words := [(hiHalf 0x4EF60000, false), (loHalf 0x4EF60000, false)] }) (by decide +kernel) (by decide +kernel) (by decide +kernel) (by decide +kernel) (by decide +kernel), by decide +kernel, by decide +kernel, by decide +kernel, by decide +kernel, rfl, by decide +kernel⟩,
   ⟨running 0x5EF60000 (fun x => { x with seg := #v[4, 4, 4, 4] }), _, 0, 0x5EF60000, _,
       fetches_cached (l := { base := 0, words := [(hiHalf 0x5EF60000, false), (loHalf 0x5EF60000, false)] }) (by decide +kernel) (by decide +kernel) (by decide +kernel) (by decide +kernel) (by decide +kernel), by decide +kernel, by decide +kernel, by decide +kernel, by decide +kernel, rfl, by and_intros <;> decide +kernel⟩,
   ⟨running 0x5EF6001C (fun x => { x with seg := #v[0xC0, 0xC0, 0xC0, 0xC0] }), _, 0, 0x5EF6001C, 0xC0001C, 3,
       fetches_cached (l := { base := 0, words := [(hiHalf 0x5EF6001C, false), (loHalf 0x5EF6001C, false)] }) (by decide +kernel) (by decide +kernel) (by decide +kernel) (by decide +kernel) (by decide +kernel), by and_intros <;> decide +kernel⟩,
   ⟨running 0x5EF6001C (fun x => { x with dma := x.dma.set 3 { busy := true }, seg := #v[0xC0, 0xC0, 0xC0, 0xC0] }), _, 0, 0x5EF6001C, 0xC0001C,
       3, fetches_cached (l := { base := 0, words := [(hiHalf 0x5EF6001C, false), (loHalf 0x5EF6001C, false)] }) (by decide +kernel) (by decide +kernel) (by decide +kernel) (by decide +kernel) (by decide +kernel), by and_intros <;> decide +kernel⟩,
   ⟨running 0x5EF60000 (fun x => { x with seg := #v[0x80, 0x80, 0x80, 0x80] }), _, 0, 0x5EF60000, 0x800000, _,
       fetches_cached (l := { base := 0, words := [(hiHalf 0x5EF60000, false), (loHalf 0x5EF60000, false)] }) (by decide +kernel) (by decide +kernel) (by decide +kernel) (by decide +kernel) (by decide +kernel), by decide +kernel, by decide +kernel, by decide +kernel, by decide +kernel, by decide +kernel, by decide +kernel, rfl, by decide +kernel⟩,
   ⟨running 0x5EF60000 (fun x => { x with seg := #v[0x7F, 0x7F, 0x7F, 0x7F] }), _, 0, 0x5EF60000, _,
       fetches_cached (l := { base := 0, words := [(hiHalf 0x5EF60000, false), (loHalf 0x5EF60000, false)] }) (by decide +kernel) (by decide +kernel) (by decide +kernel) (by decide +kernel) (by decide +kernel), by decide +kernel, by decide +kernel, by decide +kernel, by decide +kernel, rfl, by decide +kernel⟩,
   ⟨running 0 (fun x => { x with storeBuf := [(0x40000, 7)] }), 0, 0x40000, 7, [], by decide +kernel⟩,
   ⟨running 0x6EF60000 (fun x => { x with seg := #v[4, 4, 4, 4] }), _, _, 0, 0x6EF60000, 0, _, _, _,
       fetches_cached (l := { base := 0, words := [(hiHalf 0x6EF60000, false), (loHalf 0x6EF60000, false)] }) (by decide +kernel) (by decide +kernel) (by decide +kernel) (by decide +kernel) (by decide +kernel), by decide +kernel, by decide +kernel, by decide +kernel, by decide +kernel, by decide +kernel, rfl, rfl, by decide +kernel, rfl, by decide +kernel⟩,
   ⟨running 0xE0000000 (id), _, 0, 0xE0000000,
       fetches_cached (l := { base := 0, words := [(hiHalf 0xE0000000, false), (loHalf 0xE0000000, false)] }) (by decide +kernel) (by decide +kernel) (by decide +kernel) (by decide +kernel) (by decide +kernel), by and_intros <;> decide +kernel⟩,
   ⟨running 0xEAE00003 (id), _, 0, 0xEAE00003, 3,
       fetches_cached (l := { base := 0, words := [(hiHalf 0xEAE00003, false), (loHalf 0xEAE00003, false)] }) (by decide +kernel) (by decide +kernel) (by decide +kernel) (by decide +kernel) (by decide +kernel), by and_intros <;> decide +kernel⟩,
   ⟨running 0xEC000000 (id), _, 0, 0xEC000000, 0,
       fetches_cached (l := { base := 0, words := [(hiHalf 0xEC000000, false), (loHalf 0xEC000000, false)] }) (by decide +kernel) (by decide +kernel) (by decide +kernel) (by decide +kernel) (by decide +kernel), by and_intros <;> decide +kernel⟩,
   ⟨{ ((running 0xE4000003 (fun x => { x with dma := x.dma.set 3 { words := #v[0x0400, 0, 0, 0, 4, 4096] } })).modReg (fun x => { x with sealSet := 0x3F })) with lnk := { lit.lnk with win := lit.lnk.win.set 0 { ctl := 0x00030FFF, size := 1 } } }, _, _, 0, 0xE4000003, 3, .mfA, fetches_cached (l := { base := 0, words := [(hiHalf 0xE4000003, false), (loHalf 0xE4000003, false)] }) (by decide +kernel) (by decide +kernel) (by decide +kernel) (by decide +kernel) (by decide +kernel), by decide +kernel, by decide +kernel, by decide +kernel, rfl, by and_intros <;> decide +kernel⟩,
   ⟨running 0 (fun x => { x with dma := x.dma.set 3 { busy := true, issued := true } }), 0, 3, by and_intros <;> decide +kernel⟩⟩

/-- The hypotheses of each clause of PortsAreControlled can be met. -/
theorem test_PortsAreControlled_met :
    (∃ (s : State) (s1 : State) (f : Func) (i : Half) (e : Entry) (n : Fin 16), s.Issues f 0x14 i e s1 ∧ portCtlOk e = true ∧ n = portParam e ∧
        s1.portGone n = false ∧ s1.portOwner n = f ∧ fieldNat e[0] 4 4 = 0) ∧
    (∃ (s : State) (s1 : State) (f : Func) (i : Half) (e : Entry) (n : Fin 16), s.Issues f 0x14 i e s1 ∧ portCtlOk e = true ∧ n = portParam e ∧
        s1.portGone n = false ∧ s1.portOwner n = f ∧ fieldNat e[0] 4 4 = 1 ∧ (s1.port n).mayReset = true) ∧
    (∃ (s : State) (s1 : State) (f : Func) (i : Half) (e : Entry) (n : Fin 16), s.Issues f 0x14 i e s1 ∧ portCtlOk e = true ∧ n = portParam e ∧
        s1.portGone n = false ∧ s1.portOwner n = f ∧ fieldNat e[0] 4 4 = 1 ∧ (s1.port n).mayReset = false) ∧
    (∃ (s : State) (s1 : State) (f : Func) (i : Half) (e : Entry) (n : Fin 16), s.Issues f 0x14 i e s1 ∧ portCtlOk e = true ∧ n = portParam e ∧
        s1.portGone n = false ∧ s1.portOwner n = f ∧ fieldNat e[0] 4 4 = 2 ∧ (s1.port n).state = .enabled) ∧
    (∃ (s : State) (s1 : State) (f : Func) (i : Half) (e : Entry) (n : Fin 16), s.Issues f 0x14 i e s1 ∧ portCtlOk e = true ∧ n = portParam e ∧
        s1.portGone n = false ∧ s1.portOwner n = f ∧ fieldNat e[0] 4 4 = 3 ∧ (s1.port n).state = .suspended ∧ (s1.port n).suspMode = false) ∧
    (∃ (s : State) (s1 : State) (f : Func) (i : Half) (e : Entry) (n : Fin 16), s.Issues f 0x14 i e s1 ∧ portCtlOk e = true ∧ n = portParam e ∧
        s1.portGone n = false ∧ s1.portOwner n = f ∧ fieldNat e[0] 4 4 = 4 ∧ (s1.port n).mayDisable = true) ∧
    (∃ (s : State) (s1 : State) (f : Func) (i : Half) (e : Entry) (n : Fin 16) (d : DevRec) (h : Nat) (u : State), s.Issues f 0x14 i e s1 ∧
        portCtlOk e = true ∧ n = portParam e ∧ s1.portGone n = false ∧ s1.portOwner n = f ∧ fieldNat e[0] 4 4 = 5 ∧ (s1.port n).state = .enabled ∧
        s1.rootDev n = some h ∧ s1.dev h = some d ∧ d.hub = false ∧ s1.lampServes n = false ∧
        u = ((s1.emit (.usbLpm n (fieldNat e[1] 0 4) (bitOf e[1] 8))).modPort n (fun p => { p with lpmResp := 1, lpmRwe := bitOf e[1] 8, lpmBesl := fieldNat e[1] 0 4, state := .l1, wait := .none })).finishPort n 1) ∧
    (∃ (s : State) (s1 : State) (f : Func) (i : Half) (e : Entry) (n : Fin 16), s.Issues f 0x14 i e s1 ∧ portCtlOk e = true ∧ n = portParam e ∧
        fieldNat e[0] 4 4 = 0 ∧ s1.portGone n = true) ∧
    (∃ (s : State) (s1 : State) (f : Func) (i : Half) (e : Entry) (n : Fin 16), s.Issues f 0x14 i e s1 ∧ portCtlOk e = true ∧ n = portParam e ∧
        fieldNat e[0] 4 4 = 0 ∧ s1.portGone n = false ∧ s1.portOwner n ≠ f) :=
  ⟨⟨issuing (lit) .mfA (ent 0x14 [0x0F]), _, .mfA, 0, (ent 0x14 [0x0F]), 15, issues (by and_intros <;> decide +kernel),
      by and_intros <;> decide +kernel⟩,
   ⟨issuing ((lit).modPort 15 (fun p => { p with state := .attached })) .mfA (ent 0x14 [0x1F]), _, .mfA, 0, (ent 0x14 [0x1F]), 15,
       issues (by and_intros <;> decide +kernel), by and_intros <;> decide +kernel⟩,
   ⟨issuing ((lit).modPort 15 (fun p => { p with state := .off })) .mfA (ent 0x14 [0x1F]), _, .mfA, 0, (ent 0x14 [0x1F]), 15,
       issues (by and_intros <;> decide +kernel), by and_intros <;> decide +kernel⟩,
   ⟨issuing ((lit).modPort 15 (fun p => { p with state := .enabled })) .mfA (ent 0x14 [0x2F]), _, .mfA, 0, (ent 0x14 [0x2F]), 15,
       issues (by and_intros <;> decide +kernel), by and_intros <;> decide +kernel⟩,
   ⟨issuing ((lit).modPort 15 (fun p => { p with state := .suspended })) .mfA (ent 0x14 [0x3F]), _, .mfA, 0, (ent 0x14 [0x3F]), 15,
       issues (by and_intros <;> decide +kernel), by and_intros <;> decide +kernel⟩,
   ⟨issuing ((lit).modPort 15 (fun p => { p with state := .l1 })) .mfA (ent 0x14 [0x4F]), _, .mfA, 0, (ent 0x14 [0x4F]), 15,
       issues (by and_intros <;> decide +kernel), by and_intros <;> decide +kernel⟩,
   ⟨issuing (bound) .mfA (ent 0x14 [0x50, 0x10F]), _, .mfA, 0, (ent 0x14 [0x50, 0x10F]), 0, dev, 1, _, issues (by and_intros <;> decide +kernel),
       by decide +kernel, by decide +kernel, by decide +kernel, by decide +kernel, by decide +kernel, by decide +kernel, by decide +kernel,
       by decide +kernel, by decide +kernel, by decide +kernel, rfl⟩,
   ⟨issuing ((lit).modPort 15 (fun p => { p with failed := true, state := .failed })) .mfA (ent 0x14 [0x0F]), _, .mfA, 0, (ent 0x14 [0x0F]), 15,
       issues (by and_intros <;> decide +kernel), by and_intros <;> decide +kernel⟩,
   ⟨issuing (lit) (.buoy 2) (ent 0x14 [0x0F]), _, (.buoy 2), 0, (ent 0x14 [0x0F]), 15, issues (by and_intros <;> decide +kernel),
       by and_intros <;> decide +kernel⟩⟩

/-- The hypotheses of each clause of PortsFollowTheirBus can be met. -/
theorem test_PortsFollowTheirBus_met :
    (∃ (s : State) (n : Fin 16), (s.port n).state = .resetting ∧ (s.port n).wait = .se0) ∧
    (∃ (s : State) (n : Fin 16), (s.port n).state = .resetting ∧ (s.port n).wait = .se0) ∧
    (∃ (s : State) (n : Fin 16), (s.port n).state = .resetting ∧ (s.port n).wait = .recovery) ∧
    (∃ (s : State) (n : Fin 16), (s.port n).state = .enabled ∧ (s.port n).wait = .suspendWait) ∧
    (∃ (s : State) (n : Fin 16), (s.port n).state = .resuming ∧ s.busesWake = true) ∧
    (∃ (s : State) (n : Fin 16), (s.port n).state = .resuming ∧ s.busesWake = false) ∧
    (∃ (s : State) (n : Fin 16), (s.port n).state = .l1 ∧ (s.port n).lpmRwe = true) ∧
    (∃ (s : State) (n : Fin 16), (s.port n).state = .disconnected) ∧
    (∃ (s : State) (n : Fin 16), (s.port n).state = .debounce) ∧
    (∃ (s : State) (n : Fin 16), (s.port n).connected = true) ∧
    (∃ (s : State) (n : Fin 16), (s.port n).state = .suspended) ∧
    (∃ (s : State) (n : Fin 16), s.mode ≠ .dark ∧ (s.port n).failed = false) ∧
    (∃ (s : State) (fa : Fin 4), s.mode ≠ .dark ∧ (s.fairway fa).failed = false) ∧
    (∃ (s : State) (b : Nat), bitOf s.md.wakeCfg b = false) ∧
    (∃ (s : State) (b : Nat), bitOf s.md.wakeCfg b = true ∧ s.mode = .night) ∧
    (∃ (s : State) (b : Nat), bitOf s.md.wakeCfg b = true ∧ s.mode = .standby) :=
  ⟨⟨(lit).modPort 15 (fun p => { p with state := .resetting, wait := .se0 }), 15, by and_intros <;> decide +kernel⟩,
   ⟨(lit).modPort 15 (fun p => { p with state := .resetting, wait := .se0 }), 15, by and_intros <;> decide +kernel⟩,
   ⟨(lit).modPort 15 (fun p => { p with state := .resetting, wait := .recovery }), 15, by and_intros <;> decide +kernel⟩,
   ⟨(lit).modPort 15 (fun p => { p with state := .enabled, wait := .suspendWait }), 15, by and_intros <;> decide +kernel⟩,
   ⟨(lit).modPort 15 (fun p => { p with state := .resuming }), 15, by and_intros <;> decide +kernel⟩,
   ⟨(inMode .standby).modPort 15 (fun p => { p with state := .resuming }), 15, by and_intros <;> decide +kernel⟩,
   ⟨(lit).modPort 15 (fun p => { p with state := .l1, lpmRwe := true }), 15, by and_intros <;> decide +kernel⟩,
   ⟨(lit).modPort 15 (fun p => { p with state := .disconnected }), 15, by decide +kernel⟩,
   ⟨(lit).modPort 15 (fun p => { p with state := .debounce, conn := true }), 15, by decide +kernel⟩,
   ⟨(lit).modPort 15 (fun p => { p with state := .enabled, speed := some .low }), 15, by decide +kernel⟩,
   ⟨(lit).modPort 15 (fun p => { p with state := .suspended }), 15, by decide +kernel⟩,
   ⟨lit, 15, by and_intros <;> decide +kernel⟩,
   ⟨lit, 3, by and_intros <;> decide +kernel⟩,
   ⟨lit.modMd (fun d => { d with wakeCfg := 0 }), 0, by decide +kernel⟩,
   ⟨(inMode .night).modMd (fun d => { d with wakeCfg := 1 }), 0, by and_intros <;> decide +kernel⟩,
   ⟨(inMode .standby).modMd (fun d => { d with wakeCfg := 1 }), 0, by and_intros <;> decide +kernel⟩⟩

/-- The hypotheses of each clause of DevicesAreAddressedAndConfigured can be met. -/
theorem test_DevicesAreAddressedAndConfigured_met :
    (∃ (s : State) (s1 : State) (s2 : State) (f : Func) (i : Half) (e : Entry) (n : Fin 16) (d : DevRec) (a : Nat) (maxp : Nat),
        s.Issues f 0x10 i e s1 ∧ parentParam e = 0 ∧ addressParamsOk e = true ∧ n = portParam e ∧ d = s1.newDev e none ∧ s1.portGone n = false ∧
        s1.portOwner n = f ∧ s.addressingOf f = none ∧ (s.fairway (fairwayOf n)).addressing = none ∧
        s2 = s1.emit (.usbControl (fairwayOf n) 0 getDescriptor8) ∧ (s1.fairway (fairwayOf n)).takeAddr (fieldNat e[0] 8 7) = some a ∧
        s1.addressReady d = true ∧ maxpOk d.speed 0 1 maxp = true) ∧
    (∃ (s : State) (s1 : State) (s2 : State) (f : Func) (i : Half) (e : Entry) (n : Fin 16) (d : DevRec), s.Issues f 0x10 i e s1 ∧
        parentParam e = 0 ∧ addressParamsOk e = true ∧ n = portParam e ∧ d = s1.newDev e none ∧ s1.portGone n = false ∧ s1.portOwner n = f ∧
        s.addressingOf f = none ∧ (s.fairway (fairwayOf n)).addressing = none ∧ s2 = s1.emit (.usbControl (fairwayOf n) 0 getDescriptor8) ∧
        (s1.fairway (fairwayOf n)).takeAddr (fieldNat e[0] 8 7) = none) ∧
    (∃ (s : State) (s1 : State) (f : Func) (i : Half) (e : Entry) (d : DevRec), s.Issues f 0x11 i e s1 ∧ fieldNat e[0] 12 20 = 0 ∧
        fieldNat e[1] 8 24 = 0 ∧ fieldNat e[1] 4 1 = 0 ∧ fieldNat e[1] 0 4 ≠ 0 ∧ paramsZero e [2, 3, 4, 5] = true ∧ s1.dev (devParam e) = some d ∧
        s1.hubRangeOk (devParam e) e[1] d = true ∧ s1.portGone d.port = false ∧ s1.portOwner d.port = f) ∧
    (∃ (s : State) (s1 : State) (f : Func) (i : Half) (e : Entry) (d : DevRec), s.Issues f 0x12 i e s1 ∧ epParamsOk e = true ∧
        s1.dev (fieldNat e[0] 16 12) = some d ∧ maxpOk d.speed (fieldNat e[0] 4 2) (fieldNat e[1] 11 2) (fieldNat e[1] 0 11) = true ∧
        s1.epHasLamp (fieldNat e[0] 16 12) (fieldNat e[0] 8 4) (bitOf e[0] 7) = false ∧ s1.portGone d.port = false ∧ s1.portOwner d.port = f) ∧
    (∃ (s : State) (s1 : State) (f : Func) (i : Half) (e : Entry) (d : DevRec), s.Issues f 0x13 i e s1 ∧ fieldNat e[0] 12 20 = 0 ∧
        paramsZero e [1, 2, 3, 4, 5] = true ∧ s1.dev (devParam e) = some d ∧ s1.portGone d.port = false ∧ s1.portOwner d.port = f) ∧
    (∃ (s : State) (s1 : State) (f : Func) (i : Half) (e : Entry), s.Issues f 0x13 i e s1 ∧ fieldNat e[0] 12 20 = 0 ∧ paramsZero e [1, 2, 3, 4,
        5] = true ∧ s1.dev (devParam e) = none) :=
  ⟨⟨issuing ((lit.modPort 0 (fun p => { p with state := .enabled, speed := some .high }))) .mfA (ent 0x10 [0x7F00]), _, _, .mfA, 0,
      (ent 0x10 [0x7F00]), 0, { speed := .high, port := 0 }, 127, 64, issues (by and_intros <;> decide +kernel), by decide +kernel,
      by decide +kernel, by decide +kernel, by decide +kernel, by decide +kernel, by decide +kernel, by decide +kernel, by decide +kernel, rfl,
      by and_intros <;> decide +kernel⟩,
   ⟨issuing (bound) .mfA (ent 0x10 [0x0100]), _, _, .mfA, 0, (ent 0x10 [0x0100]), 0, { speed := .high, port := 0 },
       issues (by and_intros <;> decide +kernel), by decide +kernel, by decide +kernel, by decide +kernel, by decide +kernel, by decide +kernel,
       by decide +kernel, by decide +kernel, by decide +kernel, rfl, by decide +kernel⟩,
   ⟨issuing (bound) .mfA (ent 0x11 [1, 0xE4]), _, .mfA, 0, (ent 0x11 [1, 0xE4]), dev, issues (by and_intros <;> decide +kernel),
       by and_intros <;> decide +kernel⟩,
   ⟨issuing (bound) .mfA (ent 0x12 [0x00010220, 0xA00]), _, .mfA, 0, (ent 0x12 [0x00010220, 0xA00]), dev,
       issues (by and_intros <;> decide +kernel), by and_intros <;> decide +kernel⟩,
   ⟨issuing (bound) .mfA (ent 0x13 [1]), _, .mfA, 0, (ent 0x13 [1]), dev, issues (by and_intros <;> decide +kernel),
       by and_intros <;> decide +kernel⟩,
   ⟨issuing (lit) .mfA (ent 0x13 [0xFFF]), _, .mfA, 0, (ent 0x13 [0xFFF]), issues (by and_intros <;> decide +kernel),
       by and_intros <;> decide +kernel⟩⟩

/-- The hypotheses of each clause of TypeCPartnersAttach can be met. -/
theorem test_TypeCPartnersAttach_met :
    (∃ (s : State) (e : Fin 17), s.ccActive e = true ∧ (s.eng e).state = .unattSrc) ∧
    (∃ (s : State) (e : Fin 17) (rp : Nat), s.ccActive e = true ∧ (s.eng e).state = .unattSnk ∧ rp ≤ 3) ∧
    (∃ (s : State) (e : Fin 17), s.ccActive e = true ∧ (s.eng e).state = .waitSrc ∧ (s.eng e).preferSnk = false ∧ (s.eng e).known = true) ∧
    (∃ (s : State) (e : Fin 17), s.ccActive e = true ∧ (s.eng e).state = .waitSnk) ∧
    (∃ (s : State) (e : Fin 17), s.ccActive e = true ∧ (s.eng e).state = .unattSrc) ∧
    (∃ (s : State) (e : Fin 17), s.ccActive e = true ∧ (s.eng e).state = .trySrc) ∧
    (∃ (s : State) (e : Fin 17), s.maySource e = true) ∧
    (∃ (s : State) (e : Fin 17), s.maySource e = false) :=
  ⟨⟨(lit).modEng 16 (fun x => { x with cfg := 0x8F000000, state := .unattSrc }), 16, by and_intros <;> decide +kernel⟩,
   ⟨(lit).modEng 0 (fun x => { x with cfg := 0x8F000000, state := .unattSnk }), 0, 3, by and_intros <;> decide +kernel⟩,
   ⟨(lit).modEng 15 (fun x => { x with cfg := 0x8F000000, state := .waitSrc, known := true }), 15, by and_intros <;> decide +kernel⟩,
   ⟨(lit).modEng 0 (fun x => { x with cfg := 0x8F000000, state := .waitSnk }), 0, by and_intros <;> decide +kernel⟩,
   ⟨(lit).modEng 0 (fun x => { x with cfg := 0x8F000000, state := .unattSrc }), 0, by and_intros <;> decide +kernel⟩,
   ⟨(lit).modEng 0 (fun x => { x with cfg := 0x8F000000, state := .trySrc }), 0, by and_intros <;> decide +kernel⟩,
   ⟨((lit.modReg (fun x => { x with sealSet := 0x3F })).modMoor 16 (fun m => { m with env := 0x00FF00FF })).modEng 16 (fun x => { x with cfg := 0x8F000000, state := .waitSrc, debounced := true }), 16, by decide +kernel⟩,
   ⟨lit, 0, by decide +kernel⟩⟩

/-- The hypotheses of each clause of TypeCPartnersLeave can be met. -/
theorem test_TypeCPartnersLeave_met :
    (∃ (s : State) (e : Fin 17), s.ccActive e = true ∧ (s.eng e).state = .attSrc) ∧
    (∃ (s : State) (e : Fin 17), (s.eng e).state = .recovery) ∧
    (∃ (s : State) (e : Fin 17), (s.eng e).vconnOn = true) ∧
    (∃ (s : State) (s1 : State) (p : Path) (r : Requester) (e : Fin 17), s.Brings p r ∧ s1 = s.arrived p r (ccpOff e 0) ∧
        (s1.isPrimary r || r.isKeeper) = true ∧ (s1.eng e).kind ≠ 1) ∧
    (∃ (v : DWord), fieldNat v 24 2 = 0) ∧
    (∃ (s : State) (s1 : State) (p : Path) (r : Requester) (e : Fin 17), s.Brings p r ∧ s1 = s.arrived p r (ccpOff e 0) ∧
        (s1.isPrimary r || r.isKeeper) = false) :=
  ⟨⟨(lit).modEng 15 (fun x => { x with cfg := 0x8F000000, state := .attSrc }), 15, by and_intros <;> decide +kernel⟩,
   ⟨(lit).modEng 16 (fun x => { x with state := .recovery }), 16, by decide +kernel⟩,
   ⟨(lit).modEng 0 (fun x => { x with vconnOn := true }), 0, by decide +kernel⟩,
   ⟨(lit).modEng 16 (fun x => { x with kind := 2 }), _, .mgr .a, .mfA, 16, brings (by and_intros <;> decide +kernel), rfl,
       by and_intros <;> decide +kernel⟩,
   ⟨0, by decide +kernel⟩,
   ⟨lit, _, .mgr .b, .mfB, 16, brings (by and_intros <;> decide +kernel), rfl, by decide +kernel⟩⟩

/-- The hypotheses of each clause of PdMessagesAreHandled can be met. -/
theorem test_PdMessagesAreHandled_met :
    (∃ (s : State) (e : Fin 17) (h : Half), (s.eng e).attached = true ∧ s.pdOn e = true ∧ (s.eng e).txStage = .idle ∧
        isControl h ctlGoodCrc = false ∧ isControl h ctlSoftReset = false ∧ (s.eng e).lastId[0] = some (pdId h)) ∧
    (∃ (s : State) (e : Fin 17) (h : Half) (b : List Byte), (s.eng e).attached = true ∧ s.pdOn e = true ∧ (s.eng e).txStage = .idle ∧
        isControl h ctlGoodCrc = false ∧ (s.eng e).lastId[0] ≠ some (pdId h) ∧ s.needsSlot e h b = true ∧ (s.eng e).slotFree = false) ∧
    (∃ (s : State) (e : Fin 17) (h : Half), (s.eng e).attached = true ∧ s.pdOn e = true ∧ (s.eng e).txStage = .idle ∧
        isControl h ctlGoodCrc = false ∧ (s.eng e).lastId[0] ≠ some (pdId h) ∧ pdExt h = false ∧ s.holding e = false ∧ (s.eng e).slotFree = true) ∧
    (∃ (s : State) (e : Fin 17) (h : Half) (m : TxMsg) (t : Nat), (s.eng e).attached = true ∧ s.pdOn e = true ∧ isControl h ctlGoodCrc = true ∧
        (s.eng e).tx = some m ∧ m.kind = 0 ∧ (s.eng e).txStage = .goodCrc t 0 ∧ m.hasChunk 1 = false ∧ (s.eng e).msgId[0] = pdId h) ∧
    (∃ (s : State) (e : Fin 17) (m : TxMsg) (t : Nat) (c : Nat), (s.eng e).tx = some m ∧ (s.eng e).txStage = .goodCrc t c ∧ t < 2) ∧
    (∃ (s : State) (e : Fin 17) (m : TxMsg) (c : Nat), (s.eng e).tx = some m ∧ (s.eng e).txStage = .goodCrc 2 c ∧ m.kind = 0) ∧
    (∃ (s : State) (e : Fin 17) (m : TxMsg), (s.eng e).tx = some m ∧ (s.eng e).txStage = .sinkTx) ∧
    (∃ (s : State) (e : Fin 17) (rp : Fin 4), (s.eng e).state = .attSnk ∧ e ≠ pu ∧ rp ≠ 3 ∧ (s.eng e).hr = .none) ∧
    (∃ (s : State) (e : Fin 17) (m : TxMsg), (s.eng e).state = .attSnk ∧ e ≠ pu ∧ (s.eng e).hr = .none ∧ (s.eng e).tx = some m ∧
        (s.eng e).txStage = .sinkHold) ∧
    (∃ (s : State) (s1 : State) (k : Fin 12) (e : Fin 17) (v : DWord), s.Brings (.keeper k) (.keeper k) ∧
        s1 = s.arrived (.keeper k) (.keeper k) (ccpOff e 0x1C) ∧ idxDist (loHalf v) (s1.eng e).rxAck ≤ idxDist (s1.eng e).rxSeq (s1.eng e).rxAck ∧
        (s1.eng e).waiting = []) ∧
    (∃ (s : State) (s1 : State) (k : Fin 12) (e : Fin 17) (v : DWord), s.Brings (.keeper k) (.keeper k) ∧
        s1 = s.arrived (.keeper k) (.keeper k) (ccpOff e 0x1C) ∧ idxDist (s1.eng e).rxSeq (s1.eng e).rxAck < idxDist (loHalf v) (s1.eng e).rxAck) :=
  ⟨⟨(lit).modEng 15 (fun x => { x with state := .attSrc, lastId := #v[some 0, none, none] }), 15, 0x1161, by and_intros <;> decide +kernel⟩,
   ⟨(lit).modEng 15 (fun x => { x with state := .attSrc, rxEn := true, rxSeq := 4 }), 15, 0x1161, [], by and_intros <;> decide +kernel⟩,
   ⟨(lit).modEng 15 (fun x => { x with state := .attSrc, rxEn := true, rxSeq := 3 }), 15, 0x1161, by and_intros <;> decide +kernel⟩,
   ⟨(lit).modEng 15 (fun x => { x with state := .attSrc, tx := some { kind := 0, header := 0x0061, payload := [], firmware := true }, txStage := .goodCrc 2 0 }), 15, 0x0061, { kind := 0, header := 0x0061, payload := [], firmware := true }, 2, by and_intros <;> decide +kernel⟩,
   ⟨(lit).modEng 16 (fun x => { x with tx := some { kind := 0, header := 0x0061, payload := [], firmware := true }, txStage := .goodCrc 1 0 }),
       16, { kind := 0, header := 0x0061, payload := [], firmware := true }, 1, 0, by and_intros <;> decide +kernel⟩,
   ⟨(lit).modEng 16 (fun x => { x with tx := some { kind := 0, header := 0x0061, payload := [], firmware := true }, txStage := .goodCrc 2 0 }),
       16, { kind := 0, header := 0x0061, payload := [], firmware := true }, 0, by and_intros <;> decide +kernel⟩,
   ⟨(lit).modEng 16 (fun x => { x with tx := some { kind := 0, header := 0x0061, payload := [], firmware := true }, txStage := .sinkTx }), 16,
       { kind := 0, header := 0x0061, payload := [], firmware := true }, by and_intros <;> decide +kernel⟩,
   ⟨(lit).modEng 15 (fun x => { x with state := .attSnk }), 15, 2, by and_intros <;> decide +kernel⟩,
   ⟨(lit).modEng 15 (fun x => { x with state := .attSnk, tx := some { kind := 0, header := 0x0061, payload := [], firmware := true }, txStage := .sinkHold }), 15, { kind := 0, header := 0x0061, payload := [], firmware := true }, by and_intros <;> decide +kernel⟩,
   ⟨(running 0 id).modEng 16 (fun x => { x with rxSeq := 4 }), _, 0, 16, 4, brings (by and_intros <;> decide +kernel), rfl,
       by and_intros <;> decide +kernel⟩,
   ⟨(running 0 id).modEng 16 (fun x => { x with rxSeq := 4 }), _, 0, 16, 5, brings (by and_intros <;> decide +kernel), rfl, by decide +kernel⟩⟩

/-- The hypotheses of each clause of PdTransmitsForFirmware can be met. -/
theorem test_PdTransmitsForFirmware_met :
    (∃ (s : State) (s1 : State) (s2 : State) (k : Fin 12) (e : Fin 17) (v : DWord), s.Brings (.keeper k) (.keeper k) ∧
        s1 = s.arrived (.keeper k) (.keeper k) (ccpOff e 0x20) ∧ s1.mode ≠ .safe ∧ s1.mode ≠ .relight ∧ s1.mode ≠ .update ∧
        (s1.eng e).txEn = true ∧ (s1.eng e).tx = none ∧ hiHalf v ≠ (s1.eng e).txSeq ∧
        s2 = s1.modEng e (fun x => { x with txctl := v &&& 0xFFFFF800, txSeq := hiHalf v, txResult := 0 }) ∧ fieldNat v 13 3 ≠ 3 ∧
        fieldNat v 13 3 ≠ 4) ∧
    (∃ (s : State) (s1 : State) (s2 : State) (k : Fin 12) (e : Fin 17) (v : DWord), s.Brings (.keeper k) (.keeper k) ∧
        s1 = s.arrived (.keeper k) (.keeper k) (ccpOff e 0x20) ∧ s1.mode ≠ .safe ∧ s1.mode ≠ .relight ∧ s1.mode ≠ .update ∧
        (s1.eng e).txEn = true ∧ (s1.eng e).tx = none ∧ hiHalf v ≠ (s1.eng e).txSeq ∧
        s2 = s1.modEng e (fun x => { x with txctl := v &&& 0xFFFFF800, txSeq := hiHalf v, txResult := 0 }) ∧ fieldNat v 13 3 = 3) ∧
    (∃ (s : State) (s1 : State) (s2 : State) (k : Fin 12) (e : Fin 17) (v : DWord), s.Brings (.keeper k) (.keeper k) ∧
        s1 = s.arrived (.keeper k) (.keeper k) (ccpOff e 0x20) ∧ s1.mode ≠ .safe ∧ s1.mode ≠ .relight ∧ s1.mode ≠ .update ∧
        (s1.eng e).txEn = true ∧ (s1.eng e).tx = none ∧ hiHalf v ≠ (s1.eng e).txSeq ∧
        s2 = s1.modEng e (fun x => { x with txctl := v &&& 0xFFFFF800, txSeq := hiHalf v, txResult := 0 }) ∧ fieldNat v 13 3 = 4) ∧
    (∃ (s : State) (s1 : State) (p : Path) (r : Requester) (e : Fin 17) (v : DWord), s.Brings p r ∧ r.isKeeper = false ∧
        s1 = s.arrived p r (ccpOff e 0x20) ∧ fieldNat v 13 3 = 3) ∧
    (∃ (s : State) (e : Fin 17), (s.eng e).attached = true ∧ s.pdOn e = true ∧ ((s.eng e).dfp && (s.eng e).vconnOn) = true) ∧
    (∃ (s : State) (e : Fin 17), (s.eng e).attached = true ∧ s.pdOn e = true ∧ ((s.eng e).dfp && (s.eng e).vconnOn) = false) :=
  ⟨⟨(running 0 id).modEng 16 (fun x => { x with txEn := true }), _, _, 0, 16, 0x00010000, brings (by and_intros <;> decide +kernel), rfl,
      by decide +kernel, by decide +kernel, by decide +kernel, by decide +kernel, by decide +kernel, by decide +kernel, rfl,
      by and_intros <;> decide +kernel⟩,
   ⟨(running 0 id).modEng 16 (fun x => { x with txEn := true }), _, _, 0, 16, 0x00016000, brings (by and_intros <;> decide +kernel), rfl,
       by decide +kernel, by decide +kernel, by decide +kernel, by decide +kernel, by decide +kernel, by decide +kernel, rfl, by decide +kernel⟩,
   ⟨(running 0 id).modEng 16 (fun x => { x with txEn := true }), _, _, 0, 16, 0x00018000, brings (by and_intros <;> decide +kernel), rfl,
       by decide +kernel, by decide +kernel, by decide +kernel, by decide +kernel, by decide +kernel, by decide +kernel, rfl, by decide +kernel⟩,
   ⟨lit, _, .mgr .a, .mfA, 16, 0x00016000, brings (by and_intros <;> decide +kernel), by decide +kernel, rfl, by decide +kernel⟩,
   ⟨(lit).modEng 15 (fun x => { x with state := .attSrc, dfp := true, vconnOn := true }), 15, by and_intros <;> decide +kernel⟩,
   ⟨(lit).modEng 15 (fun x => { x with state := .attSrc }), 15, by and_intros <;> decide +kernel⟩⟩

/-- The hypotheses of each clause of HardResetsAndLimits can be met. -/
theorem test_HardResetsAndLimits_met :
    (∃ (s : State) (e : Fin 17), (s.eng e).attached = true ∧ s.pdOn e = true) ∧
    (∃ (s : State) (e : Fin 17), (s.eng e).hr = .psWait ∧ (s.moor e).vsafe0v = false) ∧
    (∃ (s : State) (e : Fin 17), (s.moor e).gate = false ∧ (s.eng e).hr = .discharge ∧ (s.eng e).swapping = none ∧ (s.moor e).cmd = []) ∧
    (∃ (s : State) (e : Fin 17), (s.eng e).hr = .recover ∧ s.permit e = true) ∧
    (∃ (s : State) (e : Fin 17), (s.eng e).hr = .recover ∧ s.permit e = false) ∧
    (∃ (s : State) (e : Fin 17), (s.eng e).hr = .sinkWait ∧ (s.eng e).state = .attSnk) ∧
    (∃ (s : State) (e : Fin 17), (s.eng e).epr = true) ∧
    (∃ (s : State) (e : Fin 17), (s.eng e).eprExit = true ∧ ((s.eng e).kind = 4 ∨ (s.eng e).kind = 5)) ∧
    (∃ (s : State) (e : Fin 17), (s.eng e).eprExit = true ∧ (s.eng e).kind < 4) ∧
    (∃ (s : State) (e : Fin 17), (s.eng e).source = true ∧ (s.eng e).kind = 3) ∧
    (∃ (s : State) (e : Fin 17), (s.eng e).holdReady = true ∧ (s.eng e).tx = none) :=
  ⟨⟨(lit).modEng 15 (fun x => { x with state := .attSrc }), 15, by and_intros <;> decide +kernel⟩,
   ⟨(lit.modMoor 15 (fun m => { m with vsafe0v := false })).modEng 15 (fun x => { x with hr := .psWait }), 15, by and_intros <;> decide +kernel⟩,
   ⟨(lit).modEng 16 (fun x => { x with hr := .discharge }), 16, by and_intros <;> decide +kernel⟩,
   ⟨((lit.modReg (fun x => { x with sealSet := 0x3F })).modMoor 16 (fun m => { m with env := 0x00FF00FF })).modEng 16 (fun x => { x with state := .attSrc, hr := .recover }), 16, by and_intros <;> decide +kernel⟩,
   ⟨(lit.modMoor 0 (fun m => { m with latched := true })).modEng 0 (fun x => { x with hr := .recover }), 0, by and_intros <;> decide +kernel⟩,
   ⟨(lit).modEng 16 (fun x => { x with hr := .sinkWait, state := .attSnk }), 16, by and_intros <;> decide +kernel⟩,
   ⟨(lit).modEng 15 (fun x => { x with epr := true }), 15, by decide +kernel⟩,
   ⟨(lit).modEng 15 (fun x => { x with eprExit := true, kind := 4 }), 15, by and_intros <;> decide +kernel⟩,
   ⟨(lit).modEng 15 (fun x => { x with eprExit := true, kind := 3 }), 15, by and_intros <;> decide +kernel⟩,
   ⟨(lit).modEng 15 (fun x => { x with source := true, kind := 3 }), 15, by and_intros <;> decide +kernel⟩,
   ⟨(lit).modEng 15 (fun x => { x with holdReady := true }), 15, by and_intros <;> decide +kernel⟩⟩

/-- The hypotheses of each clause of TripsAreTakenAndLeft can be met. -/
theorem test_TripsAreTakenAndLeft_met :
    (∃ (s : State) (p : Fin 17), s.shunted p = true ∧ (s.eng p).kind ≠ 3) ∧
    (∃ (s : State) (p : Fin 17), (s.moor p).gate = true) ∧
    (∃ (s : State) (p : Fin 17), (s.moor p).gate = false) ∧
    (∃ (s : State) (p : Fin 17), s.ganged p = true) ∧
    (∃ (s : State) (n : Fin 16), (s.moor (pathOf n)).gate = true) ∧
    (∃ (s : State) (p : Fin 17), (s.eng p).partner = 0) ∧
    (∃ (s : State) (p : Fin 17), s.mode ≠ .dark ∧ s.pathFailed p = false ∧ (s.moor p).gate = true) ∧
    (∃ (s : State), (s.moor pu).gate = true) :=
  ⟨⟨(lit).modMoor 15 (fun m => { m with gate := true }), 15, by and_intros <;> decide +kernel⟩,
   ⟨(lit).modMoor 16 (fun m => { m with gate := true }), 16, by decide +kernel⟩,
   ⟨lit, 0, by decide +kernel⟩,
   ⟨(lit).modSector 3 (fun x => { x with cfg := 0x800A3009 }), 15, by decide +kernel⟩,
   ⟨(lit).modMoor 15 (fun m => { m with gate := true }), 15, by decide +kernel⟩,
   ⟨lit, 0, by decide +kernel⟩,
   ⟨(lit).modMoor 16 (fun m => { m with gate := true }), 16, by and_intros <;> decide +kernel⟩,
   ⟨(lit).modMoor 16 (fun m => { m with gate := true }), by decide +kernel⟩⟩

/-- The hypotheses of each clause of TargetsAreTested can be met. -/
theorem test_TargetsAreTested_met :
    (∃ (s : State) (s1 : State) (p : Path) (r : Requester) (q : Fin 4) (v : DWord), s.Brings p r ∧ s1 = s.arrived p r (targetOff q) ∧
        (s1.isPrimary r || r.isKeeper) = true ∧ s1.mode ≠ .safe ∧ s1.mode ≠ .relight ∧ s1.mode ≠ .update ∧ s1.targetCode q (fieldNat v 0 13) ≠ 0) ∧
    (∃ (s : State) (s1 : State) (p : Path) (r : Requester) (q : Fin 4) (v : DWord), s.Brings p r ∧ s1 = s.arrived p r (targetOff q) ∧
        (s1.isPrimary r || r.isKeeper) = true ∧ s1.mode ≠ .safe ∧ s1.mode ≠ .relight ∧ s1.mode ≠ .update ∧ s1.targetCode q (fieldNat v 0 13) = 0 ∧
        (s1.sector q).en = true ∧ (s1.sector q).moving = false) ∧
    (∃ (s : State) (s1 : State) (p : Path) (r : Requester) (q : Fin 4), s.Brings p r ∧ s1 = s.arrived p r (targetOff q) ∧
        (s1.isPrimary r || r.isKeeper) = false) ∧
    (∃ (s : State) (q : Fin 4) (v : Nat), (v < 500 ∨ 4900 < v ∨ 10 * (s.sector q).vmax < v)) :=
  ⟨⟨lit, _, .mgr .a, .mfA, 3, 499, brings (by and_intros <;> decide +kernel), rfl, by and_intros <;> decide +kernel⟩,
   ⟨({ lit with sup := { lit.sup with vmon := 0x2EE00000 } }).modSector 3 (fun x => { x with env := 0xFFFFF0FF, en := true }), _, .mgr .a, .mfA,
       3, 500, brings (by and_intros <;> decide +kernel), rfl, by and_intros <;> decide +kernel⟩,
   ⟨lit, _, .mgr .b, .mfB, 3, brings (by and_intros <;> decide +kernel), rfl, by decide +kernel⟩,
   ⟨lit, 0, 4901, by decide +kernel⟩⟩

/-- The hypotheses of each clause of SectorsRiseAndFault can be met. -/
theorem test_SectorsRiseAndFault_met :
    (∃ (s : State) (q : Fin 4), s.sectorWanted q = true ∧ (s.sector q).en = false) ∧
    (∃ (s : State) (q : Fin 4), s.sectorWanted q = false) ∧
    (∃ (s : State) (q : Fin 4), (s.sector q).moving = true) ∧
    (∃ (s : State) (q : Fin 4) (c : Nat), (s.sector q).mayFault c = true) ∧
    (∃ (q : Fin 4) (n : Fin 16), n ∈ portsOf q) ∧
    (∃ (s : State) (q : Fin 4) (n : Fin 16), s.ppsPort q = some n ∧ (s.sector q).en = true ∧ (s.sector q).moving = false) :=
  ⟨⟨((lit).modMoor 12 (fun m => { m with gate := true })).modEng 12 (fun x => { x with state := .attSrc, cfg := 0x80000000 }), 3,
      by and_intros <;> decide +kernel⟩,
   ⟨inMode .standby, 3, by decide +kernel⟩,
   ⟨(lit).modSector 3 (fun x => { x with moving := true }), 3, by decide +kernel⟩,
   ⟨(lit).modSector 3 (fun x => { x with en := true }), 3, 6, by decide +kernel⟩,
   ⟨3, 15, by decide +kernel⟩,
   ⟨(((lit).modSector 3 (fun x => { x with en := true })).modMoor 15 (fun m => { m with gate := true })).modEng 15 (fun x => { x with kind := 3 }), 3, 15, by and_intros <;> decide +kernel⟩⟩

/-- The hypotheses of each clause of PowerIsShedAndCommanded can be met. -/
theorem test_PowerIsShedAndCommanded_met :
    (∃ (s : State), s.pwr.shedTimer = true ∧ s.mode = .shed ∧ s.vinSag = true) ∧
    (∃ (s : State), s.pwr.shedTimer = true ∧ s.mode ≠ .shed ∧ (∀ p : Fin 17, (s.moor p).shed = false)) ∧
    (∃ (s : State) (p : Fin 17), (s.moor p).prio = 7 ∧ (s.moor p).shed = false) ∧
    (∃ (s : State) (s1 : State) (f : Func) (i : Half) (e : Entry) (n : Fin 16), s.Issues f 0x60 i e s1 ∧ powerOk e = true ∧ n = portParam e ∧
        s1.portFit n = true ∧ (s1.port n).failed = false ∧ (s1.portOwner n = f ∨ f = s1.primary) ∧ fieldNat e[0] 4 4 = 0) ∧
    (∃ (s : State) (s1 : State) (f : Func) (i : Half) (e : Entry) (n : Fin 16), s.Issues f 0x60 i e s1 ∧ powerOk e = true ∧ n = portParam e ∧
        s1.portFit n = true ∧ (s1.port n).failed = false ∧ (s1.portOwner n = f ∨ f = s1.primary) ∧ fieldNat e[0] 4 4 = 1 ∧
        (s1.moor (pathOf n)).vsafe0v = false) ∧
    (∃ (s : State) (s1 : State) (f : Func) (i : Half) (e : Entry) (n : Fin 16) (u : State), s.Issues f 0x60 i e s1 ∧ powerOk e = true ∧
        n = portParam e ∧ s1.portFit n = true ∧ (s1.port n).failed = false ∧ (s1.portOwner n = f ∨ f = s1.primary) ∧ fieldNat e[0] 4 4 = 1 ∧
        (s1.moor (pathOf n)).vsafe0v = true ∧ u = (s1.leavePartner (pathOf n) .recovery).modMoor (pathOf n) (fun m => { m with offCmd := true })) ∧
    (∃ (s : State) (s1 : State) (f : Func) (i : Half) (e : Entry) (n : Fin 16) (u : State), s.Issues f 0x60 i e s1 ∧ powerOk e = true ∧
        n = portParam e ∧ s1.portFit n = true ∧ (s1.port n).failed = false ∧ (s1.portOwner n = f ∨ f = s1.primary) ∧ fieldNat e[0] 4 4 = 2 ∧
        u = s1.powerOn f n) ∧
    (∃ (s : State) (s1 : State) (f : Func) (i : Half) (e : Entry) (n : Fin 16), s.Issues f 0x60 i e s1 ∧ powerOk e = true ∧ n = portParam e ∧
        s1.portFit n = true ∧ (s1.port n).failed = false ∧ (s1.portOwner n = f ∨ f = s1.primary) ∧ fieldNat e[0] 4 4 = 3 ∧
        (s1.moor (pathOf n)).vsafe0v = false) ∧
    (∃ (s : State) (s1 : State) (f : Func) (i : Half) (e : Entry) (n : Fin 16), s.Issues f 0x61 i e s1 ∧ fieldNat e[0] 4 28 = 0 ∧ paramsZero e [1,
        2, 3, 4, 5] = true ∧ n = portParam e ∧ s1.portFit n = true ∧ (s1.port n).failed = false ∧ (s1.portOwner n = f ∨ f = s1.primary)) ∧
    (∃ (s : State) (s1 : State) (f : Func) (i : Half) (e : Entry) (n : Fin 16), s.Issues f 0x60 i e s1 ∧ powerOk e = true ∧ n = portParam e ∧
        fieldNat e[0] 4 4 = 2 ∧ s1.portFit n = false) ∧
    (∃ (s : State) (s1 : State) (f : Func) (i : Half) (e : Entry) (n : Fin 16), s.Issues f 0x60 i e s1 ∧ powerOk e = true ∧ n = portParam e ∧
        fieldNat e[0] 4 4 = 2 ∧ s1.portFit n = true ∧ (s1.port n).failed = false ∧ s1.portOwner n ≠ f ∧ f ≠ s1.primary) :=
  ⟨⟨{ (inMode .shed).modMd (fun d => { d with sag := true }) with pwr := { lit.pwr with shedTimer := true } }, by and_intros <;> decide +kernel⟩,
   ⟨{ lit with pwr := { lit.pwr with shedTimer := true } }, by and_intros <;> decide +kernel⟩,
   ⟨(lit).modMoor 16 (fun m => { m with policy := 0x70130909 }), 16, by and_intros <;> decide +kernel⟩,
   ⟨issuing (lit) .mfA (ent 0x60 [0x0F]), _, .mfA, 0, (ent 0x60 [0x0F]), 15, issues (by and_intros <;> decide +kernel),
       by and_intros <;> decide +kernel⟩,
   ⟨issuing ((lit).modMoor 15 (fun m => { m with vsafe0v := false })) .mfA (ent 0x60 [0x1F]), _, .mfA, 0, (ent 0x60 [0x1F]), 15,
       issues (by and_intros <;> decide +kernel), by and_intros <;> decide +kernel⟩,
   ⟨issuing ((lit).modMoor 15 (fun m => { m with vsafe0v := true })) .mfA (ent 0x60 [0x1F]), _, .mfA, 0, (ent 0x60 [0x1F]), 15, _,
       issues (by and_intros <;> decide +kernel), by decide +kernel, by decide +kernel, by decide +kernel, by decide +kernel, by decide +kernel,
       by decide +kernel, by decide +kernel, rfl⟩,
   ⟨issuing (lit) .mfA (ent 0x60 [0x2F]), _, .mfA, 0, (ent 0x60 [0x2F]), 15, _, issues (by and_intros <;> decide +kernel), by decide +kernel,
       by decide +kernel, by decide +kernel, by decide +kernel, by decide +kernel, by decide +kernel, rfl⟩,
   ⟨issuing ((lit).modMoor 15 (fun m => { m with vsafe0v := false })) .mfA (ent 0x60 [0x3F]), _, .mfA, 0, (ent 0x60 [0x3F]), 15,
       issues (by and_intros <;> decide +kernel), by and_intros <;> decide +kernel⟩,
   ⟨issuing (lit) .mfA (ent 0x61 [0x0F]), _, .mfA, 0, (ent 0x61 [0x0F]), 15, issues (by and_intros <;> decide +kernel),
       by and_intros <;> decide +kernel⟩,
   ⟨issuing ({ lit with pins := { lit.pins with fit := 0x03F07FFF } }) .mfA (ent 0x60 [0x2F]), _, .mfA, 0, (ent 0x60 [0x2F]), 15,
       issues (by and_intros <;> decide +kernel), by and_intros <;> decide +kernel⟩,
   ⟨issuing (lit) (.buoy 2) (ent 0x60 [0x2F]), _, (.buoy 2), 0, (ent 0x60 [0x2F]), 15, issues (by and_intros <;> decide +kernel),
       by and_intros <;> decide +kernel⟩⟩

/-- The hypotheses of each clause of LanternConnects can be met. -/
theorem test_LanternConnects_met :
    (∃ (s : State) (s1 : State) (p : Path) (r : Requester), s.Brings p r ∧ s1 = s.arrived p r 0x80000 ∧ (s1.isPrimary r || r.firmware) = true ∧
        s1.lan.pullup = true) ∧
    (∃ (s : State) (s1 : State) (p : Path) (r : Requester), s.Brings p r ∧ s1 = s.arrived p r 0x80000 ∧ (s1.isPrimary r || r.firmware) = false) ∧
    (∃ (s : State), s.lanMay = true ∧ s.lan.pullup = false) ∧
    (∃ (s : State), s.lan.pullup = true ∧ s.lanMay = false) ∧
    (∃ (s : State), s.lan.pullup = true) ∧
    (∃ (s : State) (s1 : State) (p : Path) (r : Requester) (i : Fin 32) (v : DWord), s.Brings p r ∧ s1 = s.arrived p r (epOff i 8) ∧
        r.firmware = true ∧ 4 ≤ i.val ∧ bitOf v 31 = true ∧ (s1.lanEp i).buf0.armed = false ∧ s1.lanLenOk i (fieldNat v 0 17) = true) ∧
    (∃ (s : State) (s1 : State) (p : Path) (r : Requester) (i : Fin 32) (v : DWord), s.Brings p r ∧ s1 = s.arrived p r (epOff i 8) ∧
        r.firmware = true ∧ 4 ≤ i.val ∧ bitOf v 31 = true ∧ (s1.lanEp i).buf0.armed = false ∧ s1.lanLenOk i (fieldNat v 0 17) = false) ∧
    (∃ (s : State) (s1 : State) (p : Path) (r : Requester) (i : Fin 32) (v : DWord), s.Brings p r ∧ s1 = s.arrived p r (epOff i 0) ∧
        r.firmware = true ∧ 4 ≤ i.val ∧ bitOf v 31 = true ∧ (s1.lanEp i).en = false ∧ s1.carve i ((s1.lanEp i).written i v) = 0) ∧
    (∃ (s : State) (s1 : State) (p : Path) (r : Requester) (i : Fin 32) (v : DWord), s.Brings p r ∧ s1 = s.arrived p r (epOff i 0) ∧
        r.firmware = true ∧ 4 ≤ i.val ∧ bitOf v 31 = false ∧ bitOf v 29 = true ∧ (s1.lanEp i).en = false) :=
  ⟨⟨(lit).modLan (fun x => { x with pullup := true }), _, .mgr .a, .mfA, brings (by and_intros <;> decide +kernel), rfl,
      by and_intros <;> decide +kernel⟩,
   ⟨lit, _, .mgr .b, .mfB, brings (by and_intros <;> decide +kernel), rfl, by decide +kernel⟩,
   ⟨(({ lit with sup := { lit.sup with puValid := true } } : State).modEng 16 (fun x => { x with state := .attSnk })).modLan (fun x => { x with en := true }), by and_intros <;> decide +kernel⟩,
   ⟨(lit).modLan (fun x => { x with pullup := true }), by and_intros <;> decide +kernel⟩,
   ⟨(lit).modLan (fun x => { x with pullup := true }), by decide +kernel⟩,
   ⟨(running 0 id).modLan (fun x => { x with ep := x.ep.set 31 { en := true, base := 0, size := 0 } }), _, .keeper 0, .keeper 0, 31, 0x80000000,
       brings (by and_intros <;> decide +kernel), rfl, by and_intros <;> decide +kernel⟩,
   ⟨(running 0 id).modLan (fun x => { x with ep := x.ep.set 31 { en := true, base := 0, size := 0 } }), _, .keeper 0, .keeper 0, 31, 0x8001FFFF,
       brings (by and_intros <;> decide +kernel), rfl, by and_intros <;> decide +kernel⟩,
   ⟨running 0 id, _, .keeper 0, .keeper 0, 31, 0x80000000, brings (by and_intros <;> decide +kernel), rfl, by and_intros <;> decide +kernel⟩,
   ⟨running 0 id, _, .keeper 0, .keeper 0, 31, 0x20000000, brings (by and_intros <;> decide +kernel), rfl, by and_intros <;> decide +kernel⟩⟩

/-- The hypotheses of each clause of TokensAreAnswered can be met. -/
theorem test_TokensAreAnswered_met :
    (∃ (s : State) (e : Fin 16), s.lan.live = true ∧ s.ibpRuns = false ∧ e ≠ 0 ∧ (s.lanEp (epIn e)).en = false) ∧
    (∃ (s : State) (e : Fin 16) (b : List (Byte × Bool)), s.lan.live = true ∧ s.ibpRuns = false ∧ e ≠ 0 ∧ (s.lanEp (epOut e)).en = false ∧
        b.length ≤ s.lan.maxp (epOut e)) ∧
    (∃ (s : State) (e : Fin 16), s.lan.live = true ∧ s.ibpRuns = false ∧ e ≠ 0 ∧ s.lan.high = true ∧ (s.lanEp (epOut e)).en = false) ∧
    (∃ (s : State) (e : Fin 16), s.lan.live = true ∧ s.ibpRuns = false ∧ ((s.lanEp (epIn e)).en = true ∨ e = 0) ∧
        (s.lanEp (epIn e)).halted = false ∧ ((s.lanEp (epIn e)).buf (s.lanEp (epIn e)).next).armed = false) ∧
    (∃ (s : State) (e : Fin 16), s.lan.live = true ∧ s.ibpRuns = false ∧ ((s.lanEp (epIn e)).en = true ∨ e = 0) ∧
        (s.lanEp (epIn e)).halted = false ∧ ((s.lanEp (epIn e)).buf (s.lanEp (epIn e)).next).armed = true) ∧
    (∃ (s : State) (e : Fin 16) (b : List (Byte × Bool)), s.lan.live = true ∧ s.ibpRuns = false ∧ ((s.lanEp (epOut e)).en = true ∨ e = 0) ∧
        (s.lanEp (epOut e)).halted = false ∧ b.length ≤ s.lan.maxp (epOut e) ∧ ((s.lanEp (epOut e)).buf (s.lanEp (epOut e)).next).armed = false) ∧
    (∃ (s : State) (e : Fin 16) (t : Bool) (b : List (Byte × Bool)), s.lan.live = true ∧ s.ibpRuns = false ∧
        ((s.lanEp (epOut e)).en = true ∨ e = 0) ∧ (s.lanEp (epOut e)).halted = false ∧ b.length ≤ s.lan.maxp (epOut e) ∧
        ((s.lanEp (epOut e)).buf (s.lanEp (epOut e)).next).armed = true ∧ t = (s.lanEp (epOut e)).toggle) ∧
    (∃ (s : State) (e : Fin 16), s.lan.live = true ∧ s.ibpRuns = false ∧ s.lan.high = true ∧ ((s.lanEp (epOut e)).en = true ∨ e = 0) ∧
        (s.lanEp (epOut e)).halted = false) ∧
    (∃ (s : State), s.lan.live = true) ∧
    (∃ (s : State), s.ibpRuns = false) ∧
    (∃ (s : State) (s1 : State) (p : Path) (r : Requester), s.Brings p r ∧ s1 = s.arrived p r 0x80008 ∧ r.firmware = true ∧ s1.ibpRuns = false) ∧
    (∃ (s : State) (a : Nat) (n : Nat), s.ibpRuns = false ∧ s.lan.request = .setAddress n ∧ s.lan.addrPend = some a) :=
  ⟨⟨(lit).modLan (fun x => { x with pullup := true, state := .addressed }), 15, by and_intros <;> decide +kernel⟩,
   ⟨(lit).modLan (fun x => { x with pullup := true, state := .addressed }), 15, (List.replicate 64 (0, false)), by and_intros <;> decide +kernel⟩,
   ⟨(lit).modLan (fun x => { x with pullup := true, state := .addressed, high := true }), 15, by and_intros <;> decide +kernel⟩,
   ⟨(lit).modLan (fun x => { x with pullup := true, state := .addressed }), 0, by and_intros <;> decide +kernel⟩,
   ⟨((lit).modLan (fun x => { x with pullup := true, state := .addressed })).modLan (fun x => { x with ep := x.ep.set 31 { en := true, buf0 := { armed := true, len := 64 } } }), 15, by and_intros <;> decide +kernel⟩,
   ⟨(lit).modLan (fun x => { x with pullup := true, state := .addressed }), 0, (List.replicate 64 (0, false)), by and_intros <;> decide +kernel⟩,
   ⟨((lit).modLan (fun x => { x with pullup := true, state := .addressed })).modLan (fun x => { x with ep := x.ep.set 30 { en := true, buf0 := { armed := true, len := 64 } } }), 15, false, (List.replicate 64 (0, false)), by and_intros <;> decide +kernel⟩,
   ⟨(lit).modLan (fun x => { x with pullup := true, state := .addressed, high := true }), 0, by and_intros <;> decide +kernel⟩,
   ⟨(lit).modLan (fun x => { x with pullup := true, state := .addressed }), by decide +kernel⟩,
   ⟨lit, by decide +kernel⟩,
   ⟨running 0 id, _, .keeper 0, .keeper 0, brings (by and_intros <;> decide +kernel), rfl, by and_intros <;> decide +kernel⟩,
   ⟨(lit).modLan (fun x => { x with request := .setAddress 127, addrPend := some 127 }), 127, 127, by and_intros <;> decide +kernel⟩⟩

/-- The hypotheses of each clause of LanternFollowsTheBus can be met. -/
theorem test_LanternFollowsTheBus_met :
    (∃ (s : State), s.lan.state = .suspended) ∧
    (∃ (s : State) (link : Fin 16) (besl : Fin 16), s.lan.live = true ∧ s.lan.lpmEnTaken = true ∧ link = 1 ∧ s.lan.beslTaken ≤ besl.val ∧
        s.lan.partlyUsed = false) ∧
    (∃ (s : State) (link : Fin 16), s.lan.live = true ∧ (s.lan.lpmEnTaken = false ∨ link ≠ 1)) ∧
    (∃ (s : State) (s1 : State) (p : Path) (r : Requester) (v : DWord) (idle : Bool), s.Brings p r ∧ s1 = s.arrived p r 0x80020 ∧
        r.firmware = true ∧ bitOf v 0 = true ∧ s1.lan.mayWake idle = true) ∧
    (∃ (s : State), s.lan.live = true) ∧
    (∃ (s : State), s.lan.pullup = true ∧ s.lan.state = .addressed ∧ s.lan.sofValid = true) :=
  ⟨⟨(lit).modLan (fun x => { x with pullup := true, state := .suspended }), by decide +kernel⟩,
   ⟨(lit).modLan (fun x => { x with pullup := true, state := .addressed }), 1, 2, by and_intros <;> decide +kernel⟩,
   ⟨(lit).modLan (fun x => { x with pullup := true, state := .addressed, lpmEnTaken := false }), 1, by and_intros <;> decide +kernel⟩,
   ⟨(running 0 id).modLan (fun x => { x with pullup := true, state := .suspended, rweHost := true }), _, .keeper 0, .keeper 0, 1, true,
       brings (by and_intros <;> decide +kernel), rfl, by and_intros <;> decide +kernel⟩,
   ⟨(lit).modLan (fun x => { x with pullup := true, state := .addressed }), by decide +kernel⟩,
   ⟨(lit).modLan (fun x => { x with pullup := true, state := .addressed, sofValid := true }), by and_intros <;> decide +kernel⟩⟩

/-- The hypotheses of each clause of IbpRequestsAreExecuted can be met. -/
theorem test_IbpRequestsAreExecuted_met :
    (∃ (s : State) (m : IbpMsg), s.ibpOpen = true ∧ m.flags = 0 ∧ m.a0 = 0 ∧ m.a1 = 0 ∧ m.payload = []) ∧
    (∃ (s : State) (m : IbpMsg), s.ibpOpen = true ∧ m.seq = s.lan.ibp.lastSeq + 1 ∧ m.flags = 0 ∧ m.payload = [] ∧
        ibpRange m.a0.toNat m.a1.toNat = true) ∧
    (∃ (s : State) (m : IbpMsg), s.ibpOpen = true ∧ m.seq = s.lan.ibp.lastSeq + 1 ∧ m.flags = 0 ∧ m.a1 = 0 ∧ m.payload.length % 4 = 0 ∧
        ibpRange m.a0.toNat (m.payload.length / 4) = true) ∧
    (∃ (s : State) (m : IbpMsg), s.ibpOpen = true ∧ m.seq = s.lan.ibp.lastSeq + 1 ∧ m.flags = 0 ∧ m.payload = [] ∧ ibpBytes m.a1.toNat = true) ∧
    (∃ (s : State) (m : IbpMsg), s.ibpOpen = true ∧ m.seq = s.lan.ibp.lastSeq + 1 ∧ m.flags = 0 ∧ m.a1 = 0 ∧ ibpBytes m.payload.length = true) ∧
    (∃ (s : State) (m : IbpMsg), s.ibpOpen = true ∧ m.seq = s.lan.ibp.lastSeq + 1 ∧ m.flags = 0 ∧ m.a0 = 0 ∧ m.a1 = 0 ∧ m.payload.length % 4 = 0 ∧
        4 ≤ m.payload.length ∧ m.payload.length ≤ 64) ∧
    (∃ (s : State) (m : IbpMsg), s.ibpOpen = true ∧ m.seq = s.lan.ibp.lastSeq + 1 ∧ m.flags = 0 ∧ m.a0 = 0 ∧ m.a1 = 0 ∧ m.payload.length % 4 = 0 ∧
        4 ≤ m.payload.length ∧ m.payload.length ≤ 4080) ∧
    (∃ (s : State) (m : IbpMsg), s.ibpOpen = true ∧ m.payload.length ≤ 4080 ∧ m.seq = s.lan.ibp.lastSeq + 1) ∧
    (∃ (s : State) (m : IbpMsg), s.ibpOpen = true ∧ m.payload.length ≤ 4080 ∧ m.seq = s.lan.ibp.lastSeq) ∧
    (∃ (s : State) (m : IbpMsg), s.ibpOpen = true ∧ m.payload.length ≤ 4080 ∧ m.seq ≠ s.lan.ibp.lastSeq ∧ m.seq ≠ s.lan.ibp.lastSeq + 1) ∧
    (∃ (s : State) (m : IbpMsg), s.ibpMem m.a0.toNat (m.payload.length / 2) = false) ∧
    (∃ (s : State) (m : IbpMsg), s.ibpMem m.a0.toNat (m.payload.length / 2) = true) ∧
    (∃ (s : State) (m : IbpMsg) (o : Nat), o ∈ ibpOffsets m.a0.toNat m.a1.toNat ∧ ibpReads s.ibpSubset o = false) ∧
    (∃ (s : State) (m : IbpMsg), s.ibpSubset = 5 ∧ 4 ≤ m.payload.length) ∧
    (∃ (s : State), s.ibpNotifies = false) ∧
    (∃ (s : State), (s.ibpSubset = 1 ∨ s.ibpSubset = 5) ∧ s.boxOk = true ∧ s.lan.ibp.inSeq ≠ s.lan.ibp.inAck) ∧
    (∃ (s : State) (s1 : State) (p : Path) (r : Requester) (v : DWord), s.Brings p r ∧ s1 = s.arrived p r 0x82018 ∧ r.firmware = true ∧
        s1.ibpRuns = true ∧ s1.boxOk = true ∧ hiHalf v ≠ s1.lan.ibp.outSeq ∧ s1.lan.ibp.outBusy = false ∧ fieldNat v 0 12 % 4 = 0 ∧
        4 ≤ fieldNat v 0 12 ∧ fieldNat v 0 12 ≤ 4080) :=
  ⟨⟨(inMode .wick).modLan (fun x => { x with pullup := true, state := .addressed }), { flags := 0, seq := 1, a0 := 0, a1 := 0, payload := [] },
      by and_intros <;> decide +kernel⟩,
   ⟨(inMode .wick).modLan (fun x => { x with pullup := true, state := .addressed }),
       { flags := 0, seq := 1, a0 := 0xFFC00, a1 := 256, payload := [] }, by and_intros <;> decide +kernel⟩,
   ⟨(inMode .wick).modLan (fun x => { x with pullup := true, state := .addressed }),
       { flags := 0, seq := 1, a0 := 0xFFFFC, a1 := 0, payload := (List.replicate 4 0) }, by and_intros <;> decide +kernel⟩,
   ⟨(inMode .wick).modLan (fun x => { x with pullup := true, state := .addressed }), { flags := 0, seq := 1, a0 := 0, a1 := 4080, payload := [] },
       by and_intros <;> decide +kernel⟩,
   ⟨(inMode .wick).modLan (fun x => { x with pullup := true, state := .addressed }),
       { flags := 0, seq := 1, a0 := 0, a1 := 0, payload := (List.replicate 4080 0) }, by and_intros <;> decide +kernel⟩,
   ⟨(inMode .wick).modLan (fun x => { x with pullup := true, state := .addressed }),
       { flags := 0, seq := 1, a0 := 0, a1 := 0, payload := (List.replicate 64 0) }, by and_intros <;> decide +kernel⟩,
   ⟨(inMode .wick).modLan (fun x => { x with pullup := true, state := .addressed }),
       { flags := 0, seq := 1, a0 := 0, a1 := 0, payload := (List.replicate 4080 0) }, by and_intros <;> decide +kernel⟩,
   ⟨(inMode .wick).modLan (fun x => { x with pullup := true, state := .addressed }),
       { flags := 0, seq := 1, a0 := 0, a1 := 0, payload := (List.replicate 4080 0) }, by and_intros <;> decide +kernel⟩,
   ⟨(inMode .wick).modLan (fun x => { x with pullup := true, state := .addressed }), { flags := 0, seq := 0, a0 := 0, a1 := 0, payload := [] },
       by and_intros <;> decide +kernel⟩,
   ⟨(inMode .wick).modLan (fun x => { x with pullup := true, state := .addressed }),
       { flags := 0, seq := 0xFFFF, a0 := 0, a1 := 0, payload := [] }, by and_intros <;> decide +kernel⟩,
   ⟨(inMode .wick).modLan (fun x => { x with pullup := true, state := .addressed }),
       { flags := 0, seq := 1, a0 := 0, a1 := 0, payload := (List.replicate 2 0) }, by decide +kernel⟩,
   ⟨({ inMode .standby with pins := { (inMode .standby).pins with strap := 2 } }).modLan (fun x => { x with pullup := true, state := .addressed }), { flags := 0, seq := 1, a0 := 0xB8000, a1 := 0, payload := (List.replicate 2 0) }, by decide +kernel⟩,
   ⟨(inMode .wick).modLan (fun x => { x with pullup := true, state := .addressed }),
       { flags := 0, seq := 1, a0 := 0x2000, a1 := 1, payload := [] }, 0x2000, by and_intros <;> decide +kernel⟩,
   ⟨(inMode .wick).modLan (fun x => { x with pullup := true, state := .addressed }),
       { flags := 0, seq := 1, a0 := 0, a1 := 0, payload := (List.replicate 4 0) }, by and_intros <;> decide +kernel⟩,
   ⟨lit, by decide +kernel⟩,
   ⟨(({ inMode .standby with pins := { (inMode .standby).pins with strap := 2 } }).modLan (fun x => { x with pullup := true, state := .addressed })).modLan (fun x => { x with ibp := { fwBox := 0x40000, inSeq := 1 } }), by and_intros <;> decide +kernel⟩,
   ⟨({ (inMode .standby).modKeeper 0 (fun x => { x with run := .program 1 }) with pins := { (inMode .standby).pins with strap := 2 } }).modLan (fun x => { x with pullup := true, state := .addressed, ibp := { fwBox := 0x40000 } }), _, .keeper 0, .keeper 0, 0x00010FF0, brings (by and_intros <;> decide +kernel), rfl, by and_intros <;> decide +kernel⟩⟩

/-- The hypotheses of each clause of StoreEnginesAndUpsets can be met. -/
theorem test_StoreEnginesAndUpsets_met :
    (∃ (s : State) (row : Fin 0x40000) (e : MergeEntry), s.hst.mergeOf row.val = some e) ∧
    (∃ (s : State) (row : Fin 0x40000), s.hst.mergeOf row.val = none) ∧
    (∃ (s : State) (s1 : State) (p : Path) (r : Requester), s.Brings p r ∧ s1 = s.arrived p r 0xB0108 ∧ s1.mayScrub r = true ∧
        s1.hst.scrub.busy = false) ∧
    (∃ (s : State) (s1 : State) (p : Path) (r : Requester), s.Brings p r ∧ s1 = s.arrived p r 0xB0108 ∧ s1.mayScrub r = true ∧
        s1.hst.scrub.busy = true) ∧
    (∃ (s : State) (s1 : State) (p : Path) (r : Requester), s.Brings p r ∧ s1 = s.arrived p r 0xB0108 ∧ s1.mayScrub r = false) ∧
    (∃ (s : State), s.hst.scrub.busy = false) ∧
    (∃ (s : State), s.mode ≠ .dark) ∧
    (∃ (s : State), s.mode = .dark) ∧
    (∃ (s : State) (s1 : State) (c : Nat) (x : Counter) (w : Fin 0x100000) (bit : Fin 18), s.mode ≠ .dark ∧ s.ctr c = some x ∧
        s1 = (s.strike 0x16 w bit).2.modTnd (fun t => { t with struckCtr := (c, w.val) :: t.struckCtr }) ∧ (s.strike 0x16 w bit).1 = true) ∧
    (∃ (s : State) (s1 : State) (c : Nat) (x : Counter) (w : Fin 0x100000) (bit : Fin 18), s.mode ≠ .dark ∧ s.ctr c = some x ∧
        s1 = (s.strike 0x16 w bit).2.modTnd (fun t => { t with struckCtr := (c, w.val) :: t.struckCtr }) ∧ (s.strike 0x16 w bit).1 = false) ∧
    (∃ (s : State) (c : Nat), s.mode ≠ .dark ∧ s.ctr c = none) ∧
    (∃ (s : State) (off : Nat) (byte : Fin 4), s.mode ≠ .dark ∧ sealedOffsets.contains off = true ∧
        s.reg.parityBad.contains (off + byte.val) = false) :=
  ⟨⟨lit.modHst (fun h => { h with merge := [{ row := 0x3FFFF, held := [] }] }), 0x3FFFF, { row := 0x3FFFF, held := [] }, by decide +kernel⟩,
   ⟨lit, 0x3FFFF, by decide +kernel⟩,
   ⟨lit, _, .mgr .a, .mfA, brings (by and_intros <;> decide +kernel), rfl, by and_intros <;> decide +kernel⟩,
   ⟨lit.modHst (fun h => { h with scrub := { h.scrub with busy := true } }), _, .mgr .a, .mfA, brings (by and_intros <;> decide +kernel), rfl,
       by and_intros <;> decide +kernel⟩,
   ⟨lit, _, .mgr .b, .mfB, brings (by and_intros <;> decide +kernel), rfl, by decide +kernel⟩,
   ⟨lit, by decide +kernel⟩,
   ⟨lit, by decide +kernel⟩,
   ⟨State.reset, by decide +kernel⟩,
   ⟨lit.modTnd (fun t => { t with counters := [(0, { state := .counting, owner := .mfB, value := 1 })] }), _, 0,
       { state := .counting, owner := .mfB, value := 1 }, 0xFFFFF, 17, by decide +kernel, by decide +kernel, rfl, by decide +kernel⟩,
   ⟨(lit.modTnd (fun t => { t with counters := [(0, { state := .counting, owner := .mfB, value := 1 })] })).modHst (fun h => h.flipStored 0xFFFFF 17), _, 0, { state := .counting, owner := .mfB, value := 1 }, 0xFFFFF, 17, by decide +kernel, by decide +kernel, rfl, by decide +kernel⟩,
   ⟨lit, 2047, by and_intros <;> decide +kernel⟩,
   ⟨lit, 0xE0228, 3, by and_intros <;> decide +kernel⟩⟩

/-- The hypotheses of each clause of BuoysFreezeAndThaw can be met. -/
theorem test_BuoysFreezeAndThaw_met :
    (∃ (s : State) (s1 : State) (f : Func) (i : Half) (e : Entry) (b : Fin 15), s.Issues f 0x50 i e s1 ∧ s.migBusy = false ∧ migPlain e = some b ∧
        s1.isPrimaryFn f = true ∧ (s1.buoy b).home.isSome = true ∧ (s1.migr b).phase = .running) ∧
    (∃ (s : State) (b : Fin 15) (g : Func), s.mayBeFrozen b = true ∧ (s.migr b).cmd = some g) ∧
    (∃ (s : State) (b : Fin 15), s.mayBeFrozen b = false) ∧
    (∃ (s : State) (s1 : State) (f : Func) (i : Half) (e : Entry) (b : Fin 15), s.Issues f 0x51 i e s1 ∧ s.migBusy = false ∧ migPlain e = some b ∧
        s.canMaster (.buoy b) = true ∧ s1.isPrimaryFn f = true ∧ (s1.buoy b).home.isSome = true ∧ (s1.migr b).phase = .frozen) ∧
    (∃ (s : State) (s1 : State) (f : Func) (i : Half) (e : Entry) (b : Fin 15), s.Issues f 0x51 i e s1 ∧ s.migBusy = false ∧ migPlain e = some b ∧
        s.canMaster (.buoy b) = true ∧ s1.isPrimaryFn f = false) ∧
    (∃ (s : State) (s1 : State) (f : Func) (i : Half) (e : Entry) (b : Fin 15), s.Issues f 0x50 i e s1 ∧ s.migBusy = false ∧ migPlain e = some b ∧
        s1.isPrimaryFn f = true ∧ (s1.buoy b).home = none) :=
  ⟨⟨issuing (lit) .mfA (ent 0x50 [15]), _, .mfA, 0, (ent 0x50 [15]), 14, issues (by and_intros <;> decide +kernel),
      by and_intros <;> decide +kernel⟩,
   ⟨(lit).modMigr 14 (fun m => { m with phase := .freezing, cmd := some .mfA }), 14, .mfA, by and_intros <;> decide +kernel⟩,
   ⟨lit, 14, by decide +kernel⟩,
   ⟨issuing ((lit).modMigr 14 (fun m => { m with phase := .frozen })) .mfA (ent 0x51 [15]), _, .mfA, 0, (ent 0x51 [15]), 14,
       issues (by and_intros <;> decide +kernel), by and_intros <;> decide +kernel⟩,
   ⟨issuing (lit) (.buoy 2) (ent 0x51 [15]), _, (.buoy 2), 0, (ent 0x51 [15]), 14, issues (by and_intros <;> decide +kernel),
       by and_intros <;> decide +kernel⟩,
   ⟨issuing (lit.modBuoy 14 (fun x => { x with home := none })) .mfA (ent 0x50 [15]), _, .mfA, 0, (ent 0x50 [15]), 14,
       issues (by and_intros <;> decide +kernel), by and_intros <;> decide +kernel⟩⟩

/-- The hypotheses of each clause of BuoysAreSavedAndMoved can be met. -/
theorem test_BuoysAreSavedAndMoved_met :
    (∃ (s : State) (s1 : State) (f : Func) (i : Half) (e : Entry) (b : Fin 15), s.Issues f 0x52 i e s1 ∧ s.migBusy = false ∧
        migAddr f e = some (b, none) ∧ s1.isPrimaryFn f = true ∧ (s1.buoy b).home.isSome = true ∧ (s1.migr b).phase = .frozen ∧
        (s1.fn (.buoy b)).pushedCopies.length ≤ 128 ∧ (s1.fn (.buoy b)).heldEvents.length ≤ 32) ∧
    (∃ (s : State) (s1 : State) (f : Func) (i : Half) (e : Entry) (b : Fin 15) (o : Option QWord), s.Issues f 0x52 i e s1 ∧ s.migBusy = false ∧
        migAddr f e = some (b, o) ∧ s.canMaster f = true ∧ s1.isPrimaryFn f = true ∧ (s1.buoy b).home.isSome = true ∧ (s1.migr b).phase ≠ .frozen) ∧
    (∃ (s : State) (s1 : State) (f : Func) (i : Half) (e : Entry) (b : Fin 15), s.Issues f 0x53 i e s1 ∧ s.migBusy = false ∧
        migAddr f e = some (b, none) ∧ s1.isPrimaryFn f = true ∧ (s1.buoy b).home.isSome = true ∧ (s1.migr b).phase = .frozen) ∧
    (∃ (s : State) (b : Fin 15) (ws : List Half) (h : HoldingStore), s.hst.readWords 0x1C (imageBase b) imageWords = (ws.map (fun w => (w,
        false)), h)) ∧
    (∃ (s : State) (s1 : State) (f : Func) (i : Half) (e : Entry) (b : Fin 15) (l : Link), s.Issues f 0x54 i e s1 ∧ s.migBusy = false ∧
        migPlain e = some b ∧ s1.isPrimaryFn f = true ∧ (s1.buoy b).home = some l ∧ s1.slotExists l.other b = true ∧ s1.linkFit l.other = true ∧
        (s1.migr b).phase = .frozen ∧ (s1.log b).logging = false) ∧
    (∃ (s : State) (s1 : State) (f : Func) (i : Half) (e : Entry) (b : Fin 15), s.Issues f 0x55 i e s1 ∧ s.migBusy = false ∧ migPlain e = some b ∧
        s1.isPrimaryFn f = true ∧ (s1.buoy b).home.isSome = true ∧ (s1.log b).logging = true) ∧
    (∃ (s : State) (s1 : State) (f : Func) (i : Half) (e : Entry) (b : Fin 15), s.Issues f 0x55 i e s1 ∧ s.migBusy = false ∧ migPlain e = some b ∧
        s1.isPrimaryFn f = true ∧ (s1.buoy b).home.isSome = true ∧ (s1.log b).logging = false) :=
  ⟨⟨issuing ((lit).modMigr 14 (fun m => { m with phase := .frozen })) .mfA (ent 0x52 [15]), _, .mfA, 0, (ent 0x52 [15]), 14,
      issues (by and_intros <;> decide +kernel), by and_intros <;> decide +kernel⟩,
   ⟨issuing (lit) .mfA (ent 0x52 [0x10F, 0x1000]), _, .mfA, 0, (ent 0x52 [0x10F, 0x1000]), 14, (some 0x1000),
       issues (by and_intros <;> decide +kernel), by and_intros <;> decide +kernel⟩,
   ⟨issuing ((lit).modMigr 14 (fun m => { m with phase := .frozen })) .mfA (ent 0x53 [15]), _, .mfA, 0, (ent 0x53 [15]), 14,
       issues (by and_intros <;> decide +kernel), by and_intros <;> decide +kernel⟩,
   ⟨State.reset, 14, (List.replicate imageWords 0), State.reset.hst, reset_slot 14⟩,
   ⟨issuing ((lit).modMigr 14 (fun m => { m with phase := .frozen })) .mfA (ent 0x54 [15]), _, .mfA, 0, (ent 0x54 [15]), 14, .a,
       issues (by and_intros <;> decide +kernel), by and_intros <;> decide +kernel⟩,
   ⟨issuing (lit.modLog 14 (fun x => { x with logging := true })) .mfA (ent 0x55 [15]), _, .mfA, 0, (ent 0x55 [15]), 14,
       issues (by and_intros <;> decide +kernel), by and_intros <;> decide +kernel⟩,
   ⟨issuing (lit) .mfA (ent 0x55 [15]), _, .mfA, 0, (ent 0x55 [15]), 14, issues (by and_intros <;> decide +kernel),
       by and_intros <;> decide +kernel⟩⟩

/-- The hypotheses of each clause of EventsAreWrittenOrHeld can be met. -/
theorem test_EventsAreWrittenOrHeld_met :
    (∃ (s : State) (f : Func) (n : Fin 4), (s.evRing f n).opened = true ∧ (s.evRing f n).held = [] ∧ (s.evRing f n).noRoom = false ∧
        s.canMaster f = true ∧ s.isFrozen f = false ∧ f ≠ .bridge) ∧
    (∃ (s : State) (f : Func) (n : Fin 4), (s.evRing f n).opened = true ∧
        ((s.evRing f n).noRoom = true ∨ s.canMaster f = false ∨ s.isFrozen f = true)) ∧
    (∃ (s : State) (f : Func) (n : Fin 4), (s.evRing f n).opened = false) :=
  ⟨⟨lit, .mfA, 3, by and_intros <;> decide +kernel⟩,
   ⟨lit.modEvRing .mfA 3 (fun x => { x with ep := 16 }), .mfA, 3, by and_intros <;> decide +kernel⟩,
   ⟨State.reset, .mfA, 3, by decide +kernel⟩⟩

/-- The hypotheses of each clause of LevelsMakeEvents can be met. -/
theorem test_LevelsMakeEvents_met :
    (∃ (s : State) (e : Nat), s.masked e = true ∧ e ≠ 293) ∧
    (∃ (s : State), (s.mode = .dark ∨ s.mode = .wick ∨ s.mode = .kindle)) ∧
    (∃ (s : State) (e : Nat), e < 300 ∧ s.mode ≠ .dark ∧ s.mode ≠ .wick ∧ s.mode ≠ .kindle ∧ s.evt.edges = [] ∧ s.level e = true ∧
        s.evt.high.contains e = false) :=
  ⟨⟨{ lit with evt := { lit.evt with mask := Vector.replicate 10 0xFFFFFFFF } }, 299, by and_intros <;> decide +kernel⟩,
   ⟨State.reset, by decide +kernel⟩,
   ⟨(lit).modLan (fun x => { x with pullup := true }), 170, by and_intros <;> decide +kernel⟩⟩

/-- The hypotheses of each clause of StepRunsTheFront can be met. -/
theorem test_StepRunsTheFront_met :
    (∃ (s : State) (c : Instr) (rest : List Instr), s.pending = c :: rest) ∧
    (∃ (s : State), s.pending = []) :=
  ⟨⟨{ lit with pending := [.vinRise] }, .vinRise, [], by decide +kernel⟩,
   ⟨lit, by decide +kernel⟩⟩

/-- The hypotheses of each clause of QueueIsFifo can be met. -/
theorem test_QueueIsFifo_met :
    (∃ (s : State) (t : State) (c : Instr) (rest : List Instr), s.pending = c :: rest ∧ step s = .next t) :=
  ⟨{ lit with pending := [.vinRise] }, _, .vinRise, [], by decide +kernel, rfl⟩

/-- The hypotheses of each clause of StoreFormIsKept can be met. -/
theorem test_StoreFormIsKept_met :
    (∃ (s : State) (t : State), s.hst.wf = true ∧ step s = .next t) :=
  ⟨lit, _, by decide +kernel, rfl⟩

/-! Worked cases of the spec, each one step on a small state. -/

/-- The state after one command. -/
def ran (c : Instr) (s : State) : State :=
  match exec c s with
  | .next t => t
  | .fault _ => s
  | .refused _ => s

/-- Worked case 2.1: open straps sample to TOP_STRAP 0x00000100; a level that one of three samples shows is not latched (R111). -/
theorem test_strap_sample :
    (ran (.strapSample ⟨0, false, 1⟩ ⟨0, true, 0⟩ ⟨1, false, 1⟩) { State.reset with sup := { stage := .strapWait, puValid := true } }).readBar0 .mfA 0x0000C = 0x00000100 := by
  decide +kernel

/-- Worked case 2.2: TOP_LG_MODE0 = 0x00133033 is taken and reads back. -/
theorem test_lg_mode_write : (ran (.registerWrite (.mgr .a) 0x00020 { lo := 0x00133033 }) lit).readBar0 .mfA 0x00020 = 0x00133033 := by decide +kernel

/-- Worked case 2.2: with TOP_LG_KEEP 0x00000020, 0x0000FFFF to TOP_LG_OUT by a keeper sets LG5 alone. -/
theorem test_lg_out_keep :
    (ran (.topLgOutWrite (.keeper 0) 0x0000FFFF) { running 0 id with pins := { (running 0 id).pins with lgMode0 := 0x00133033, lgKeep := 0x20 } }).readBar0
      .mfA 0x00028 = 0x00000020 := by decide +kernel

/-- Worked case 3.3: SUP_SHED_CFG = 0x0091707C. -/
theorem test_shed_cfg : (ran (.registerWrite (.mgr .a) 0x01010 { lo := 0x0091707C }) lit).readBar0 .mfA 0x01010 = 0x0091707C := by decide +kernel

/-- Worked case 5.1: SEAL_SET = 0x0000000F seals four groups. -/
theorem test_seal_set : (ran (.sealSetWrite (.mgr .a) 0x0000000F) lit).reg.sealSet = 0x0F := by decide +kernel

/-- Worked case 6.1, step 2: Buoy 2 to HLB. -/
theorem test_buoy_home :
    let t := ran (.buoyHome .mfA) (issuing (lit.modBuoy 1 (fun x => { x with home := none })) .mfA (ent 0x20 [0x00000102]))
    (t.buoy 1).home = some .b ∧ t.readBar0 .mfA 0xC0008 &&& 0x1F = 0x11 := by decide +kernel

/-- Worked case 6.1, step 5: P8 to Buoy 2 (BUY_OWNER2 = ...22). -/
theorem test_port_assign :
    (ran (.portAssign .mfA) (issuing lit .mfA (ent 0x21 [0x00000100, 0x22]))).fwy.owner[8] = .buoy 1 := by decide +kernel

/-- Worked case 6.1, step 9: KPR5 to KPR7 to Buoy 3. -/
theorem test_keeper_grant : ((ran (.keeperGrant .mfA) (issuing lit .mfA (ent 0x22 [3, 0xE0]))).buoy 2).grant = 0xE0 := by decide +kernel

/-- Worked case 15.1: movi w2, 0x0400 is 0x25C00400. -/
theorem test_movi : ((ran (.kprMovi 0) (running 0x25C00400 id)).keeper 0).reg 0x0E = 0x0400 := by decide +kernel

/-- Worked case 15.1: st w2, [g0 + 1] via SEG2 is 0x59C00001: the second word of the first DMA slot. -/
theorem test_st_slot :
    (((ran (.kprSt 0) (running 0x59C00001 (fun x => { x.setReg 0x0E 0x0A40 with seg := #v[0, 0, 0xC0, 0] }))).keeper 0).dma[0]).words[1] = 0x0A40 := by
  decide +kernel

/-- Worked case 15.1: the slot then holds OFFSET 0x0A40, LOCAL 0x040200 and LEN 16. -/
theorem test_dma_slot :
    let d : DmaSlot := { words := #v[0x0400, 0x0A40, 0, 0x0200, 0x0004, 0x0010] }
    d.toHost = true ∧ d.win.val = 0 ∧ d.offset = 0xA40 ∧ d.local = 0x040200 ∧ d.len = 16 := by decide +kernel

/-- Worked case 15.1: done is 0xEC000000. -/
theorem test_done : ((ran (.kprDone 0) (running 0xEC000000 id)).keeper 0).run = .idle := by decide +kernel

/-- ADD wraps modulo 2^16 (R433): add w0, g1, g2 with g1 = 0xFFFF and g2 = 2. -/
theorem test_add_wraps :
    ((ran (.kprAdd 0) (running 0x05811000 (fun x => (x.setReg 1 0xFFFF).setReg 2 2))).keeper 0).reg 0x0C = 1 := by decide +kernel

/-- SRA keeps the sign (R433): 0x8000 by 15 is 0xFFFF. -/
theorem test_sra_sign :
    ((ran (.kprSra 0) (running 0x058111C0 (fun x => (x.setReg 1 0x8000).setReg 2 15))).keeper 0).reg 0x0C = 0xFFFF := by decide +kernel

/-- Table 18.1: EVT_ROUTE0 resets to 0x8E262626. -/
theorem test_evt_route : State.reset.readBar0 .mfA 0xE0100 = 0x8E262626 := by decide +kernel

/-- The CRC-32C of R496: "123456789" gives 0xE3069283. -/
theorem test_crc : crc32c [0x31, 0x32, 0x33, 0x34, 0x35, 0x36, 0x37, 0x38, 0x39] = 0xE3069283 := by decide +kernel

/-- Worked case 12.1: MOR_5_POLICY = 0x30130909 is PRIO 3 with three retries. -/
theorem test_policy :
    let t := ran (.registerWrite (.mgr .a) 0x70144 { lo := 0x30130909 }) lit
    (t.moor 5).prio = 3 ∧ (t.moor 5).retries = 3 := by decide +kernel

/-- Worked case 11.1: the tablet's Request 0x4204B12C for position 4 of the four PDOs asks 20 V at 3 A. -/
theorem test_request :
    Engine.selectContract { source := true, caps := [0x2601912C, 0x0002D12C, 0x0004B12C, 0x0006412C] } false 0x4204B12C = some (2, 1000, 300) := by decide +kernel

/-! Ill-formed commands: the checks refuse them. -/

/-- An offset beyond manager BAR0. -/
theorem test_wf_offset : Instr.wf (.registerWrite (.mgr .a) 0x100000 { lo := 0 }) = false := by decide +kernel

/-- A failure cause of 0, and one past its table. -/
theorem test_wf_cause : Instr.wf (.portFail 0 0) = false ∧ Instr.wf (.sectorFault 0 7) = false := by decide +kernel

/-- A readable header that is not 512 bytes long. -/
theorem test_wf_header : Instr.wf (.wickVinFilterExpiry { a := { readable := true, bytes := [0] } } {}) = false := by decide +kernel

/-- Five entries in one fetch, and an entry read that failed in no known way. -/
theorem test_wf_fetch :
    Instr.wf (.ringFetchComplete .mfA 0 (List.replicate 5 (.poisoned false))) = false ∧ Instr.wf (.ringFetchComplete .mfA 0 [.failed 4]) = false := by
  decide +kernel

/-- A read that failed in no known way. -/
theorem test_wf_read : ReadEnd.wf (.failed 0) = false := by decide +kernel

/-- A completion longer than a request. -/
theorem test_wf_dma : DmaEnd.wf (.done (List.replicate 4097 (0, false))) = false := by decide +kernel

/-- A data packet longer than any of USB 2.0. -/
theorem test_wf_usb : UsbEnd.wf (.data (List.replicate 1025 0) false []) = false := by decide +kernel

/-- A packet size beyond a byte. -/
theorem test_wf_address : Instr.wf (.devAddress .mfA (.ok 256)) = false := by decide +kernel

/-- A source that advertises no current of R309. -/
theorem test_wf_cc : Instr.wf (.ccAttachDetect 0 (.source false 4)) = false := by decide +kernel

/-- An IBP message longer than 4,096 bytes. -/
theorem test_wf_ibp : IbpMsg.wf { seq := 0, flags := 0, a0 := 0, a1 := 0, payload := List.replicate 4081 0 } = false := by decide +kernel

/-- One path measured twice in a tick. -/
theorem test_wf_tick : Instr.wf (.beaconTick { meas := [(3, 0), (3, 1)] }) = false := by decide +kernel

/-- An upset of a row that does not exist, of a register at no dword, and of record words outside their regions. -/
theorem test_wf_upset :
    UpsetAt.wf (.merge 0x40000 0 0) = false ∧ UpsetAt.wf (.sealedByte 0x12 0 0) = false ∧ UpsetAt.wf (.lamp 0 0 0x090000 0) = false ∧
      UpsetAt.wf (.item 0 true 0x08FFFF 0) = false ∧ UpsetAt.wf (.counter 0x800 0x090000 0) = false := by decide +kernel

/-- A read of no dword, and an SMBus offset of more than four bytes. -/
theorem test_wf_spans :
    Instr.wf (.shadowLowRead (.mgr .a) ⟨0, 0⟩) = false ∧ Instr.wf (.smbRegRead ⟨0x58, 2 ^ 32⟩) = false := by decide +kernel

/-- Times beyond their interval, a start-of-frame offset beyond its field, and a VBUS beyond what an engine senses. -/
theorem test_wf_times :
    Instr.wf (.lightListWalk ⟨0, 125000⟩) = false ∧ Instr.wf (.beaconSample .mfA (2 ^ 20)) = false ∧
      Instr.wf (.lanSof 0 (2 ^ 16)) = false ∧ Instr.wf (.pdTransmit (.keeper 0) 0 0 (2 ^ 13)) = false := by decide +kernel

/-- A packet longer than a packet, and a chunk past 264 bytes. -/
theorem test_wf_lengths :
    Instr.wf (.lanOutToken 1 false (List.replicate 1025 (0, false))) = false ∧ Instr.wf (.pdMessageReceived 0 0 0 (List.replicate 265 0)) = false := by
  decide +kernel

/-- Table 2.5, column DARK without VBIAS: dead-battery Rd on PU, gates low, no data line and no discharge. -/
theorem test_balls_dark :
    State.reset.ball .puCc = .deadRd ∧ State.reset.ball (.portGate 3) = .low ∧ State.reset.ball (.portData 3) = .free ∧
      State.reset.ball (.portDsch 3) = .free ∧ State.reset.ball (.hlTx .a) = .free ∧ State.reset.ball .spiCs = .free := by decide +kernel

/-- Table 2.5, column Initial: pull-downs on a fitted port, discharge on, the SPI idle and a link in electrical idle. -/
theorem test_balls_initial :
    let s : State := { State.reset with
      sup := { vbias := true, enCore := true, enIo := true, enPhy := true, pgCore := true, pgIo := true, pgPhy := true, stage := .up }
      md := { mode := .kindle } }
    s.ball (.portData 3) = .pullDowns ∧ s.ball (.portDsch 3) = .pulled ∧ s.ball .spiCs = .high ∧ s.ball .spiIo1 = .free ∧
      s.ball (.hlTx .a) = .electricalIdle ∧ s.ball (.hlRx .a) = .terminated ∧ s.ball (.hlClkreq .a) = .released := by decide +kernel

end Sys2Proof.Tests
end

section
/-! How a command is shown to complete with an effect. -/

namespace Sys2Proof.Machine

/-- A command whose effect is `v` completes with every state equal to `v`. -/
theorem Completes.of_effect {c : Instr} {s u v : State} (h : exec c s = .next (s.after v)) (e : v = u) : Completes c s u := e ▸ h

end Sys2Proof.Machine
end

section
/-! The supply's way up and down (O1). -/

namespace Sys2Proof.Machine

/-! Leaving DARK: the release of the power-on reset and the straps. -/

/-- R67, R69, R77, R102, R103: what the power-on reset waits for. -/
theorem State.mayRelease_iff (s : State) : s.mayRelease = true ↔
    s.mode = .dark ∧ s.sup.stage = .held ∧ s.sup.present = true ∧ s.sup.resetLow = false ∧ s.sup.retry = false ∧
      s.sup.stuck = false ∧ s.sup.wickHold = false := by
  simp [State.mayRelease, and_assoc]

/-- PU_GATE_IN stays on where it is, and turns on toward WICK (R69). -/
theorem State.openSink_eq (s : State) :
    s.openSink = { s with pins := { s.pins with puGateIn := s.pins.puGateIn || s.towardWick } } := by
  unfold State.openSink
  split <;> simp_all

/-- The state that sampled straps leave before PU_GATE_IN follows them (R17, R49, R111, Table 13.12). -/
def State.latchStraps (s : State) (x : StrapSample) : State :=
  { s with
    sup := { s.sup with stage := .ready }
    pins := { s.pins with strap := x.strap, testen := x.testen, smbAdr := x.adr.val }
    fwy := { s.fwy with owner := Vector.replicate 16 (Func.manager (Link.ofBool (bitOf x.strap 0))) }
    lan := if bitOf x.strap 1 then { s.lan with en := true, state := .waiting } else s.lan }

/-- Straps are sampled once the power-on reset has released, and PU_GATE_IN follows them (R49, R69). -/
theorem State.sampleStraps_eq {s : State} (h : s.sup.stage = .strapWait) (x : StrapSample) :
    s.sampleStraps x = (s.latchStraps x).openSink := by
  cases hb : bitOf x.strap 1 <;> simp [State.sampleStraps, State.latchStraps, h, hb, State.modSup, State.modLan]

/-- The bridge strap enables the Lantern and no strap disables it (Table 13.12). -/
theorem State.latchStraps_lan_en (s : State) (x : StrapSample) : (s.latchStraps x).lan.en = (s.lan.en || bitOf x.strap 1) := by
  cases hb : bitOf x.strap 1 <;> simp [State.latchStraps, hb]

/-- The majority of three samples is latched and acts (R17, R49, R69, R111). -/
theorem strapSample_completes {s : State} (h : s.sup.stage = .strapWait) (x y z : StrapSample) :
    Completes (.strapSample x y z) s ((s.latchStraps (.latch x y z)).openSink) :=
  .of_effect rfl (State.sampleStraps_eq h _)

/-! The three rails, one after another (R66), and down again (R68). -/

/-- R66: with the supply present and the straps latched the core rail is enabled, and PU_GATE_IN is on toward WICK (R69). -/
theorem railSequenceStart_completes {s : State} (h : s.sup.stage = .ready) (p : s.sup.present = true) :
    Completes .railSequenceStart s
      { s with
        sup := { s.sup with enCore := true, stage := .waitPg .core }
        pins := { s.pins with puGateIn := s.pins.puGateIn || s.towardWick } } :=
  .of_effect rfl (by rw [if_pos ⟨h, p⟩, State.openSink_eq]; rfl)

/-- The stage of the rail sequence that a rail's awaited power-good leads to (R66). -/
def Rail.good : Rail → RailStage
  | .core => .delay .core
  | .io => .delay .io
  | .phy => .crystal

/-- R66: the power-good that the sequence waits for is seen, and the delay before the next enable begins, or the wait for the crystal. -/
theorem powerGoodRise_completes {s : State} {r : Rail} (h : s.sup.stage = .waitPg r) (e : s.sup.enabled r = true) :
    Completes (.powerGoodRise r) s { s with sup := { s.sup.setPg r true with stage := r.good } } := by
  refine .of_effect rfl ?_
  cases r <;> simp [State.pgRise, State.modSup, Supply.setPg, Rail.good, h, e]

end Sys2Proof.Machine

open Sys2Proof Sys2Proof.Machine

/-- Settles O1: each command of the supply completes with the effect of its clause in the stage in which it comes. -/
theorem railsFollowTheSupply : Obligations.RailsFollowTheSupply := by
  unfold Obligations.RailsFollowTheSupply
  refine ⟨?vinRise, ?vinRiseInWick, fun _ _ => rfl, fun _ => rfl, fun _ => rfl, ?retry, ?release, ?straps, ?start, ?startTowardWick,
    fun _ h e => powerGoodRise_completes h e, ?enableIo, fun _ h e => powerGoodRise_completes h e, ?enablePhy,
    fun _ h e => powerGoodRise_completes h e, ?dropIo, ?dropCore⟩
  case vinRise => exact fun s h => .of_effect rfl (by simp [h, State.modSup])
  case vinRiseInWick => exact fun s h => .of_effect rfl (by simp [h, State.modSup])
  case retry => exact fun s h => .of_effect rfl (if_pos h)
  case release =>
    exact fun s mode held present low retry stuck hold =>
      .of_effect rfl (if_pos (s.mayRelease_iff.mpr ⟨mode, held, present, low, retry, stuck, hold⟩))
  case straps =>
    intro s x y z h
    refine ⟨_, strapSample_completes h x y z, ?_⟩
    rw [State.openSink_eq]
    refine ⟨rfl, rfl, rfl, ?adr, rfl, State.latchStraps_lan_en _ _, rfl⟩
    case adr => exact apply_ite Fin.val _ _ _
  case start =>
    intro s h p w
    simpa [w] using railSequenceStart_completes h p
  case startTowardWick =>
    intro s h p w
    simpa [w] using railSequenceStart_completes h p
  case enableIo => exact fun s h => .of_effect rfl (by simp [h, State.modSup])
  case enablePhy => exact fun s h => .of_effect rfl (by simp [h, State.modSup])
  case dropIo => exact fun s h e => .of_effect rfl (by simp [h, e, State.modSup])
  case dropCore => exact fun s h => .of_effect rfl (by simp [h, State.modSup])

end

section
/-! Keeper firmware's posts and decrements, dispatch, fences and revives (O29). -/

namespace Sys2Proof.Machine

/-! What keeper firmware writes to its posting registers (R422). -/

/-- A write that keeper firmware makes to the TND block acts as the keeper's own. -/
theorem State.access_keeper_writeTnd {s : State} {k : Fin 12} (h : s.pathLive (.keeper k) = true) (off : Nat) (v : DWord) :
    s.access (.keeper k) off (fun r s => s.writeTnd r off v) =
      (s.arrived (.keeper k) (.keeper k) off).writeTnd (.keeper k) off v :=
  State.access_brings (State.brings_keeper h) off _

/-- A keeper's write of TND_KPOST_GO posts. -/
@[simp] theorem State.writeTnd_kpostGo (s : State) (k : Fin 12) (v : DWord) :
    s.writeTnd (.keeper k) 0x90218 v = s.keeperPost k := by
  simp [State.writeTnd, State.writeKpost]

/-- A keeper's write of TND_KDEC decrements. -/
@[simp] theorem State.writeTnd_kdec (s : State) (k : Fin 12) (v : DWord) :
    s.writeTnd (.keeper k) 0x90224 v = s.keeperDecrement k v := by
  simp [State.writeTnd, State.writeKpost]

/-- R24, R422: a post that the owner's grant lets through and that the Tender takes leaves its answer in the result register. -/
theorem State.keeperPost_success {s : State} {k : Fin 12} {f : Func} (d : descriptorOk (s.tnd.kpost[k]).post = true)
    (o : s.keeperOwner k = some f) (g : s.granted k f = true)
    (st : (s.postItem f (s.tnd.kpost[k]).post).1.status = .success) (oc : (s.postItem f (s.tnd.kpost[k]).post).1.outcome = 0) :
    s.keeperPost k = (s.postItem f (s.tnd.kpost[k]).post).2.modKpost k (fun x =>
      { x with result := putField Status.success.code 24 8 ||| putField 0 16 8 |||
                         putField (s.postItem f (s.tnd.kpost[k]).post).1.item 0 12 }) := by
  simp only [State.keeperPost, d, Bool.not_true, Bool.false_eq_true, if_false, o, if_pos g, st, oc, and_self, if_true]

/-- R24, R408: a decrement with a tag of firmware's range is the owner's where the owner has granted the keeper. -/
theorem State.keeperDecrement_granted {s : State} {k : Fin 12} {f : Func} (lo : 0x40 ≤ fieldNat (s.tnd.kpost[k]).decTag 24 8)
    (hi : fieldNat (s.tnd.kpost[k]).decTag 24 8 ≤ 0xDF) (o : s.keeperOwner k = some f) (g : s.granted k f = true) (v : DWord) :
    s.keeperDecrement k v = (s.decrementBy f (fieldNat v 0 11) (s.tnd.kpost[k]).decTag).2 := by
  simp only [State.keeperDecrement, if_neg (not_or.mpr ⟨Nat.not_lt.mpr lo, Nat.not_lt.mpr hi⟩), o, if_pos g]

/-- R408, Table 14.8: a decrement by a keeper without an item is a Tender fault of kind 2 and nothing else. -/
theorem State.keeperDecrement_ownerless {s : State} {k : Fin 12} (lo : 0x40 ≤ fieldNat (s.tnd.kpost[k]).decTag 24 8)
    (hi : fieldNat (s.tnd.kpost[k]).decTag 24 8 ≤ 0xDF) (o : s.keeperOwner k = none) (v : DWord) :
    s.keeperDecrement k v = s.tndFault 2 (fieldNat v 0 11) (fieldNat (s.tnd.kpost[k]).decTag 24 8) := by
  simp only [State.keeperDecrement, if_neg (not_or.mpr ⟨Nat.not_lt.mpr lo, Nat.not_lt.mpr hi⟩), o]

/-- KEEPER_POST writes TND_KPOST_GO in the state in which its write arrives. -/
theorem keeperPost_completes {s : State} {k : Fin 12} (h : s.pathLive (.keeper k) = true) (v : DWord) :
    Completes (.keeperPost k v) s ((s.arrived (.keeper k) (.keeper k) 0x90218).keeperPost k) :=
  .of_effect rfl (by rw [State.access_keeper_writeTnd h, State.writeTnd_kpostGo])

/-- KEEPER_DECREMENT writes TND_KDEC in the state in which its write arrives. -/
theorem keeperDecrement_completes {s : State} {k : Fin 12} (h : s.pathLive (.keeper k) = true) (v : DWord) :
    Completes (.keeperDecrement k v) s ((s.arrived (.keeper k) (.keeper k) 0x90224).keeperDecrement k v) :=
  .of_effect rfl (by rw [State.access_keeper_writeTnd h, State.writeTnd_kdec])

/-! Dispatch (R411, R419, R442). -/

/-- R419: the Tender starts the item it has picked where the item's record passes parity, and ends it POISONED where its body does not. -/
theorem State.dispatchOne_next {s : State} {i : Nat} {k : Fin 12} {x : Item} (on : s.tenderOn = true)
    (n : s.nextDispatch = some (i, k)) (hx : s.item i = some x) (head : x.badHead = false) :
    s.dispatchOne = if x.badBody then s.endItem i .poisoned else s.startItem i k := by
  simp [State.dispatchOne, on, n, hx, head]

/-! The Tender's bookkeeping leaves the keepers alone. -/

/-- What leaves the parts of `Still` alone leaves every keeper alone. -/
theorem State.keeper_of_still {s t : State} (h : t.still = s.still) (k : Fin 12) : t.keeper k = s.keeper k :=
  congrArg (fun x : Still => x.kpr.k[k]) h

@[simp] theorem State.freeItem_still (s : State) (i : Nat) : (s.freeItem i).still = s.still := rfl

@[simp] theorem State.itemDec_still (s : State) (x : Item) (en lo : Nat) : (s.itemDec x en lo).still = s.still := by
  unfold State.itemDec
  split <;> simp

@[simp] theorem State.reportItem_still (s : State) (i : Nat) (x : Item) (status : Nat) : (s.reportItem i x status).still = s.still :=
  State.postEvent_still ..

@[simp] theorem State.makeReadyHead_still (s : State) (i : Nat) : (s.makeReadyHead i).still = s.still := by
  unfold State.makeReadyHead
  split <;> simp

/-- An item that ends leaves the keepers alone (R413). -/
@[simp] theorem State.endItem_still (s : State) (i : Nat) (status : Status) (mass : Bool) :
    (s.endItem i status mass).still = s.still := by
  unfold State.endItem
  dsimp only
  repeat' split
  all_goals simp

@[simp] theorem State.endItem_keeper (s : State) (i : Nat) (status : Status) (mass : Bool) (k : Fin 12) :
    (s.endItem i status mass).keeper k = s.keeper k :=
  State.keeper_of_still (by simp) k

@[simp] theorem State.makeReadyHead_keeper (s : State) (i : Nat) (k : Fin 12) : (s.makeReadyHead i).keeper k = s.keeper k :=
  State.keeper_of_still (by simp) k

@[simp] theorem State.modItem_keeper (s : State) (i : Nat) (g : Item → Item) (k : Fin 12) : (s.modItem i g).keeper k = s.keeper k :=
  State.keeper_of_still (by simp) k

@[simp] theorem State.unready_keeper (s : State) (i : Nat) (k : Fin 12) : (s.unready i).keeper k = s.keeper k := rfl

/-- R442: the keeper that takes an item starts it with nothing of the item before. -/
theorem State.startItem_keeper {s : State} {i : Nat} {x : Item} (h : s.item i = some x) (k : Fin 12) :
    (s.startItem i k).keeper k = (s.keeper k).dispatched i x := by
  simp [State.startItem, h]

/-! Fences and revives (R416, R418). -/

/-- A keeper released from its item stays fenced, or not, as it was. -/
@[simp] theorem State.releaseKeeper_fenced (s : State) (k : Fin 12) : ((s.releaseKeeper k).keeper k).fenced = (s.keeper k).fenced := by
  unfold State.releaseKeeper
  dsimp only
  split <;> simp [Keeper.dropUnissued]

/-- R416: whatever becomes of the item or program that a keeper ran, the keeper is fenced. -/
theorem State.fence_fenced (s : State) (k : Fin 12) (cause : Nat) : ((s.fence k cause).keeper k).fenced = true := by
  unfold State.fence
  split
  case isTrue fenced => exact fenced
  case isFalse =>
    dsimp only
    split
    · split
      · split <;> simp
      · simp
    all_goals simp

/-- R418: a revive that the primary manager asks for a fenced keeper is taken while none is pending. -/
theorem State.revive_fenced {s : State} {k : Fin 12} {v : DWord} (n : fieldNat v 0 4 = k.val) (f : (s.keeper k).fenced = true)
    (p : s.tnd.revivePending = false) :
    s.revive v = s.modTnd (fun t => { t with revivePending := true, reviveKeeper := k.val }) := by
  simp [State.revive, n, f, p]

/-- R418: the self-test of the pending revive decides once the keeper's clock would run. -/
theorem State.reviveTest_pending {s : State} {k : Fin 12} (p : s.tnd.revivePending = true) (n : s.tnd.reviveKeeper = k.val)
    (c : s.reviveClock k = true) (pass : Bool) :
    s.reviveTest pass =
      if pass then (s.modTnd (fun t => { t with revivePending := false })).unfence k
      else (s.modTnd (fun t => { t with revivePending := false })).modTnd (fun t =>
        { t with fenceLast := putField 3 28 4 ||| putField k.val 24 4 ||| putField s.bcn.count.toNat 0 16 }) := by
  simp [State.reviveTest, p, n, c]

end Sys2Proof.Machine

open Sys2Proof Sys2Proof.Machine

/-- Settles O29: the posting registers, dispatch, fences and revives act as their lemmas say. -/
theorem keepersAndTheTender : Obligations.KeepersAndTheTender := by
  unfold Obligations.KeepersAndTheTender
  refine ⟨?post, ?decrement, ?ownerless, ?start, ?poisoned, ?started, ?fence, ?fenced, ?revive, ?selfTest⟩
  case post =>
    rintro s _ k v f live rfl d o g st oc
    exact State.keeperPost_success d o g st oc ▸ keeperPost_completes live v
  case decrement =>
    rintro s _ k v f live rfl lo hi o g
    exact State.keeperDecrement_granted lo hi o g v ▸ keeperDecrement_completes live v
  case ownerless =>
    rintro s _ k v live rfl lo hi o
    exact State.keeperDecrement_ownerless lo hi o v ▸ keeperDecrement_completes live v
  case start =>
    intro s i k x on n hx head body
    exact .of_effect rfl (by simp [State.dispatchOne_next on n hx head, body])
  case poisoned =>
    intro s i k x on n hx head body
    exact .of_effect rfl (by simp [State.dispatchOne_next on n hx head, body])
  case started =>
    intro s i k x hx
    rw [State.startItem_keeper hx]
    exact ⟨rfl, rfl, rfl, rfl⟩
  case fence => exact fun s k pipe clock => .of_effect rfl (if_pos clock)
  case fenced => exact fun s k c _ => s.fence_fenced k c
  case revive =>
    rintro s _ p r v k brings key rfl primary n f pending
    exact .of_effect rfl (by
      rw [State.writeRevive, State.accessGuarded_open brings key, State.primaryWrite, if_pos primary,
        State.revive_fenced n f pending])
  case selfTest =>
    intro s k p n c
    exact ⟨.of_effect rfl ((State.reviveTest_pending p n c true).trans (if_pos rfl)),
      .of_effect rfl ((State.reviveTest_pending p n c false).trans (if_neg Bool.false_ne_true))⟩

end

section
/-! What the end of a command, a change of mode and a stop of the fairways leave of the mode controller. -/

namespace Sys2Proof.Machine

/-! Parts of the state read off `Still`. -/

/-- What leaves the parts of `Still` alone leaves the mode controller alone. -/
theorem State.md_of_still {s t : State} (h : t.still = s.still) : t.md = s.md := congrArg Still.md h

/-- What leaves the parts of `Still` alone leaves the pins alone. -/
theorem State.pins_of_still {s t : State} (h : t.still = s.still) : t.pins = s.pins := congrArg Still.pins h

/-! What ends a command changes only the two flags that follow the pins, and no transition. -/

@[simp] theorem State.after_prev (s0 s : State) : (s0.after s).md.prev = s.md.prev := by rw [State.after_md]; rfl
@[simp] theorem State.after_going (s0 s : State) : (s0.after s).md.going = s.md.going := by rw [State.after_md]; rfl

/-- A part of the state that no operation of a fold changes is as it was after the fold. -/
theorem foldl_part {α β : Type} (part : State → β) {f : State → α → State} (h : ∀ s x, part (f s x) = part s) (l : List α) (s : State) :
    part (l.foldl f s) = part s := by
  induction l generalizing s with
  | nil => rfl
  | cons a t ih => rw [List.foldl_cons, ih, h]

/-! The fairways stop (R83, R299). -/

@[simp] theorem State.stopBus_still (s : State) (n : Fin 16) : (s.stopBus n).still = s.still := by
  unfold State.stopBus
  split <;> simp

/-- Stopped buses leave the mode controller alone. -/
@[simp] theorem State.stopBuses_md (s : State) : s.stopBuses.md = s.md := by
  unfold State.stopBuses
  dsimp only
  exact foldl_part State.md (fun s n => State.md_of_still (s.stopBus_still n)) _ s

@[simp] theorem State.loseTransfers_still (s : State) (f : Func) : (s.loseTransfers f).still = s.still := by
  refine foldl_still _ (fun s i => ?_) _ _
  repeat' split
  all_goals simp

/-- The fairways that have stopped are all that the mode controller notes of it. -/
@[simp] theorem State.haltFairways_md (s : State) : s.haltFairways.md = { s.md with halting := false, halted := true } := by
  unfold State.haltFairways
  dsimp only
  split
  · rw [State.md_of_still (foldl_still _ State.loseTransfers_still _ _)]
    simp
  · simp

/-! A change of mode (R75). -/

@[simp] theorem State.holdEngines_md (s : State) : s.holdEngines.md = s.md := rfl

@[simp] theorem State.reportLtr_md (s : State) (l : Link) : (s.reportLtr l).md = s.md := by
  unfold State.reportLtr
  split
  · rfl
  · split <;> rfl

@[simp] theorem State.modeEvents_md (s : State) (old m : Mode) : (s.modeEvents old m).md = s.md := by
  unfold State.modeEvents
  split
  · exact State.md_of_still (foldl_still _ (fun s f => s.postFnEvent_still f _ _ _ _) _ s)
  · rfl

/-- R76: the base mode is all that following LIT and BRIDGE changes. -/
theorem Modes.based_eq (d : Modes) (m : Mode) : d.based m = { d with base := (d.based m).base } := by
  cases m <;> rfl

/-- R75: TOP_MODE reports the new mode and PREV_MODE the old, no transition is in progress, and what waits for its end still waits. -/
theorem State.setMode_reports (s : State) (m : Mode) :
    (s.setMode m).mode = m ∧ (s.setMode m).md.prev = s.mode.code ∧ (s.setMode m).md.going = none ∧
      (s.setMode m).md.after = s.md.after ∧ (s.setMode m).md.reqHeld = s.md.reqHeld := by
  rw [State.mode, State.setMode]
  simp only [State.modeEvents_md, State.reportLtr_md, apply_ite State.md, State.holdEngines_md, ite_self, State.modMd_md]
  rw [Modes.based_eq]
  simp

end Sys2Proof.Machine
end

section
/-! Transitions, the heartbeat, shedding and the LG balls (O5). -/

namespace Sys2Proof.Machine

/-! The end of a transition (R75). -/

/-- Modes other than SHED, RELIGHT and UPDATE do nothing of their own on arrival. -/
theorem State.arriveIn_plain {m : Mode} (relight : m ≠ .relight) (update : m ≠ .update) (shed : m ≠ .shed) (s : State) (fl : FlashRead) :
    s.arriveIn m fl = s := by
  unfold State.arriveIn
  split
  · exact absurd rfl shed
  · exact absurd rfl relight
  · exact absurd rfl update
  · rfl

/-- R79, R80: with no request and no code behind NIGHT nothing is examined after a transition. -/
theorem State.afterTransition_idle {s : State} (noCode : s.md.after = none) (idle : s.md.reqHeld = false) (was : Mode) :
    s.afterTransition was = s := by
  simp [State.afterTransition, State.reexamine, noCode, idle]

/-- R75: a transition to a mode without an arrival of its own, behind which nothing waits, ends in the change of mode. -/
theorem State.endTransition_plain {s : State} {m : Mode} (going : s.md.going = some m) (relight : m ≠ .relight) (update : m ≠ .update)
    (shed : m ≠ .shed) (noCode : s.md.after = none) (idle : s.md.reqHeld = false) (fl : FlashRead) :
    s.endTransition fl = (if s.md.halting then s.haltFairways else s).setMode m := by
  simp only [State.endTransition, going, State.arriveIn_plain relight update shed]
  obtain ⟨-, -, -, after, held⟩ := (if s.md.halting then s.haltFairways else s).setMode_reports m
  apply State.afterTransition_idle
  · rw [after]; split <;> simp [noCode]
  · rw [held]; split <;> simp [idle]

/-! The heartbeat (R82). -/

/-- R82: a heartbeat limit reached is a SAFE cause of code 3 where none stands. -/
theorem State.heartbeatLost_limit {s : State} (on : s.mode.safeFrom = true) (limit : fieldNat s.md.safeCfg 0 8 ≤ s.md.missed)
    (free : s.md.safeHeld = none) : s.heartbeatLost = s.modMd (fun d => { d with safeHeld := some 3 }) := by
  simp [State.heartbeatLost, State.modMd, on, limit, free]

/-! The levels of the LG balls (R55, R56, R85). -/

/-- R56: a ball other than LG0 only has its level read. -/
theorem State.lgInput_other {n : Nat} (h : n ≠ 0) (s : State) (high : Bool) : s.lgInput n high = s.setLg n high := by
  simp [State.lgInput, h]

/-- R55, R85: a falling edge of LG0 in its LANE_WAKE_N function is wake source 17. -/
theorem State.lgInput_laneWake {s : State} (high : s.lgLevel 0 = true) (on : s.laneWakeOn = true) :
    s.lgInput 0 false = (s.setLg 0 false).wakeSource 17 := by
  simp [State.lgInput, high, on]

end Sys2Proof.Machine

open Sys2Proof Sys2Proof.Machine

/-- Settles O5: a transition ends in its mode, the heartbeat's limit is a cause of SAFE, and the filtered levels are followed. -/
theorem modesAndPinsFollow : Obligations.ModesAndPinsFollow := by
  unfold Obligations.ModesAndPinsFollow
  refine ⟨?transition, ?heartbeat, ?limit, ?sag, ?noSag, fun s h => .of_effect rfl (s.lgInput_other (by decide) h),
    fun s h => .of_effect rfl (s.lgInput_other (by decide) h), ?lg, ?laneWake, fun _ => rfl⟩
  case transition =>
    intro s m ha hb going relight update shed noCode idle
    refine ⟨_, rfl, ?_⟩
    obtain ⟨mode, prev, done, -, -⟩ := (if s.md.halting then s.haltFairways else s).setMode_reports m
    rw [State.after_mode, State.after_prev, State.after_going, State.endTransition_plain going relight update shed noCode idle]
    refine ⟨mode, prev.trans ?_, done⟩
    split <;> simp [State.mode]
  case heartbeat => exact fun s k v live => .of_effect rfl (State.access_brings (State.brings_keeper live) _ _)
  case limit => exact fun s on limit free => .of_effect rfl (State.heartbeatLost_limit on limit free)
  case sag => exact fun s h => .of_effect rfl (if_neg h)
  case noSag => exact fun s h => .of_effect rfl (if_neg (by simp [h]))
  case lg => exact fun s n h other => .of_effect rfl (s.lgInput_other (Fin.val_ne_zero_iff.mpr other) h)
  case laneWake => exact fun s high on => .of_effect rfl ((if_pos high).trans (State.lgInput_laneWake high on))

end

section
/-! UPDATE's chunks, TOP_FIT and TOP_LG_OUT (O6). -/

namespace Sys2Proof.Machine

/-! Fields of a word under a mask. -/

/-- A field is the number of the bits it spans. -/
theorem fieldNat_eq_extractLsb' {w : Nat} (x : BitVec w) (lo n : Nat) : fieldNat x lo n = (x.extractLsb' lo n).toNat := by
  simp [fieldNat, Nat.shiftRight_eq_div_pow]

/-- The high half is the bits from 16 on. -/
theorem hiHalf_eq_extractLsb' (x : DWord) : hiHalf x = x.extractLsb' 16 16 := rfl

/-- A field whose bits a mask keeps. -/
theorem fieldNat_and {w lo n : Nat} {x m : BitVec w} (h : m.extractLsb' lo n = BitVec.allOnes n) :
    fieldNat (x &&& m) lo n = fieldNat x lo n := by
  rw [fieldNat_eq_extractLsb', BitVec.extractLsb'_and, h, BitVec.and_allOnes, fieldNat_eq_extractLsb']

/-- A field that a word of set bits lies outside. -/
theorem fieldNat_or {w lo n : Nat} {x m : BitVec w} (h : m.extractLsb' lo n = 0#n) :
    fieldNat (x ||| m) lo n = fieldNat x lo n := by
  rw [fieldNat_eq_extractLsb', BitVec.extractLsb'_or, h, BitVec.or_zero, fieldNat_eq_extractLsb']

/-- A word whose high half a mask keeps. -/
theorem hiHalf_and {x m : DWord} (h : hiHalf m = BitVec.allOnes 16) : hiHalf (x &&& m) = hiHalf x := by
  simp only [hiHalf_eq_extractLsb'] at h ⊢
  rw [BitVec.extractLsb'_and, h, BitVec.and_allOnes]

/-- A word whose set bits lie in the low half. -/
theorem hiHalf_or {x m : DWord} (h : hiHalf m = 0#16) : hiHalf (x ||| m) = hiHalf x := by
  simp only [hiHalf_eq_extractLsb'] at h ⊢
  rw [BitVec.extractLsb'_or, h, BitVec.or_zero]

/-! SUP_UPD_CTL (R91, R94). -/

/-- R91: an idle UPDATE takes the chunk with the next number that fits the slot. -/
theorem State.updChunk_taken {s : State} {v : DWord} (idle : s.upd.busy = false) (lo : 1 ≤ fieldNat v 0 9) (hi : fieldNat v 0 9 ≤ 256)
    (seq : hiHalf v = s.upd.lastSeq + 1) (room : s.upd.kib + fieldNat v 0 9 ≤ 1024) :
    (s.updChunk v).upd = { s.upd with lastSeq := hiHalf v, busy := true, len := fieldNat v 0 9, final := bitOf v 15 } := by
  have nonzero : fieldNat v 0 9 ≠ 0 := Nat.one_le_iff_ne_zero.mp lo
  simp [State.updChunk, idle, seq, nonzero, Nat.not_lt.mpr hi, Nat.not_lt.mpr room, State.modUpd, State.emitAll]

/-- R91, R94: SUP_UPD_CTL obeys the primary manager in UPDATE. -/
theorem State.writeUpdCtl_inUpdate {s : State} {r : Requester} (primary : s.isPrimary r = true) (mode : s.mode = .update)
    (steady : s.md.going = none) (w : DWord) :
    s.writeUpdCtl r w =
      if bitOf w 14 then (s.modUpd (fun u => { u with ctl := w &&& 0xFFFFC1FF })).leaveUpdate 8
      else (s.modUpd (fun u => { u with ctl := w &&& 0xFFFFC1FF })).updChunk w := by
  simp [State.writeUpdCtl, primary, mode, steady]

/-- R91: what a write of SUP_UPD_CTL leaves that carries the number and length of a chunk `v` to take. -/
theorem State.writeUpdCtl_chunk {s : State} {r : Requester} {v w : DWord} (primary : s.isPrimary r = true) (mode : s.mode = .update)
    (steady : s.md.going = none) (keep : bitOf w 14 = false) (number : hiHalf w = hiHalf v) (length : fieldNat w 0 9 = fieldNat v 0 9)
    (idle : s.upd.busy = false) (lo : 1 ≤ fieldNat v 0 9) (hi : fieldNat v 0 9 ≤ 256) (seq : hiHalf v = s.upd.lastSeq + 1)
    (room : s.upd.kib + fieldNat v 0 9 ≤ 1024) :
    (s.writeUpdCtl r w).upd =
      { s.upd with ctl := w &&& 0xFFFFC1FF, lastSeq := hiHalf v, busy := true, len := fieldNat v 0 9, final := bitOf w 15 } := by
  rw [State.writeUpdCtl_inUpdate primary mode steady, keep, if_neg Bool.false_ne_true, ← number, ← length]
  rw [← length] at lo hi room
  rw [← number] at seq
  exact State.updChunk_taken idle lo hi seq room

/-- R91, Table 3.5: UPDATE left with a result is done and leads to RELIGHT. -/
@[simp] theorem State.leaveUpdate_upd (s : State) (n : Nat) :
    (s.leaveUpdate n).upd = { s.upd with result := n, done := true, busy := false } := rfl

@[simp] theorem State.leaveUpdate_going (s : State) (n : Nat) : (s.leaveUpdate n).md.going = some .relight := rfl

/-- R88, R91: a last chunk whose slot passes the checks with a newer image is committed. -/
theorem State.finalResult_newer {s : State} {h : ImageHeader} (passes : s.headerResult h false = 0)
    (newer : s.kpr.imageSeq.toNat < h.seq) : s.finalResult h true = 6 := by
  simp [State.finalResult, passes, newer]

/-- R91: the commit of the last chunk leaves UPDATE. -/
theorem State.chunkProgrammed_commit {s : State} {h : ImageHeader} (busy : s.upd.busy = true) (last : s.upd.final = true)
    (passes : s.headerResult h false = 0) (newer : s.kpr.imageSeq.toNat < h.seq) :
    s.chunkProgrammed true h true = s.leaveUpdate 6 := by
  simp [State.chunkProgrammed, busy, last, State.finalResult_newer passes newer]

/-! TOP_FIT (R61). -/

/-- R61: no write of TOP_FIT sets a bit. -/
theorem fitWritten_clears (r : Requester) (old v : DWord) : fitWritten r old v &&& ~~~old = 0 := by
  unfold fitWritten
  ext i hi
  split <;> cases h : old[i] <;> simp [h]

/-- R131: a write by a requester that may make it, to a group that is not sealed, is carried out. -/
theorem State.sealedWrite_open {s : State} {r : Requester} {group : Nat} (may : (s.isPrimary r || s.kindleWindow r) = true)
    (unsealed : s.isSealed group = false) (off : Nat) (act : State → State) :
    s.sealedWrite r off group act = act (s.sealedAccepted off) := by
  simp [State.sealedWrite, may, unsealed]

/-! Unfitted ports and links, and the resets of a lost link, leave the pins alone. -/

@[simp] theorem State.unfitPort_pins (s : State) (n : Fin 16) : (s.unfitPort n).pins = s.pins := by
  unfold State.unfitPort
  split
  · rfl
  · exact State.pins_of_still (s.leavePartner_still _ _)

@[simp] theorem State.setKeyhole_pins (s : State) (r : Requester) (k : Keyhole) : (s.setKeyhole r k).pins = s.pins := by
  unfold State.setKeyhole
  split <;> rfl

@[simp] theorem State.resetSlot_pins (s : State) (i : Fin 32) : (s.resetSlot i).pins = s.pins := State.pins_of_still (s.resetSlot_still i)

@[simp] theorem State.forgetRequester_pins (s : State) (r : Requester) : (s.forgetRequester r).pins = s.pins := by
  simp [State.forgetRequester]

@[simp] theorem State.resetMailboxes_pins (s : State) (f : Func) : (s.resetMailboxes f).pins = s.pins :=
  State.pins_of_still (s.resetMailboxes_still f)

@[simp] theorem State.dropLampsOf_pins (s : State) (f : Func) : (s.dropLampsOf f).pins = s.pins := rfl

@[simp] theorem State.dropCommandsOf_pins (s : State) (f : Func) : (s.dropCommandsOf f).pins = s.pins := rfl

@[simp] theorem State.unfreezeByReset_pins (s : State) (b : Fin 15) : (s.unfreezeByReset b).pins = s.pins :=
  State.pins_of_still (s.unfreezeByReset_still b)

@[simp] theorem State.resetFunction_pins (s : State) (f : Func) : (s.resetFunction f).pins = s.pins := by
  unfold State.resetFunction
  dsimp only
  repeat' split
  all_goals simp

@[simp] theorem State.resetConfig_pins (s : State) (l : Link) : (s.resetConfig l).pins = s.pins := by
  unfold State.resetConfig
  rw [State.modLink_pins]
  refine foldl_part State.pins (fun s i => ?_) _ s
  split
  · exact s.resetSlot_pins _
  · rfl

@[simp] theorem State.loseLink_pins (s : State) (l : Link) : (s.loseLink l).pins = s.pins := by
  simp [State.loseLink, foldl_part State.pins (f := State.resetFunction) State.resetFunction_pins]

@[simp] theorem State.unfitLink_pins (s : State) (l : Link) : (s.unfitLink l).pins = s.pins := by
  unfold State.unfitLink
  split
  · rfl
  · exact s.loseLink_pins l

@[simp] theorem State.sealedAccepted_pins (s : State) (off : Nat) : (s.sealedAccepted off).pins = s.pins := rfl

/-- R61: a write of TOP_FIT that is carried out leaves what was written: what becomes of unfitted ports and links follows it. -/
theorem State.writeFit_fit {s : State} {r : Requester} (may : (s.isPrimary r || s.kindleWindow r) = true)
    (unsealed : s.isSealed 1 = false) (v : DWord) : (s.writeFit r v).pins.fit = fitWritten r s.pins.fit v := by
  have ports (old : DWord) (u : State) :
      ((List.finRange 16).foldl (fun s n => if bitOf old n.val then s.unfitPort n else s) u).pins = u.pins :=
    foldl_part State.pins (fun s n => by split <;> simp) _ u
  have link (c : Bool) (l : Link) (u : State) : (if c then u.unfitLink l else u).pins = u.pins := by
    split <;> simp
  rw [State.writeFit, State.sealedWrite_open may unsealed]
  dsimp only
  rw [link, link, ports, State.sealedAccepted_pins]

@[simp] theorem State.arrive_pins (s : State) (p : Path) : (s.arrive p).pins = s.pins := by
  unfold State.arrive
  split <;> rfl

@[simp] theorem State.keyElsewhere_pins (s : State) (r : Requester) (off : Nat) : (s.keyElsewhere r off).pins = s.pins := by
  unfold State.keyElsewhere
  split
  · rfl
  · exact State.setKeyhole_pins _ _ _
  · exact State.setKeyhole_pins _ _ _

@[simp] theorem State.keySees_pins (s : State) (p : Path) (r : Requester) (off : Nat) : (s.keySees p r off).pins = s.pins := by
  unfold State.keySees
  split <;> simp

/-- The arrival of a write leaves the pins alone. -/
@[simp] theorem State.arrived_pins (s : State) (p : Path) (r : Requester) (off : Nat) : (s.arrived p r off).pins = s.pins := by
  simp [State.arrived, State.dropShadow]

/-! TOP_LG_OUT (R57). -/

/-- R57: the primary manager writes every general lane. -/
theorem State.writeLgOut_primary {s : State} {r : Requester} (primary : s.isPrimary r = true) (v : DWord) :
    s.writeLgOut r v = { s with pins := { s.pins with lgOut := v &&& 0xFFFF } } := by
  simp [State.writeLgOut, primary]

/-- R57: keeper firmware that is not the primary manager writes the KEEP balls alone. -/
theorem State.writeLgOut_keeper {s : State} {r : Requester} (other : s.isPrimary r = false) (keeper : r.isKeeper = true) (v : DWord) :
    s.writeLgOut r v =
      { s with pins := { s.pins with lgOut := (s.pins.lgOut &&& ~~~s.pins.lgKeep) ||| (v &&& s.pins.lgKeep) } } := by
  simp [State.writeLgOut, other, keeper]

end Sys2Proof.Machine

open Sys2Proof Sys2Proof.Machine

/-- Settles O6: chunks are taken, programmed, abandoned and committed, and TOP_FIT and TOP_LG_OUT are written, as their lemmas say. -/
theorem updateAndTopRegisters : Obligations.UpdateAndTopRegisters := by
  unfold Obligations.UpdateAndTopRegisters
  refine ⟨?chunk, ?abandon, ?flashFailed, ?programmed, ?committed, ?timeout, ?fit, ?lgOut, ?lgKeep⟩
  case chunk =>
    rintro s _ p r v brings rfl primary mode steady idle lo hi seq room
    have taken {w : DWord} (keep : bitOf w 14 = false) (number : hiHalf w = hiHalf v) (length : fieldNat w 0 9 = fieldNat v 0 9) :=
      State.writeUpdCtl_chunk primary mode steady keep number length idle lo hi seq room
    refine ⟨⟨_, rfl, ?_⟩, ⟨_, rfl, ?_⟩⟩
    · rw [State.after_upd, State.updAccess, State.access_brings brings,
        taken (by simp [bitOf]) (hiHalf_and (by decide)) (fieldNat_and (by decide))]
      exact ⟨rfl, by simp [bitOf], rfl, rfl⟩
    · rw [State.after_upd, State.updAccess, State.access_brings brings,
        taken (by simp [bitOf]) ((hiHalf_or (by decide)).trans (hiHalf_and (by decide)))
          ((fieldNat_or (by decide)).trans (fieldNat_and (by decide)))]
      exact ⟨rfl, by simp [bitOf], rfl, rfl⟩
  case abandon =>
    rintro s _ p r v brings rfl primary mode steady
    refine ⟨_, rfl, ?_⟩
    rw [State.after_upd, State.after_going, State.updAccess, State.access_brings brings,
      State.writeUpdCtl_inUpdate primary mode steady, if_pos (by simp [bitOf])]
    exact ⟨rfl, rfl, rfl, rfl⟩
  case flashFailed => exact fun s h ok busy => .of_effect rfl (by simp [State.chunkProgrammed, busy])
  case programmed => exact fun s h ok busy more => .of_effect rfl (by simp [State.chunkProgrammed, busy, more])
  case committed =>
    intro s h busy last passes newer
    refine ⟨_, rfl, ?_⟩
    rw [State.after_upd, State.after_going, State.chunkProgrammed_commit busy last passes newer]
    exact ⟨rfl, rfl, rfl⟩
  case timeout => exact fun s busy => .of_effect rfl (if_pos busy)
  case fit =>
    rintro s _ p r v brings rfl may unsealed
    have fit : (s.access p 0x00010 (fun r s => s.writeFit r v)).pins.fit = fitWritten r s.pins.fit v := by
      rw [State.access_brings brings, State.writeFit_fit may unsealed, State.arrived_pins]
    refine ⟨_, rfl, ?_⟩
    rw [State.after_pins, fit, State.arrived_pins]
    exact ⟨rfl, fitWritten_clears r _ v⟩
  case lgOut =>
    rintro s _ p r v brings rfl primary
    exact .of_effect rfl (by rw [State.access_brings brings, State.writeLgOut_primary primary])
  case lgKeep =>
    rintro s _ p r v brings rfl other keeper
    exact .of_effect rfl (by rw [State.access_brings brings, State.writeLgOut_keeper other keeper])

end

section
/-! The block after reset (O58). -/

open Sys2Proof Sys2Proof.Machine

/-- Settles O58: every part of the block stands at its default after reset, and each element of an array at its own. -/
theorem resetLeavesTheBlockDark : Obligations.ResetLeavesTheBlockDark := by
  unfold Obligations.ResetLeavesTheBlockDark
  refine ⟨rfl, rfl, rfl, rfl, rfl, ?ports, ?gates, ?sectors, ?keepers, ?buoys, rfl⟩
  case ports => simp [State.reset, State.port]
  case gates => simp [State.reset, State.moor]
  case sectors => simp [State.reset, State.sector]
  case keepers => simp [State.reset, State.kprRuns, State.keeper]
  case buoys => simp [State.reset, State.buoy]

end

section
/-! What leads to DARK, and what DARK leaves (O2). -/

namespace Sys2Proof.Machine

/-- The state in which a rail fault is recorded (R67, Table 3.21): its rail, its run, and the hold after three in a row. -/
def State.recordRailFault (s : State) (r : Rail) : State :=
  { s with sup := { s.sup with
      cause := 4, rail := r.code, tries := min (s.sup.tries + 1) 3, retry := true, stuck := min (s.sup.tries + 1) 3 == 3 } }

/-- R67: a rail fault is recorded and leads to DARK. -/
theorem State.railFault_eq (s : State) (r : Rail) : s.railFault r = (s.recordRailFault r).enterDark := rfl

/-- Table 3.21: outside DARK a cause of DARK is recorded. -/
theorem State.darkFor_running {s : State} (h : s.mode ≠ .dark) (cause : Nat) :
    s.darkFor cause = (s.modSup (fun x => { x with cause := cause })).enterDark := if_neg h

/-- R65, R77: the loss of a valid VIN in a mode that runs from it leads to DARK, which it holds for the retry time. -/
theorem State.vinFall_running {s : State} (dark : s.mode ≠ .dark) (wick : s.mode ≠ .wick) (valid : s.sup.vinValid = true) :
    s.vinFall =
      (s.modSup (fun x =>
        { x with vinValid := false, wickVin := false, retry := true, cause := if s.sup.puValid then 3 else 6 })).enterDark := by
  unfold State.vinFall
  split
  case isTrue invalid => simp [valid] at invalid
  case isFalse =>
    split
    case h_1 m => exact absurd m wick
    case h_2 m => exact absurd m dark
    case h_3 => exact State.darkFor_running (s := (s.modSup _).modSup _) dark _

/-- R71, R73: WICK ends in DARK with its supply. -/
theorem State.puFall_wick {s : State} (wick : s.mode = .wick) :
    s.puFall = (s.modSup (fun x => { x with puValid := false, wickHold := false })).enterDark := by
  simp [State.puFall, wick]

/-- R102, R541: with VBIAS every enable falls, and of the sticky record only cause 1 stays. -/
theorem State.vbiasLost_unsupplied {s : State} (h : s.sup.vinValid = false) :
    s.vbiasLost.mode = .dark ∧ s.vbiasLost.sup.vbias = false ∧ s.vbiasLost.sup.enCore = false ∧ s.vbiasLost.sup.enIo = false ∧
      s.vbiasLost.sup.enPhy = false ∧ s.vbiasLost.sup.cause = 1 := by
  rw [State.vbiasLost, if_neg (by simp [h])]
  exact ⟨rfl, rfl, rfl, rfl, rfl, rfl⟩

/-- R67: a power-good that falls while the rails are up is a fault of its rail. -/
theorem State.pgFall_up {s : State} {r : Rail} (up : s.sup.stage = .up) (good : s.sup.pg r = true) :
    s.pgFall r = (s.modSup (fun x => x.setPg r false)).railFault r := by
  simp [State.pgFall, Supply.sequencing, up, good]

/-- R103: RESET_N low outside DARK is its cause, and ends a run of rail faults. -/
theorem State.resetFall_running {s : State} (h : s.mode ≠ .dark) :
    s.resetFall = (s.modSup (fun x => { x with resetLow := true, tries := 0, stuck := false, cause := 2 })).enterDark :=
  (if_pos h).trans (State.darkFor_running (s := s.modSup _) h 2)

/-- R68: where EN_IO was high it is the next enable to fall. -/
theorem State.enterDark_stage {s : State} (h : s.sup.enIo = true) : s.enterDark.sup.stage = .downIo := if_pos h

end Sys2Proof.Machine

open Sys2Proof Sys2Proof.Machine

/-- Settles O2: each cause is recorded before the device enters DARK, and `State.enterDark` says what DARK leaves.
That an over-current holds WICK off unless VIN was being timed is the model's reading (log 18). -/
theorem darkAndItsCauses : Obligations.DarkAndItsCauses := by
  unfold Obligations.DarkAndItsCauses
  refine ⟨?vin, ?wickSupply, ?vbias, ?window, ?pgFall, ?startTimeout, ?stop, ?lockLoss, ?resetN, ?overcurrent, ?dark⟩
  case vin => exact fun s dark wick valid => .of_effect rfl (State.vinFall_running dark wick valid)
  case wickSupply => exact fun s wick => .of_effect rfl (State.puFall_wick wick)
  case vbias =>
    intro s h
    refine ⟨_, rfl, ?_⟩
    rw [State.after_mode, State.after_sup]
    exact State.vbiasLost_unsupplied h
  case window => exact fun s r h => .of_effect rfl (by rw [h]; exact s.railFault_eq r)
  case pgFall => exact fun s up good => .of_effect rfl (State.pgFall_up up good)
  case startTimeout => exact fun s h => .of_effect rfl ((if_pos h).trans (s.railFault_eq .phy))
  case stop => exact fun s h => .of_effect rfl ((if_pos h).trans (s.railFault_eq .phy))
  case lockLoss => exact fun s h => .of_effect rfl ((if_pos h).trans (s.railFault_eq .core))
  case resetN => exact fun s h => .of_effect rfl (State.resetFall_running h)
  case overcurrent => exact fun s h => .of_effect rfl (if_pos h)
  case dark => exact fun s => ⟨rfl, rfl, rfl, rfl, rfl, rfl, rfl, rfl, rfl, State.enterDark_stage, rfl, rfl⟩

end

section
/-! What a change of mode, the boot ROM's KPR0 and the end of a command leave alone. -/

namespace Sys2Proof.Machine

/-! A change of mode (R75). -/

@[simp] theorem State.holdEngines_still (s : State) : s.holdEngines.still = s.still := rfl

@[simp] theorem State.reportLtr_still (s : State) (l : Link) : (s.reportLtr l).still = s.still := by
  unfold State.reportLtr
  split
  · rfl
  · split <;> rfl

@[simp] theorem State.modeEvents_still (s : State) (old m : Mode) : (s.modeEvents old m).still = s.still := by
  unfold State.modeEvents
  split
  · exact foldl_still _ (fun s f => s.postFnEvent_still f _ _ _ _) _ s
  · rfl

theorem State.modMd_still (s : State) (g : Modes → Modes) : (s.modMd g).still = { s.still with md := g s.md } := rfl

/-- R75: of the parts that the end of a command leaves alone, a change of mode changes the mode controller only. -/
theorem State.setMode_still (s : State) (m : Mode) : (s.setMode m).still = { s.still with md := (s.setMode m).md } := by
  simp only [State.setMode, State.modeEvents_still, State.reportLtr_still, apply_ite State.still, State.holdEngines_still, ite_self,
    State.modMd_still, State.modeEvents_md, State.reportLtr_md, apply_ite State.md, State.holdEngines_md, State.modMd_md]

theorem State.setMode_boot (s : State) (m : Mode) : (s.setMode m).boot = s.boot := congrArg Still.boot (s.setMode_still m)

theorem State.setMode_day (s : State) (m : Mode) : (s.setMode m).reg.day = s.reg.day :=
  congrArg (fun x : Still => x.reg.day) (s.setMode_still m)

/-- What ends a command leaves every keeper alone. -/
@[simp] theorem State.after_keeper (s0 s : State) (k : Fin 12) : (s0.after s).keeper k = s.keeper k :=
  congrArg (fun x : Keepers => x.k[k]) (s0.after_kpr s)

end Sys2Proof.Machine
end

section
/-! The end of the rail sequence and of WICK (O3). -/

namespace Sys2Proof.Machine

/-! The supply, the pins and the clocks, which neither a change of mode nor the boot ROM touches. -/

/-- The supply, the pins and the clocks of a state. -/
structure Board where
  sup : Supply
  pins : Pins
  clk : Clocks

/-- These parts of a state. -/
def State.board (s : State) : Board := { sup := s.sup, pins := s.pins, clk := s.clk }

/-- What leaves the parts of `Still` other than the mode controller alone leaves the board alone. -/
theorem State.board_of_still {s t : State} {d : Modes} (h : t.still = { s.still with md := d }) : t.board = s.board :=
  congrArg (fun x : Still => Board.mk x.sup x.pins x.clk) h

@[simp] theorem State.setMode_board (s : State) (m : Mode) : (s.setMode m).board = s.board := State.board_of_still (s.setMode_still m)

@[simp] theorem State.modHst_board (s : State) (g : HoldingStore → HoldingStore) : (s.modHst g).board = s.board := rfl

@[simp] theorem State.kpr0_board (s : State) (r : KRun) : (s.kpr0 r).board = s.board := rfl

@[simp] theorem State.kpr0_pins (s : State) (r : KRun) : (s.kpr0 r).pins = s.pins := rfl

@[simp] theorem State.kpr0_mode (s : State) (r : KRun) : (s.kpr0 r).mode = s.mode := rfl

/-! The boot ROM (R88, R90, R454). -/

@[simp] theorem State.bootFailed_board (s : State) : s.bootFailed.board = s.board := by
  unfold State.bootFailed
  dsimp only
  split
  · split <;> rfl
  · exact State.setMode_board _ _
  · rfl

/-- R70, R90: outside RELIGHT a boot that fails stays in its mode. -/
theorem State.bootFailed_mode {s : State} (h : s.boot.purpose ≠ .relight) : s.bootFailed.mode = s.mode := by
  unfold State.bootFailed
  dsimp only
  split
  · split <;> rfl
  · exact absurd ‹_› h
  · rfl

@[simp] theorem State.trySlot_board (s : State) (fuel : Nat) : (s.trySlot fuel).board = s.board := by
  induction fuel generalizing s with
  | zero => exact s.bootFailed_board
  | succ n ih =>
    unfold State.trySlot
    split
    · exact s.bootFailed_board
    · dsimp only
      split
      · rfl
      · exact ih _

/-- Outside RELIGHT the choice of a slot leaves the mode. -/
theorem State.trySlot_mode {s : State} (h : s.boot.purpose ≠ .relight) (fuel : Nat) : (s.trySlot fuel).mode = s.mode := by
  induction fuel generalizing s with
  | zero => exact State.bootFailed_mode h
  | succ n ih =>
    unfold State.trySlot
    split
    · exact State.bootFailed_mode h
    · dsimp only
      split
      · rfl
      · exact ih (s := s.slotResult _ _) h

/-- R87: of the state the reads of the flash change what has been sent and the boot. -/
theorem State.readFlash_eq (s : State) (fl : FlashRead) :
    s.readFlash fl = { s with out := (s.readFlash fl).out, boot := (s.readFlash fl).boot } := by
  unfold State.readFlash
  dsimp only
  split <;> rfl

@[simp] theorem State.startBoot_board (s : State) (why : BootFor) (fl : FlashRead) : (s.startBoot why fl).board = s.board := by
  unfold State.startBoot
  rw [State.readFlash_eq]
  exact State.trySlot_board _ _

/-- A boot other than RELIGHT's leaves the mode. -/
theorem State.startBoot_mode {why : BootFor} (h : why ≠ .relight) (s : State) (fl : FlashRead) : (s.startBoot why fl).mode = s.mode := by
  unfold State.startBoot
  rw [State.readFlash_eq]
  exact State.trySlot_mode h _

/-! KINDLE begins (R66, R73, R249). -/

@[simp] theorem State.calibrate_still (s : State) : s.calibrate.still = s.still := by
  refine foldl_still _ (fun s f => ?_) _ s
  split <;> rfl

/-- The Beacon's start and the calibration leave the mode controller alone. -/
theorem State.startBeacon_calibrate_md (s : State) : s.startBeacon.calibrate.md = s.md :=
  (State.md_of_still s.startBeacon.calibrate_still).trans rfl

theorem State.startBeacon_calibrate_board (s : State) : s.startBeacon.calibrate.board = s.board :=
  congrArg (fun x : Still => Board.mk x.sup x.pins x.clk) s.startBeacon.calibrate_still

/-- R45, R73: of the board KINDLE changes PU_GATE_IN, which is off. -/
theorem State.beginKindle_board (s : State) (fl : FlashRead) :
    (s.beginKindle fl).board = { s.board with pins := { s.pins with puGateIn := false } } := by
  rw [State.beginKindle, State.startBoot_board, State.startBeacon_calibrate_board, State.setMode_board]
  rfl

theorem State.beginKindle_mode (s : State) (fl : FlashRead) : (s.beginKindle fl).mode = .kindle := by
  rw [State.beginKindle, State.startBoot_mode (by decide), State.mode, State.startBeacon_calibrate_md]
  exact (State.setMode_reports _ .kindle).1

/-! The internal reset releases (R66, R96). -/

/-- The state as the internal reset releases, before its mode begins: the supply is up, the clocks run, the PLL's lock with the
crystal's (the model's choice, log 19), and the PHYs are calibrated. -/
def State.sequenced (s : State) (cal : BitVec 4) (calPu : Bool) : State :=
  { s with
    sup := { s.sup with stage := .up, tries := 0 }
    clk := { s.clk with xtalOk := true, pllLock := true }
    pins := { s.pins with biasMissing := ~~~cal, biasPuMissing := !calPu } }

/-- R66, R69: the mode that follows the rail sequence begins. -/
theorem State.release_crystal {s : State} (h : s.sup.stage = .crystal) (cal : BitVec 4) (calPu : Bool) (fl : FlashRead) :
    s.release_ cal calPu fl =
      if s.serviceSel then (((s.sequenced cal calPu).setMode .service).startBeacon.calibrate).kpr0 .bootRom
      else if s.towardWick then (((s.sequenced cal calPu).setMode .wick).modHst (fun h => h.clearBank 0)).startBoot .wick fl
      else (s.sequenced cal calPu).beginKindle fl := by
  rw [State.release_, if_neg (by simp [h])]
  rfl

/-- R69, Table 3.5: the straps and the supply choose the mode. -/
theorem State.release_mode {s : State} (h : s.sup.stage = .crystal) (cal : BitVec 4) (calPu : Bool) (fl : FlashRead) :
    (s.release_ cal calPu fl).mode = if s.serviceSel then .service else if s.towardWick then .wick else .kindle := by
  rw [State.release_crystal h]
  split
  · rw [State.kpr0_mode, State.mode, State.startBeacon_calibrate_md]
    exact (State.setMode_reports _ .service).1
  · split
    · rw [State.startBoot_mode (by decide), State.modHst_mode]
      exact (State.setMode_reports _ .wick).1
    · exact State.beginKindle_mode _ _

/-- The mode that begins leaves of the board all but PU_GATE_IN. -/
theorem State.release_board {s : State} (h : s.sup.stage = .crystal) (cal : BitVec 4) (calPu : Bool) (fl : FlashRead) :
    ∃ gate, (s.release_ cal calPu fl).board =
      { (s.sequenced cal calPu).board with pins := { (s.sequenced cal calPu).pins with puGateIn := gate } } := by
  rw [State.release_crystal h]
  split
  · rw [State.kpr0_board, State.startBeacon_calibrate_board, State.setMode_board]
    exact ⟨s.pins.puGateIn, rfl⟩
  · split
    · rw [State.startBoot_board, State.modHst_board, State.setMode_board]
      exact ⟨s.pins.puGateIn, rfl⟩
    · exact ⟨false, State.beginKindle_board _ _⟩

/-! WICK ends (R73). -/

@[simp] theorem State.modLan_still (s : State) (g : Lantern → Lantern) : (s.modLan g).still = s.still := rfl

@[simp] theorem State.completeBuf_still (s : State) (i : Fin 32) (second : Bool) (b : LanBuf) :
    (s.completeBuf i second b).still = s.still := by
  unfold State.completeBuf
  dsimp only
  split
  · exact State.decrementEngine_still _ _ _
  · rfl

@[simp] theorem State.abortBuf_still (s : State) (i : Fin 32) (second : Bool) : (s.abortBuf i second).still = s.still := by
  unfold State.abortBuf
  dsimp only
  split
  · exact State.completeBuf_still _ _ _ _
  · rfl

@[simp] theorem State.lanClear_still (s : State) : s.lanClear.still = s.still := by
  rw [State.lanClear, State.modLan_still]
  exact foldl_still _ (fun s i => by simp [State.abortEp]) _ s

@[simp] theorem State.releasePullup_still (s : State) : s.releasePullup.still = s.still := by
  unfold State.releasePullup
  split
  · exact (State.modLan_still _ _).trans s.lanClear_still
  · rfl

@[simp] theorem State.releasePullup_board (s : State) : s.releasePullup.board = s.board :=
  State.board_of_still (d := s.md) s.releasePullup_still

@[simp] theorem State.releasePullup_pins (s : State) : s.releasePullup.pins = s.pins := State.pins_of_still s.releasePullup_still

/-- R73: a VIN that has stayed valid for 10 ms is valid, and KINDLE begins. -/
theorem State.endWick_valid {s : State} (wick : s.mode = .wick) (timed : s.sup.wickVin = true) (fl : FlashRead) :
    s.endWick fl =
      (((s.modSup (fun x => { x with vinValid := true, wickVin := false })).releasePullup).kpr0 .idle).beginKindle fl := by
  simp [State.endWick, State.wick, wick, timed]

/-- R73: the board after WICK. -/
theorem State.endWick_board {s : State} (wick : s.mode = .wick) (timed : s.sup.wickVin = true) (fl : FlashRead) :
    (s.endWick fl).board =
      { sup := { s.sup with vinValid := true, wickVin := false }, pins := { s.pins with puGateIn := false }, clk := s.clk } := by
  rw [State.endWick_valid wick timed, State.beginKindle_board, State.kpr0_board, State.kpr0_pins, State.releasePullup_board,
    State.releasePullup_pins]
  rfl

end Sys2Proof.Machine

open Sys2Proof Sys2Proof.Machine

/-- Settles O3: the mode that begins leaves the supply, the clocks and the calibration as the rail sequence and WICK end with them. -/
theorem sequencesEndInTheirModes : Obligations.SequencesEndInTheirModes := by
  unfold Obligations.SequencesEndInTheirModes
  refine ⟨?crystal, ?wick⟩
  case crystal =>
    intro s cal pu ha hb stage
    obtain ⟨gate, board⟩ := State.release_board stage cal pu (ha.andSlotB hb)
    have clk := congrArg Board.clk board
    have pins := congrArg Board.pins board
    refine ⟨_, rfl, ?_⟩
    rw [State.after_sup, State.after_clk, State.after_pins, State.after_mode]
    exact ⟨congrArg Board.sup board, congrArg Clocks.xtalOk clk, congrArg Clocks.pllLock clk, congrArg Pins.biasMissing pins,
      congrArg Pins.biasPuMissing pins, State.release_mode stage _ _ _⟩
  case wick =>
    intro s ha hb wick timed
    have board := State.endWick_board wick timed (ha.andSlotB hb)
    refine ⟨_, rfl, ?_⟩
    rw [State.after_sup, State.after_mode, State.after_pins]
    refine ⟨congrArg Board.sup board, ?kindle, congrArg (fun b => b.pins.puGateIn) board⟩
    case kindle =>
      rw [State.endWick_valid wick timed]
      exact State.beginKindle_mode _ _

end

section
/-! Mode requests: how they reach the controller, and how they are judged (O4). -/

namespace Sys2Proof.Machine

/-! A request written by the primary manager (R81, R135, R137). -/

/-- R81: the primary manager's write of SUP_MODE_REQ is its request. -/
theorem State.modeReqBy_primary {s : State} {r : Requester} (h : s.isPrimary r = true) (code : Nat) :
    s.modeReqBy r code = s.writeMode false code := if_pos h

/-- R81, R137: a write of a code other than UPDATE's is seen by the writer's Keyhole, and the request follows. -/
theorem State.writeModeReq_brings {s : State} {p : Path} {r : Requester} (brings : s.Brings p r) {v : DWord} (other : fieldNat v 0 4 ≠ 10)
    (primary : ((s.arrive p).keyConsume r 0x01000).isPrimary r = true) :
    s.writeModeReq p v = ((s.arrive p).keyConsume r 0x01000).writeMode false (fieldNat v 0 4) := by
  obtain ⟨live, reaches, notSmbus, requester⟩ := brings
  simp [State.writeModeReq, other, live, reaches, notSmbus, requester, State.modeReqBy_primary primary]

/-- R81, R135: the UPDATE code acts behind an open Keyhole. -/
theorem State.writeModeReq_update {s : State} {p : Path} {r : Requester} (brings : s.Brings p r) (key : s.KeyOpen p r 0x01000)
    (primary : (s.unlocked p r 0x01000).isPrimary r = true) :
    s.writeModeReq p 0xA = (s.unlocked p r 0x01000).writeMode false 0xA :=
  (State.accessGuarded_open brings key _).trans (State.modeReqBy_primary primary _)

/-! What a new request does (R79, R80, R81). -/

/-- The mode controller with a new code in SUP_MODE_REQ, before anything is made of it (R81, R85). -/
def Modes.newRequest (d : Modes) (firmware : Bool) (code : Nat) : Modes :=
  { d with wakeSrc := 0, req := code, refused := false, reason := 0, reqHeld := false, reqShed := false, reqFw := firmware, after := none }

/-- R80: a new code that comes during a transition is held until it has ended, unless it is zero (log 20). -/
theorem State.writeMode_going {s : State} {code : Nat} (new : code ≠ s.md.req) (going : s.md.going.isSome = true) (fw : Bool) :
    s.writeMode fw code = s.modMd (fun d => { d.newRequest fw code with reqHeld := decide (code ≠ 0) }) := by
  rw [State.writeMode, if_neg new]
  exact if_pos going

/-- R79: a new code outside a transition is examined at once (log 20). -/
theorem State.writeMode_examined {s : State} {code : Nat} (new : code ≠ s.md.req) (steady : s.md.going = none) (fw : Bool) :
    s.writeMode fw code = (s.modMd (fun d => d.newRequest fw code)).examineRequest := by
  rw [State.writeMode, if_neg new]
  exact if_neg (by simp [steady])

/-- What a request is judged by is not what its write records. -/
theorem State.judgeMode_newRequest (s : State) (fw : Bool) (code n : Nat) :
    (s.modMd (fun d => d.newRequest fw code)).judgeMode n = s.judgeMode n := rfl

/-- Examining a request leaves the mode, the code and the wakes (R79). -/
theorem State.examineRequest_leaves (s : State) :
    s.examineRequest.mode = s.mode ∧ s.examineRequest.md.req = s.md.req ∧ s.examineRequest.md.wakeSrc = s.md.wakeSrc := by
  unfold State.examineRequest
  dsimp only
  split
  case h_6 m _ =>
    by_cases night : m = .night <;> simp [State.modMd, State.mode, Modes.disarm, night]
  all_goals exact ⟨rfl, rfl, rfl⟩

/-- R81: a request that Table 3.12 refuses is reported with its reason and not held. -/
theorem State.examineRequest_refused {s : State} {n : Nat} (h : s.judgeMode s.md.req = .refuse n) :
    s.examineRequest.md.refused = true ∧ s.examineRequest.md.reason = n ∧ s.examineRequest.md.reqHeld = false := by
  simp only [State.examineRequest, h]
  exact ⟨rfl, rfl, rfl⟩

/-- R82: an accepted SAFE request is a SAFE cause, whose code tells firmware from the primary manager, where none stands. -/
theorem State.examineRequest_safe {s : State} (h : s.judgeMode s.md.req = .go .safe) (free : s.md.safeHeld = none) :
    s.examineRequest.md.safeHeld = some (if s.md.reqFw then 1 else 2) := by
  simp [State.examineRequest, h, State.modMd, free]

/-- R550: an accepted NIGHT request sets the NIGHT level. -/
theorem State.examineRequest_night {s : State} (h : s.judgeMode s.md.req = .go .night) : s.examineRequest.md.nightReg = true := by
  simp [State.examineRequest, h, State.modMd]

/-- R79, R81, R85: a new code is recorded and clears the wakes, and the mode does not change. -/
theorem State.writeMode_records {s : State} {code : Nat} (new : code ≠ s.md.req) (fw : Bool) :
    (s.writeMode fw code).mode = s.mode ∧ (s.writeMode fw code).md.req = code ∧ (s.writeMode fw code).md.wakeSrc = 0 := by
  by_cases going : s.md.going.isSome = true
  · rw [State.writeMode_going new going]
    exact ⟨rfl, rfl, rfl⟩
  · rw [State.writeMode_examined new (Option.not_isSome_iff_eq_none.mp going)]
    exact State.examineRequest_leaves _

end Sys2Proof.Machine

open Sys2Proof Sys2Proof.Machine

/-- Settles O4: the primary manager's write is its request, which is held during a transition and judged at once outside one. -/
theorem modeRequestsAreJudged : Obligations.ModeRequestsAreJudged := by
  unfold Obligations.ModeRequestsAreJudged
  refine ⟨?seen, ?update, ?judged⟩
  case seen =>
    intro s p r brings primary
    have request {v : DWord} (other : fieldNat v 0 4 ≠ 10) := State.writeModeReq_brings brings other primary
    exact ⟨.of_effect rfl (request (by decide)), .of_effect rfl (request (by decide)), .of_effect rfl (request (by decide)),
      .of_effect rfl (request (by decide)), .of_effect rfl (request (by decide)), .of_effect rfl (request (by decide))⟩
  case update => exact fun s p r brings key primary => .of_effect rfl (State.writeModeReq_update brings key primary)
  case judged =>
    intro s fw code new
    obtain ⟨mode, req, wakes⟩ := State.writeMode_records new fw
    refine ⟨mode, req, wakes, ?held, ?refused, ?safe, ?night⟩
    case held =>
      intro going
      rw [State.writeMode_going new going]
      exact ⟨rfl, rfl⟩
    case refused =>
      intro n steady refused
      rw [State.writeMode_examined new steady]
      exact State.examineRequest_refused ((s.judgeMode_newRequest fw code code).trans refused)
    case safe =>
      intro steady safe free
      rw [State.writeMode_examined new steady]
      exact State.examineRequest_safe ((s.judgeMode_newRequest fw code code).trans safe) free
    case night =>
      intro steady night
      rw [State.writeMode_examined new steady]
      exact State.examineRequest_night ((s.judgeMode_newRequest fw code code).trans night)

end

section
/-! The boot: slots, the init program and the end of KINDLE (O7). -/

namespace Sys2Proof.Machine

/-! A slot (R88, R89, R454). -/

/-- R88, R454: a body of the slot's length is loaded, and its signature is checked next. -/
theorem State.loadBody_fetched {s : State} {k : Fin 2} {body : List Byte} (stage : s.boot.stage = .fetching k)
    (length : body.length = s.boot.fetchLen k) :
    (s.loadBody body).boot.stage = .checking k ∧ (s.loadBody body).boot.tried = s.boot.tried := by
  simp [State.loadBody, stage, length]

/-- R88: a slot with a good signature and a sound body is entered. -/
theorem State.checkSlot_good {s : State} {k : Fin 2} (stage : s.boot.stage = .checking k) (sound : s.boot.bodyPoison = false) :
    s.checkSlot true = s.enterImage k := by
  simp [State.checkSlot, stage, sound]

/-- R88: a slot with a bad signature records it, and the next slot is tried. -/
theorem State.checkSlot_bad {s : State} {k : Fin 2} (stage : s.boot.stage = .checking k) :
    s.checkSlot false = (s.slotResult k 0x07).trySlot 2 := by
  simp [State.checkSlot, stage]

/-- R454: KPR0 runs the accepted image's program with the KIND of the boot. -/
theorem State.enterImage_run (s : State) (k : Fin 2) : ((s.enterImage k).keeper 0).run = .program s.boot.purpose.kind := by
  simp [State.enterImage, Keeper.startProgram]

/-- R89: the time limit records its result for the slot, clears what the program was told of its image, and the next slot is tried. -/
theorem State.initTimeout_running {s : State} {k : Fin 2} (stage : s.boot.stage = .running k) :
    s.initTimeout =
      (let u := (s.drainStores 0).slotResult k 0x09
       ({ u with kpr := { u.kpr with bootKind := 0, imageSeq := 0, imageSvn := 0, imageKeySlot := 0 } } : State).trySlot 2) := by
  simp [State.initTimeout, stage]

/-! READY (R89, R92, R455). -/

/-- R455: KPR0's init program sets READY. -/
theorem State.writeKprBoot_ready {s : State} (runs : s.initRuns = true) : s.writeKprBoot (.keeper 0) 0x80000000 = s.bootReady := by
  rw [State.writeKprBoot, if_pos ⟨rfl, runs⟩, if_pos (by decide)]

/-- R455: BOOT_READY of KPR0's init program sets READY in the state in which its write arrives. -/
theorem State.access_bootReady {s : State} (live : s.pathLive (.keeper 0) = true)
    (runs : (s.arrived (.keeper 0) (.keeper 0) 0xA0010).initRuns = true) :
    s.access (.keeper 0) 0xA0010 (fun r s => s.writeKprBoot r 0x80000000) =
      (s.arrived (.keeper 0) (.keeper 0) 0xA0010).bootReady :=
  (State.access_brings (State.brings_keeper live) _ _).trans (State.writeKprBoot_ready runs)

/-- R89: in KINDLE the Daymark reference is committed next. -/
theorem State.bootReady_kindle {s : State} {k : Fin 2} (stage : s.boot.stage = .running k) (purpose : s.boot.purpose = .kindle) :
    s.bootReady.kpr.bootReady = true ∧ s.bootReady.boot.stage = .committing ∧ s.bootReady.reg.day.capturing = true := by
  simp only [State.bootReady, stage, purpose]
  exact ⟨rfl, rfl, rfl⟩

/-- R92: the buses that resume are the fairways' alone. -/
theorem State.startIfRuns_eq (s : State) : s.startIfRuns = { s with fwy := s.startIfRuns.fwy } := by
  unfold State.startIfRuns
  split <;> rfl

/-- R92: RELIGHT returns to the mode recorded for it. -/
theorem State.bootReady_relight {s : State} {k : Fin 2} (stage : s.boot.stage = .running k) (purpose : s.boot.purpose = .relight) :
    s.bootReady.kpr.bootReady = true ∧ s.bootReady.boot.stage = .idle ∧ s.bootReady.md.going = some s.md.ret := by
  simp only [State.bootReady, stage, purpose]
  rw [State.startIfRuns_eq]
  exact ⟨rfl, rfl, rfl⟩

/-! The first match ends KINDLE (R89, R141, R144). -/

/-- A pass that has read every register reads no more. -/
theorem State.passRead_complete {s : State} {p : DayPass} (h : p.complete = true) : s.passRead p = p := by
  have noneLeft : sealedOffsets[p.next]? = none := List.getElem?_eq_none (of_decide_eq_true h)
  simp [State.passRead, noneLeft]

/-- A complete pass has no rest to read. -/
theorem State.passRest_complete {s : State} {p : DayPass} (h : p.complete = true) : s.passRest p = p :=
  List.foldl_fixed' (fun _ => State.passRead_complete h) _

/-- R141, R142: a captured pass without a parity failure gives the reference, and the Daymark waits for nothing. -/
theorem Daymark.ended_captured {d : Daymark} {p : DayPass} (captured : d.captured p = true) (parity : p.parityAt = none) :
    (d.ended p).capturing = false ∧ (d.ended p).stale = false ∧ (d.ended p).mismatch = false := by
  simp [Daymark.ended, captured, parity]

/-- R144: a captured pass without a parity failure matches the reference it gives. -/
theorem State.passMatches_captured {s : State} {p : DayPass} (pass : s.reg.day.pass = some p) (captured : s.reg.day.captured p = true)
    (complete : p.complete = true) (parity : p.parityAt = none) : s.passMatches = true := by
  obtain ⟨-, -, mismatch⟩ := Daymark.ended_captured captured parity
  simp [State.passMatches, pass, State.passRest_complete complete, Daymark.matchedBy, captured, mismatch]

/-- R89: the first pass that matches ends KINDLE in STANDBY. -/
theorem State.closePass_match {s : State} (stage : s.boot.stage = .committing) (passes : s.passMatches = true) :
    s.closePass.mode = .standby ∧ s.closePass.boot.stage = .idle ∧ s.closePass.reg.day = s.endPass.reg.day := by
  rw [State.closePass]
  simp only [if_pos (And.intro stage passes)]
  obtain ⟨mode, -⟩ := ((s.endPass.modBoot (fun b => { b with stage := .idle })).kpr0 .idle).setMode_reports .standby
  refine ⟨mode, ?_, State.setMode_day _ _⟩
  rw [State.setMode_boot]
  rfl

/-- A complete pass that ends leaves what the Daymark makes of it. -/
theorem State.endPass_complete {s : State} {p : DayPass} (pass : s.reg.day.pass = some p) (complete : p.complete = true) :
    s.endPass.reg.day = s.reg.day.ended p := by
  simp only [State.endPass, pass, State.passRest_complete complete]
  rfl

/-- R142: CAPTURE_COMPLETE ends a complete pass that a waiting CAPTURE takes. -/
theorem captureComplete_completes {s : State} {p : DayPass} (pass : s.reg.day.pass = some p) (captured : s.reg.day.captured p = true)
    (complete : p.complete = true) : Completes .captureComplete s s.closePass :=
  .of_effect rfl (by simp [pass, captured, complete])

end Sys2Proof.Machine

open Sys2Proof Sys2Proof.Machine

/-- Settles O7: each command of the boot acts in its stage as its lemma says. -/
theorem bootRunsAndEnds : Obligations.BootRunsAndEnds := by
  unfold Obligations.BootRunsAndEnds
  refine ⟨?fetched, ?good, fun _ _ stage => .of_effect rfl (State.checkSlot_bad stage), ?timeout, ?kindle, ?relight, ?captured⟩
  case fetched =>
    intro s k body stage length
    refine ⟨_, rfl, ?_⟩
    rw [State.after_boot]
    exact State.loadBody_fetched stage length
  case good =>
    intro s k stage sound
    refine ⟨_, rfl, ?_⟩
    rw [State.checkSlot_good stage sound, State.after_boot, State.after_keeper, State.after_kpr]
    exact ⟨rfl, s.enterImage_run k, rfl⟩
  case timeout =>
    rintro s _ k stage rfl
    exact .of_effect rfl (State.initTimeout_running stage)
  case kindle =>
    rintro s _ k live rfl runs stage purpose
    refine ⟨_, rfl, ?_⟩
    rw [State.after_kpr, State.after_boot, State.after_day, State.access_bootReady live runs]
    exact State.bootReady_kindle stage purpose
  case relight =>
    rintro s _ k live rfl runs stage purpose
    refine ⟨_, rfl, ?_⟩
    rw [State.after_kpr, State.after_boot, State.after_going, State.access_bootReady live runs]
    exact State.bootReady_relight stage purpose
  case captured =>
    intro s p pass captured complete parity stage
    obtain ⟨capturing, stale, -⟩ := Daymark.ended_captured captured parity
    obtain ⟨mode, idle, day⟩ := State.closePass_match stage (State.passMatches_captured pass captured complete parity)
    refine ⟨_, captureComplete_completes pass captured complete, ?_⟩
    rw [State.after_mode, State.after_boot, State.after_day, day, State.endPass_complete pass complete]
    exact ⟨mode, idle, capturing, stale⟩

end

section
/-! Root ports on their bus, and the wakes of STANDBY and NIGHT (O36). -/

namespace Sys2Proof.Machine

/-! The wake sources (R85). -/

/-- R85: a source that SUP_WAKE_CFG does not enable does nothing. -/
theorem State.wakeSource_disabled {s : State} {b : Nat} (h : bitOf s.md.wakeCfg b = false) : s.wakeSource b = s :=
  if_pos (by simp [h])

/-- R85: in NIGHT an enabled source is latched, and wakes the device at the closing tick. -/
theorem State.wakeSource_night {s : State} {b : Nat} (h : bitOf s.md.wakeCfg b = true) (night : s.mode = .night) :
    (s.wakeSource b).md = { s.md with wakeSrc := s.md.wakeSrc ||| putBit true b, wakeHeld := true } := by
  simp [State.wakeSource, h, night]

/-- R85: in STANDBY an enabled source is latched, whether or not it brings the link up. -/
theorem State.wakeSource_standby {s : State} {b : Nat} (h : bitOf s.md.wakeCfg b = true) (standby : s.mode = .standby) :
    (s.wakeSource b).md = { s.md with wakeSrc := s.md.wakeSrc ||| putBit true b } := by
  simp only [State.wakeSource, h, standby, Bool.not_true, Bool.false_eq_true, if_false]
  split
  · rw [State.modLink_md]
  · rfl

/-! The reset's end (R280). -/

/-- R280: the reset of a device that shows itself finds a speed, and its recovery begins. -/
theorem busResetSe0End_found {s : State} {n : Fin 16} (st : (s.port n).state = .resetting) (w : (s.port n).wait = .se0) (v : Speed) :
    Completes (.busResetSe0End n (some v)) s
      (s.modPort n (fun p => { p with speed := (s.port n).foundSpeed (some v), wait := .recovery })) := by
  refine .of_effect rfl ((if_neg (by simp [st, w])).trans ?_)
  cases v <;> rfl

/-! Failures (R302, R303). -/

/-- R302, R303: in a running mode a failure is taken once. -/
theorem not_dark_or_failed {s : State} {failed : Bool} (m : s.mode ≠ .dark) (h : failed = false) :
    ¬ (s.mode = .dark ∨ failed = true) := by
  simp [m, h]

end Sys2Proof.Machine

open Sys2Proof Sys2Proof.Machine

/-- Settles O36: the bus event of each clause acts in the state that the port is in, and a wake source as its lemmas say.
What a reset without a speed and a resume in a stopped mode end with is the model's reading (log 39). -/
theorem portsFollowTheirBus : Obligations.PortsFollowTheirBus := by
  unfold Obligations.PortsFollowTheirBus
  refine ⟨fun _ _ v st w => busResetSe0End_found st w v, ?noSpeed, ?recovered, ?suspended, ?resumed, ?resumedStopped, ?l1, ?pullup,
    ?debounced, ?disconnect, ?remoteWake, ?portFail, ?fairwayFail,
    fun _ _ => ⟨State.wakeSource_disabled, State.wakeSource_night, State.wakeSource_standby⟩⟩
  case noSpeed => exact fun s n st w => .of_effect rfl (if_neg (by simp [st, w]))
  case recovered => exact fun s n st w => .of_effect rfl (if_neg (by simp [st, w]))
  case suspended => exact fun s n st w => .of_effect rfl (if_neg (by simp [st, w]))
  case resumed => exact fun s n st wake => .of_effect rfl (by simp [st, wake])
  case resumedStopped => exact fun s n st stopped => .of_effect rfl (by simp [st, stopped])
  case l1 => exact fun s n st rwe => .of_effect rfl (if_pos ⟨st, by simp [rwe]⟩)
  case pullup => exact fun s n low st => .of_effect rfl (if_pos st)
  case debounced => exact fun s n st => .of_effect rfl (if_pos st)
  case disconnect => exact fun s n h => .of_effect rfl (if_pos h)
  case remoteWake => exact fun s n st => .of_effect rfl (if_pos st)
  case portFail => exact fun s n c m h => .of_effect rfl (if_neg (not_dark_or_failed m h))
  case fairwayFail =>
    intro s fa c m h
    have code : (c.val + 1 - 1) % 3 + 1 = c.val + 1 := by omega
    exact .of_effect rfl ((if_neg (not_dark_or_failed m h)).trans (by rw [code]))

end

section
/-! Event levels, their rises and falls, and what a closing tick delivers (O55). -/

namespace Sys2Proof.Machine

/-! The levels after a command (R511). -/

/-- R511: after a command the levels last looked at are the present ones (log 55). -/
theorem State.settle_high (s : State) : s.settle.evt.high = s.highNow := by
  by_cases same : s.highNow = s.evt.high
  · simp only [State.settle, if_pos same]
    exact same.symm
  · simp only [State.settle, if_neg same]

/-- A source's level is high now where it is one of the 300 sources and its level is 1. -/
theorem State.mem_highNow {s : State} {e : Nat} : e ∈ s.highNow ↔ e < 300 ∧ s.level e = true := by
  simp [State.highNow]

/-- An edge recorded for a source leaves the counts of the others. -/
theorem assocGet_bumpEdge (l : List (Nat × (Nat × Nat))) (e k : Nat) (rise : Bool) :
    assocGet (bumpEdge l k rise) e =
      if e = k then
        some (if rise then (min (((assocGet l k).getD (0, 0)).1 + 1) 0xFFFF, ((assocGet l k).getD (0, 0)).2)
          else (((assocGet l k).getD (0, 0)).1, min (((assocGet l k).getD (0, 0)).2 + 1) 0xFFFF))
      else assocGet l e :=
  assocGet_assocPut ..

/-- Edges recorded for other sources leave a source's counts. -/
theorem assocGet_bumpEdges_notMem {changed : List Nat} {e : Nat} (h : e ∉ changed) (rise : Nat → Bool)
    (l : List (Nat × (Nat × Nat))) :
    assocGet (changed.foldl (fun l k => bumpEdge l k (rise k)) l) e = assocGet l e := by
  induction changed generalizing l with
  | nil => rfl
  | cons k t ih =>
    rw [List.foldl_cons, ih (List.not_mem_of_not_mem_cons h), assocGet_bumpEdge, if_neg (List.ne_of_not_mem_cons h)]

/-- A source without an edge that rises among sources that change once each has one rise. -/
theorem assocGet_bumpEdges_rise {changed : List Nat} {e : Nat} (once : changed.Nodup) (h : e ∈ changed) {rise : Nat → Bool}
    (rises : rise e = true) {l : List (Nat × (Nat × Nat))} (fresh : assocGet l e = none) :
    assocGet (changed.foldl (fun l k => bumpEdge l k (rise k)) l) e = some (1, 0) := by
  induction changed generalizing l with
  | nil => cases h
  | cons k t ih =>
    obtain ⟨notMem, once⟩ := List.nodup_cons.mp once
    rw [List.foldl_cons]
    by_cases same : e = k
    · subst same
      rw [assocGet_bumpEdges_notMem notMem, assocGet_bumpEdge, if_pos rfl]
      simp [rises, fresh]
    · exact ih once (List.mem_of_ne_of_mem same h) (by rw [assocGet_bumpEdge, if_neg same, fresh])

/-- The sources whose level differs from the one last looked at. -/
def State.changedSources (s : State) : List Nat :=
  (List.range 300).filter (fun e => s.highNow.contains e != s.evt.high.contains e)

/-- R511: in a mode that makes events, a command's end records an edge of every source that has changed. -/
theorem State.settle_edges {s : State} (dark : s.mode ≠ .dark) (wick : s.mode ≠ .wick) (kindle : s.mode ≠ .kindle)
    (changed : s.highNow ≠ s.evt.high) :
    s.settle.evt.edges = s.changedSources.foldl (fun l e => bumpEdge l e (s.highNow.contains e)) s.evt.edges := by
  simp only [State.settle, if_neg changed]
  rfl

/-- R511: a source whose level has risen since the last look, in an interval without edges, has one rise and no fall. -/
theorem State.settle_rise {s : State} {e : Nat} (lt : e < 300) (dark : s.mode ≠ .dark) (wick : s.mode ≠ .wick)
    (kindle : s.mode ≠ .kindle) (fresh : s.evt.edges = []) (level : s.level e = true) (low : s.evt.high.contains e = false) :
    assocGet s.settle.evt.edges e = some (1, 0) := by
  have now : s.highNow.contains e = true := List.contains_iff_mem.mpr (State.mem_highNow.mpr ⟨lt, level⟩)
  have changed : s.highNow ≠ s.evt.high := fun same => by rw [← same, now] at low; cases low
  have mem : e ∈ s.changedSources := List.mem_filter.mpr ⟨List.mem_range.mpr lt, by rw [now, low]; rfl⟩
  rw [State.settle_edges dark wick kindle changed]
  exact assocGet_bumpEdges_rise (List.nodup_range.filter _) mem now (by rw [fresh]; rfl)

/-! What a closing tick delivers (R510, R511, R515). -/

/-- R510: a masked source produces no entry. -/
theorem State.deliverSource_masked {s : State} {e : Nat} (h : s.masked e = true) : s.deliverSource e = s := if_pos h

/-- R510, R516: a masked source other than EV293 drives no ALERT_N. -/
theorem State.alerting_masked {s : State} {e : Nat} (h : s.masked e = true) (other : e ≠ 293) : s.alerting e = false := by
  simp [State.alerting, h, other]

/-- R510: EV293 drives ALERT_N with its level, whatever its mask and route say. -/
theorem State.alerting_293 (s : State) : s.alerting 293 = s.level 293 := by simp [State.alerting]

/-- R511: no entry is produced in DARK, WICK and KINDLE, where only the record of edges starts over. -/
theorem State.deliverAll_silent {s : State} (h : s.mode = .dark ∨ s.mode = .wick ∨ s.mode = .kindle) :
    s.deliverAll = { s with evt := { s.evt with edges := [], restate := [] } } := by
  obtain m | m | m := h <;> simp only [State.deliverAll, m]

end Sys2Proof.Machine

open Sys2Proof Sys2Proof.Machine

/-- Settles O55: levels are followed after a command, and masks and modes decide what a closing tick delivers. -/
theorem levelsMakeEvents : Obligations.LevelsMakeEvents := by
  unfold Obligations.LevelsMakeEvents
  refine ⟨State.settle_high, fun _ _ => State.deliverSource_masked, fun _ _ => State.alerting_masked, State.alerting_293,
    fun _ => ⟨rfl, rfl⟩, ?silent, fun _ _ => State.settle_rise⟩
  case silent =>
    intro s h
    rw [State.deliverAll_silent h]
    exact ⟨rfl, rfl⟩

end

section
/-! Function-level resets and the loss of a link end a freeze that the bridge host began (O8, O9). -/

namespace Sys2Proof.Machine

/-- The bridge host as primary manager (R22) with BUOY_FREEZE of Buoy 1 in progress: its Event Rings lie in the Bridge rings region
(R394), with room in each. -/
def bridgeRings : FuncState :=
  { evts := Vector.replicate 4 { baseLo := 0xB8000, opened := true, size := 4 }
    cmd := some { tag := 0x0100, index := 0, entry := #v[1, 0, 0, 0, 0, 0, 0x01000000, 0x5001] } }

/-- BRIDGE with the bridge strap: Buoy 1 is presented on HLA, which is up, and is FREEZING for the bridge host (R482). -/
def bridgeFreezes : State :=
  { State.reset with
    md := { mode := .bridge }
    pins := { State.reset.pins with strap := 2 }
    lnk :=
      { State.reset.lnk with
        link := Vector.replicate 2 { up := true, perst := false, vfEnable := true, numVFs := 15 }
        buoy := Vector.replicate 15 { home := some .a } }
    rng := { fn := (Vector.replicate 18 {}).set Func.bridge.idx bridgeRings }
    mig := { State.reset.mig with mig := (Vector.replicate 15 {}).set 0 { phase := .freezing, cmd := some .bridge } } }

/-- A reset of the FREEZING Buoy completes the bridge host's BUOY_FREEZE with OUTCOME 0x09 (R486), and the bridge host's event entry is
written to the Holding Store (R217). -/
theorem bridgeFreezes_resetFunction_hst : (bridgeFreezes.resetFunction (.buoy 0)).hst ≠ bridgeFreezes.hst := by
  decide +kernel

/-- So does the loss of the link that the Buoy is presented on, which resets it (R104, R486). -/
theorem bridgeFreezes_loseLink_hst : (bridgeFreezes.loseLink .a).hst ≠ bridgeFreezes.hst := by
  decide +kernel

end Sys2Proof.Machine

open Sys2Proof Sys2Proof.Machine

/-- Refutes O8: a lost link does not leave the Holding Store alone where it ends a freeze of the bridge host, whose Event Rings lie
there. -/
theorem not_linksComeAndGo : ¬ Obligations.LinksComeAndGo := by
  unfold Obligations.LinksComeAndGo
  rintro ⟨-, -, -, -, -, -, lost, -⟩
  obtain ⟨-, -, -, -, -, -, hst⟩ := lost bridgeFreezes .a
  exact bridgeFreezes_loseLink_hst hst

/-- Refutes O9: the reset of a Buoy does not leave the Holding Store alone where it ends a freeze of the bridge host, whose Event Rings
lie there. -/
theorem not_functionsAreReset : ¬ Obligations.FunctionsAreReset := by
  unfold Obligations.FunctionsAreReset
  rintro ⟨-, -, -, -, reset⟩
  obtain ⟨-, -, -, hst⟩ := reset bridgeFreezes (.buoy 0)
  exact bridgeFreezes_resetFunction_hst hst

end

section
/-! Fairway resets, port resets and TRST_N (O10, O11). -/

namespace Sys2Proof.Machine

/-! One bit of a word. -/

/-- The bits of a number with one bit set. -/
theorem bitOf_pow {w i j : Nat} (h : j < w) : bitOf (BitVec.ofNat w (2 ^ i)) j = decide (i = j) := by
  rw [bitOf, BitVec.getLsbD_ofNat, Nat.testBit_two_pow]
  simp [h]

/-- The bits of a word with one bit put in. -/
theorem bitOf_putBit {i j : Nat} (h : j < 32) : bitOf (putBit true i) j = decide (i = j) := bitOf_pow h

/-- A bit after one bit of the word is set. -/
theorem bitOf_or_pow {w i j : Nat} (x : BitVec w) (h : j < w) :
    bitOf (x ||| BitVec.ofNat w (2 ^ i)) j = (bitOf x j || decide (i = j)) := by
  rw [← bitOf_pow h]
  exact BitVec.getLsbD_or

/-- A bit that is cleared is 0. -/
theorem bitOf_and_not_pow {w i : Nat} (x : BitVec w) (h : i < w) : bitOf (x &&& ~~~BitVec.ofNat w (2 ^ i)) i = false := by
  have set : (BitVec.ofNat w (2 ^ i)).getLsbD i = true := (bitOf_pow h).trans (decide_eq_true rfl)
  rw [bitOf, BitVec.getLsbD_and, BitVec.getLsbD_not, set]
  simp

/-! Requests (R106 to R108). -/

/-- A fold that acts on one index only acts once. -/
theorem foldl_finRange_only {α : Type} {n : Nat} (f : α → Fin n → α) {c : Fin n → Bool} {i : Fin n} (only : ∀ j, c j = decide (i = j))
    (a : α) : (List.finRange n).foldl (fun a j => if c j then f a j else a) a = f a i := by
  rw [← List.foldl_filter]
  have one : (List.finRange n).filter c = [i] := by
    rw [show c = (· == i) from funext fun j => (only j).trans (by simp [eq_comm, Bool.beq_eq_decide_eq]), List.filter_beq]
    simp
  rw [one]
  rfl

/-- A request of fairway resets alone resets no port, and that of one fairway asks for it (R106). -/
theorem State.writeRstReq_fairway {s : State} {r : Requester} (primary : s.isPrimary r = true) (n : Fin 4) :
    s.writeRstReq r (putBit true (16 + n.val)) = (s.askFairway n).startFairways := by
  have noPort (s : State) (i : Fin 16) : (if bitOf (putBit true (16 + n.val)) i.val then s.startPortReset i else s) = s :=
    if_neg (by rw [bitOf_putBit (by omega)]; simp; omega)
  rw [State.writeRstReq, State.primaryWrite, if_pos primary]
  simp only [noPort, List.foldl_fixed]
  rw [foldl_finRange_only State.askFairway (fun j => ?_)]
  rw [bitOf_putBit (by omega)]
  simp [Fin.ext_iff]

/-- A request of one port's reset starts it, and the fairway resets that were waiting may start (R107, R108). -/
theorem State.writeRstReq_port {s : State} {r : Requester} (primary : s.isPrimary r = true) (n : Fin 16) :
    s.writeRstReq r (putBit true n.val) = (s.startPortReset n).startFairways := by
  have noFairway (s : State) (i : Fin 4) : (if bitOf (putBit true n.val) (16 + i.val) then s.askFairway i else s) = s :=
    if_neg (by rw [bitOf_putBit (by omega)]; simp; omega)
  rw [State.writeRstReq, State.primaryWrite, if_pos primary]
  simp only [noFairway, List.foldl_fixed]
  rw [foldl_finRange_only State.startPortReset (fun j => ?_)]
  rw [bitOf_putBit (by omega)]
  simp [Fin.ext_iff]

/-! The start of fairway resets (R106, R108). -/

/-- A fairway reset that starts leaves the requests and the port resets alone. -/
theorem State.startFairway_clk (s : State) (fa : Fin 4) :
    (s.startFairway fa).clk = { s.clk with fwyOn := (s.startFairway fa).clk.fwyOn } := by
  unfold State.startFairway
  split <;> rfl

/-- A fairway reset that starts leaves every port alone. -/
@[simp] theorem State.startFairway_port (s : State) (fa : Fin 4) (n : Fin 16) : (s.startFairway fa).port n = s.port n := by
  unfold State.startFairway
  split <;> rfl

/-- So do all that start. -/
@[simp] theorem State.startFairways_port (s : State) (n : Fin 16) : s.startFairways.port n = s.port n :=
  foldl_part (fun s => s.port n) (fun s fa => s.startFairway_port fa n) _ s

/-- No port reset starts or ends with them. -/
@[simp] theorem State.startFairways_portOn (s : State) : s.startFairways.clk.portOn = s.clk.portOn :=
  foldl_part (fun s => s.clk.portOn) (fun s fa => by rw [s.startFairway_clk fa]) _ s

/-- A fairway reset stays asked for as it starts: its request ends with the reset (R106). -/
theorem State.startFairway_fwyAsked (s : State) (fa : Fin 4) : (s.startFairway fa).clk.fwyAsked = s.clk.fwyAsked := by
  rw [s.startFairway_clk fa]

/-- The start of a fairway reset leaves the port resets that run (R108). -/
theorem State.startFairway_portResetOn (s : State) (fa n : Fin 4) : (s.startFairway fa).portResetOn n = s.portResetOn n := by
  rw [State.portResetOn, s.startFairway_clk fa]
  rfl

/-- A fairway's reset runs after its start where it ran, or was asked for with no port reset in its way (R106, R108). -/
theorem State.startFairway_fwyOn (s : State) (fa n : Fin 4) :
    bitOf (s.startFairway fa).clk.fwyOn n.val =
      (bitOf s.clk.fwyOn n.val || (decide (fa = n) && (bitOf s.clk.fwyAsked n.val && !s.portResetOn n))) := by
  unfold State.startFairway
  split
  case isTrue may =>
    simp only [State.modFairway_clk, State.modClk_clk]
    rw [bitOf_or_pow _ n.isLt]
    by_cases same : fa = n
    · subst same
      simp_all
    · simp [same, Fin.val_ne_of_ne same]
  case isFalse may =>
    by_cases same : fa = n
    · subst same
      cases on : bitOf s.clk.fwyOn fa.val <;> simp_all
    · simp [same]

/-- The fairway resets that run once each of a list may have started. -/
theorem State.startAll_fwyOn (l : List (Fin 4)) (s : State) (n : Fin 4) :
    bitOf (l.foldl (fun s fa => s.startFairway fa) s).clk.fwyOn n.val =
      (bitOf s.clk.fwyOn n.val || (decide (n ∈ l) && (bitOf s.clk.fwyAsked n.val && !s.portResetOn n))) := by
  induction l generalizing s with
  | nil => simp
  | cons fa t ih =>
    rw [List.foldl_cons, ih, State.startFairway_fwyOn, State.startFairway_fwyAsked, State.startFairway_portResetOn]
    by_cases same : fa = n
    · subst same
      cases bitOf s.clk.fwyOn fa.val <;> simp
    · simp [same, Ne.symm same]

/-- R106, R108: a fairway reset that is asked for starts where no port reset of the fairway runs. -/
theorem State.startFairways_fwyOn {s : State} {n : Fin 4} (asked : bitOf s.clk.fwyAsked n.val = true)
    (clear : s.portResetOn n = false) : bitOf s.startFairways.clk.fwyOn n.val = true := by
  rw [State.startFairways, State.startAll_fwyOn]
  simp [asked, clear]

/-- R106: a fairway with a fitted port takes a request, which changes nothing but its bit. -/
theorem State.askFairway_fitted {s : State} {n : Fin 4} (fitted : (portsOf n).any (fun i => s.portFit i) = true) :
    s.askFairway n = s.modClk (fun c => { c with fwyAsked := c.fwyAsked ||| BitVec.ofNat 4 (2 ^ n.val) }) := if_pos fitted

/-- R106: a fairway reset asked for with no port reset in its way starts at once. -/
theorem State.askFairway_starts {s : State} {n : Fin 4} (fitted : (portsOf n).any (fun i => s.portFit i) = true)
    (clear : s.portResetOn n = false) : bitOf (s.askFairway n).startFairways.clk.fwyOn n.val = true := by
  rw [State.askFairway_fitted fitted]
  refine State.startFairways_fwyOn ?_ clear
  rw [State.modClk_clk, bitOf_or_pow _ n.isLt]
  simp

/-! The start of a port reset (R107). -/

/-- What leaves the parts of `Still` alone leaves the clocks alone. -/
theorem State.clk_of_still {s t : State} (h : t.still = s.still) : t.clk = s.clk := congrArg Still.clk h

/-- R107: the reset of a fitted port is in progress from its start on. -/
theorem State.startPortReset_portOn {s : State} {n : Fin 16} (fitted : s.portFit n = true) :
    bitOf (s.startPortReset n).clk.portOn n.val = true := by
  unfold State.startPortReset
  split
  case isTrue on => simpa [fitted] using on
  case isFalse =>
    simp only [State.modMoor_clk, State.clk_of_still (State.leavePartner_still ..), State.clk_of_still (State.releasePort_still ..),
      State.modClk_clk]
    rw [bitOf_or_pow _ n.isLt]
    simp

/-! The end of a reset (R106, R107, R302, R303). -/

/-- R106, R303: the self-test ends a fairway reset in progress. -/
theorem State.endFairwayReset_on {s : State} {n : Fin 4} (on : bitOf s.clk.fwyOn n.val = true) (pass : Bool) :
    s.endFairwayReset n pass =
      (s.modClk (fun c =>
        { c with
          fwyAsked := c.fwyAsked &&& ~~~BitVec.ofNat 4 (2 ^ n.val), fwyOn := c.fwyOn &&& ~~~BitVec.ofNat 4 (2 ^ n.val) })).modFairway n
        (fun x => { x with resetting := false, failed := !pass, failCause := if pass then x.failCause else 2 }) :=
  if_neg (by simp [on])

/-- R106: no request and no reset of the fairway is left. -/
theorem State.endFairwayReset_bits {s : State} {n : Fin 4} (on : bitOf s.clk.fwyOn n.val = true) (pass : Bool) :
    bitOf (s.endFairwayReset n pass).clk.fwyOn n.val = false ∧ bitOf (s.endFairwayReset n pass).clk.fwyAsked n.val = false := by
  rw [State.endFairwayReset_on on]
  exact ⟨bitOf_and_not_pow _ n.isLt, bitOf_and_not_pow _ n.isLt⟩

/-- R106, R303: the fairway has failed where its self-test did, with cause 2. -/
theorem State.endFairwayReset_verdict {s : State} {n : Fin 4} (on : bitOf s.clk.fwyOn n.val = true) (pass : Bool) :
    ((s.endFairwayReset n pass).fairway n).failed = !pass ∧ ((s.endFairwayReset n pass).fairway n).resetting = false ∧
      (pass = false → ((s.endFairwayReset n pass).fairway n).failCause = 2) := by
  rw [State.endFairwayReset_on on, State.modFairway_fairway_self]
  exact ⟨rfl, rfl, fun failed => by simp [failed]⟩

/-- R107: the port's reset is over. -/
theorem State.endPortReset_portOn {s : State} {n : Fin 16} (on : bitOf s.clk.portOn n.val = true) (pass mooring : Bool) :
    bitOf (s.endPortReset n pass mooring).clk.portOn n.val = false := by
  have cleared := bitOf_and_not_pow s.clk.portOn n.isLt
  simp only [State.endPortReset, on, Bool.not_true, Bool.false_eq_true, if_false, State.startFairways_portOn]
  cases pass
  · cases mooring <;> exact cleared
  · exact cleared

/-- R107, R302: the port has failed where its self-test did. -/
theorem State.endPortReset_failed {s : State} {n : Fin 16} (on : bitOf s.clk.portOn n.val = true) (pass mooring : Bool) :
    ((s.endPortReset n pass mooring).port n).failed = !pass := by
  simp only [State.endPortReset, on, Bool.not_true, Bool.false_eq_true, if_false, State.startFairways_port]
  cases pass
  · cases mooring <;> simp
  · simp only [if_true, State.modPort_port_self]
    split <;> rfl

end Sys2Proof.Machine

open Sys2Proof Sys2Proof.Machine

/-- Settles O10: a request starts the reset that it names, and the self-test's verdict is the element's. -/
theorem elementsAreReset : Obligations.ElementsAreReset := by
  unfold Obligations.ElementsAreReset
  refine ⟨?fairway, ?port, ?fairwayEnds, fun s n pass on => ⟨rfl, State.endFairwayReset_verdict on pass⟩,
    fun s n pass mooring on => ⟨rfl, State.endPortReset_portOn on pass mooring, State.endPortReset_failed on pass mooring⟩⟩
  case fairway =>
    rintro s _ p r n brings rfl primary clear fitted
    refine ⟨_, rfl, ?_⟩
    rw [State.after_clk, State.access_brings brings, State.writeRstReq_fairway primary]
    exact State.askFairway_starts fitted clear
  case port =>
    rintro s _ p r n brings rfl primary fitted
    refine ⟨_, rfl, ?_⟩
    rw [State.after_clk, State.access_brings brings, State.writeRstReq_port primary, State.startFairways_portOn]
    exact State.startPortReset_portOn fitted
  case fairwayEnds =>
    intro s n pass on
    refine ⟨_, rfl, ?_⟩
    rw [State.after_clk]
    exact State.endFairwayReset_bits on pass

/-- Settles O11: the TAP controller's flag is all that TRST_N changes. -/
theorem trstResetsTheTapOnly : Obligations.TrstResetsTheTapOnly := fun _ => rfl

end

section
/-! The Beacon's tick, what falls due beside it, and PTM (O20). -/

namespace Sys2Proof.Machine

/-! The count (R249 to R251). -/

/-- R249, R251: BCN_COUNT is 0 at the first tick, and then advances by one microframe, or by eight at the frame rate. -/
theorem State.countTick_count (s : State) :
    s.countTick.bcn.count = if s.bcn.started then s.bcn.count + (if s.bcn.rate = .frame then 8 else 1) else 0 := by
  simp only [State.countTick, State.tickStep]
  split
  · split <;> rfl
  · rfl

/-! What falls due (R219, R409, R414). -/

/-- R409: an epoch that this count has not yet decremented decrements each counter whose period divides it. -/
theorem State.epochAt_due {s : State} {n : DWord} (on : s.tenderOn = true) (fresh : s.tnd.epochAt ≠ some n) :
    s.epochAt n =
      (s.tnd.counters.filter (fun c => c.2.epochEn && decide (c.2.state ≠ .poisoned) && n.toNat % 2 ^ c.2.epochExp == 0)).foldl
        (fun s c => (s.decrement c.1 (0xE5000000 ||| (n &&& 0xFFFF))).2) (s.modTnd (fun t => { t with epochAt := some n })) :=
  if_neg (by simp [on, fresh])

/-- R409: no counter is decremented twice at a count. -/
theorem State.epochAt_again {s : State} {n : DWord} (done : s.tnd.epochAt = some n) : s.epochAt n = s := if_pos (by simp [done])

/-- R414: the watch of a running item that is due ends it. -/
theorem State.watchKeeper_due {s : State} {k : Fin 12} {i : Nat} {x : Item} (run : (s.keeper k).run = .item i)
    (item : s.item i = some x) (due : s.watchDue x = true) : s.watchKeeper k = s.endOnKeeper k .watchExpired := by
  simp [State.watchKeeper, run, item, due]

/-- R219: what makes the message of an armed ring due, between ticks and since the last one. -/
theorem EventRing.due_iff {r : EventRing} (armed : r.armed = true) : (r.dueNow || r.tickDue) = true ↔
    r.actInterval = 0 ∨ r.actCount ≠ 0 ∧ r.actCount ≤ r.sinceMsg ∨ r.tickDue = true := by
  simp [EventRing.dueNow, armed, or_assoc]

/-- R219: a due message of an armed ring is sent where its function can master and is not FROZEN. -/
theorem State.messageDue_sends {s : State} {f : Func} {n : Fin 4} (opened : (s.evRing f n).opened = true)
    (thawed : s.isFrozen f = false) (armed : (s.evRing f n).armed = true)
    (due : ((s.evRing f n).dueNow || (s.evRing f n).tickDue) = true) (can : s.canMaster f = true) :
    s.messageDue f n = s.sendMessage f n := by
  simp only [State.messageDue, opened, thawed, armed, due, can]
  simp

/-! PTM (R273). -/

/-- R273: BCN_PTM_CTL with MODE 0b10 chooses the link, and asks for a capture where CAPTURE is set. -/
theorem State.writePtmCtl_on {s : State} {r : Requester} {v : DWord} (primary : s.isPrimary r = true) (mode : fieldNat v 0 2 = 2) :
    s.writePtmCtl r v =
      { s with bcn := { s.bcn with ptmLink := Link.ofBool (bitOf v 8), ptmCapture := s.bcn.ptmCapture || bitOf v 4, ptmMode := 2 } } := by
  simp [State.writePtmCtl, primary, mode]

end Sys2Proof.Machine

open Sys2Proof Sys2Proof.Machine

/-- Settles O20: the tick counts, what falls due acts, and PTM goes on a link that is on, as their lemmas say. -/
theorem beaconCountsAndPairs : Obligations.BeaconCountsAndPairs := by
  unfold Obligations.BeaconCountsAndPairs
  refine ⟨?tick, fun s => ⟨s.countTick_count, rfl⟩, ?epoch, ?watch, ?message, fun _ _ => State.epochAt_again, ?asked, ?answered,
    fun _ _ => rfl, ?control⟩
  case tick => exact fun s env runs => .of_effect rfl (if_neg runs)
  case epoch => exact fun s on fresh => .of_effect rfl (State.epochAt_due on fresh)
  case watch => exact fun s k i x run item due => .of_effect rfl (State.watchKeeper_due run item due)
  case message =>
    exact fun s f n opened thawed armed due can =>
      .of_effect rfl (State.messageDue_sends opened thawed armed ((EventRing.due_iff armed).mpr due) can)
  case asked => exact fun s l on => .of_effect rfl (if_pos on)
  case answered => exact fun s l on asked => .of_effect rfl (if_pos (by simp [on, asked]))
  case control =>
    rintro s _ p r v brings rfl primary mode
    exact .of_effect rfl ((State.access_brings brings _ _).trans (State.writePtmCtl_on primary mode))

end

section
/-! Register writes, which their block takes or refuses (O13). -/

namespace Sys2Proof.Machine

/-! Writes of whole dwords (R117, R123). -/

/-- R117, R123: a whole dword that a path brings to no guarded register reaches the block that owns its offset. -/
theorem State.registerWrite_brings {s : State} {p : Path} {r : Requester} {off : Nat} (brings : s.Brings p r) (aligned : off % 4 = 0)
    (inside : off < 0x100000) (modeReq : off ≠ 0x01000) (commit : off ≠ 0x03000) (keyHole : off ≠ 0x04000) (revive : off ≠ 0xA0000)
    (v : DWord) : s.registerWrite p off v = (s.arrived p r off).writeBar0 r off v := by
  have taken : s.writeRegister p off v = (s.arrived p r off).writeBar0 r off v := by
    rw [State.writeRegister, if_neg modeReq, if_neg commit, if_neg keyHole, if_neg revive, if_neg (Nat.not_le.mpr inside)]
    exact State.access_brings brings _ _
  obtain ⟨live, reaches, -⟩ := brings
  unfold State.registerWrite
  rw [← taken, if_neg (by simp [live]), if_neg (not_not_intro aligned)]
  cases p with
  | mgrMsix | mgrCfg | slot | slotCfg | bar2 => cases reaches
  | mgr | ibp | smbus | jtag | bootRom | keeper => rfl

/-- R157: a write by the path of the slot that a Buoy is held in acts for that Buoy. -/
theorem State.accessAny_slot {s : State} {l : Link} {i : Fin 15} (live : s.pathLive (.slot l i) = true) (present : s.slotState l i = 1)
    (off : Nat) (act : Requester → State → State) :
    s.accessAny (.slot l i) off act = act (.buoy i) (s.arrived (.slot l i) (.buoy i) off) := by
  simp [State.accessAny, State.requesterOf, State.arrived, live, present]

/-- A register write by a slot's path below its MSI-X table goes to the registers of its Buoy (R155, R160). -/
theorem State.registerWrite_slot {s : State} {l : Link} {i : Fin 15} {off : Nat} (live : s.pathLive (.slot l i) = true)
    (present : s.slotState l i = 1) (aligned : off % 4 = 0) (below : off < 0x8000) (v : DWord) :
    s.registerWrite (.slot l i) off v = (s.arrived (.slot l i) (.buoy i) off).writeSlot (.buoy i) i off v := by
  have noTable : ¬(0x8000 ≤ off ∧ off < 0x8040) := fun h => absurd h.1 (Nat.not_le.mpr below)
  unfold State.registerWrite
  rw [if_neg (by simp [live]), if_neg (not_not_intro aligned)]
  exact (if_neg noTable).trans (State.accessAny_slot live present _ _)

/-- A register write by a slot's path to its MSI-X table goes to the table (R160). -/
theorem State.registerWrite_slotMsix {s : State} {l : Link} {i : Fin 15} {off : Nat} (live : s.pathLive (.slot l i) = true)
    (aligned : off % 4 = 0) (table : 0x8000 ≤ off ∧ off < 0x8040) (v : DWord) :
    s.registerWrite (.slot l i) off v = (s.wakeLink l).writeMsix l (i.val + 1) (by omega) (off - 0x8000) v := by
  simp only [State.registerWrite, live, aligned, table]
  rfl

/-- A register write by a Manager function's path to its MSI-X table goes to the table (R160). -/
theorem State.registerWrite_mgrMsix {s : State} {l : Link} {off : Nat} (live : s.pathLive (.mgrMsix l) = true) (aligned : off % 4 = 0)
    (table : off < 0x40) (v : DWord) :
    s.registerWrite (.mgrMsix l) off v = (s.wakeLink l).writeMsix l 0 (by omega) off v := by
  simp only [State.registerWrite, live, aligned, table]
  rfl

/-- A configuration write reaches the Manager function of its link. -/
theorem State.registerWrite_mgrCfg {s : State} {l : Link} {off : Nat} (live : s.linkOpen l = true) (aligned : off % 4 = 0) (v : DWord) :
    s.registerWrite (.mgrCfg l) off v = (s.wakeLink l).writeConfig l 0 off v := by
  simp only [State.registerWrite, State.pathLive, live, aligned]
  rfl

/-- A configuration write reaches the function of its slot. -/
theorem State.registerWrite_slotCfg {s : State} {l : Link} {i : Fin 15} {off : Nat} (live : s.pathLive (.slotCfg l i) = true)
    (aligned : off % 4 = 0) (v : DWord) :
    s.registerWrite (.slotCfg l i) off v = (s.wakeLink l).writeConfig l ⟨i.val + 1, by omega⟩ off v := by
  simp only [State.registerWrite, live, aligned]
  rfl

/-! Writes of another width (R123, R202). -/

/-- R123: a write of another width that a path brings outside the Push Window is refused with reason 4. -/
theorem State.wrongWidth_brings {s : State} {p : Path} {r : Requester} {off : Nat} (brings : s.Brings p r)
    (outside : inPushWindow p off = false) : s.wrongWidth p off = (s.arrived p r off).refuse r 4 off := by
  have refused := State.access_brings brings off (fun r s => s.refuse r 4 off)
  obtain ⟨-, reaches, -⟩ := brings
  cases p
  case slot => cases reaches
  all_goals exact (if_neg (Bool.eq_false_iff.mp outside)).trans refused

/-- A dword at an offset that is no multiple of 4 is a write of another width (R123). -/
theorem State.registerWrite_unaligned {s : State} {p : Path} {off : Nat} (live : s.pathLive p = true) (unaligned : off % 4 ≠ 0)
    (v : DWord) : s.registerWrite p off v = s.wrongWidth p off := by
  unfold State.registerWrite
  rw [if_neg (by simp [live]), if_pos unaligned]

/-- Two dwords at an offset that is no multiple of 8 are a write of another width outside the Push Window (R123). -/
theorem State.hostWrite_unaligned {s : State} {p : Path} {off : Nat} (live : s.pathLive p = true) (unaligned : off % 8 ≠ 0)
    (outside : inPushWindow p off = false) (v w : DWord) : s.hostWrite p off v (some w) = s.wrongWidth p off := by
  simp [State.hostWrite, live, unaligned, outside]

/-! Writes of the SMBus port (R118). -/

/-- R118: a write of the SMBus port to no guarded register changes nothing. -/
theorem State.registerWrite_smbus (s : State) {off : Nat} (modeReq : off ≠ 0x01000) (commit : off ≠ 0x03000) (keyHole : off ≠ 0x04000)
    (revive : off ≠ 0xA0000) (v : DWord) : s.registerWrite .smbus off v = s := by
  have refused (act : Requester → State → State) : s.access .smbus off act = s := by
    simp [State.access, Path.reachesBar0, State.accessAny, State.turnAway, pathLink]
  have turned : s.turnAway .smbus true = s := rfl
  have wrong : s.wrongWidth .smbus off = s := (if_neg Bool.false_ne_true).trans (refused _)
  have plain : s.writeRegister .smbus off v = s := by
    simp [State.writeRegister, modeReq, commit, keyHole, revive, refused]
  simp [State.registerWrite, turned, wrong, plain]

end Sys2Proof.Machine

open Sys2Proof Sys2Proof.Machine

/-- Settles O13: a write goes where its path and offset say, and one that is refused is only recorded. -/
theorem registerWritesAreTakenOrRefused : Obligations.RegisterWritesAreTakenOrRefused := by
  unfold Obligations.RegisterWritesAreTakenOrRefused
  refine ⟨?taken, ?two, ?slot, ?slotMsix, ?mgrMsix, ?mgrCfg, ?slotCfg, ?width, ?twoWidth, ?pushWindow, fun _ _ _ _ h => if_neg h,
    fun _ _ _ => if_pos rfl, ?smbus⟩
  case taken =>
    exact fun s p r off v brings aligned inside m c k f =>
      .of_effect rfl (State.registerWrite_brings brings aligned inside m c k f v)
  case two => exact fun s p off v w live aligned => .of_effect rfl (if_pos (.inl aligned))
  case slot => exact fun s l i off v live present aligned below => .of_effect rfl (State.registerWrite_slot live present aligned below v)
  case slotMsix => exact fun s l i off v live aligned lo hi => .of_effect rfl (State.registerWrite_slotMsix live aligned ⟨lo, hi⟩ v)
  case mgrMsix => exact fun s l off v live aligned table => .of_effect rfl (State.registerWrite_mgrMsix live aligned table v)
  case mgrCfg => exact fun s l off v live aligned => .of_effect rfl (State.registerWrite_mgrCfg live aligned v)
  case slotCfg => exact fun s l i off v live aligned => .of_effect rfl (State.registerWrite_slotCfg live aligned v)
  case width =>
    exact fun s p r off v brings unaligned outside =>
      have live : s.pathLive p = true := brings.1
      .of_effect rfl ((State.registerWrite_unaligned live unaligned v).trans (State.wrongWidth_brings brings outside))
  case twoWidth =>
    exact fun s p r off v w brings unaligned outside =>
      have live : s.pathLive p = true := brings.1
      .of_effect rfl ((State.hostWrite_unaligned live unaligned outside v w).trans (State.wrongWidth_brings brings outside))
  case pushWindow =>
    exact fun s p off v live unaligned inside => .of_effect rfl ((State.registerWrite_unaligned live unaligned v).trans (if_pos inside))
  case smbus => exact fun s off v m c k f => .of_effect rfl (s.registerWrite_smbus m c k f v)

end

section
/-! What a write's arrival leaves of the register file, and the sealed class (O14). -/

namespace Sys2Proof.Machine

/-- The register file without what it keeps for each requester: its shadow slot and stages, its Keyhole, and the record of Keyhole
faults. -/
def RegFile.shared (x : RegFile) : RegFile :=
  { x with req := Vector.replicate 33 {}, keyA := {}, keyB := {}, keyBridge := {}, keyRom := {}, keyFault := {}, keyFaultLast := 0 }

/-! What a requester's own mechanisms leave alone (R128, R137, R164). -/

@[simp] theorem State.modReq_shared (s : State) (r : Requester) (g : ReqState → ReqState) : (s.modReq r g).reg.shared = s.reg.shared := rfl

@[simp] theorem State.dropShadow_shared (s : State) (r : Requester) (off : Nat) : (s.dropShadow r off).reg.shared = s.reg.shared := rfl

@[simp] theorem State.keyFaultAt_shared (s : State) (r : Requester) (reason off : Nat) :
    (s.keyFaultAt r reason off).reg.shared = s.reg.shared := rfl

@[simp] theorem State.setKeyhole_shared (s : State) (r : Requester) (k : Keyhole) : (s.setKeyhole r k).reg.shared = s.reg.shared := by
  unfold State.setKeyhole
  split <;> rfl

@[simp] theorem State.arrive_reg (s : State) (p : Path) : (s.arrive p).reg = s.reg := by
  unfold State.arrive
  split <;> rfl

@[simp] theorem State.keyElsewhere_shared (s : State) (r : Requester) (off : Nat) : (s.keyElsewhere r off).reg.shared = s.reg.shared := by
  unfold State.keyElsewhere
  split <;> simp

@[simp] theorem State.keySees_shared (s : State) (p : Path) (r : Requester) (off : Nat) :
    (s.keySees p r off).reg.shared = s.reg.shared := by
  unfold State.keySees
  split <;> simp

/-- The arrival of a write leaves what the requesters share. -/
@[simp] theorem State.arrived_shared (s : State) (p : Path) (r : Requester) (off : Nat) :
    (s.arrived p r off).reg.shared = s.reg.shared := by simp [State.arrived]

/-- The Keyhole that a guarded write closes is its requester's own. -/
@[simp] theorem State.unlocked_shared (s : State) (p : Path) (r : Requester) (off : Nat) :
    (s.unlocked p r off).reg.shared = s.reg.shared := by simp [State.unlocked]

/-! The parts that are shared. -/

@[simp] theorem State.arrived_sealSet (s : State) (p : Path) (r : Requester) (off : Nat) :
    (s.arrived p r off).reg.sealSet = s.reg.sealSet := (congrArg RegFile.sealSet (s.arrived_shared p r off) :)

@[simp] theorem State.unlocked_day (s : State) (p : Path) (r : Requester) (off : Nat) : (s.unlocked p r off).reg.day = s.reg.day :=
  (congrArg RegFile.day (s.unlocked_shared p r off) :)

/-! The sealed class and SEAL_SET (R131 to R133). -/

/-- R131, R132: the requester is judged before the seal. -/
theorem State.sealedWrite_stranger {s : State} {r : Requester} (may : (s.isPrimary r || s.kindleWindow r) = false) (off group : Nat)
    (act : State → State) : s.sealedWrite r off group act = s.refuse r 2 off := by simp [State.sealedWrite, may]

/-- R131: a write to a group that is sealed is refused. -/
theorem State.sealedWrite_sealed {s : State} {r : Requester} {group : Nat} (may : (s.isPrimary r || s.kindleWindow r) = true)
    (isSealed : s.isSealed group = true) (off : Nat) (act : State → State) : s.sealedWrite r off group act = s.refuse r 1 off := by
  simp [State.sealedWrite, may, isSealed]

/-- R133: the primary manager sets the seals that it writes 1. -/
theorem State.writeSealSet_primary {s : State} {r : Requester} (primary : s.isPrimary r = true) (v : DWord) :
    (s.writeSealSet r v).reg.sealSet = s.reg.sealSet ||| v.setWidth 6 := by
  rw [State.writeSealSet, State.primaryWrite, if_pos primary]
  rfl

/-- R133: SEAL_SET is the primary manager's alone. -/
theorem State.writeSealSet_other {s : State} {r : Requester} (other : s.isPrimary r = false) (v : DWord) :
    s.writeSealSet r v = s.refuse r 2 0x05000 := by simp [State.writeSealSet, State.primaryWrite, other]

end Sys2Proof.Machine

open Sys2Proof Sys2Proof.Machine

/-- Settles O14: the judgements of a sealed write come in their order, and SEAL_SET only sets bits. -/
theorem sealedRegistersAreGuarded : Obligations.SealedRegistersAreGuarded := by
  unfold Obligations.SealedRegistersAreGuarded
  refine ⟨?guard, ?primary, ?other⟩
  case guard =>
    exact fun s r off group act =>
      ⟨fun stranger => State.sealedWrite_stranger stranger off group act,
       fun may isSealed => State.sealedWrite_sealed may isSealed off act,
       fun may unsealed => ⟨State.sealedWrite_open may unsealed off act, rfl, rfl⟩⟩
  case primary =>
    rintro s _ p r v brings rfl primary
    refine ⟨_, rfl, ?_⟩
    rw [State.after_sealSet, State.access_brings brings, State.writeSealSet_primary primary, State.arrived_sealSet]
  case other =>
    rintro s _ p r v brings rfl other
    exact .of_effect rfl ((State.access_brings brings _ _).trans (State.writeSealSet_other other v))

end

section
/-! The Keyhole's sequence, its faults and its expiry (O15). -/

namespace Sys2Proof.Machine

/-! KEY_HOLE (R136, Table 5.5). -/

/-- R136: a KEY_HOLE write by the primary manager or the boot ROM acts on the requester's Keyhole. -/
theorem State.keyHole_taken {s : State} {p : Path} {r : Requester} (brings : s.Brings p r) (may : s.isPrimary r = true ∨ r = .bootRom)
    (v : DWord) : s.keyHole p v = (s.arrive p).keyWrite r v := by
  obtain ⟨live, reaches, -, requester⟩ := brings
  simp [State.keyHole, live, reaches, requester, may]

/-- A write that is brought is none of the SMBus port's (R118). -/
theorem State.Brings.ne_smbus {s : State} {p : Path} {r : Requester} (brings : s.Brings p r) : r ≠ .smbus := by
  obtain ⟨-, reaches, notSmbus, requester⟩ := brings
  rintro rfl
  cases p with
  | smbus => exact notSmbus rfl
  | mgr l => cases l <;> cases requester
  | mgrMsix | mgrCfg | slot | slotCfg | bar2 => cases reaches
  | ibp | jtag | bootRom | keeper => cases requester

/-- R136, R138, R147: a KEY_HOLE write by any other requester is refused and is a Keyhole fault, of reason 2 in both records. -/
theorem State.keyHole_stranger {s : State} {p : Path} {r : Requester} (brings : s.Brings p r) (other : s.isPrimary r = false)
    (notRom : r ≠ .bootRom) (v : DWord) : s.keyHole p v = ((s.arrive p).refuse r 2 0x04000).keyFaultAt r 2 0x04000 := by
  have notSmbus := brings.ne_smbus
  obtain ⟨live, reaches, -, requester⟩ := brings
  simp [State.keyHole, live, reaches, requester, other, notRom, notSmbus]

/-- Table 5.5: the first key value half opens an ARMED Keyhole. -/
theorem State.keyWrite_first {s : State} {r : Requester} (armed : s.keyState r = .armed) :
    s.keyWrite r 0x4B56 = s.setKeyhole r { state := .half } := by simp [State.keyWrite, armed]

/-- Table 5.5: the second key value opens a HALF Keyhole. -/
theorem State.keyWrite_second {s : State} {r : Requester} (half : s.keyState r = .half) :
    s.keyWrite r 0xB4A9 = s.setKeyhole r { state := .opened } := by simp [State.keyWrite, half]

/-- Table 5.5: a value that is no key re-arms a HALF Keyhole with a fault of reason 1. -/
theorem State.keyWrite_noKey {s : State} {r : Requester} {v : DWord} (half : s.keyState r = .half) (second : v ≠ 0xB4A9)
    (first : v ≠ 0x4B56) : s.keyWrite r v = (s.keyFaultAt r 1 0x04000).setKeyhole r {} := by
  simp only [State.keyWrite, half, if_neg second, if_neg first]

/-! Expiry and guarded writes (R135, R137). -/

/-- R137: a Keyhole that has stood eight ticks since HALF or OPEN was entered expires with reason 6. -/
theorem State.keyExpire_due {s : State} {r : Requester} {k : Keyhole} (has : s.keyhole r = some k) (notArmed : k.state ≠ .armed)
    (due : 8 ≤ k.ticks) : s.keyExpire r = (s.keyFaultAt r 6 0x04000).setKeyhole r {} := by
  simp [State.keyExpire, has, notArmed, due]

/-- R135: a guarded write without an open Keyhole is refused with reason 3, and is a Keyhole fault. -/
theorem State.guarded_closed {s : State} {r : Requester} (closed : s.keyState r ≠ .opened) (notSmbus : r ≠ .smbus) (off : Nat)
    (act : State → State) : s.guarded r off act = ((s.refuse r 3 off).setKeyhole r {}).keyFaultAt r 3 off := by
  unfold State.guarded
  split
  case h_1 opened => exact absurd opened closed
  case h_2 => exact if_neg notSmbus

end Sys2Proof.Machine

open Sys2Proof Sys2Proof.Machine

/-- Settles O15: KEY_HOLE, the expiry and the guarded writes follow Table 5.5 state by state. -/
theorem keyholeGuardsItsRegisters : Obligations.KeyholeGuardsItsRegisters := by
  unfold Obligations.KeyholeGuardsItsRegisters
  refine ⟨?first, ?second, ?noKey, ?stranger, fun _ _ _ has notArmed due => .of_effect rfl (State.keyExpire_due has notArmed due),
    fun _ _ off act closed notSmbus => State.guarded_closed closed notSmbus off act⟩
  case first =>
    exact fun s p r brings may armed => .of_effect rfl ((State.keyHole_taken brings may _).trans (State.keyWrite_first armed))
  case second =>
    exact fun s p r brings may half => .of_effect rfl ((State.keyHole_taken brings may _).trans (State.keyWrite_second half))
  case noKey =>
    exact fun s p r v brings may half second first =>
      .of_effect rfl ((State.keyHole_taken brings may v).trans (State.keyWrite_noKey half second first))
  case stranger => exact fun s p r v brings other notRom => .of_effect rfl (State.keyHole_stranger brings other notRom v)

end

section
/-! The Daymark's commits and passes (O16). -/

namespace Sys2Proof.Machine

/-! DAY_COMMIT (R142). -/

/-- The field of two bits that is set at the low end reads as it was set. -/
theorem fieldNat_setField_kind (old new : DWord) : fieldNat (setField old new 0 2) 0 2 = fieldNat new 0 2 := by
  have mask : (BitVec.ofNat 32 ((2 ^ 2 - 1) * 2 ^ 0)).extractLsb' 0 2 = BitVec.allOnes 2 := by decide
  have rest : (~~~BitVec.ofNat 32 ((2 ^ 2 - 1) * 2 ^ 0)).extractLsb' 0 2 = 0#2 := by decide
  rw [fieldNat_eq_extractLsb', fieldNat_eq_extractLsb', setField, BitVec.extractLsb'_or, BitVec.extractLsb'_and,
    BitVec.extractLsb'_and, mask, rest, BitVec.and_zero, BitVec.zero_or, BitVec.and_allOnes]

/-- R142: a DAY_COMMIT of kind 1 behind an open Keyhole is a CAPTURE. -/
theorem State.writeCommit_capture {s : State} {p : Path} {r : Requester} (brings : s.Brings p r) (key : s.KeyOpen p r 0x03000)
    (v : DWord) : s.writeCommit p (setField v 1 0 2) = (s.unlocked p r 0x03000).capture := by
  rw [State.writeCommit, State.accessGuarded_open brings key, State.dayCommit, fieldNat_setField_kind]
  rfl

/-- R142: a DAY_COMMIT of kind 2 behind an open Keyhole is a LOAD. -/
theorem State.writeCommit_load {s : State} {p : Path} {r : Requester} (brings : s.Brings p r) (key : s.KeyOpen p r 0x03000)
    (v : DWord) : s.writeCommit p (setField v 2 0 2) = (s.unlocked p r 0x03000).loadRef := by
  rw [State.writeCommit, State.accessGuarded_open brings key, State.dayCommit, fieldNat_setField_kind]
  rfl

/-! The end of a pass (R139, R141 to R144). -/

/-- A pass that has ended agrees with a reference: it is its result, and no register failed parity (R144). -/
def DayPass.agrees (p : DayPass) (ref : DWord) : Bool := decide (~~~p.crc = ref) && p.parityAt.isNone

/-- R144: a pass that is compared is a mismatch where it does not agree with the reference, and a mismatch is counted. -/
theorem Daymark.ended_compared {d : Daymark} {p : DayPass} (idle : d.capturing = false) (fresh : d.stale = false)
    (comparable : p.comparable = true) :
    d.ended p = { d with
      pass := none, last := ~~~p.crc, parityAt := BitVec.ofNat 32 (p.parityAt.getD 0)
      mismatch := !p.agrees d.ref
      parity := p.parityAt.isSome
      mismatchCnt := if !p.agrees d.ref then min (d.mismatchCnt + 1) 0xFF else d.mismatchCnt } := by
  have notCaptured : d.captured p = false := by simp [Daymark.captured, idle]
  have agreed : (decide (~~~p.crc = d.ref) && !p.parityAt.isSome) = p.agrees d.ref := by simp [DayPass.agrees]
  simp only [Daymark.ended, notCaptured, idle, fresh, comparable, agreed]
  cases p.agrees d.ref <;> rfl

/-- R141, R142: a pass that a CAPTURE takes gives the reference, with its own parity failure as the one mismatch. -/
theorem Daymark.ended_taken {d : Daymark} {p : DayPass} (captured : d.captured p = true) :
    d.ended p = { d with
      pass := none, last := ~~~p.crc, parityAt := BitVec.ofNat 32 (p.parityAt.getD 0)
      ref := ~~~p.crc, capturing := false, stale := false, mismatch := p.parityAt.isSome, mismatchCnt := 0
      parity := p.parityAt.isSome } := if_pos captured

end Sys2Proof.Machine

open Sys2Proof Sys2Proof.Machine

/-- Settles O16: the commits act at once behind their Keyhole, and a pass ends as it was compared or captured. -/
theorem daymarkChecksTheRegisters : Obligations.DaymarkChecksTheRegisters := by
  unfold Obligations.DaymarkChecksTheRegisters
  refine ⟨?capture, ?load, fun _ => rfl, ?compared, ?captured⟩
  case capture =>
    intro s p r v brings key
    have effect : Completes (.dayCommitCapture p v) s _ := .of_effect rfl (State.writeCommit_capture brings key v)
    refine ⟨effect, _, effect, ?_⟩
    rw [State.after_day]
    exact ⟨rfl, rfl, rfl⟩
  case load =>
    intro s p r v brings key
    have effect : Completes (.dayCommitLoad p v) s _ := .of_effect rfl (State.writeCommit_load brings key v)
    refine ⟨effect, _, effect, ?_⟩
    rw [State.after_day]
    exact ⟨congrArg Daymark.refIn (s.unlocked_day p r 0x03000), rfl, rfl, rfl⟩
  case compared =>
    intro d p idle fresh comparable
    rw [Daymark.ended_compared idle fresh comparable]
    exact ⟨rfl, rfl, rfl, fresh, rfl, rfl⟩
  case captured =>
    intro d p captured
    rw [Daymark.ended_taken captured]
    exact ⟨rfl, rfl, rfl, rfl, rfl⟩

end

section
/-! Reads and writes of 64-bit values in parts, and of registers by words (O17). -/

namespace Sys2Proof.Machine

/-! Halves of a dword, the places of 64-bit values, and what a read's own bookkeeping leaves alone. -/

/-- A dword is its halves. -/
theorem ofHalves_halves (x : DWord) : ofHalves (hiHalf x) (loHalf x) = x := by
  unfold ofHalves hiHalf loHalf
  ext i hi
  by_cases low : i < 16
  · simp [low, BitVec.getLsbD_eq_getElem hi]
  · have high : i - 16 < 16 := by omega
    have place : 16 + (i - 16) = i := by omega
    simp [low, high, place, BitVec.getLsbD_eq_getElem hi]

/-- A value of 64 bits lies at a multiple of 8 (R127). -/
theorem low64_aligned {p : Path} {off : Nat} (low : low64 p off = true) : off % 8 = 0 := by
  have rng {o : Nat} (h : rngLow64 o = true) : o % 8 = 0 := by
    simp [rngLow64] at h
    omega
  have bar0 (h : bar0Low64 off = true) : off % 8 = 0 := by
    simp only [bar0Low64, Bool.or_eq_true, Bool.and_eq_true, beq_iff_eq, decide_eq_true_eq] at h
    rcases h with (((((h | h) | h) | ⟨⟨le, -⟩, h⟩) | h) | h) | h
    case inl.inl.inl.inr =>
      have := rng h
      omega
    all_goals omega
  cases p with
  | mgrMsix | mgrCfg | slotCfg | bar2 => cases low
  | slot => exact rng low
  | mgr | ibp | smbus | jtag | bootRom | keeper => exact bar0 low

@[simp] theorem State.modReq_arrive (s : State) (r : Requester) (g : ReqState → ReqState) (p : Path) :
    (s.modReq r g).arrive p = (s.arrive p).modReq r g := by
  unfold State.arrive
  split <;> rfl

@[simp] theorem State.modReq_requesterOf (s : State) (r : Requester) (g : ReqState → ReqState) (p : Path) :
    (s.modReq r g).requesterOf p = s.requesterOf p := rfl

@[simp] theorem State.arrive_requesterOf (s : State) (p q : Path) : (s.arrive p).requesterOf q = s.requesterOf q := by
  unfold State.arrive
  split <;> rfl

/-! The shadow slot (R127). -/

/-- The value that a read leaves in its requester's shadow slot: the low dword's offset, and the words of the high dword (R127). -/
def Shadow.ofHigh (off : Nat) (hi : DWord) : Shadow := { value := off, words := [(2, loHalf hi), (3, hiHalf hi)] }

/-- R127: a read that is not of the high dword of a 64-bit value answers what stands there. -/
theorem State.readDWord_value {s : State} {p : Path} {off : Nat}
    (notHigh : low64 p off = true ∨ off < 4 ∨ low64 p (off - 4) = false) : (s.readDWord p off).1 = (s.arrive p).readPath p off := by
  unfold State.readDWord
  dsimp only
  split
  case h_1 => rfl
  case h_2 =>
    by_cases low : low64 p off = true
    · rw [if_pos low]
    · have other : (decide (4 ≤ off) && low64 p (off - 4)) = false := by
        rcases notHigh with h | h | h
        · exact absurd h low
        · simp [h]
        · simp [h]
      rw [if_neg low, other]
      rfl

/-- R127: a read of the low dword of a 64-bit value captures its high dword for the requester. -/
theorem State.readDWord_captures {s : State} {p : Path} {r : Requester} {off : Nat} (requester : s.requesterOf p = some r)
    (low : low64 p off = true) :
    (s.readDWord p off).2 =
      (s.arrive p).modReq r (fun x => { x with slot := some (.ofHigh off ((s.arrive p).readPath p (off + 4))) }) := by
  simp only [State.readDWord, State.arrive_requesterOf, requester, low]
  rfl

/-- R127: a read of the high dword of a captured value answers the dword that was captured. -/
theorem State.readDWord_captured {s : State} {p : Path} {r : Requester} {off : Nat} {hi : DWord} (requester : s.requesterOf p = some r)
    (low : low64 p off = true) (high : low64 p (off + 4) = false) (slot : ((s.arrive p).reqState r).slot = some (.ofHigh off hi)) :
    (s.readDWord p (off + 4)).1 = hi := by
  have within : 4 ≤ off + 4 := Nat.le_add_left 4 off
  simp [State.readDWord, requester, low, high, slot, within, Shadow.ofHigh, assocGet, ofHalves_halves]

/-- R127: the high dword read after the low one is the one of the low one's moment. -/
theorem State.readDWord_readDWord {s : State} {p : Path} {r : Requester} {off : Nat} (requester : s.requesterOf p = some r)
    (low : low64 p off = true) (high : low64 p (off + 4) = false) :
    ((s.readDWord p off).2.readDWord p (off + 4)).1 = (s.arrive p).readPath p (off + 4) := by
  rw [State.readDWord_captures requester low]
  exact State.readDWord_captured (by simpa using requester) low high (by simp)

/-! What a read is answered with (R123, R124). -/

/-- A read of a register that is not poisoned is answered with its value (R28). -/
theorem State.answerDWord_sound {s : State} {p : Path} {off : Nat} (sound : s.poisonedReg off = false) :
    s.answerDWord p off = (s.readDWord p off).2.emit (.readData p off (s.readDWord p off).1) := by
  simp [State.answerDWord, sound]

/-- A read of one dword by a host, the SMBus port, JTAG or the bridge host is a dword read (R123). -/
theorem State.answerRead_dword {s : State} {p : Path} {off : Nat} (live : s.pathLive p = true) (notKeeper : ∀ k, p ≠ .keeper k)
    (notRom : p ≠ .bootRom) (notBar2 : ∀ l, p ≠ .bar2 l) (aligned : off % 4 = 0) : s.answerRead p off 1 = s.answerDWord p off := by
  have same : off / 4 * 4 = off := by omega
  unfold State.answerRead
  rw [if_neg (by simp [live]), same]
  cases p with
  | keeper k => exact absurd rfl (notKeeper k)
  | bootRom => exact absurd rfl notRom
  | bar2 l => exact absurd rfl (notBar2 l)
  | mgr | mgrMsix | mgrCfg | slot | slotCfg | ibp | smbus | jtag => rfl

/-- A read of one dword of a 64-bit value by a path that reads no words is a dword read. -/
theorem State.answerRead_low64 {s : State} {p : Path} {base off : Nat} (live : s.pathLive p = true) (low : low64 p base = true)
    (notKeeper : ∀ k, p ≠ .keeper k) (notRom : p ≠ .bootRom) (aligned : off % 4 = 0) (sound : s.poisonedReg off = false) :
    s.answerRead p off 1 = (s.readDWord p off).2.emit (.readData p off (s.readDWord p off).1) := by
  have notBar2 (l : Link) : p ≠ .bar2 l := by
    rintro rfl
    cases low
  rw [State.answerRead_dword live notKeeper notRom notBar2 aligned, State.answerDWord_sound sound]

/-- R123: a host's read of two dwords at a multiple of 8 is answered with both, and the shadow slot is left alone. -/
theorem State.answerRead_two {s : State} {l : Link} {p : Path} {off : Nat} (live : s.pathLive p = true) (link : pathLink p = some l)
    (notBar2 : p ≠ .bar2 l) (aligned : off % 8 = 0) (sound : s.poisonedReg off = false) :
    s.answerRead p off 2 = (s.wakeLink l).emitAll
      [.readData p off ((s.wakeLink l).readPath p off), .readData p (off + 4) ((s.wakeLink l).readPath p (off + 4))] := by
  have same : off / 4 * 4 = off := by omega
  have host : s.answerRead p off 2 = s.answerHost l p off 2 := by
    unfold State.answerRead
    rw [if_neg (by simp [live]), same]
    cases p with
    | mgr | mgrMsix | mgrCfg | slot | slotCfg => cases link; rfl
    | bar2 => cases link; exact absurd rfl notBar2
    | ibp | smbus | jtag | bootRom | keeper => cases link
  simp [host, State.answerHost, aligned, sound]

/-! Keepers and the boot ROM, by words (R117, R124). -/

/-- A keeper that runs does not run the boot ROM. -/
theorem State.notRom_of_live {s : State} {k : Fin 12} (live : s.pathLive (.keeper k) = true) : ¬(k = 0 ∧ (s.keeper 0).run = .bootRom) := by
  rintro ⟨rfl, rom⟩
  simp [State.pathLive, Keeper.active?, rom] at live

/-- R117: a keeper that runs reaches the registers by its own path. -/
theorem State.keeperPath_live {s : State} {k : Fin 12} (live : s.pathLive (.keeper k) = true) : s.keeperPath k = .keeper k :=
  if_neg (State.notRom_of_live live)

/-- R117: a keeper that runs is its own requester. -/
theorem State.keeperReq_live {s : State} {k : Fin 12} (live : s.pathLive (.keeper k) = true) : s.keeperReq k = .keeper k :=
  if_neg (State.notRom_of_live live)

/-- R117: the boot ROM reaches the registers by its own path. -/
theorem State.keeperPath_rom {s : State} (live : s.pathLive .bootRom = true) : s.keeperPath 0 = .bootRom :=
  if_pos ⟨rfl, of_decide_eq_true live⟩

/-- R124: a keeper's read is answered with a word. -/
theorem State.answerRead_keeper {s : State} {k : Fin 12} (live : s.pathLive (.keeper k) = true) (off n : Nat) :
    s.answerRead (.keeper k) off n = (s.readWord16 k off).2.emit (.readData (.keeper k) off ((s.readWord16 k off).1.setWidth 32)) := by
  simp [State.answerRead, live, State.answerWord, State.keeperPath_live live]

/-- R124: a read of the boot ROM is answered with a word. -/
theorem State.answerRead_bootRom {s : State} (live : s.pathLive .bootRom = true) (off n : Nat) :
    s.answerRead .bootRom off n = (s.readWord16 0 off).2.emit (.readData .bootRom off ((s.readWord16 0 off).1.setWidth 32)) := by
  simp [State.answerRead, live, State.answerWord, State.keeperPath_rom live]

/-- A keeper that runs reaches every dword of manager BAR0 in words. -/
theorem State.wordsReach_live {s : State} {k : Fin 12} {off : Nat} (live : s.pathLive (.keeper k) = true) (aligned : off % 4 = 0)
    (inside : off < 0x100000) : s.wordsReach k off = true := by
  simp [State.wordsReach, State.keeperPath_live live, live, aligned, inside]

/-- R124: a keeper's low word is staged. -/
theorem State.writeLowWord_staged {s : State} {k : Fin 12} (live : s.pathLive (.keeper k) = true) (off : Nat) (w : Half) :
    s.writeLowWord k off w false = s.modReq (.keeper k) (fun x => { x with stagedWord := some (off, w) }) := by
  simp [State.writeLowWord, State.keeperReq_live live]

/-- R147: a low word of bad parity is refused with reason 6. -/
theorem State.writeLowWord_bad {s : State} {k : Fin 12} (live : s.pathLive (.keeper k) = true) (off : Nat) (w : Half) :
    s.writeLowWord k off w true = s.refuse (.keeper k) 6 off := by
  simp [State.writeLowWord, State.keeperReq_live live]

/-- R147: a high word of bad parity is refused with reason 6. -/
theorem State.writeHighWord_bad {s : State} {k : Fin 12} (live : s.pathLive (.keeper k) = true) (off : Nat) (w : Half) :
    s.writeHighWord k off w true = s.refuse (.keeper k) 6 off := by
  simp [State.writeHighWord, State.keeperReq_live live]

/-- R124: a keeper's high word is written with the low word that it has staged. -/
theorem State.writeHighWord_staged {s : State} {k : Fin 12} {off : Nat} {lo : Half} (live : s.pathLive (.keeper k) = true)
    (staged : (s.reqState (.keeper k)).stagedWord = some (off, lo)) (w : Half) :
    s.writeHighWord k off w false =
      (s.modReq (.keeper k) (fun x => { x with stagedWord := none })).writeRegister (.keeper k) off (ofHalves w lo) := by
  simp [State.writeHighWord, State.keeperReq_live live, State.keeperPath_live live, staged]

/-- R124: a keeper's high word is written with the present low word where none is staged. -/
theorem State.writeHighWord_alone {s : State} {k : Fin 12} (live : s.pathLive (.keeper k) = true)
    (unstaged : (s.reqState (.keeper k)).stagedWord = none) (off : Nat) (w : Half) :
    s.writeHighWord k off w false = s.writeRegister (.keeper k) off (ofHalves w (loHalf (s.readBar0 (.keeper k) off))) := by
  simp [State.writeHighWord, State.keeperReq_live live, State.keeperPath_live live, unstaged]

/-! Staged low dwords (R129). -/

/-- R129, R174: the low dword of a DMA window's base is staged for its writer, as a write of the sealed class (log 28). -/
theorem State.writeBar0_windowBase {s : State} {r : Requester} (primary : s.isPrimary r = true) (unsealed : s.isSealed 4 = false)
    (n : Fin 32) (v : DWord) :
    s.writeBar0 r (0x10400 + 0x10 * n.val) v =
      (s.sealedAccepted (0x10400 + 0x10 * n.val)).stageLow r (0x10400 + 0x10 * n.val) (v &&& 0xFFFFF000) := by
  have block : s.writeBar0 r (0x10400 + 0x10 * n.val) v = s.writeHlk r (0x10400 + 0x10 * n.val) v := by
    unfold State.writeBar0
    rw [if_neg (by omega), if_neg (by omega), if_neg (by omega), if_neg (by omega), if_pos (by omega)]
  have base : (0x10400 + 0x10 * n.val - 0x10400) % 16 = 0 := by omega
  rw [block]
  unfold State.writeHlk
  rw [if_neg (by omega), if_neg (by omega), dif_pos (by omega), State.sealedWrite_open (by simp [primary]) unsealed]
  simp only [State.setWin, base]

/-- R129: a staged write of a DMA window's base by the primary manager. -/
theorem State.registerWrite_windowBase {s : State} {p : Path} {r : Requester} {n : Fin 32} (brings : s.Brings p r)
    (primary : (s.arrived p r (0x10400 + 0x10 * n.val)).isPrimary r = true)
    (unsealed : (s.arrived p r (0x10400 + 0x10 * n.val)).isSealed 4 = false) (v : DWord) :
    s.registerWrite p (0x10400 + 0x10 * n.val) v =
      ((s.arrived p r (0x10400 + 0x10 * n.val)).sealedAccepted (0x10400 + 0x10 * n.val)).stageLow r (0x10400 + 0x10 * n.val)
        (v &&& 0xFFFFF000) := by
  rw [State.registerWrite_brings brings (by omega) (by omega) (by omega) (by omega) (by omega) (by omega),
    State.writeBar0_windowBase primary unsealed]

end Sys2Proof.Machine

open Sys2Proof Sys2Proof.Machine

/-- Settles O17: dwords and words are read and written as the lemmas of their paths say. -/
theorem registersAreAccessedInParts : Obligations.RegistersAreAccessedInParts := by
  unfold Obligations.RegistersAreAccessedInParts
  refine ⟨?low, ?two, fun s k off live _ => .of_effect rfl (State.answerRead_keeper live off 1),
    fun s off live _ => .of_effect rfl (State.answerRead_bootRom live off 1), ?high,
    fun s k off live _ _ => .of_effect rfl (State.answerRead_keeper live (off + 2) 1),
    fun s p r off requester _ low high _ => State.readDWord_readDWord requester low high, ?staged, ?word, ?highStaged, ?highAlone,
    fun _ => rfl⟩
  case low =>
    intro s p off live low notKeeper notRom sound
    have aligned := low64_aligned low
    refine .of_effect rfl ?_
    rw [State.answerRead_low64 live low notKeeper notRom (by omega) sound, State.readDWord_value (.inl low)]
  case two => exact fun s l p off live link notBar2 aligned sound => .of_effect rfl (State.answerRead_two live link notBar2 aligned sound)
  case high =>
    intro s p off live low notKeeper notRom sound
    have aligned := low64_aligned low
    exact .of_effect rfl (State.answerRead_low64 live low notKeeper notRom (by omega) sound)
  case staged =>
    rintro s _ p r n v brings low rfl primary unsealed
    exact .of_effect rfl ((if_pos low).trans (State.registerWrite_windowBase brings primary unsealed v))
  case word =>
    intro s k off w live aligned inside
    have reach := State.wordsReach_live live aligned inside
    exact ⟨.of_effect rfl ((if_pos reach).trans (State.writeLowWord_staged live off w)),
      .of_effect rfl ((if_pos reach).trans (State.writeLowWord_bad live off w)),
      .of_effect rfl ((if_pos reach).trans (State.writeHighWord_bad live off w))⟩
  case highStaged =>
    exact fun s k off w lo live aligned inside staged =>
      .of_effect rfl ((if_pos (State.wordsReach_live live aligned inside)).trans (State.writeHighWord_staged live staged w))
  case highAlone =>
    exact fun s k off w live aligned inside unstaged =>
      .of_effect rfl ((if_pos (State.wordsReach_live live aligned inside)).trans (State.writeHighWord_alone live unstaged off w))

end

section
/-! The management SMBus port and JTAG (O18). -/

namespace Sys2Proof.Machine

/-- The management port answers in every mode but DARK and WICK (R537). -/
theorem State.smbAnswers_powered {s : State} (dark : s.mode ≠ .dark) (wick : s.mode ≠ .wick) : s.smbAnswers = true := by
  simp [State.smbAnswers, State.pathLive, dark, wick]

/-- The port's own address is no other address (R53). -/
theorem State.smbOther_own (s : State) : s.smbOther s.smbAddress = false := bne_self_eq_false _

/-- Any address but the port's concerns another device (R53). -/
theorem State.smbOther_foreign {s : State} {a : BitVec 7} (foreign : a ≠ s.smbAddress) : s.smbOther a = true :=
  bne_iff_ne.mpr foreign.symm

end Sys2Proof.Machine

open Sys2Proof Sys2Proof.Machine

/-- Settles O18: the port answers reads at its own address and discards writes, and JTAG's path is live in SERVICE alone. -/
theorem smbusOnlyReads : Obligations.SmbusOnlyReads := by
  unfold Obligations.SmbusOnlyReads
  refine ⟨?read, fun _ _ notHigh => State.readDWord_value notHigh, ?write, fun _ => rfl, ?foreign, fun _ => decide_eq_true_iff⟩
  case read =>
    intro s off dark wick aligned inside
    have answers := State.smbAnswers_powered dark wick
    have within : off ≤ 0x0FFFFF := by omega
    exact .of_effect rfl (by simp [State.smbOther_own, answers, aligned, within])
  case write =>
    exact fun s off v dark wick => .of_effect rfl (if_pos (by simp [State.smbAnswers_powered dark wick]))
  case foreign =>
    intro s a v foreign
    have other := State.smbOther_foreign foreign
    exact ⟨.of_effect rfl (if_pos other), .of_effect rfl (if_pos (by simp [other]))⟩

end

section
/-! Events written at EP, or held in order (O54). -/

namespace Sys2Proof.Machine

/-! A function's Event Rings. -/

@[simp] theorem State.modEvRing_evRing_self (s : State) (f : Func) (n : Fin 4) (g : EventRing → EventRing) :
    (s.modEvRing f n g).evRing f n = g (s.evRing f n) := by simp [State.modEvRing, State.evRing]

@[simp] theorem State.ringFault_evRing_self (s : State) (f : Func) (ring kind : Nat) (index : BitVec 16) (n : Fin 4) :
    (s.ringFault f ring kind index).evRing f n = s.evRing f n := by simp [State.ringFault, State.evRing]

/-- R218: of an Event Ring FULL alone follows the free slots. -/
theorem State.evFullUpdate_evRing (s : State) (f : Func) (n : Fin 4) :
    (s.evFullUpdate f n).evRing f n = { s.evRing f n with full := (s.evRing f n).noRoom } := by
  unfold State.evFullUpdate
  dsimp only
  split <;> simp

@[simp] theorem State.evFullUpdate_out (s : State) (f : Func) (n : Fin 4) : (s.evFullUpdate f n).out = s.out := by
  unfold State.evFullUpdate
  dsimp only
  split <;> rfl

/-! What an event's write sends. -/

@[simp] theorem State.wakeFn_out (s : State) (f : Func) : (s.wakeFn f).out = s.out := by
  unfold State.wakeFn
  split <;> rfl

@[simp] theorem State.wakeFn_rng (s : State) (f : Func) : (s.wakeFn f).rng = s.rng := by
  unfold State.wakeFn
  split <;> rfl

@[simp] theorem State.logWrite_out (s : State) (f : Func) (a n : Nat) : (s.logWrite f a n).out = s.out := by
  unfold State.logWrite
  split <;> rfl

@[simp] theorem State.logWrite_rng (s : State) (f : Func) (a n : Nat) : (s.logWrite f a n).rng = s.rng := by
  unfold State.logWrite
  split <;> rfl

@[simp] theorem State.issueWrite_out (s : State) (f : Func) (a : QWord) (bytes : List Byte) (p : Bool) :
    (s.issueWrite f a bytes p).out = s.out ++ [.hostWrite f a bytes p] := by simp [State.issueWrite]

@[simp] theorem State.issueWrite_rng (s : State) (f : Func) (a : QWord) (bytes : List Byte) (p : Bool) :
    (s.issueWrite f a bytes p).rng = s.rng := by simp [State.issueWrite]

/-- States whose rings are the same have the same Event Rings. -/
theorem State.evRing_of_rng {s t : State} (h : t.rng = s.rng) (f : Func) (n : Fin 4) : t.evRing f n = s.evRing f n := by
  simp [State.evRing, State.fn, h]

/-! The interrupt message of an Event Ring (R219, R396). -/

@[simp] theorem State.notifyDue_rng (s : State) (n : Fin 4) : (s.notifyDue n).rng = s.rng := by
  unfold State.notifyDue
  split
  · rfl
  · split <;> rfl

/-- A message, sent or not, leaves EP. -/
@[simp] theorem State.sendMessage_ep (s : State) (f : Func) (n : Fin 4) :
    ((s.sendMessage f n).evRing f n).ep = (s.evRing f n).ep := by
  unfold State.sendMessage
  split
  case h_1 => simp [State.disarmRing, State.evRing_of_rng (s.notifyDue_rng n)]
  case h_2 =>
    split
    case h_1 => rfl
    case h_2 =>
      dsimp only
      split
      · rfl
      · split
        · rw [State.modEvRing_evRing_self]
          rfl
        · simp [State.disarmRing, State.evRing_of_rng (State.logWrite_rng _ _ _ _), State.evRing_of_rng (s.wakeFn_rng f)]

/-- A message of a function is sent after what has been sent. -/
theorem State.sendMessage_out {f : Func} (host : f ≠ .bridge) (s : State) (n : Fin 4) :
    ∃ rest, (s.sendMessage f n).out = s.out ++ rest := by
  unfold State.sendMessage
  split
  case h_1 => exact absurd rfl host
  case h_2 =>
    split
    case h_1 => exact ⟨[], (List.append_nil _).symm⟩
    case h_2 =>
      dsimp only
      split
      · exact ⟨[], (List.append_nil _).symm⟩
      · split
        · exact ⟨[], (List.append_nil _).symm⟩
        · exact ⟨_, by simp [State.disarmRing, State.modEvRing]; rfl⟩

/-! The write of an event (R217). -/

/-- The entry that an event leaves at an index of a ring: its Cycle bit is that of the index (R190, R217). -/
def EventRing.stamp (r : EventRing) (e : EventEntry) : Entry :=
  e.dwords.set 7 (e.dwords[7] ||| putBit (cycleAt r.size r.ep) 0)

/-- An entry stored at EP: in host memory, or with parity in the Holding Store for the bridge host (R217). -/
def State.storeEntry (s : State) (f : Func) (r : EventRing) (entry : Entry) : State :=
  let slot := r.ep.toNat % 2 ^ r.size
  match f with
  | .bridge =>
    { s with hst := s.hst.writeBytes (2 * r.baseLo.toNat + 32 * slot) ((entryBytes entry).map (fun b => (b, false))) }
  | _ => s.issueWrite f (ofDWords r.baseHi r.baseLo + BitVec.ofNat 64 (32 * slot)) (entryBytes entry) false

/-- An event stored at EP, with EP advanced and FULL following the free slots (R217, R218). -/
def State.placeEvent (s : State) (f : Func) (n : Fin 4) (e : EventEntry) : State :=
  ((s.storeEntry f (s.evRing f n) ((s.evRing f n).stamp e)).modEvRing f n (fun x =>
    { x with ep := x.ep + 1, armed := true, sinceMsg := x.sinceMsg + 1 })).evFullUpdate f n

/-- R217, R219: an event is written at EP, and then the message goes if one is due. -/
theorem State.writeEvent_eq (s : State) (f : Func) (n : Fin 4) (e : EventEntry) :
    s.writeEvent f n e =
      if ((s.placeEvent f n e).evRing f n).dueNow then (s.placeEvent f n e).sendMessage f n else s.placeEvent f n e := by
  cases f <;> rfl

@[simp] theorem State.storeEntry_rng (s : State) (f : Func) (r : EventRing) (entry : Entry) : (s.storeEntry f r entry).rng = s.rng := by
  unfold State.storeEntry
  split
  · rfl
  · exact State.issueWrite_rng _ _ _ _ _

theorem State.storeEntry_out {f : Func} (host : f ≠ .bridge) (s : State) (r : EventRing) (entry : Entry) :
    (s.storeEntry f r entry).out = s.out ++ [.hostWrite f
      (ofDWords r.baseHi r.baseLo + BitVec.ofNat 64 (32 * (r.ep.toNat % 2 ^ r.size))) (entryBytes entry) false] := by
  unfold State.storeEntry
  split
  case h_1 => exact absurd rfl host
  case h_2 => exact State.issueWrite_out _ _ _ _ _

theorem State.placeEvent_ep (s : State) (f : Func) (n : Fin 4) (e : EventEntry) :
    ((s.placeEvent f n e).evRing f n).ep = (s.evRing f n).ep + 1 := by
  rw [State.placeEvent, State.evFullUpdate_evRing, State.modEvRing_evRing_self, State.evRing_of_rng (State.storeEntry_rng _ _ _ _)]

/-- R217: EP advances past the event written. -/
theorem State.writeEvent_ep (s : State) (f : Func) (n : Fin 4) (e : EventEntry) :
    ((s.writeEvent f n e).evRing f n).ep = (s.evRing f n).ep + 1 := by
  rw [State.writeEvent_eq]
  split
  · rw [State.sendMessage_ep, State.placeEvent_ep]
  · exact s.placeEvent_ep f n e

theorem State.placeEvent_out {f : Func} (host : f ≠ .bridge) (s : State) (n : Fin 4) (e : EventEntry) :
    (s.placeEvent f n e).out = s.out ++ [.hostWrite f
      (ofDWords (s.evRing f n).baseHi (s.evRing f n).baseLo
        + BitVec.ofNat 64 (32 * ((s.evRing f n).ep.toNat % 2 ^ (s.evRing f n).size)))
      (entryBytes ((s.evRing f n).stamp e)) false] :=
  (State.evFullUpdate_out _ _ _).trans (State.storeEntry_out host _ _ _)

/-- R217: a function's event is written to its host memory at EP, with the Cycle bit of EP. -/
theorem State.writeEvent_out {f : Func} (host : f ≠ .bridge) (s : State) (n : Fin 4) (e : EventEntry) :
    ∃ rest, (s.writeEvent f n e).out = s.out ++ Output.hostWrite f
      (ofDWords (s.evRing f n).baseHi (s.evRing f n).baseLo
        + BitVec.ofNat 64 (32 * ((s.evRing f n).ep.toNat % 2 ^ (s.evRing f n).size)))
      (entryBytes ((s.evRing f n).stamp e)) false :: rest := by
  rw [State.writeEvent_eq]
  split
  · obtain ⟨rest, sent⟩ := State.sendMessage_out host (s.placeEvent f n e) n
    exact ⟨rest, by rw [sent, State.placeEvent_out host, List.append_assoc]; rfl⟩
  · exact ⟨[], State.placeEvent_out host s n e⟩

/-! Written, or held (R159, R218). -/

theorem State.postEvent_closed {s : State} {f : Func} {n : Fin 4} (closed : (s.evRing f n).opened = false) (e : EventEntry) :
    s.postEvent f n e = s := by simp [State.postEvent, closed]

theorem State.postEvent_writes {s : State} {f : Func} {n : Fin 4} (opened : (s.evRing f n).opened = true)
    (first : (s.evRing f n).held = []) (room : (s.evRing f n).noRoom = false) (masters : s.canMaster f = true)
    (thawed : s.isFrozen f = false) (e : EventEntry) : s.postEvent f n e = s.writeEvent f n e := by
  simp [State.postEvent, opened, first, room, masters, thawed]

theorem State.postEvent_holds {s : State} {f : Func} {n : Fin 4} (opened : (s.evRing f n).opened = true)
    (waits : (s.evRing f n).noRoom = true ∨ s.canMaster f = false ∨ s.isFrozen f = true) (e : EventEntry) :
    s.postEvent f n e = s.modEvRing f n (fun x => { x with held := x.held ++ [e] }) := by
  rcases waits with full | barred | frozen
  · simp [State.postEvent, opened, full]
  · simp [State.postEvent, opened, barred]
  · simp [State.postEvent, opened, frozen]

end Sys2Proof.Machine

open Sys2Proof Sys2Proof.Machine

/-- Settles O54: an event is written at EP or held as the ring and its function allow, and a closed ring gets none. -/
theorem eventsAreWrittenOrHeld : Obligations.EventsAreWrittenOrHeld := by
  unfold Obligations.EventsAreWrittenOrHeld
  refine ⟨?written, fun _ _ _ e opened waits => State.postEvent_holds opened waits e,
    fun _ _ _ e closed => State.postEvent_closed closed e⟩
  case written =>
    exact fun s f n e opened first room masters thawed =>
      ⟨State.postEvent_writes opened first room masters thawed e, s.writeEvent_ep f n e, fun host => State.writeEvent_out host s n e⟩

end

section
/-! Assignments by the primary manager (O12). -/

namespace Sys2Proof.Machine

/-! What the events and commands of one function leave alone. -/

/-- The owners of the ports, the assignments of the Buoys, and the rings of every function but one. -/
structure Apart (f : Func) where
  owner : Vector Func 16
  buoy : Vector BuoyState 15
  fn : (g : Func) → g ≠ f → FuncState

/-- These parts of a state. -/
def State.apart (s : State) (f : Func) : Apart f := { owner := s.fwy.owner, buoy := s.lnk.buoy, fn := fun g _ => s.fn g }

theorem State.owner_of_apart {s t : State} {f : Func} (h : t.apart f = s.apart f) : t.fwy.owner = s.fwy.owner := congrArg Apart.owner h

theorem State.buoy_of_apart {s t : State} {f : Func} (h : t.apart f = s.apart f) (b : Fin 15) : t.buoy b = s.buoy b :=
  congrArg (fun x : Apart f => x.buoy[b]) h

theorem State.fn_of_apart {s t : State} {f g : Func} (h : t.apart f = s.apart f) (other : g ≠ f) : t.fn g = s.fn g :=
  congrArg (fun x : Apart f => x.fn g other) h

/-- Functions have places of their own in the tables of the state. -/
theorem Func.idx_injective : Function.Injective Func.idx := by
  intro f g same
  have place : f.idx.val = g.idx.val := congrArg Fin.val same
  cases f <;> cases g <;> simp [Func.idx] at place ⊢
  case buoy.buoy => omega

theorem State.modFn_fn_ne {s : State} {f k : Func} (other : k ≠ f) (g : FuncState → FuncState) : (s.modFn f g).fn k = s.fn k := by
  have place : f.idx.val ≠ k.idx.val := fun same => other (Func.idx_injective (Fin.ext same.symm))
  simp [State.modFn, State.fn, place]

@[simp] theorem State.modFn_apart (s : State) (f : Func) (g : FuncState → FuncState) : (s.modFn f g).apart f = s.apart f := by
  simp only [State.apart, State.modFn_fwy, State.modFn_lnk, Apart.mk.injEq, true_and]
  funext k other
  exact State.modFn_fn_ne other g

@[simp] theorem State.modRing_apart (s : State) (f : Func) (r : Fin 65) (g : Ring → Ring) : (s.modRing f r g).apart f = s.apart f :=
  State.modFn_apart _ _ _

@[simp] theorem State.modEvRing_apart (s : State) (f : Func) (n : Fin 4) (g : EventRing → EventRing) :
    (s.modEvRing f n g).apart f = s.apart f := State.modFn_apart _ _ _

@[simp] theorem State.ringFault_apart (s : State) (f : Func) (ring kind : Nat) (index : BitVec 16) :
    (s.ringFault f ring kind index).apart f = s.apart f := State.modFn_apart _ _ _

@[simp] theorem State.disarmRing_apart (s : State) (f : Func) (n : Fin 4) : (s.disarmRing f n).apart f = s.apart f :=
  State.modFn_apart _ _ _

@[simp] theorem State.emit_apart (s : State) (o : Output) (f : Func) : (s.emit o).apart f = s.apart f := rfl

@[simp] theorem State.logWrite_apart (s : State) (g : Func) (a n : Nat) (f : Func) : (s.logWrite g a n).apart f = s.apart f := by
  unfold State.logWrite
  split <;> rfl

@[simp] theorem State.wakeFn_apart (s : State) (g f : Func) : (s.wakeFn g).apart f = s.apart f := by
  unfold State.wakeFn
  split <;> rfl

@[simp] theorem State.notifyDue_apart (s : State) (n : Fin 4) (f : Func) : (s.notifyDue n).apart f = s.apart f := by
  unfold State.notifyDue
  split
  · rfl
  · split <;> rfl

@[simp] theorem State.sendMessage_apart (s : State) (f : Func) (n : Fin 4) : (s.sendMessage f n).apart f = s.apart f := by
  unfold State.sendMessage
  split
  case h_1 => simp
  case h_2 =>
    split
    case h_1 => rfl
    case h_2 =>
      dsimp only
      split
      · rfl
      · split
        · exact State.modEvRing_apart _ _ _ _
        · simp

@[simp] theorem State.storeEntry_apart (s : State) (f : Func) (r : EventRing) (entry : Entry) (g : Func) :
    (s.storeEntry f r entry).apart g = s.apart g := by
  unfold State.storeEntry
  split
  · rfl
  · simp [State.issueWrite]

@[simp] theorem State.evFullUpdate_apart (s : State) (f : Func) (n : Fin 4) : (s.evFullUpdate f n).apart f = s.apart f := by
  unfold State.evFullUpdate
  dsimp only
  split <;> simp

@[simp] theorem State.writeEvent_apart (s : State) (f : Func) (n : Fin 4) (e : EventEntry) :
    (s.writeEvent f n e).apart f = s.apart f := by
  have placed : (s.placeEvent f n e).apart f = s.apart f := by simp [State.placeEvent]
  rw [State.writeEvent_eq]
  split
  · rw [State.sendMessage_apart, placed]
  · exact placed

@[simp] theorem State.postEvent_apart (s : State) (f : Func) (n : Fin 4) (e : EventEntry) :
    (s.postEvent f n e).apart f = s.apart f := by
  unfold State.postEvent
  dsimp only
  split
  · rfl
  · split <;> simp

@[simp] theorem State.finishCmd_apart (s : State) (f : Func) (status : Status) (r0 r1 : DWord) :
    (s.finishCmd f status r0 r1).apart f = s.apart f := by
  unfold State.finishCmd
  split
  · rfl
  · simp [State.completeCmd]

/-! Ports change owner together (R20, R172). -/

/-- A decrement acts in the Tender alone (R407). -/
theorem State.decrementBy_eq (s : State) (f : Func) (c : Nat) (tag : DWord) :
    (s.decrementBy f c tag).2 = { s with tnd := (s.decrementBy f c tag).2.tnd } := by
  unfold State.decrementBy State.decrement State.makeReady State.modItem
  dsimp only
  repeat' split
  all_goals rfl

@[simp] theorem State.decrementBy_apart (s : State) (g : Func) (c : Nat) (tag : DWord) (f : Func) :
    (s.decrementBy g c tag).2.apart f = s.apart f := by
  rw [State.decrementBy_eq]
  rfl

@[simp] theorem State.countFairway_apart (s : State) (r : Ring) (st : Status) (f : Func) : (s.countFairway r st).apart f = s.apart f := by
  unfold State.countFairway
  split
  · rfl
  · split <;> rfl

@[simp] theorem State.complete_apart (s : State) (f : Func) (ring : Fin 65) (c : Done) : (s.complete f ring c).apart f = s.apart f := by
  unfold State.complete
  dsimp only
  split <;> simp

@[simp] theorem State.endTransfer_apart (s : State) (f : Func) (ring : Fin 65) (st : Status) (sub : Nat) :
    (s.endTransfer f ring st sub).apart f = s.apart f := by
  unfold State.endTransfer
  dsimp only
  split
  · rfl
  · simp

/-- A ring that loses its port leaves the owners of the ports. -/
theorem State.disownRing_owner (s : State) (f : Func) (ring : Fin 65) : (s.disownRing f ring).fwy.owner = s.fwy.owner := by
  refine State.owner_of_apart (f := f) ?_
  unfold State.disownRing
  dsimp only
  split
  · split <;> simp
  · simp

theorem State.disownRings_owner (l : List (Func × Fin 65)) (s : State) :
    (l.foldl (fun s x => s.disownRing x.1 x.2) s).fwy.owner = s.fwy.owner := by
  induction l generalizing s with
  | nil => rfl
  | cons x l ih => rw [List.foldl_cons, ih, State.disownRing_owner]

theorem State.holdAllLamps_owner (l : List (Fin 16)) (s : State) :
    (l.foldl (fun s n => s.holdLamps n (s.portOwner n)) s).fwy.owner = s.fwy.owner := by
  induction l generalizing s with
  | nil => rfl
  | cons n l ih => exact ih _

/-- R20, R172: the ports named have the new owner, and the others keep theirs. -/
theorem State.movePorts_owner (s : State) (ns : List (Fin 16)) (o : Func) (n : Fin 16) :
    (s.movePorts ns o).1.fwy.owner[n] = if n ∈ ns then o else s.fwy.owner[n] := by
  unfold State.movePorts
  dsimp only
  rw [State.disownRings_owner, State.holdAllLamps_owner]
  by_cases has : s.fwy.owner[n.val] = o
  · simp [has]
  · simp [has]

theorem State.beginAssign_fwy (s : State) (rings : List (Func × Fin 65)) (moves : List (Func × DWord × DWord))
    (release : List (Fin 15)) : (s.beginAssign rings moves release).fwy = s.fwy := rfl

theorem State.assignPorts_owner (s : State) (ns : List (Fin 16)) (o : Func) (release : List (Fin 15)) (n : Fin 16) :
    (s.assignPorts ns o release).fwy.owner[n] = if n ∈ ns then o else s.fwy.owner[n] := by
  rw [State.assignPorts, State.beginAssign_fwy]
  exact s.movePorts_owner ns o n

/-! A Buoy's release (R171). -/

/-- A function's commands in progress are forgotten, the freeze of a Buoy among them (R105). -/
theorem State.dropCommandsOf_cmd (s : State) (f : Func) (b : Fin 15) : ((s.dropCommandsOf f).migr b).cmd ≠ some f := by
  simp only [State.dropCommandsOf, State.migr, Fin.getElem_fin, Vector.getElem_map]
  split
  · simp
  · assumption

/-- The state of a Buoy's function-level reset before its freeze ends (R105, R178, R183). -/
def State.clearBuoy (s : State) (b : Fin 15) : State :=
  let f : Func := .buoy b
  let s0 := s.dropCommandsOf f
  let s1 : State := { (s0.modFn f (fun _ => {})) with bcn := { s0.bcn with orphans := s0.bcn.orphans ++ s.orphansOf f } }
  let s2 :=
    match s1.msixOf f with
    | some i => s1.resetSlot i
    | none => s1
  ((s2.resetMailboxes f).dropLampsOf f).forgetRequester f.requester

theorem State.resetFunction_buoy (s : State) (b : Fin 15) : s.resetFunction (.buoy b) = (s.clearBuoy b).unfreezeByReset b := rfl

/-- The rings of the functions, the freezes and the assignments of the Buoys. -/
def State.roles (s : State) : Rings × Migration × Vector BuoyState 15 := (s.rng, s.mig, s.lnk.buoy)

theorem State.resetMailboxes_roles (s : State) (f : Func) : (s.resetMailboxes f).roles = s.roles := by
  unfold State.resetMailboxes
  split <;> rfl

theorem State.setKeyhole_roles (s : State) (r : Requester) (k : Keyhole) : (s.setKeyhole r k).roles = s.roles := by
  unfold State.setKeyhole
  split <;> rfl

theorem State.forgetRequester_roles (s : State) (r : Requester) : (s.forgetRequester r).roles = s.roles :=
  State.setKeyhole_roles _ _ _

theorem State.dropLampsOf_roles (s : State) (f : Func) : (s.dropLampsOf f).roles = s.roles := rfl

/-- What a reset clears outside a Buoy's rings plays no part in them, in the freezes or in the assignments. -/
theorem State.clearBuoy_roles (s : State) (b : Fin 15) :
    (s.clearBuoy b).roles = ((s.dropCommandsOf (.buoy b)).modFn (.buoy b) (fun _ => {})).roles := by
  unfold State.clearBuoy
  dsimp only
  rw [State.forgetRequester_roles, State.dropLampsOf_roles, State.resetMailboxes_roles]
  split <;> rfl

theorem State.clearBuoy_fn (s : State) (b : Fin 15) : (s.clearBuoy b).fn (.buoy b) = {} := by
  have rings : (s.clearBuoy b).rng = ((s.dropCommandsOf (.buoy b)).modFn (.buoy b) (fun _ => {})).rng :=
    congrArg Prod.fst (s.clearBuoy_roles b)
  rw [State.fn, rings]
  exact State.modFn_fn_self _ _ _

theorem State.clearBuoy_migr (s : State) (b k : Fin 15) : (s.clearBuoy b).migr k = (s.dropCommandsOf (.buoy b)).migr k :=
  congrArg (fun x : Rings × Migration × Vector BuoyState 15 => x.2.1.mig[k]) (s.clearBuoy_roles b)

theorem State.clearBuoy_buoy (s : State) (b k : Fin 15) : (s.clearBuoy b).buoy k = s.buoy k :=
  congrArg (fun x : Rings × Migration × Vector BuoyState 15 => x.2.2[k]) (s.clearBuoy_roles b)

/-- A reset that ends a Buoy's freeze leaves the Buoys' assignments, and the rings of every function but the one that froze it (R486). -/
theorem State.unfreezeByReset_leaves {s : State} {b : Fin 15} {f : Func} (other : (s.migr b).cmd ≠ some f) (k : Fin 15) :
    (s.unfreezeByReset b).fn f = s.fn f ∧ (s.unfreezeByReset b).buoy k = s.buoy k := by
  unfold State.unfreezeByReset
  dsimp only
  split
  case h_1 g froze =>
    have ne : f ≠ g := fun same => other (same ▸ froze)
    exact ⟨State.fn_of_apart (State.finishCmd_apart _ g _ _ _) ne, State.buoy_of_apart (State.finishCmd_apart _ g _ _ _) k⟩
  case h_2 => exact ⟨rfl, rfl⟩

/-- R105, R486: a Buoy's reset clears its rings and leaves the Buoys' assignments. -/
theorem State.resetFunction_buoy_leaves (s : State) (b k : Fin 15) :
    (s.resetFunction (.buoy b)).fn (.buoy b) = {} ∧ (s.resetFunction (.buoy b)).buoy k = s.buoy k := by
  have other : ((s.clearBuoy b).migr b).cmd ≠ some (.buoy b) := s.clearBuoy_migr b b ▸ s.dropCommandsOf_cmd _ b
  obtain ⟨fn, buoy⟩ := State.unfreezeByReset_leaves other k
  rw [State.resetFunction_buoy, fn, buoy]
  exact ⟨s.clearBuoy_fn b, s.clearBuoy_buoy b k⟩

/-- The SLOT events go to the Manager functions: they leave the Buoys' assignments and rings. -/
theorem State.slotEvents_leaves (s : State) (b k : Fin 15) :
    (s.slotEvents b).fn (.buoy k) = s.fn (.buoy k) ∧ (s.slotEvents b).buoy k = s.buoy k := by
  have toA : (s.slotEvent .a b).apart .mfA = s.apart .mfA := State.postEvent_apart _ _ _ _
  have toB : (s.slotEvents b).apart .mfB = (s.slotEvent .a b).apart .mfB := State.postEvent_apart _ _ _ _
  exact ⟨(State.fn_of_apart toB (by simp)).trans (State.fn_of_apart toA (by simp)),
    (State.buoy_of_apart toB k).trans (State.buoy_of_apart toA k)⟩

/-- R171: a Buoy released is held nowhere, has no grants, and its function is cleared. -/
theorem State.finishRelease_buoy (s : State) (b : Fin 15) :
    ((s.finishRelease b).buoy b).home = none ∧ ((s.finishRelease b).buoy b).grant = 0 ∧ (s.finishRelease b).fn (.buoy b) = {} := by
  obtain ⟨cleared, assignment⟩ := (s.modBuoy b (fun x => { x with grant := 0 })).resetFunction_buoy_leaves b b
  obtain ⟨fn, buoy⟩ := (((s.modBuoy b (fun x => { x with grant := 0 })).resetFunction (.buoy b)).modBuoy b
    (fun x => { x with home := none })).slotEvents_leaves b b
  rw [State.finishRelease, fn, buoy, State.modBuoy_buoy_self, assignment, State.modBuoy_buoy_self]
  exact ⟨rfl, rfl, cleared⟩

/-! The commands' own rules (R170 to R173). -/

theorem State.buoyHome_notOwner {s : State} {f : Func} (other : s.isPrimaryFn f = false) (e : Entry) :
    s.buoyHome f e = .done s .notOwner 0 0 := if_pos (by simp [other])

theorem State.portAssign_notOwner {s : State} {f : Func} (other : s.isPrimaryFn f = false) (e : Entry) :
    s.portAssign f e = .done s .notOwner 0 0 := if_pos (by simp [other])

theorem State.keeperGrant_notOwner {s : State} {f : Func} (other : s.isPrimaryFn f = false) (e : Entry) :
    s.keeperGrant f e = .done s .notOwner 0 0 := if_pos (by simp [other])

/-- R170: a Buoy that is held nowhere is homed on a link where its slot exists. -/
theorem State.buoyHome_homes {s : State} {f : Func} {e : Entry} {b : Fin 15} {l : Link} (primary : s.isPrimaryFn f = true)
    (named : buoyParam e = some b) (high : fieldNat e[0] 10 22 = 0) (mid : fieldNat e[0] 4 4 = 0)
    (params : paramsZero e [1, 2, 3, 4, 5] = true) (code : fieldNat e[0] 8 2 = (if l = .b then 1 else 0))
    (slot : s.slotExists l b = true) (fit : s.linkFit l = true) (free : (s.buoy b).home = none) :
    s.buoyHome f e = .done ((s.modBuoy b (fun x => { x with home := some l })).slotEvents b) .success 0 0 := by
  have link : Link.ofBool (decide (fieldNat e[0] 8 2 = 1)) = l := by
    rw [code]
    cases l <;> rfl
  have noRelease : fieldNat e[0] 8 2 ≠ 3 := by
    rw [code]
    split <;> decide
  have defined : fieldNat e[0] 8 2 ≠ 2 := by
    rw [code]
    split <;> decide
  simp [State.buoyHome, primary, named, high, mid, params, noRelease, defined, link, slot, fit, free]

/-- R171: the release of a held Buoy starts. -/
theorem State.buoyHome_releases {s : State} {f : Func} {e : Entry} {b : Fin 15} (primary : s.isPrimaryFn f = true)
    (named : buoyParam e = some b) (high : fieldNat e[0] 10 22 = 0) (mid : fieldNat e[0] 4 4 = 0)
    (params : paramsZero e [1, 2, 3, 4, 5] = true) (code : fieldNat e[0] 8 2 = 3) (held : (s.buoy b).home.isSome = true) :
    s.buoyHome f e = .started (s.releaseBuoy b) := by
  have notNone : (s.buoy b).home.isNone = false := by simpa using held
  simp [State.buoyHome, primary, named, high, mid, params, code, notNone]

/-- R172: an assignment of fitted ports to a function that is there starts. -/
theorem State.portAssign_assigns {s : State} {f : Func} {e : Entry} {o : Func} (primary : s.isPrimaryFn f = true)
    (named : ownerParam e = some o) (high : fieldNat e[0] 16 16 = 0) (reserved : fieldNat e[1] 8 24 = 0)
    (params : paramsZero e [2, 3, 4, 5] = true) (nonempty : ((List.finRange 16).filter (fun n => bitOf e[0] n.val)).isEmpty = false)
    (there : s.assignGone ((List.finRange 16).filter (fun n => bitOf e[0] n.val)) o = false) :
    s.portAssign f e = .started (s.assignPorts ((List.finRange 16).filter (fun n => bitOf e[0] n.val)) o []) := by
  simp only [State.portAssign, primary, named, high, reserved, params, nonempty, there]
  rfl

/-- R173: a grant replaces the one before, and the Buoy is told. -/
theorem State.keeperGrant_grants {s : State} {f : Func} {e : Entry} {b : Fin 15} (primary : s.isPrimaryFn f = true)
    (named : buoyParam e = some b) (high : fieldNat e[0] 4 28 = 0) (reserved : fieldNat e[1] 12 20 = 0)
    (params : paramsZero e [2, 3, 4, 5] = true) :
    s.keeperGrant f e =
      .done ((s.modBuoy b (fun x => { x with grant := e[1].setWidth 12 })).postFnEvent (.buoy b) 0x0C (e[1] &&& 0xFFF) 0 0)
        .success 0 0 := by
  simp only [State.keeperGrant, primary, named, high, reserved, params]
  rfl

/-- A command whose own rules end it completes with its status and results (R211). -/
theorem State.runCommand_done {s s1 u : State} {f : Func} {ty : Nat} {i : Half} {e : Entry} {act : State → Entry → CmdEnd}
    {st : Status} {r0 r1 : DWord} (issues : s.Issues f ty i e s1) (done : act s1 e = .done u st r0 r1) :
    s.runCommand f ty (fun _ => true) act = u.completeCmd f i e st r0 r1 := by
  rw [State.runCommand_issues issues rfl, done]
  rfl

/-- A command whose own rules start it is in progress on its Command Ring (R209, R211). -/
theorem State.runCommand_started {s s1 u : State} {f : Func} {ty : Nat} {i : Half} {e : Entry} {act : State → Entry → CmdEnd}
    (issues : s.Issues f ty i e s1) (started : act s1 e = .started u) :
    s.runCommand f ty (fun _ => true) act = u.modFn f (fun x => { x with cmd := some { tag := cmdTag e, index := i, entry := e } }) := by
  rw [State.runCommand_issues issues rfl, started]
  rfl

end Sys2Proof.Machine

open Sys2Proof Sys2Proof.Machine

/-- Settles O12: each assignment of the primary manager acts as its command's rules say, and another function's is NOT_OWNER. -/
theorem assignmentsByThePrimary : Obligations.AssignmentsByThePrimary := by
  unfold Obligations.AssignmentsByThePrimary
  refine ⟨?homes, ?releases, fun s b => s.finishRelease_buoy b, ?assigns, ?grants, ?bar2, ?notOwner⟩
  case homes =>
    exact fun s s1 f i e b l issues primary named high mid params code slot fit free =>
      .of_effect rfl (State.runCommand_done issues (State.buoyHome_homes primary named high mid params code slot fit free))
  case releases =>
    intro s s1 f i e b issues primary named high mid params code held
    refine ⟨.of_effect rfl (State.runCommand_started issues (State.buoyHome_releases primary named high mid params code held)), ?_⟩
    intro n
    rw [State.releaseBuoy, State.assignPorts_owner]
    simp
  case assigns =>
    intro s s1 f i e o issues primary named high _ reserved params nonempty there
    refine ⟨_, Completes.of_effect rfl
      (State.runCommand_started issues (State.portAssign_assigns primary named high reserved params nonempty there)), ?_⟩
    intro n
    rw [State.modFn_fwy, State.assignPorts_owner]
    simp
  case grants =>
    exact fun s s1 f i e b issues primary named high reserved params =>
      .of_effect rfl (State.runCommand_done issues (State.keeperGrant_grants primary named high reserved params))
  case bar2 =>
    intro s l addr bytes live isOpen primary inside
    exact .of_effect rfl (by simp [live, isOpen, primary, inside])
  case notOwner =>
    exact fun s s1 f i e =>
      ⟨fun issues other => .of_effect rfl (State.runCommand_done issues (State.buoyHome_notOwner other e)),
       fun issues other => .of_effect rfl (State.runCommand_done issues (State.portAssign_notOwner other e)),
       fun issues other => .of_effect rfl (State.runCommand_done issues (State.keeperGrant_notOwner other e))⟩

end

section
/-! Mailboxes: their sides, sends and acknowledgements (O25). -/

namespace Sys2Proof.Machine

/-! The direction in which a side sends. -/

@[simp] theorem State.modSends_sends_self (s : State) (x : MboxSide) (g : MboxDir → MboxDir) :
    (s.modSends x g).sends x = g (s.sends x) := by
  cases x with
  | tenant | manager => simp [State.modSends, State.sends]
  | cross l => cases l <;> rfl

@[simp] theorem State.modSends_modSends (s : State) (x : MboxSide) (g h : MboxDir → MboxDir) :
    (s.modSends x g).modSends x h = s.modSends x (fun d => h (g d)) := by
  cases x with
  | tenant | manager => simp [State.modSends]
  | cross l => cases l <;> rfl

/-- A Buoy's mailbox that does not change leaves the state. -/
theorem State.modMbox_same {s : State} {b : Fin 15} {g : Mailbox → Mailbox} (same : g (s.mboxOf b) = s.mboxOf b) :
    s.modMbox b g = s := by
  rw [State.modMbox, same]
  simp [State.mboxOf]

/-- A direction that does not change leaves the state. -/
theorem State.modSends_same {s : State} {x : MboxSide} {g : MboxDir → MboxDir} (same : g (s.sends x) = s.sends x) :
    s.modSends x g = s := by
  cases x with
  | tenant b =>
      exact State.modMbox_same (g := fun m => { m with toMgr := g m.toMgr })
        (congrArg (Mailbox.mk · (s.mboxOf b).toTenant) same)
  | manager b =>
      exact State.modMbox_same (g := fun m => { m with toTenant := g m.toTenant })
        (congrArg (Mailbox.mk (s.mboxOf b).toMgr ·) same)
  | cross l =>
    cases l with
    | a => exact congrArg (fun d => { s with lnk := { s.lnk with xAtoB := d } }) same
    | b => exact congrArg (fun d => { s with lnk := { s.lnk with xBtoA := d } }) same

/-! Sends (R176, Table 6.7). -/

theorem State.mailboxSend_accepted {s : State} {x : MboxSide} {v : DWord}
    (accepted : sendResult (s.sends x) (hiHalf v) (fieldNat v 0 5) = 1) :
    s.mailboxSend x v = (s.modSends x (fun d =>
      ({ d with outSeq := v &&& 0xFFFF001F, result := 1 } : MboxDir).delivered (hiHalf v) (fieldNat v 0 5))).mailboxArrives x
        (hiHalf v) := by
  simp only [State.mailboxSend, accepted, if_true, State.modSends_modSends]

theorem State.mailboxSend_other {s : State} {x : MboxSide} {v : DWord}
    (other : sendResult (s.sends x) (hiHalf v) (fieldNat v 0 5) ≠ 1) :
    s.mailboxSend x v = s.modSends x (fun d =>
      { d with outSeq := v &&& 0xFFFF001F, result := sendResult (s.sends x) (hiHalf v) (fieldNat v 0 5) }) := if_neg other

/-! Acknowledgements (R177). -/

theorem State.mailboxAck_delivered {s : State} {x : MboxSide} {v : DWord} (delivered : loHalf v = (s.sends x.peer).inSeq) :
    ((s.mailboxAck x v).sends x.peer).acked = (s.sends x.peer).inSeq := by
  simp [State.mailboxAck, delivered]

theorem State.mailboxAck_other {s : State} {x : MboxSide} {v : DWord} (other : loHalf v ≠ (s.sends x.peer).inSeq) :
    s.mailboxAck x v = s := State.modSends_same (if_neg other)

/-! The registers of a side (R155, R179, R180, Table 6.9). -/

@[simp] theorem State.writeMbox_send (s : State) (x : MboxSide) (v : DWord) : s.writeMbox x 0x40 v = s.mailboxSend x v := by
  simp [State.writeMbox]

@[simp] theorem State.writeMbox_ack (s : State) (x : MboxSide) (v : DWord) : s.writeMbox x 0xC4 v = s.mailboxAck x v := by
  simp [State.writeMbox]

/-- R155: a mailbox register of a Buoy's own block acts for its tenant. -/
theorem State.mailboxAccess_slot {s : State} {l : Link} {b : Fin 15} (live : s.pathLive (.slot l b) = true)
    (present : s.slotState l b = 1) {off o : Nat} (place : off = 0x3000 + o) (inside : o < 0x100) (v : DWord) :
    s.mailboxAccess (.slot l b) off v = (s.arrived (.slot l b) (.buoy b) off).writeMbox (.tenant b) o v := by
  subst place
  have block : 0x3000 ≤ 0x3000 + o ∧ 0x3000 + o < 0x3100 := by omega
  have layout : 0x3000 + o - 0x3000 = o := by omega
  rw [State.mailboxAccess, State.accessAny_slot live present, if_pos block, layout]

/-- A write that a path brings to the mailbox area of manager BAR0 reaches it. -/
theorem State.mailboxAccess_brings {s : State} {p : Path} {r : Requester} (brings : s.Brings p r) (off : Nat) (v : DWord) :
    s.mailboxAccess p off v = (s.arrived p r off).writeMboxArea r off v := by
  have reached := State.access_brings brings off (fun r s => s.writeMboxArea r off v)
  obtain ⟨-, reaches, -⟩ := brings
  rw [← reached]
  cases p with
  | mgrMsix | mgrCfg | slot | slotCfg | bar2 => cases reaches
  | mgr | ibp | smbus | jtag | bootRom | keeper => rfl

/-- In manager BAR0 a register's place in its mailbox's layout is its offset's in the page (Table 6.9). -/
theorem mailboxOffset_brings {s : State} {p : Path} {r : Requester} (brings : s.Brings p r) {off o : Nat} (place : off % 0x100 = o) :
    mailboxOffset p off = o := by
  obtain ⟨-, reaches, -⟩ := brings
  cases p with
  | mgrMsix | mgrCfg | slot | slotCfg | bar2 => cases reaches
  | mgr | ibp | smbus | jtag | bootRom | keeper => exact place

/-- R179: the primary manager's write to a Buoy's mailbox registers acts for the manager's side. -/
theorem State.writeMboxArea_manager {s : State} {r : Requester} (primary : s.isPrimary r = true) {b : Fin 15} {off o : Nat}
    (place : off = 0xC8000 + 0x100 * b.val + o) (inside : o < 0x100) (register : mboxRegister o = true) (v : DWord) :
    s.writeMboxArea r off v = s.writeMbox (.manager b) o v := by
  have area : 0xC8000 ≤ off ∧ off < 0xC8F00 := by omega
  have layout : (off - 0xC8000) % 0x100 = o := by omega
  have number : (off - 0xC8000) / 0x100 = b.val := by omega
  simp only [State.writeMboxArea, dif_pos area, layout, number, register, State.primaryWrite, primary]
  rfl

/-- R180: a Manager function's write to the cross-link mailbox registers acts for its side. -/
theorem State.writeMboxArea_cross (s : State) (l : Link) {off o : Nat} (place : off = 0xC9000 + o) (inside : o < 0x100) (v : DWord) :
    s.writeMboxArea (Func.manager l).requester off v = s.writeMbox (.cross l) o v := by
  subst place
  have area : 0xC9000 ≤ 0xC9000 + o ∧ 0xC9000 + o < 0xC9100 := by omega
  have layout : 0xC9000 + o - 0xC9000 = o := by omega
  unfold State.writeMboxArea
  rw [dif_neg (by omega), if_pos area, layout]
  cases l <;> rfl

end Sys2Proof.Machine

open Sys2Proof Sys2Proof.Machine

/-- Settles O25: a write to each side's registers is that side's, and a send and an acknowledgement act as their lemmas say. -/
theorem mailboxesDeliver : Obligations.MailboxesDeliver := by
  unfold Obligations.MailboxesDeliver
  refine ⟨?tenantSend, ?managerSend, ?tenantAck, ?managerAck, fun _ _ _ other => State.mailboxSend_other other,
    fun _ _ _ accepted => State.mailboxSend_accepted accepted, ?crossSend, ?crossAck,
    fun _ _ _ => ⟨State.mailboxAck_delivered, State.mailboxAck_other⟩⟩
  case tenantSend =>
    rintro s _ l b v live present rfl
    exact .of_effect rfl ((if_pos rfl).trans
      ((State.mailboxAccess_slot live present rfl (by decide) v).trans (State.writeMbox_send _ _ v)))
  case managerSend =>
    rintro s _ p r b v brings rfl primary
    have place : 0xC8040 + 0x100 * b.val = 0xC8000 + 0x100 * b.val + 0x40 := by omega
    have register : mailboxOffset p (0xC8040 + 0x100 * b.val) = 0x40 := mailboxOffset_brings brings (by omega)
    refine .of_effect rfl ?_
    rw [if_pos register, State.mailboxAccess_brings brings, State.writeMboxArea_manager primary place (by decide) (by decide),
      State.writeMbox_send]
  case tenantAck =>
    rintro s _ l b v live present rfl
    exact .of_effect rfl ((if_pos rfl).trans
      ((State.mailboxAccess_slot live present rfl (by decide) v).trans (State.writeMbox_ack _ _ v)))
  case managerAck =>
    rintro s _ p r b v brings rfl primary
    have place : 0xC80C4 + 0x100 * b.val = 0xC8000 + 0x100 * b.val + 0xC4 := by omega
    have register : mailboxOffset p (0xC80C4 + 0x100 * b.val) = 0xC4 := mailboxOffset_brings brings (by omega)
    refine .of_effect rfl ?_
    rw [if_pos register, State.mailboxAccess_brings brings, State.writeMboxArea_manager primary place (by decide) (by decide),
      State.writeMbox_ack]
  case crossSend =>
    rintro s _ l v brings rfl
    refine .of_effect rfl ((if_pos rfl).trans ?_)
    rw [State.mailboxAccess_brings brings, State.writeMboxArea_cross _ l (o := 0x40) rfl (by decide), State.writeMbox_send]
  case crossAck =>
    rintro s _ l v brings rfl
    refine .of_effect rfl ((if_pos rfl).trans ?_)
    rw [State.mailboxAccess_brings brings, State.writeMboxArea_cross _ l (o := 0xC4) rfl (by decide), State.writeMbox_ack]

end

section
/-! Ring entries pushed or fetched, and rings opened (O22). -/

namespace Sys2Proof.Machine

/-! The Push Window (R202 to R204). -/

/-- R202: a dword of the Push Window is the function's own. -/
theorem State.pushWindow_host {f : Func} (host : f ≠ .bridge) (s : State) (w : Fin 32) (v : DWord) :
    s.pushWindow f w v = s.modFn f (fun x => { x with push := x.push.set w v }) := by
  cases f with
  | bridge => exact absurd rfl host
  | mfA | mfB | buoy => rfl

/-- R203: a push to an open ring is judged by its count, and then by its index. -/
theorem State.ringPush_opened {s : State} {f : Func} {ring : Fin 65} {v : DWord} (host : f ≠ .bridge) (format : fieldNat v 11 5 = 0)
    (named : ringOf f (fieldNat v 0 8) = some ring) (opened : (s.ring f ring).opened = true) :
    s.ringPush f v =
      if fieldNat v 8 3 = 0 ∨ 4 < fieldNat v 8 3 then s.ringFault f (fieldNat v 0 8) 3 (hiHalf v)
      else if !(s.ring f ring).accepts (hiHalf v) then s.ringFault f (fieldNat v 0 8) 2 (hiHalf v)
      else
        (List.finRange 4).foldl (fun s' k =>
          if k.val < fieldNat v 8 3 then
            s'.holdPush f ring (hiHalf v - BitVec.ofNat 16 (fieldNat v 8 3 - k.val)) (pushSlot (s.fn f) k)
          else s') (s.modRing f ring (fun r => r.advance (hiHalf v))) := by
  have wellFormed : ¬(fieldNat v 11 5 ≠ 0 ∨ (s.ring f ring).opened = false) := by simp [format, opened]
  cases f with
  | bridge => exact absurd rfl host
  | mfA | mfB | buoy =>
    simp only [State.ringPush, named]
    exact if_neg wellFormed

/-- R203: a count of 0 or above 4 is a ring fault of kind 3. -/
theorem State.ringPush_badCount {s : State} {f : Func} {ring : Fin 65} {v : DWord} (host : f ≠ .bridge) (format : fieldNat v 11 5 = 0)
    (named : ringOf f (fieldNat v 0 8) = some ring) (opened : (s.ring f ring).opened = true)
    (bad : fieldNat v 8 3 = 0 ∨ 4 < fieldNat v 8 3) : s.ringPush f v = s.ringFault f (fieldNat v 0 8) 3 (hiHalf v) :=
  (State.ringPush_opened host format named opened).trans (if_pos bad)

/-- R203, R204: one entry pushed moves PI and holds the copy of the first slot. -/
theorem State.ringPush_one {s : State} {f : Func} {ring : Fin 65} {v : DWord} (host : f ≠ .bridge) (format : fieldNat v 11 5 = 0)
    (named : ringOf f (fieldNat v 0 8) = some ring) (opened : (s.ring f ring).opened = true) (one : fieldNat v 8 3 = 1)
    (window : idxDist (hiHalf v) (s.ring f ring).ci ≤ 2 ^ (s.ring f ring).size) :
    s.ringPush f v =
      (s.modRing f ring (fun r => r.advance (hiHalf v))).holdPush f ring (hiHalf v - 1) (pushSlot (s.fn f) 0) := by
  have accepted : (s.ring f ring).accepts (hiHalf v) = true := decide_eq_true window
  have slots : List.finRange 4 = [0, 1, 2, 3] := rfl
  rw [State.ringPush_opened host format named opened, one, if_neg (by decide), accepted, slots]
  rfl

/-! Rings set up (R188, R189, R219). -/

/-- R189: a write of RNG_r_CFG to a closed ring of the function is judged by its fields. -/
theorem State.ringSetup_closed {s : State} {f : Func} {ring : Fin 65} (has : ring.val ≤ lastRing f)
    (closed : (s.ring f ring).opened = false) (req : Requester) (off : Nat) (v : DWord) :
    s.ringSetup req f off ring 8 v = s.ringCfg f ring v := by
  simp [State.ringSetup, Nat.not_lt.mpr has, closed]

/-- R189: a set-up write to an open ring is refused with reason 2. -/
theorem State.ringSetup_opened {s : State} {f : Func} {ring : Fin 65} (has : ring.val ≤ lastRing f)
    (opened : (s.ring f ring).opened = true) (req : Requester) (off : Nat) (v : DWord) :
    s.ringSetup req f off ring 8 v = s.refuse req 2 off := by
  simp [State.ringSetup, Nat.not_lt.mpr has, opened]

/-- R188, R189: a write with OPEN = 1 whose fields are in range opens the ring empty, on Event Ring 0. -/
theorem State.ringCfg_open {s : State} {f : Func} {r : Fin 65} {v : DWord} (openBit : bitOf v 31 = true) (least : 4 ≤ fieldNat v 24 4)
    (most : fieldNat v 24 4 ≤ 12) (mode : fieldNat v 16 2 ≤ 1) (evt : fieldNat v 8 2 = 0)
    (base : baseOk f (s.ring f r).baseLo (s.ring f r).baseHi (fieldNat v 24 4) = true) (events : (s.evRing f 0).opened = true) :
    s.ringCfg f r v = s.modRing f r (fun x =>
      { x with opened := true, size := fieldNat v 24 4, swell := fieldNat v 16 2 == 1, evt := 0, pi := 0, ci := 0, lostTo := none
               staged := [], waitDoorbell := false, spec := none }) := by
  simp [State.ringCfg, openBit, least, most, mode, evt, base, events]

/-- R219: an open Event Ring takes new moderation only. -/
theorem State.evCfg_opened {s : State} {f : Func} {n : Fin 4} (opened : (s.evRing f n).opened = true) (v : DWord) :
    s.evCfg f n v = s.modEvRing f n (fun x => { x with modInterval := fieldNat v 8 8, modCount := fieldNat v 0 8 }) := if_pos opened

/-- R189, R219: a write with OPEN = 1 whose fields are in range opens the Event Ring empty. -/
theorem State.evCfg_open {s : State} {f : Func} {n : Fin 4} {v : DWord} (host : f ≠ .bridge) (closed : (s.evRing f n).opened = false)
    (openBit : bitOf v 31 = true) (least : 4 ≤ fieldNat v 24 4) (most : fieldNat v 24 4 ≤ 12)
    (base : baseOk f (s.evRing f n).baseLo (s.evRing f n).baseHi (fieldNat v 24 4) = true) :
    s.evCfg f n v = (s.modEvRing f n (fun x =>
      { x with opened := true, size := fieldNat v 24 4, modInterval := fieldNat v 8 8, modCount := fieldNat v 0 8
               actInterval := fieldNat v 8 8, actCount := fieldNat v 0 8, ep := 0, hci := 0, ticksMsg := 0, sinceMsg := 0
               tickDue := false })).restateRing f n := by
  cases f with
  | bridge => exact absurd rfl host
  | mfA | mfB | buoy => simp [State.evCfg, closed, openBit, least, most, base]

/-! Ring-entry reads (R163, R197 to R200). -/

/-- R197, R198: the read of a wanted index that arrives alone is a demand read. -/
theorem State.fetchItems_demand {s : State} {f : Func} {r : Fin 65} {i : Half} (host : f ≠ .bridge)
    (wanted : (s.ring f r).wanted = some i) (x : FetchItem) : s.fetchItems f r [x] = (s.demandItem f r i x).1 := by
  cases f with
  | bridge => exact absurd rfl host
  | mfA | mfB | buoy => simp [State.fetchItems, wanted]

/-- RING_FETCH_COMPLETE with one item acts as a demand read where the ring may fetch and wants an index. -/
theorem ringFetchComplete_completes {s : State} {f : Func} {r : Fin 65} {i : Half} (may : s.mayFetch f r = true) (host : f ≠ .bridge)
    (wanted : (s.ring f r).wanted = some i) (x : FetchItem) : Completes (.ringFetchComplete f r [x]) s (s.demandItem f r i x).1 :=
  .of_effect rfl ((if_pos may).trans (State.fetchItems_demand host wanted x))

/-- R200: an entry whose Cycle bit is that of its index is staged. -/
theorem State.demandItem_match {s : State} {f : Func} {r : Fin 65} {i : Half} {e : Entry}
    (cycle : ecycle e = cycleAt (s.ring f r).size i) :
    (s.demandItem f r i (.entry e)).1 = s.modRing f r (fun x => x.stage i (some e) .memory) := by
  simp [State.demandItem, cycle]

/-- R200: an entry whose Cycle bit is another is a ring fault of kind 4, and the reads stop until the next doorbell. -/
theorem State.demandItem_mismatch {s : State} {f : Func} {r : Fin 65} {i : Half} {e : Entry}
    (cycle : ecycle e ≠ cycleAt (s.ring f r).size i) :
    (s.demandItem f r i (.entry e)).1 = (s.ringFault f r.val 4 i).modRing f r (fun x => { x with waitDoorbell := true }) := by
  simp [State.demandItem, cycle]

end Sys2Proof.Machine

open Sys2Proof Sys2Proof.Machine

/-- Settles O22: pushes, set-up writes and ring-entry reads act as their lemmas say. -/
theorem entriesReachTheirRings : Obligations.EntriesReachTheirRings := by
  unfold Obligations.EntriesReachTheirRings
  refine ⟨?window, ?push, ?badCount, ?openRing, ?refused, ?moderation, ?openEvents, ?staged, ?mismatch,
    fun _ _ _ _ may host wanted => ringFetchComplete_completes may host wanted (.poisoned false),
    fun _ _ _ _ may host wanted => ringFetchComplete_completes may host wanted (.poisoned true)⟩
  case window =>
    exact fun s s1 p f w v rings host => .of_effect rfl ((State.ringAccess_at rings _).trans (State.pushWindow_host host s1 w v))
  case push =>
    exact fun s s1 p f ring v rings host format named opened one window =>
      .of_effect rfl ((State.ringAccess_at rings _).trans (State.ringPush_one host format named opened one window))
  case badCount =>
    exact fun s s1 p f ring v rings host format named opened bad =>
      .of_effect rfl ((State.ringAccess_at rings _).trans (State.ringPush_badCount host format named opened bad))
  case openRing =>
    intro s s1 p f r v rings has closed openBit least most mode evt base events
    exact .of_effect rfl ((State.ringAccess_at rings _).trans
      ((State.ringSetup_closed has closed _ _ v).trans (State.ringCfg_open openBit least most mode evt base events)))
  case refused =>
    exact fun s s1 p f r v rings has opened =>
      .of_effect rfl ((State.ringAccess_at rings _).trans (State.ringSetup_opened has opened _ _ v))
  case moderation =>
    exact fun s s1 p f n v rings opened => .of_effect rfl ((State.ringAccess_at rings _).trans (State.evCfg_opened opened v))
  case openEvents =>
    exact fun s s1 p f n v rings host closed openBit least most base =>
      .of_effect rfl ((State.ringAccess_at rings _).trans (State.evCfg_open host closed openBit least most base))
  case staged =>
    exact fun s f r i e may host wanted cycle =>
      State.demandItem_match cycle ▸ ringFetchComplete_completes may host wanted (.entry e)
  case mismatch =>
    exact fun s f r i e may host wanted cycle =>
      State.demandItem_mismatch cycle ▸ ringFetchComplete_completes may host wanted (.entry e)

end

section
/-! Transfers started and ended, and the reads of their data (O27). -/

namespace Sys2Proof.Machine

/-! A ring and its transfer in progress. -/

@[simp] theorem State.modRing_ring_self (s : State) (f : Func) (r : Fin 65) (g : Ring → Ring) :
    (s.modRing f r g).ring f r = g (s.ring f r) := by
  simp [State.modRing, State.ring]

@[simp] theorem State.modCur_ring_self (s : State) (f : Func) (r : Fin 65) (g : Transfer → Transfer) :
    (s.modCur f r g).ring f r = { s.ring f r with cur := (s.ring f r).cur.map g } := State.modRing_ring_self _ _ _ _

/-! The head of a running ring (R222, R230, R245). -/

/-- R245: the head completes with the first status that applies. -/
theorem State.transferStart_judged {s s1 : State} {f : Func} {r : Fin 65} {l : List Staged} {st : Status} {sub : Nat}
    (turn : s1 = (s.flushUnserved f r).resumeParked f r) (runs : s1.ringRuns f r = true) (head : (s1.ring f r).head = some l)
    (transfer : markerSeq (l.filterMap (fun x => x.entry)) = false) (judged : s1.judge f r l = some (st, sub)) :
    s.transferStart f r = s1.completeHead f r l st sub := by
  subst turn
  simp [State.transferStart, runs, head, transfer, judged]

/-- R222, R232: on a bulk or control ring the head starts where its endpoint, its port and its function let it. -/
theorem State.transferStart_starts {s s1 : State} {f : Func} {r : Fin 65} {l : List Staged} {d : DevRec} {e : EpRec}
    (turn : s1 = (s.flushUnserved f r).resumeParked f r) (runs : s1.ringRuns f r = true) (head : (s1.ring f r).head = some l)
    (transfer : markerSeq (l.filterMap (fun x => x.entry)) = false) (passes : s1.judge f r l = none)
    (bound : s1.boundEp (s1.ring f r) = some (d, e)) (aperiodic : (s1.ring f r).xtype % 2 = 0) (masters : s1.canMaster f = true)
    (carries : s1.portCarries d.port = true) (free : s1.endpointBusy f r = false) :
    s.transferStart f r = s1.startTransfer f r l e.maxp := by
  subst turn
  simp [State.transferStart, runs, head, transfer, passes, bound, aperiodic, masters, carries, free]

/-- R230: a marker of the named TYPE at the head of a running ring completes SUCCESS where no other status applies. -/
theorem State.marker_succeeds {s s1 : State} {f : Func} {r : Fin 65} {l : List Staged} {ty : Nat} (turn : s1 = s.flushUnserved f r)
    (runs : s1.ringRuns f r = true) (head : (s1.ring f r).head = some l) (type : headType l = some ty) (passes : s1.judge f r l = none) :
    s.marker f r ty = s1.completeHead f r l .success 0 := by
  subst turn
  simp [State.marker, runs, head, type, passes]

/-! The end of a transaction (R234 to R237, R241). -/

/-- The state in which the end of a ring's transaction is looked at: it has left the bus. -/
def State.offBus (s : State) (f : Func) (r : Fin 65) : State := s.modCur f r (fun t => { t with onBus := false, split := false })

@[simp] theorem State.offBus_ring (s : State) (f : Func) (r : Fin 65) : (s.offBus f r).ring f r =
    { s.ring f r with cur := (s.ring f r).cur.map (fun t => { t with onBus := false, split := false }) } :=
  State.modCur_ring_self _ _ _ _

/-- R241: a transfer whose device has left ends GONE when its last transaction stalls. -/
theorem State.transactionEnd_gone {s : State} {f : Func} {r : Fin 65} {t : Transfer} {sub : Nat} (cur : (s.ring f r).cur = some t)
    (bus : t.onBus = true) (own : s.bcn.orphans.any (fun x => x.isOf f r) = false) (gone : t.goneSub = some sub) :
    s.transactionEnd f r .stall = (s.offBus f r).endTransfer f r .gone sub := by
  have moves (q : Seat) : (s.offBus f r).lastMoves f r t q .stall = s.offBus f r := ite_self _
  have ends : (s.offBus f r).endIfDue f r = (s.offBus f r).endTransfer f r .gone sub := by
    simp [State.endIfDue, cur, gone]
  rw [← ends]
  simp only [State.transactionEnd, own, cur, bus, gone]
  exact congrArg (fun u => u.endIfDue f r) (moves _)

/-- R234 to R237: a transaction of a bound ring whose device and owner stand moves its transfer. -/
theorem State.transactionEnd_moves {s : State} {f : Func} {r : Fin 65} {t : Transfer} {d : DevRec} {ep : EpRec}
    (cur : (s.ring f r).cur = some t) (bus : t.onBus = true) (own : s.bcn.orphans.any (fun x => x.isOf f r) = false)
    (bound : s.boundEp (s.ring f r) = some (d, ep)) (here : t.goneSub = none) (owned : t.disowned = false) (e : UsbEnd) :
    s.transactionEnd f r e = (s.offBus f r).transactionMoves f r t (seatOf d ep) e := by
  simp only [State.transactionEnd, own, cur, bus, bound, here, owned]
  rfl

/-- R234: a NAK of an isochronous endpoint is a PID that is not allowed there, and of another has its transaction tried again. -/
theorem State.transactionMoves_nak (s : State) (f : Func) (r : Fin 65) (t : Transfer) (q : Seat) :
    s.transactionMoves f r t q .nak =
      if (s.ring f r).xtype = 1 then s.xactError f r t .xactError 4 else s.nakked f r := rfl

/-- R235: a data packet where one is due lands as such, outside a split transaction. -/
theorem State.transactionMoves_data {s : State} {f : Func} {r : Fin 65} {t : Transfer} {q : Seat} (due : t.tokenIn (s.ring f r) = true)
    (whole : q.split = false) (bytes : List Byte) (toggle : Bool) (bad : List Nat) :
    s.transactionMoves f r t q (.data bytes toggle bad) = s.dataIn f r t q.ep bytes toggle bad := by
  simp [State.transactionMoves, due, whole]

/-- R232: an acknowledgement where no data is due and no PING was sent accepts the packet sent, outside a split transaction. -/
theorem State.transactionMoves_ack {s : State} {f : Func} {r : Fin 65} {t : Transfer} {q : Seat} (due : t.tokenIn (s.ring f r) = false)
    (noPing : q.ep.ping = false) (whole : q.split = false) :
    s.transactionMoves f r t q .ack = s.dataOut f r t q.ep false := by
  simp [State.transactionMoves, due, noPing, whole]

/-! Reads of transfer data (R163, R229, R240, R243). -/

/-- Bytes without a bad word are marked sound. -/
theorem markBytes_sound (bytes : List Byte) : markBytes bytes [] = bytes.map (fun b => (b, false)) := by
  calc markBytes bytes [] = bytes.zipIdx.map (fun p => (p.1, false)) := by simp [markBytes]
    _ = (bytes.zipIdx.map Prod.fst).map (fun b => (b, false)) := by rw [List.map_map]; rfl
    _ = bytes.map (fun b => (b, false)) := by rw [List.zipIdx_map_fst]

theorem State.awaits_asked {s : State} {f : Func} {t : Transfer} {stage : Stage} (host : f ≠ .bridge) (inStage : t.stage = stage)
    (asked : t.asked = true) (masters : s.canMaster f = true) : s.awaits f t stage = true := by
  simp [State.awaits, host, inStage, asked, masters]

/-- R163, R243: the data read for the next OUT packet is taken. -/
theorem State.outDataRead_taken {s : State} {f : Func} {r : Fin 65} {t : Transfer} {d : DevRec} {ep : EpRec}
    (cur : (s.ring f r).cur = some t) (bound : s.boundEp (s.ring f r) = some (d, ep)) (awaits : s.awaits f t .data = true)
    (fresh : t.outData = none) {bytes : List Byte} (length : bytes.length = t.packetLen ep.maxp) :
    s.outDataRead f r (.data bytes []) = s.modCur f r (fun t => { t with outData := some (bytes, false) }) := by
  have taken : (markBytes (bytes ++ List.replicate (t.packetLen ep.maxp) 0) []).take (t.packetLen ep.maxp)
      = bytes.map (fun b => (b, false)) := by
    rw [markBytes_sound, List.map_append]
    exact List.take_left' (by simpa using length)
  have values : (bytes.map (fun b => (b, false))).map Prod.fst = bytes := by simp [Function.comp_def]
  have sound : (bytes.map (fun b => (b, false))).any Prod.snd = false := by simp
  simp only [State.outDataRead, cur, bound, awaits, fresh, taken, values, sound]
  rfl

/-- R240: a poisoned read of OUT data ends the transfer POISONED. -/
theorem State.outDataRead_poisoned {s : State} {f : Func} {r : Fin 65} {t : Transfer} {d : DevRec} {ep : EpRec}
    (cur : (s.ring f r).cur = some t) (bound : s.boundEp (s.ring f r) = some (d, ep)) (awaits : s.awaits f t .data = true)
    (fresh : t.outData = none) :
    ∃ a : QWord, s.outDataRead f r .poisoned = (s.fnReadFault f 4 a).endTransfer f r .poisoned 3 := by
  refine ⟨((pieces t.bufs t.moved (t.packetLen ep.maxp)).head?.map Prod.fst).getD 0, ?_⟩
  simp only [State.outDataRead, cur, bound, awaits, fresh]
  rfl

/-- R229: a LINK list with an element that R229 forbids ends its transfer MALFORMED. -/
theorem State.listRead_malformed {s : State} {f : Func} {r : Fin 65} {t : Transfer} {d : DevRec} {ep : EpRec} {x : Entry}
    {rest : List Entry} {bytes : List Byte} (cur : (s.ring f r).cur = some t) (bound : s.boundEp (s.ring f r) = some (d, ep))
    (awaits : s.awaits f t .lists = true) (todo : t.todo = x :: rest) (bad : listElements false bytes (fieldNat x[2] 0 7) = none) :
    s.listRead f r (.data bytes []) = s.endTransfer f r .malformed 0 := by
  simp [State.listRead, cur, bound, awaits, todo, bad]

end Sys2Proof.Machine

open Sys2Proof Sys2Proof.Machine

/-- Settles O27: the head of a ring, the end of a transaction and the reads of transfer data act as their lemmas say. -/
theorem transfersRunAndEnd : Obligations.TransfersRunAndEnd := by
  unfold Obligations.TransfersRunAndEnd
  refine ⟨?judged, ?starts, ?noop, ?workPost, ?transaction, ?outData, ?linkList⟩
  case judged =>
    exact fun s s1 f r l st sub turn runs head transfer judged =>
      .of_effect rfl (State.transferStart_judged turn runs head transfer judged)
  case starts =>
    exact fun s s1 f r l d e turn runs head transfer passes bound aperiodic masters carries free =>
      .of_effect rfl (State.transferStart_starts turn runs head transfer passes bound aperiodic masters carries free)
  case noop => exact fun s s1 f r l turn runs head type passes => .of_effect rfl (State.marker_succeeds turn runs head type passes)
  case workPost => exact fun s s1 f r l turn runs head type passes => .of_effect rfl (State.marker_succeeds turn runs head type passes)
  case transaction =>
    intro s s1 f r t d ep cur bus own left
    subst left
    refine ⟨fun sub gone => .of_effect rfl (congrArg State.finishRemovals (State.transactionEnd_gone cur bus own gone)), ?_⟩
    intro bound here owned
    have completes {e : UsbEnd} {u : State} (h : (s.offBus f r).transactionMoves f r t (seatOf d ep) e = u) :
        Completes (.transactionEnd f r e) s u.finishRemovals :=
      .of_effect rfl (congrArg State.finishRemovals ((State.transactionEnd_moves cur bus own bound here owned e).trans h))
    have xtype : ((s.offBus f r).ring f r).xtype = (s.ring f r).xtype := by rw [State.offBus_ring]; rfl
    have token : t.tokenIn ((s.offBus f r).ring f r) = t.tokenIn (s.ring f r) := by rw [State.offBus_ring]; rfl
    refine ⟨completes rfl, ?nak, ?isoNak, fun _ => completes rfl, fun _ => completes rfl, ?data, ?ack⟩
    case nak => exact fun other => completes (if_neg (xtype ▸ other))
    case isoNak => exact fun iso => completes (if_pos (xtype.trans iso))
    case data =>
      exact fun bytes toggle bad due whole => completes (State.transactionMoves_data (token.trans due) whole bytes toggle bad)
    case ack => exact fun due noPing whole => completes (State.transactionMoves_ack (token.trans due) noPing whole)
  case outData =>
    intro s f r t d ep cur bound host data asked fresh masters
    have awaits := State.awaits_asked host data asked masters
    refine ⟨fun bytes length => .of_effect rfl (State.outDataRead_taken cur bound awaits fresh length), ?_⟩
    obtain ⟨a, poisoned⟩ := State.outDataRead_poisoned cur bound awaits fresh
    exact ⟨a, .of_effect rfl poisoned⟩
  case linkList =>
    exact fun s f r t d ep x rest bytes cur bound host masters lists asked todo bad =>
      .of_effect rfl (State.listRead_malformed cur bound (State.awaits_asked host lists asked masters) todo bad)

end

section
/-! Doorbells (O21). -/

namespace Sys2Proof.Machine

/-- A ring of a function is named by its own number (Table 7.1). -/
theorem ringOf_val {f : Func} {n : Nat} {ring : Fin 65} (named : ringOf f n = some ring) : ring.val = n := by
  unfold ringOf at named
  split at named
  · split at named
    · exact congrArg Fin.val (Option.some.inj named).symm
    · cases named
  · cases named

/-- R194: a doorbell with a reserved bit set is a ring fault of kind 1. -/
theorem State.ringDoorbell_reserved {v : DWord} (reserved : fieldNat v 8 8 ≠ 0) (s : State) (f : Func) :
    s.ringDoorbell f v = s.ringFault f (fieldNat v 0 8) 1 (hiHalf v) := if_pos reserved

/-- R192: the doorbell of an open ring carries a producer index. -/
theorem State.ringDoorbell_ring {s : State} {f : Func} {ring : Fin 65} {v : DWord} (format : fieldNat v 8 8 = 0)
    (named : ringOf f (fieldNat v 0 8) = some ring) (opened : (s.ring f ring).opened = true) :
    s.ringDoorbell f v = s.produce f ring (hiHalf v) := by
  have number := ringOf_val named
  have noEvents : ¬(0xE0 ≤ fieldNat v 0 8 ∧ fieldNat v 0 8 < 0xE4) := by omega
  simp [State.ringDoorbell, format, noEvents, named, opened]

/-- R193: the doorbell of an open Event Ring carries host software's consumer index. -/
theorem State.ringDoorbell_events {s : State} {f : Func} {n : Fin 4} {v : DWord} (format : fieldNat v 8 8 = 0)
    (number : fieldNat v 0 8 = 0xE0 + n.val) (opened : (s.evRing f n).opened = true) :
    s.ringDoorbell f v = s.consumeEvents f n (hiHalf v) := by
  have events : 0xE0 + n.val < 0xE4 := by omega
  simp [State.ringDoorbell, format, number, events, opened]

/-- R192: a producer index within the ring's window is accepted. -/
theorem State.produce_inside {s : State} {f : Func} {ring : Fin 65} {d : Half}
    (window : idxDist d (s.ring f ring).ci ≤ 2 ^ (s.ring f ring).size) :
    s.produce f ring d = s.modRing f ring (fun r => r.advance d) := if_pos (decide_eq_true window)

/-- R192: a producer index outside the ring's window is a ring fault of kind 2. -/
theorem State.produce_outside {s : State} {f : Func} {ring : Fin 65} {d : Half}
    (outside : 2 ^ (s.ring f ring).size < idxDist d (s.ring f ring).ci) :
    s.produce f ring d = s.ringFault f ring.val 2 d := if_neg (by simp [Ring.accepts, outside])

/-- R193: a consumer index within the written events is the host's new CI, and held events and completions follow. -/
theorem State.consumeEvents_inside {s : State} {f : Func} {n : Fin 4} {d : Half}
    (window : idxDist d (s.evRing f n).hci ≤ idxDist (s.evRing f n).ep (s.evRing f n).hci) :
    s.consumeEvents f n d =
      (((s.modEvRing f n (fun x => { x with hci := d })).evFullUpdate f n).flushHeld f n (s.evRing f n).held.length).flushUnservedFn f :=
  if_pos window

@[simp] theorem Ring.advance_ci (r : Ring) (d : Half) : (r.advance d).ci = r.ci := rfl

theorem Ring.advance_pi (r : Ring) (d : Half) :
    (r.advance d).pi = if idxDist r.pi r.ci < idxDist d r.ci then d else r.pi := rfl

/-- R192: PI moves up to an accepted index that is further from CI, and never back. -/
theorem Ring.advance_pi_dist (r : Ring) (d : Half) : idxDist (r.advance d).pi r.ci = max (idxDist r.pi r.ci) (idxDist d r.ci) := by
  rw [Ring.advance_pi]
  split
  case isTrue further => exact (max_eq_right further.le).symm
  case isFalse noFurther => exact (max_eq_left (not_lt.mp noFurther)).symm

end Sys2Proof.Machine

open Sys2Proof Sys2Proof.Machine

/-- Settles O21: the doorbell of an open ring acts by its window, a reserved bit is a fault, and PI never moves back. -/
theorem doorbellsMoveIndices : Obligations.DoorbellsMoveIndices := by
  unfold Obligations.DoorbellsMoveIndices
  refine ⟨?inside, ?outside, ?consumer, ?reserved, fun r d => ⟨r.advance_ci d, r.advance_pi_dist d⟩⟩
  case inside =>
    exact fun s s1 p f ring v rings format named opened window =>
      .of_effect rfl ((State.ringAccess_at rings _).trans
        ((State.ringDoorbell_ring format named opened).trans (State.produce_inside window)))
  case outside =>
    exact fun s s1 p f ring v rings format named opened outside =>
      .of_effect rfl ((State.ringAccess_at rings _).trans
        ((State.ringDoorbell_ring format named opened).trans (State.produce_outside outside)))
  case consumer =>
    exact fun s s1 p f n v rings format number opened window =>
      .of_effect rfl ((State.ringAccess_at rings _).trans
        ((State.ringDoorbell_events format number opened).trans (State.consumeEvents_inside window)))
  case reserved =>
    exact fun s s1 p f v rings reserved =>
      .of_effect rfl ((State.ringAccess_at rings _).trans (State.ringDoorbell_reserved reserved s1 f))

end

section
/-! Command Ring entries that end at once, and REBIND (O23, O24). -/

namespace Sys2Proof.Machine

/-! Entries that carry out nothing (R205, R207, R210, R211). -/

/-- R207: a poisoned entry at the head completes POISONED, without its tag and its TYPE. -/
theorem State.undefinedHead_poisoned {s : State} {f : Func} {i : Half} {k : CopyKind}
    (head : s.cmdHead f = some { index := i, entry := none, kind := k }) :
    s.undefinedHead f = (s.consume f 0 1).postEvent f 0 (cmdEvent i 0 0 .poisoned 0 0) := by
  simp [State.undefinedHead, head]

/-- R205, R211: an undefined TYPE or ACTION at the head completes MALFORMED. -/
theorem State.undefinedHead_undefined {s s1 : State} {f : Func} {i : Half} {e : Entry} (issues : s.Issues f (etype e) i e s1)
    (undefined : cmdDefined e = false) : s.undefinedHead f = s1.completeCmd f i e .malformed 0 0 := by
  obtain ⟨k, head⟩ := issues.1
  have run : s.undefinedHead f =
      s.runCommand f (etype e) (fun e => !cmdDefined e) (fun s _ => .done s .malformed 0 0) := by
    simp only [State.undefinedHead, head]
  rw [run, State.runCommand_issues issues (by simp [undefined])]
  rfl

/-- R210: a command of any TYPE whose tag is in the window completes DUPLICATE with the earlier status, and its own rules do not act. -/
theorem State.runCommand_duplicate {s : State} {f : Func} {ty : Nat} {i : Half} {e : Entry} {k : CopyKind} {st : Nat}
    {pick : Entry → Bool} (head : s.cmdHead f = some { index := i, entry := some e, kind := k }) (type : etype e = ty)
    (picked : pick e = true) (known : (s.fn f).tagStatus (cmdTag e) = some st) (act : State → Entry → CmdEnd) :
    s.runCommand f ty pick act =
      (s.consume f 0 1).postEvent f 0 (cmdEvent i (cmdTag e) ty .duplicate (BitVec.ofNat 32 st) 0) := by
  simp [State.runCommand, head, type, picked, known]

/-! NOOP (R213). -/

/-- R213: NOOP answers by its parameters, all of them reserved. -/
theorem noop_completes {s s1 : State} {f : Func} {i : Half} {e : Entry} (issues : s.Issues f 0x01 i e s1) :
    Completes (.noop f) s
      (s1.completeCmd f i e (if paramsZero e [0, 1, 2, 3, 4, 5] then .success else .malformed) 0 0) :=
  .of_effect rfl (State.runCommand_done issues (by split <;> rfl))

/-! REBIND (R209, R215). -/

/-- A command whose own rules park it keeps its tag among the parked ones (R210, R211). -/
theorem State.runCommand_parked {s s1 u : State} {f : Func} {ty : Nat} {i : Half} {e : Entry} {act : State → Entry → CmdEnd}
    (issues : s.Issues f ty i e s1) (parked : act s1 e = .parked u) :
    s.runCommand f ty (fun _ => true) act = u.modFn f (fun x => { x with parkedTags := x.parkedTags ++ [cmdTag e] }) := by
  rw [State.runCommand_issues issues rfl, parked]
  rfl

/-- What a REBIND that starts parks on its ring (R215): its tag, the drain mark at PI and the binding it asks for. -/
def State.rebindOf (s : State) (f : Func) (index : Half) (e : Entry) (ring : Fin 65) : Rebind :=
  { tag := cmdTag e, index := index, mark := (s.ring f ring).pi, newBind := e[1], inst := s.presentInst (fieldNat e[1] 16 12) }

/-- R215: a REBIND of a ring that carries no Lamp and has none parked parks there. -/
theorem State.rebindStart_parks {s : State} {f : Func} {e : Entry} {ring : Fin 65} (named : ringOf f (fieldNat e[0] 0 8) = some ring)
    (high : fieldNat e[0] 8 24 = 0) (binding : e[1] &&& ~~~bindMask = 0) (params : paramsZero e [2, 3, 4, 5] = true)
    (transfers : ring.val ≠ 0) (noLamp : s.carriesLamp f ring = false) (free : (s.ring f ring).rebind = none) (index : Half) :
    s.rebindStart f index e = .parked (s.modRing f ring (fun r => { r with rebind := some (s.rebindOf f index e ring) })) := by
  simp [State.rebindStart, State.rebindOf, named, high, binding, params, transfers, noLamp, free]

@[simp] theorem State.modRing_parkedTags (s : State) (f : Func) (r : Fin 65) (g : Ring → Ring) :
    ((s.modRing f r g).fn f).parkedTags = (s.fn f).parkedTags := by simp [State.modRing]

/-- A change that leaves a function's rings leaves each of them. -/
theorem State.modFn_ring_of_rings {s : State} {f : Func} {g : FuncState → FuncState} (keeps : (g (s.fn f)).rings = (s.fn f).rings)
    (r : Fin 65) : (s.modFn f g).ring f r = s.ring f r := by simp [State.ring, keeps]

/-- R215: REBIND ends when its ring has drained to the mark, and the Buoy is not held (R482). -/
theorem rebindDrained_completes {s : State} {f : Func} {ring : Fin 65} {b : Rebind} (parked : (s.ring f ring).rebind = some b)
    (drained : (s.ring f ring).drained b.mark = true) (thawed : s.isHeld f = false) :
    Completes (.rebindDrained f ring) s (s.rebindEnd f ring b) :=
  .of_effect rfl (by simp [parked, drained, thawed])

end Sys2Proof.Machine

open Sys2Proof Sys2Proof.Machine

/-- Settles O23: NOOP succeeds with all its parameters zero, and is malformed otherwise. -/
theorem noopSucceeds : Obligations.NoopSucceeds := by
  unfold Obligations.NoopSucceeds
  intro s s1 f i e issues
  have completes := noop_completes issues
  exact ⟨fun zero => by simpa [zero] using completes, fun nonzero => by simpa [nonzero] using completes⟩

/-- Settles O24: heads that carry out nothing end by R205, R207 and R210, and REBIND parks until its ring has drained. -/
theorem commandRingEntriesEnd : Obligations.CommandRingEntriesEnd := by
  unfold Obligations.CommandRingEntriesEnd
  refine ⟨?poisoned, ?undefined, ?duplicate, ?parks, ?drained⟩
  case poisoned => exact fun s f i k head => .of_effect rfl (State.undefinedHead_poisoned head)
  case undefined => exact fun s s1 f i e issues undefined => .of_effect rfl (State.undefinedHead_undefined issues undefined)
  case duplicate =>
    exact fun s f i e k st head type known => .of_effect rfl (State.runCommand_duplicate head type rfl known _)
  case parks =>
    intro s s1 f i e ring issues named high binding params transfers noLamp free
    refine ⟨_, Completes.of_effect rfl (State.runCommand_parked issues
      (State.rebindStart_parks named high binding params transfers noLamp free _)), ?tags, ?parked⟩
    case tags => simp
    case parked =>
      rw [State.modFn_ring_of_rings rfl, State.modRing_ring_self]
      rfl
  case drained => exact fun s f ring b parked drained thawed => rebindDrained_completes parked drained thawed

end

section
/-! The Light List walk, the Bulk Circuit, and the commands that admit and remove Lamps (O26). -/

namespace Sys2Proof.Machine

/-! A step of the walk, and a visit of the Bulk Circuit after it (R257, R268). -/

/-- R257: a walk that reaches a Lamp with a transaction to issue ends its step there. -/
theorem State.walk_issues {s : State} {fa : Fin 4} {ns : Nat} (works : s.engineOn fa = true) (walking : s.bcn.walked[fa] = false)
    (issues : (s.walkFrom fa ns (s.walkOrder fa)).2 = true) : s.walk fa ns = (s.walkFrom fa ns (s.walkOrder fa)).1 := by
  simp [State.walk, works, walking, issues]

/-- R268: where no Lamp is due the walk is over at once. -/
theorem State.walk_noLamps {s : State} {fa : Fin 4} (works : s.engineOn fa = true) (walking : s.bcn.walked[fa] = false)
    (dark : s.lamps fa = []) (ns : Nat) :
    s.walk fa ns = { s with bcn := { s.bcn with walked := s.bcn.walked.set fa true } } := by
  have order : s.walkOrder fa = [] := by simp [State.walkOrder, dark]
  simp [State.walk, works, walking, order, State.walkFrom, dark]

/-- R268: after the walk a visit goes to the rings of the circuit in turn. -/
theorem State.bulkVisit_walked {s : State} {fa : Fin 4} (works : s.engineOn fa = true) (walked : s.bcn.walked[fa] = true) (ns : Nat) :
    s.bulkVisit fa ns = s.bulkFrom fa ns (s.bulkOrder fa) := by
  simp [State.bulkVisit, works, walked]

/-- R268: the circuit waits for the end of the walk. -/
theorem State.bulkVisit_walking {s : State} {fa : Fin 4} (walking : s.bcn.walked[fa] = false) (ns : Nat) : s.bulkVisit fa ns = s := by
  simp [State.bulkVisit, walking]

/-! LAMP_ADMIT (R262). -/

/-- R293 excludes phases of split Lamps only. -/
theorem Lamp.excluded_of_not_split {x : Lamp} (high : x.split = false) : x.excluded = false := by simp [Lamp.excluded, high]

/-- The parameters of a LAMP_ADMIT are well formed, and it gives its own phase (Table 9.4, R262 item 1). -/
structure AdmitFormat (e : Entry) : Prop where
  reserved : fieldNat e[0] 8 24 = 0 ∧ fieldNat e[1] 28 3 = 0 ∧ fieldNat e[1] 4 12 = 0 ∧ fieldNat e[2] 16 16 = 0
  params : paramsZero e [3, 4, 5] = true
  period : fieldNat e[1] 0 4 ≤ 12
  given : bitOf e[1] 31 = false
  phase : fieldNat e[1] 16 12 < 2 ^ fieldNat e[1] 0 4

/-- A function's ring may take a Lamp (R262 items 1 and 2): it is an open ring bound to a periodic endpoint, with no Lamp and no REBIND
parked on it. -/
structure State.TakesLamp (s : State) (f : Func) (ring : Fin 65) : Prop where
  transfers : ring.val ≠ 0
  opened : (s.ring f ring).opened = true
  free : s.carriesLamp f ring = false
  settled : (s.ring f ring).rebind = none
  bound : (s.ring f ring).bound = true
  periodic : (s.ring f ring).xtype ≠ 0 ∧ (s.ring f ring).xtype ≠ 2

/-- R262: a new Lamp of a high-speed endpoint, on a port that its function owns, is admitted at the phase given where its placement
passes every limit. -/
theorem State.lampAdmit_new {s : State} {f : Func} {e : Entry} {ring : Fin 65} {d : DevRec} {er : EpRec} {n : Nat} {p : Placement}
    {x : Lamp} (named : ringOf f (fieldNat e[0] 0 8) = some ring) (format : AdmitFormat e) (takes : s.TakesLamp f ring)
    (endpoint : s.boundEp (s.ring f ring) = some (d, er)) (speed : d.speed = .high) (high : d.isSplit = false)
    (owned : s.portOwner d.port = f) (fresh : s.lampOn (s.ring f ring).dev (s.ring f ring).ep (s.ring f ring).dirIn = none)
    (number : s.freeLamp (handleFa (s.ring f ring).dev) = some n)
    (lamp : x = s.lampFor f ring d er (fieldNat e[1] 0 4) (fieldNat e[1] 16 12) (fieldNat e[2] 0 16))
    (placed : s.choose (handleFa (s.ring f ring).dev) x false (fieldNat e[1] 16 12) = some p) (fits : p.failure = none) :
    s.lampAdmit f e =
      .done (s.putLamp (handleFa (s.ring f ring).dev) n { x with phase := p.phase }) .success
        (lampResult (handleFa (s.ring f ring).dev) p.phase n)
        (putField p.worstBus 16 16 ||| putField ({ x with phase := p.phase } : Lamp).charge 0 16) := by
  obtain ⟨⟨res0, res1, res2, res3⟩, params, period, given, phase⟩ := format
  obtain ⟨transfers, opened, free, settled, bound, control, bulk⟩ := takes
  have allowed : x.excluded = false := Lamp.excluded_of_not_split (lamp ▸ high)
  subst lamp
  simp [State.lampAdmit, named, res0, res1, res2, res3, params, period, given, phase, transfers, opened, free, settled, bound, control,
    bulk, endpoint, owned, speed, fresh, allowed, number, placed, fits]

/-! LAMP_REMOVE (R265). -/

/-- A key's value changed in place is the value that its key then finds. -/
theorem assocGet_map_same {α : Type} (l : List (Nat × α)) (k : Nat) (g : α → α) :
    assocGet (l.map (fun x => if x.1 = k then (x.1, g x.2) else x)) k = (assocGet l k).map g := by
  induction l with
  | nil => rfl
  | cons x rest ih =>
    by_cases same : x.1 = k
    · simp [assocGet, same]
    · simp [assocGet, same, ih]

@[simp] theorem State.modLamp_fn (s : State) (fa : Fin 4) (i : Nat) (g : Lamp → Lamp) (f : Func) : (s.modLamp fa i g).fn f = s.fn f := rfl

/-- A Lamp changed is found changed under its number. -/
@[simp] theorem State.modLamp_lamp_self (s : State) (fa : Fin 4) (i : Nat) (g : Lamp → Lamp) :
    assocGet ((s.modLamp fa i g).lamps fa) i = (assocGet (s.lamps fa) i).map g := by
  rw [State.modLamp, State.modLamps_lamps_self, assocGet_map_same]

/-- R265: the removal of the Lamp that a ring carries waits for the next tick. -/
theorem State.lampRemove_attached {s : State} {f : Func} {e : Entry} {ring : Fin 65} {fa : Fin 4} {n : Nat} {x : Lamp}
    (named : ringOf f (fieldNat e[0] 0 8) = some ring) (high : fieldNat e[0] 8 24 = 0) (params : paramsZero e [1, 2, 3, 4, 5] = true)
    (transfers : ring.val ≠ 0) (carried : s.lampOf f ring = some (fa, n, x)) :
    s.lampRemove f e = .started (s.modLamp fa n (fun y => { y with removing := y.removing ++ [f] })) := by
  simp [State.lampRemove, named, high, params, transfers, carried]

end Sys2Proof.Machine

open Sys2Proof Sys2Proof.Machine

/-- Settles O26: the walk and the Bulk Circuit share the engine as their lemmas say, and each Lamp command acts after the checks of
R211. -/
theorem lampsAndWalks : Obligations.LampsAndWalks := by
  unfold Obligations.LampsAndWalks
  refine ⟨?issues, ?noLamps, ?walked, ?walking, ?admission, ?remove, ?sample⟩
  case issues => exact fun s t works walking issues => .of_effect rfl (State.walk_issues works walking issues)
  case noLamps => exact fun s t works walking dark => .of_effect rfl (State.walk_noLamps works walking dark t.ns)
  case walked => exact fun s t works walked => .of_effect rfl (State.bulkVisit_walked works walked t.ns)
  case walking => exact fun s t _ walking => .of_effect rfl (State.bulkVisit_walking walking t.ns)
  case admission =>
    intro s s1 f i e ring d er n p issues named transfers res0 res1 res2 res3 params period given phase opened free settled bound control
      bulk endpoint speed high owned fresh number placed fits
    have admitted := State.lampAdmit_new named ⟨⟨res0, res1, res2, res3⟩, params, period, given, phase⟩
      ⟨transfers, opened, free, settled, bound, control, bulk⟩ endpoint speed high owned fresh number rfl placed fits
    exact ⟨_, rfl, rfl, rfl, .of_effect rfl (State.runCommand_done issues admitted)⟩
  case remove =>
    intro s s1 f i e ring fa n x issues named high params transfers carried
    have started := State.lampRemove_attached named high params transfers carried
    refine ⟨_, Completes.of_effect rfl (State.runCommand_started issues started), ?inProgress, ?waits⟩
    case inProgress => simp
    case waits => simp [Function.comp_def]
  case sample =>
    intro s s1 f i e ns issues zero
    exact .of_effect rfl (State.runCommand_done issues (by simp [zero]))

end

section
/-! PORT_CTL of a root port by its owner (O35). -/

namespace Sys2Proof.Machine

/-- A command that its function issues and its entry picks ends or goes on as its own rules do (R211). -/
theorem State.runCommand_picked {s s1 u : State} {f : Func} {ty : Nat} {i : Half} {e : Entry} {pick : Entry → Bool}
    {act : State → Entry → CmdEnd} {r : CmdEnd} (issues : s.Issues f ty i e s1) (picked : pick e = true) (does : act s1 e = r)
    (ends : State.cmdEnd f i e r = u := by rfl) : s.runCommand f ty pick act = u := by
  rw [State.runCommand_issues issues picked, does, ends]

/-- The ACTION of a PORT_CTL names its command (Table 10.2). -/
theorem portAction_of {a : Nat} {e : Entry} (action : fieldNat e[0] 4 4 = a) : portAction a e = true := beq_iff_eq.mpr action

/-! The checks of a PORT_CTL (R279, R290). -/

/-- A well-formed PORT_CTL names a port that is there and that its function owns (R279, R290). -/
structure State.ControlsPort (s : State) (f : Func) (e : Entry) (n : Fin 16) : Prop where
  params : portCtlOk e = true
  port : n = portParam e
  present : s.portGone n = false
  owned : s.portOwner n = f

section
variable {s : State} {f : Func} {e : Entry} {n : Fin 16} {allowed : Port → Bool}

/-- Table 10.2: in a state that allows it, the owner's ACTION acts. -/
theorem State.portCtl_allowed (controls : s.ControlsPort f e n) (allows : allowed (s.port n) = true) (act : State → Fin 16 → CmdEnd) :
    s.portCtl f e allowed act = act s n := by
  obtain ⟨params, rfl, present, owned⟩ := controls
  simp [State.portCtl, params, present, owned, allows]

/-- R279: in a state that does not allow it, the owner's ACTION ends with OUTCOME 1. -/
theorem State.portCtl_disallowed (controls : s.ControlsPort f e n) (forbids : allowed (s.port n) = false)
    (act : State → Fin 16 → CmdEnd) : s.portCtl f e allowed act = s.portDone n 1 := by
  obtain ⟨params, rfl, present, owned⟩ := controls
  simp [State.portCtl, params, present, owned, forbids]

/-- R290: a port that is not fitted or has failed is GONE. -/
theorem State.portCtl_gone (params : portCtlOk e = true) (gone : s.portGone (portParam e) = true) (act : State → Fin 16 → CmdEnd) :
    s.portCtl f e allowed act = .done s .gone 0 0 := by
  simp [State.portCtl, params, gone]

/-- R290: a port that is there and that another function owns is NOT_OWNER. -/
theorem State.portCtl_notOwner (params : portCtlOk e = true) (present : s.portGone (portParam e) = false)
    (other : s.portOwner (portParam e) ≠ f) (act : State → Fin 16 → CmdEnd) : s.portCtl f e allowed act = .done s .notOwner 0 0 := by
  simp [State.portCtl, params, present, other]

end

/-! PORT_CTL L1 (R300). -/

/-- R300: a device at depth 0 that is no hub and that no Lamp serves acknowledges L1, and its port enters it; a suspend in progress ends
with OUTCOME 1. -/
theorem State.portL1_ack {s : State} {n : Fin 16} {h : Nat} {d : DevRec} (root : s.rootDev n = some h) (dev : s.dev h = some d)
    (leaf : d.hub = false) (dark : s.lampServes n = false) (v : DWord) :
    s.portL1 n v .ack =
      (((s.emit (.usbLpm n (fieldNat v 0 4) (bitOf v 8))).modPort n (fun p =>
        { p with lpmResp := 1, lpmRwe := bitOf v 8, lpmBesl := fieldNat v 0 4, state := .l1, wait := .none })).finishPort n 1).portDone n 0 := by
  simp [State.portL1, root, dev, leaf, dark, lpmCodes]

end Sys2Proof.Machine

open Sys2Proof Sys2Proof.Machine

/-- Settles O35: the owner's ACTION acts or ends with OUTCOME 1 as the port's state says, behind the checks of R290. A second SUSPEND
during the suspend wait is the model's reading (log 39). -/
theorem portsAreControlled : Obligations.PortsAreControlled := by
  unfold Obligations.PortsAreControlled
  refine ⟨?owner, ?checks⟩
  case owner =>
    intro s s1 f i e n issues params port present owned
    have controls : s1.ControlsPort f e n := ⟨params, port, present, owned⟩
    refine ⟨?status, ?reset, ?resetForbidden, ?suspend, ?resume, ?disable, ?l1⟩
    case status =>
      exact fun action =>
        .of_effect rfl (State.runCommand_picked issues (portAction_of action) (State.portCtl_allowed controls rfl _))
    case reset =>
      exact fun action may =>
        .of_effect rfl (State.runCommand_picked issues (portAction_of action) (State.portCtl_allowed controls may _))
    case resetForbidden =>
      exact fun action may =>
        .of_effect rfl (State.runCommand_picked issues (portAction_of action) (State.portCtl_disallowed controls may _))
    case suspend =>
      exact fun action enabled => .of_effect rfl
        (State.runCommand_picked issues (portAction_of action) (State.portCtl_allowed controls (decide_eq_true enabled) _))
    case resume =>
      exact fun action suspended byOwner => .of_effect rfl
        (State.runCommand_picked issues (portAction_of action) (State.portCtl_allowed controls (by simp [suspended, byOwner]) _))
    case disable =>
      exact fun action may =>
        .of_effect rfl (State.runCommand_picked issues (portAction_of action) (State.portCtl_allowed controls may _))
    case l1 =>
      rintro d h action enabled root dev leaf dark u rfl
      exact .of_effect rfl (State.runCommand_picked issues (portAction_of action)
        ((State.portCtl_allowed controls (decide_eq_true enabled) _).trans (State.portL1_ack root dev leaf dark _)))
  case checks =>
    rintro s s1 f i e n issues params rfl action
    exact ⟨
      fun gone => .of_effect rfl (State.runCommand_picked issues (portAction_of action) (State.portCtl_gone params gone _)),
      fun present other =>
        .of_effect rfl (State.runCommand_picked issues (portAction_of action) (State.portCtl_notOwner params present other _))⟩

end

section
/-! DEV_ADDRESS and the commands that configure and release a device (O37). -/

namespace Sys2Proof.Machine

/-! DEV_ADDRESS of a root port's device (R281, R282). -/

/-- A well-formed DEV_ADDRESS without a parent names a root port that is there and that its function owns (R281, R290). -/
structure State.AddressesRoot (s : State) (f : Func) (e : Entry) (n : Fin 16) : Prop where
  root : parentParam e = 0
  params : addressParamsOk e = true
  port : n = portParam e
  present : s.portGone n = false
  owned : s.portOwner n = f

/-- Without PARENT there is no hub to stand behind. -/
theorem State.addressParent_root {e : Entry} (root : parentParam e = 0) (s : State) : s.addressParent e = none := if_pos root

/-- R282: a DEV_ADDRESS of a root port does not wait while no other is in progress on its fairway. -/
theorem State.addressWaits_root {s : State} {e : Entry} (root : parentParam e = 0)
    (free : (s.fairway (fairwayOf (portParam e))).addressing = none) (f : Func) : s.addressWaits f e = false := by
  simp [State.addressWaits, State.addressParent_root root, State.newDev, free]

/-- The checks of R290 let a DEV_ADDRESS of an own root port through. -/
theorem State.addressRefused_root {s : State} {f : Func} {e : Entry} {n : Fin 16} (addresses : s.AddressesRoot f e n) :
    s.addressRefused f e = none := by
  obtain ⟨root, params, rfl, present, owned⟩ := addresses
  simp [State.addressRefused, State.addressParent_root root, State.newDev, root, params, present, owned]

/-- R281: with an address to take and the port ready, GET_DESCRIPTOR goes out and the exchange begins. -/
theorem State.devAddress_begins {s : State} {f : Func} {e : Entry} {n : Fin 16} {a : Nat} (addresses : s.AddressesRoot f e n)
    (takes : (s.fairway (fairwayOf n)).takeAddr (fieldNat e[0] 8 7) = some a) (ready : s.addressReady (s.newDev e none) = true)
    (ans : AddressAnswer) :
    s.devAddress f e ans =
      (s.emit (.usbControl (fairwayOf n) 0 getDescriptor8)).addressDevice { fn := f, dev := s.newDev e none, addr := a } ans := by
  have port : (s.newDev e none).port = n := addresses.port.symm
  simp [State.devAddress, State.addressRefused_root addresses, State.addressParent_root addresses.root, port, takes, ready]

/-- R282: where no address can be taken, OUTCOME is 1 and nothing is addressed; its results name no handle (log 9). -/
theorem State.devAddress_taken {s : State} {f : Func} {e : Entry} {n : Fin 16} (addresses : s.AddressesRoot f e n)
    (taken : (s.fairway (fairwayOf n)).takeAddr (fieldNat e[0] 8 7) = none) (ans : AddressAnswer) :
    s.devAddress f e ans = .done s.freeDWord.2 .success 0 (putField 1 16 8 ||| (s.freeDWord.1 &&& 0x3FF)) := by
  have port : (s.newDev e none).port = n := addresses.port.symm
  simp [State.devAddress, State.addressRefused_root addresses, State.addressParent_root addresses.root, port, taken]

/-- A fairway changed to itself changes nothing. -/
@[simp] theorem State.modFairway_id (s : State) (fa : Fin 4) : s.modFairway fa id = s := by
  simp [State.modFairway, State.fairway]

/-- The state in which SET_ADDRESS has given an address to a device: the next attach number of its handle, and its record with endpoint 0
(R281, R283). -/
def State.addressed (s : State) (x : Addressing) (maxp : Nat) : State :=
  let fa := fairwayOf x.dev.port
  let inst := nextInst (s.devInst (handleOf fa x.addr))
  (s.emit (.usbControl fa 0 (setAddress x.addr))).modFairway fa (fun y =>
    { y with insts := assocPut y.insts x.addr inst
             devs := assocPut y.devs x.addr { x.dev with inst := inst, eps := [(0, { xtype := 0, mult := 1, maxp := maxp })] } })

/-- R281: a device that answers with a packet size of its speed is addressed, and completes with its attach number and handle. -/
theorem State.addressDevice_ok {s : State} {x : Addressing} {n : Fin 16} {maxp : Nat} (port : x.dev.port = n)
    (fits : maxpOk x.dev.speed 0 1 maxp = true) :
    s.addressDevice x (.ok maxp) =
      .done (s.addressed x maxp) .success
        (putField (nextInst (s.devInst (handleOf (fairwayOf n) x.addr))) 16 8 ||| putField (handleOf (fairwayOf n) x.addr) 0 12)
        (putField x.dev.speed.code 8 2 ||| putField maxp 0 8) := by
  subst port
  exact if_pos fits

/-- R281, R283: the record found under the new address has the next attach number and endpoint 0 alone. -/
theorem State.addressed_record {x : Addressing} {n : Fin 16} (port : x.dev.port = n) (s : State) (maxp : Nat) :
    (assocGet ((s.addressed x maxp).fairway (fairwayOf n)).devs x.addr).map (fun d => (d.inst, d.eps)) =
      some (nextInst (s.devInst (handleOf (fairwayOf n) x.addr)), [(0, { xtype := 0, mult := 1, maxp := maxp })]) := by
  subst port
  simp [State.addressed, assocGet_assocPut]

/-- R281: a device that does not answer GET_DESCRIPTOR ends the command, and counts on its fairway. -/
theorem State.addressDevice_error {x : Addressing} {n : Fin 16} (port : x.dev.port = n) (s : State) :
    s.addressDevice x (.error false) =
      .done (s.modFairway (fairwayOf n) (fun y => { y with xerr := y.xerr.bump })) .xactError 0 0 := by
  subst port
  rfl

/-- R281, R282: an exchange that goes on holds address 0 of its fairway. -/
theorem State.addressDevice_pending {x : Addressing} {n : Fin 16} (port : x.dev.port = n) (s : State) :
    s.addressDevice x .pending = .started (s.modFairway (fairwayOf n) (fun y => { y with addressing := some x })) := by
  subst port
  rfl

/-- R281: a device that answers GET_DESCRIPTOR with STALL ends the command and leaves the fairway as it is. -/
theorem State.addressDevice_stall (s : State) (x : Addressing) : s.addressDevice x (.stall false) = .done s .stall 0 0 :=
  congrArg (CmdEnd.done · .stall 0 0) (s.modFairway_id _)

/-- A DEV_ADDRESS that starts where its function has none in progress is a command of its ring (R211, R282). -/
theorem devAddress_completes {s s1 u : State} {f : Func} {i : Half} {e : Entry} {ans : AddressAnswer} {r : CmdEnd}
    (issues : s.Issues f 0x10 i e s1) (root : parentParam e = 0) (idle : s.addressingOf f = none)
    (free : (s.fairway (fairwayOf (portParam e))).addressing = none) (does : s1.devAddress f e ans = r)
    (ends : State.cmdEnd f i e r = u := by rfl) : Completes (.devAddress f ans) s u := by
  have run : exec (.devAddress f ans) s =
      .next (s.after (s.runCommand f 0x10 (fun e => !s.addressWaits f e) (fun s e => s.devAddress f e ans))) := by
    simp only [exec, execDevAddress, idle]
  exact .of_effect run (State.runCommand_picked issues (by simp [State.addressWaits_root root free]) does ends)

/-! DEV_HUB, EP_CONFIG and DEV_RELEASE (R284 to R287, R290). -/

/-- The parameters of a DEV_HUB that are in range whatever its device is (R284). -/
structure HubFormat (e : Entry) : Prop where
  reserved : fieldNat e[0] 12 20 = 0 ∧ fieldNat e[1] 8 24 = 0 ∧ fieldNat e[1] 4 1 = 0
  ports : fieldNat e[1] 0 4 ≠ 0
  params : paramsZero e [2, 3, 4, 5] = true

/-- A handle names a device on a port that is there and that a function owns (R290). -/
structure State.OwnsDevice (s : State) (f : Func) (h : Nat) (d : DevRec) : Prop where
  dev : s.dev h = some d
  present : s.portGone d.port = false
  owned : s.portOwner d.port = f

section
variable {s : State} {f : Func} {e : Entry} {d : DevRec}

/-- R284: an own device that may be a hub becomes one, with the fields that the command gives. -/
theorem State.devHub_declares (format : HubFormat e) (owns : s.OwnsDevice f (devParam e) d)
    (range : s.hubRangeOk (devParam e) e[1] d = true) :
    s.devHub f e =
      .done (s.putDev (devParam e)
        { d with hub := true, think := fieldNat e[1] 6 2, mtt := bitOf e[1] 5, hubPorts := fieldNat e[1] 0 4 }) .success 0 0 := by
  obtain ⟨⟨res0, res1, res2⟩, ports, params⟩ := format
  obtain ⟨dev, present, owned⟩ := owns
  simp [State.devHub, res0, res1, res2, ports, params, dev, range, present, owned]

/-- R285: an endpoint of an own device that fits its speed and carries no Lamp is written. -/
theorem State.epConfig_writes (params : epParamsOk e = true) (owns : s.OwnsDevice f (fieldNat e[0] 16 12) d)
    (fits : maxpOk d.speed (fieldNat e[0] 4 2) (fieldNat e[1] 11 2) (fieldNat e[1] 0 11) = true)
    (noLamp : s.epHasLamp (fieldNat e[0] 16 12) (fieldNat e[0] 8 4) (bitOf e[0] 7) = false) :
    s.epConfig f e = .done (s.writeEp (fieldNat e[0] 16 12) d e) .success 0 0 := by
  obtain ⟨dev, present, owned⟩ := owns
  simp [State.epConfig, params, dev, fits, noLamp, present, owned]

/-- R287: an own device is released, with the devices behind it. -/
theorem State.devRelease_releases (high : fieldNat e[0] 12 20 = 0) (params : paramsZero e [1, 2, 3, 4, 5] = true)
    (owns : s.OwnsDevice f (devParam e) d) : s.devRelease f e = .done (s.release (devParam e) 1) .success 0 0 := by
  obtain ⟨dev, present, owned⟩ := owns
  simp [State.devRelease, high, params, dev, present, owned]

/-- R290: a DEV_RELEASE of a handle that no device holds completes GONE. -/
theorem State.devRelease_gone (high : fieldNat e[0] 12 20 = 0) (params : paramsZero e [1, 2, 3, 4, 5] = true)
    (gone : s.dev (devParam e) = none) : s.devRelease f e = .done s .gone 0 0 := by
  simp [State.devRelease, high, params, gone]

end

end Sys2Proof.Machine

open Sys2Proof Sys2Proof.Machine

/-- Settles O37: DEV_ADDRESS ends as its device answers, and DEV_HUB, EP_CONFIG and DEV_RELEASE change the record of an own device. That a
command without an address gives RESULT0 zero is the model's choice (log 9). -/
theorem devicesAreAddressedAndConfigured : Obligations.DevicesAreAddressedAndConfigured := by
  unfold Obligations.DevicesAreAddressedAndConfigured
  refine ⟨?address, ?hub, ?endpoint, ?release, ?gone⟩
  case address =>
    rintro s s1 s2 f i e n d issues root params rfl rfl present owned idle free rfl
    have addresses : s1.AddressesRoot f e (portParam e) := ⟨root, params, rfl, present, owned⟩
    refine ⟨fun a takes ready => ?exchange, fun ans taken => ?taken⟩
    case exchange =>
      have begins := State.devAddress_begins addresses takes ready
      refine ⟨?ok, ?pending, ?stall, ?error⟩
      case ok =>
        intro maxp fits
        have answers := (begins _).trans (State.addressDevice_ok rfl fits)
        exact ⟨_, devAddress_completes issues root idle free answers, State.addressed_record rfl _ maxp⟩
      case pending => exact devAddress_completes issues root idle free ((begins _).trans (State.addressDevice_pending rfl _))
      case stall => exact devAddress_completes issues root idle free ((begins _).trans (State.addressDevice_stall _ _))
      case error => exact devAddress_completes issues root idle free ((begins _).trans (State.addressDevice_error rfl _))
    case taken =>
      exact ⟨_, _, devAddress_completes issues root idle free (State.devAddress_taken addresses taken ans)⟩
  case hub =>
    intro s s1 f i e d issues res0 res1 res2 ports params dev range present owned
    exact .of_effect rfl (State.runCommand_done issues
      (State.devHub_declares ⟨⟨res0, res1, res2⟩, ports, params⟩ ⟨dev, present, owned⟩ range))
  case endpoint =>
    intro s s1 f i e d issues params dev fits noLamp present owned
    exact .of_effect rfl (State.runCommand_done issues (State.epConfig_writes params ⟨dev, present, owned⟩ fits noLamp))
  case release =>
    intro s s1 f i e d issues high params dev present owned
    exact .of_effect rfl (State.runCommand_done issues (State.devRelease_releases high params ⟨dev, present, owned⟩))
  case gone =>
    intro s s1 f i e issues high params gone
    exact .of_effect rfl (State.runCommand_done issues (State.devRelease_gone high params gone))

end

section
/-! The Type-C machine towards an attachment (O38). -/

namespace Sys2Proof.Machine

/-! One engine, and what an item offered to firmware leaves alone. -/

/-- Two changes that agree on an engine change it alike. -/
theorem State.modEng_congr {s : State} {e : Fin 17} {g h : Engine → Engine} (agree : g (s.eng e) = h (s.eng e)) :
    s.modEng e g = s.modEng e h := by
  simp only [State.modEng, agree]

/-- An item offered to firmware moves no power path (R334). -/
@[simp] theorem State.offerItem_moor (s : State) (e : Fin 17) (kind : Nat) (header : Half) (p : Fin 17) :
    (s.offerItem e kind header).moor p = s.moor p :=
  congrArg (fun (w : Power) => w.path[p]) (s.offerItem_eng e kind header).1

section
variable {s : State} {e : Fin 17}

/-! A termination is seen (R309). -/

/-- R309: an engine in UNATTACHED_SRC that applies its terminations sees what is on the CC lines as a source. -/
theorem State.ccDetect_unattSrc (active : s.ccActive e = true) (state : (s.eng e).state = .unattSrc) (seen : CcSeen) :
    s.ccDetect e seen = s.modEng e (fun x => x.seenAsSource seen) := by
  simp [State.ccDetect, State.ccMoves, active, state]

/-- R309: an engine in UNATTACHED_SNK that applies its terminations sees what is on the CC lines as a sink. -/
theorem State.ccDetect_unattSnk (active : s.ccActive e = true) (state : (s.eng e).state = .unattSnk) (seen : CcSeen) :
    s.ccDetect e seen = s.modEng e (fun x => x.seenAsSink seen (s.debugSeen e)) := by
  simp [State.ccDetect, State.ccMoves, active, state]

/-- R309: an engine that shows Rd waits for the debounce of the Rp that it sees. -/
theorem Engine.seenAsSink_source {rp : Nat} (code : rp ≤ 3) (x : Engine) (orient debug : Bool) :
    x.seenAsSink (.source orient rp) debug =
      { x with state := .waitSnk, partner := 2, orient := orient, rpSeen := rp, debounced := false } := by
  simp [Engine.seenAsSink, Nat.min_eq_left code]

/-! What has held for the debounce, and what has not (R309, R310). -/

/-- R310: Rd that has held in ATTACHWAIT_SRC is debounced. -/
theorem State.ccDebounce_waitSrc (active : s.ccActive e = true) (state : (s.eng e).state = .waitSrc) (orient ra : Bool) :
    s.ccDebounce e (some (.sink orient ra)) = s.sinkDebounced e orient ra := by
  simp [State.ccDebounce, State.ccMoves, active, state]

/-- R309: ATTACHWAIT_SNK without Rp is left. -/
theorem State.ccDebounce_waitSnk_none (active : s.ccActive e = true) (state : (s.eng e).state = .waitSnk) :
    s.ccDebounce e none = s.partnerGone e := by
  simp [State.ccDebounce, State.ccMoves, active, state]

/-- R85: a partner that has woken the device raises no second wake. -/
theorem State.attachWakes_known (known : (s.eng e).known = true) : s.attachWakes e = s := if_pos known

/-- R310: an engine that does not prefer Try.SNK is ready to attach a sink that it knows. -/
theorem State.sinkDebounced_ready (source : (s.eng e).preferSnk = false) (known : (s.eng e).known = true) (orient ra : Bool) :
    s.sinkDebounced e orient ra = s.modEng e (fun x => { x with partner := 1, orient := orient, ra := ra, debounced := true }) := by
  simp [State.sinkDebounced, source, State.attachWakes_known, known]

/-! The toggle (R309). -/

/-- R309: the toggle turns from UNATTACHED_SRC, and the preference is taken. -/
theorem State.ccToggle_unattSrc (active : s.ccActive e = true) (state : (s.eng e).state = .unattSrc) :
    s.ccToggle e = s.modEng e (fun x => { x with state := .unattSnk, preferSnk := decide (e = pu) && !s.sup.vinValid }) := by
  simp [State.ccToggle, State.ccMoves, active, state, State.takePreference]

/-- R309: TRY_SRC that ends without a sink goes on to TRYWAIT_SNK. -/
theorem State.ccToggle_trySrc (active : s.ccActive e = true) (state : (s.eng e).state = .trySrc) :
    s.ccToggle e = s.modEng e (fun x => { x with state := .tryWaitSnk, debounced := false }) := by
  simp [State.ccToggle, State.ccMoves, active, state]

/-! ATTACHED_SRC (R310, R311, R314). -/

/-- R310: what ATTACHED_SRC_ENTRY needs. -/
theorem State.maySource_iff : s.maySource e = true ↔
    s.ccActive e = true ∧ (s.eng e).debounced = true ∧
      ((s.eng e).state = .waitSrc ∨ (s.eng e).state = .trySrc ∨ (s.eng e).state = .tryWaitSrc) ∧ s.permit e = true := by
  simp [State.maySource, State.ccMoves, and_assoc, or_assoc]

/-- R310, R311: an engine that may source attaches. -/
theorem attachedSrcEntry_permitted (may : s.maySource e = true) : Completes (.attachedSrcEntry e) s (s.attachSrc e) :=
  .of_effect rfl (if_pos may)

/-- R310: an engine that may not source keeps its state. -/
theorem attachedSrcEntry_waits (must : s.maySource e = false) : Completes (.attachedSrcEntry e) s s :=
  .of_effect rfl (by simp [must])

end

/-- R311, R317: the engine as ATTACHED_SRC begins, before its item is placed for firmware. -/
def Engine.attachedSrc (x : Engine) : Engine :=
  let y := { x with
    state := .attSrc, partner := 1, source := true, dfp := true, debounced := false, known := true
    kind := 1, volt := 250, curr := rpCurrent x.rp, held := [], chg := x.chg.bump.bump }
  { y with vconnOn := y.vconnDue }

/-- R311, R334: the engine after its entry to ATTACHED_SRC, but for its items. -/
theorem State.attachSrc_eng (s : State) (e : Fin 17) :
    ∃ w a, (s.attachSrc e).eng e = { (s.eng e).attachedSrc with waiting := w, rxSeq := a } := by
  obtain ⟨w, a, eng⟩ := (State.offerItem_eng _ e 5 (BitVec.ofNat 16 TcState.attSrc.code)).2
  exact ⟨w, a, eng.trans (by
    simp [State.followVconn, State.implicitSource, State.ccChange, State.gateOn, Engine.attachedSrc, Engine.rp])⟩

/-- R311, R314: the gate is on in ATTACHED_SRC. -/
theorem State.attachSrc_gate (s : State) (e : Fin 17) : ((s.attachSrc e).moor e).gate = true := by
  simp [State.attachSrc, State.followVconn, State.implicitSource, State.ccChange, State.gateOn]

end Sys2Proof.Machine

open Sys2Proof Sys2Proof.Machine

/-- Settles O38: each event moves the Type-C machine as the lemma of its state says, and ATTACHED_SRC begins with what R311 records. -/
theorem typeCPartnersAttach : Obligations.TypeCPartnersAttach := by
  unfold Obligations.TypeCPartnersAttach
  refine ⟨?sinkSeen, ?sourceSeen, ?debounced, ?gone, ?toggle, ?tryEnds, ?attach, fun s e => attachedSrcEntry_waits, ?needs⟩
  case sinkSeen => exact fun s e o ra active state => .of_effect rfl (State.ccDetect_unattSrc active state _)
  case sourceSeen =>
    exact fun s e o rp active state code => .of_effect rfl
      ((State.ccDetect_unattSnk active state _).trans (State.modEng_congr (Engine.seenAsSink_source code _ o _)))
  case debounced =>
    exact fun s e o ra active state source known => .of_effect rfl
      ((State.ccDebounce_waitSrc active state o ra).trans (State.sinkDebounced_ready source known o ra))
  case gone => exact fun s e active state => .of_effect rfl (State.ccDebounce_waitSnk_none active state)
  case toggle => exact fun s e active state => .of_effect rfl (State.ccToggle_unattSrc active state)
  case tryEnds => exact fun s e active state => .of_effect rfl (State.ccToggle_trySrc active state)
  case attach =>
    intro s e may
    obtain ⟨w, a, eng⟩ := s.attachSrc_eng e
    rw [eng]
    exact ⟨attachedSrcEntry_permitted may, rfl, rfl, rfl, rfl, rfl, s.attachSrc_gate e⟩
  case needs =>
    intro s e may
    obtain ⟨-, debounced, -, permit⟩ := State.maySource_iff.mp may
    exact ⟨permit, debounced⟩

end

section
/-! The end of an attachment, VCONN and CCP_e_CFG (O39). -/

namespace Sys2Proof.Machine

/-- A transmission that ends moves no power path (R335). -/
@[simp] theorem State.endTx_moor (s : State) (e : Fin 17) (result : Nat) (p : Fin 17) : (s.endTx e result).moor p = s.moor p :=
  congrArg (fun (w : Power) => w.path[p]) (s.endTx_eng e result).1

/-! Leaving a partner (R313). -/

/-- R313: an engine that leaves its partner is apart from it, but for its count of changes and its items. -/
theorem State.leavePartner_eng (s : State) (e : Fin 17) (st : TcState) :
    ∃ x c w a, (s.leavePartner e st).eng e = { Engine.apart x st with chg := c, waiting := w, rxSeq := a } := by
  unfold State.leavePartner
  dsimp only
  split
  case isTrue =>
    obtain ⟨w, a, eng⟩ := (State.offerItem_eng _ e 5 (BitVec.ofNat 16 st.code)).2
    exact ⟨_, _, w, a, by rw [eng, State.ccChange, State.modEng_eng_self, State.modEng_eng_self]⟩
  case isFalse => exact ⟨_, _, _, _, State.modEng_eng_self _ _ _⟩

/-- R313: the gate of an engine that leaves its partner is off. -/
theorem State.leavePartner_gate (s : State) (e : Fin 17) (st : TcState) : ((s.leavePartner e st).moor e).gate = false := by
  unfold State.leavePartner
  dsimp only
  split <;> simp [State.ccChange, State.gateOff]

/-- R313: an attached source that applies its terminations detects its detach. -/
theorem ccDetach_attSrc {s : State} {e : Fin 17} (active : s.ccActive e = true) (state : (s.eng e).state = .attSrc) :
    Completes (.ccDetach e) s (s.partnerGone e) :=
  .of_effect rfl (if_pos (by simp [State.ccMoves, active, Engine.mayDetach, state]))

/-! CCP_e_CFG (R308, Table 11.10). -/

/-- A field that is set reads as it was set, where its mask covers it and nothing else does. -/
theorem fieldNat_setField {lo n : Nat} (covers : (BitVec.ofNat 32 ((2 ^ n - 1) * 2 ^ lo)).extractLsb' lo n = BitVec.allOnes n)
    (clears : (~~~BitVec.ofNat 32 ((2 ^ n - 1) * 2 ^ lo)).extractLsb' lo n = 0#n) (old new : DWord) :
    fieldNat (setField old new lo n) lo n = fieldNat new lo n := by
  rw [fieldNat_eq_extractLsb', fieldNat_eq_extractLsb', setField, BitVec.extractLsb'_or, BitVec.extractLsb'_and,
    BitVec.extractLsb'_and, covers, clears, BitVec.and_zero, BitVec.zero_or, BitVec.and_allOnes]

section
variable {v : DWord} (keeps : fieldNat v 24 2 = 0) (old : DWord)
include keeps

/-- Table 11.10: an RP of 0b00 leaves that field. -/
theorem ccpCfgWritten_rp : fieldNat (ccpCfgWritten old v) 24 2 = fieldNat old 24 2 := by
  rw [ccpCfgWritten, if_pos keeps]
  exact fieldNat_setField (by decide) (by decide) _ old

/-- Table 11.10: EN is written all the same. -/
theorem ccpCfgWritten_en : bitOf (ccpCfgWritten old v) 31 = bitOf v 31 := by
  rw [ccpCfgWritten, if_pos keeps]
  simp [bitOf, setField]

end

section
variable {s : State} {p : Path} {r : Requester} {e : Fin 17}

/-- R308, R317: the primary manager and keeper firmware write CCP_e_CFG, and VCONN follows; without an implicit contract nothing else
does. -/
theorem State.writeCcpCfg_explicit (may : (s.isPrimary r || r.isKeeper) = true) (explicit : (s.eng e).kind ≠ 1) (v : DWord) :
    s.writeCcpCfg r e v = (s.modEng e (fun x => { x with cfg := ccpCfgWritten x.cfg v })).followVconn e := by
  simp [State.writeCcpCfg, may, explicit]

/-- R308: a requester that is neither is refused. -/
theorem State.writeCcpCfg_stranger (stranger : (s.isPrimary r || r.isKeeper) = false) (e : Fin 17) (v : DWord) :
    s.writeCcpCfg r e v = s.refuse r 2 (ccpOff e 0) := by
  simp [State.writeCcpCfg, stranger]

/-- A write that a path brings to CCP_e_CFG acts by the register's rule (R117). -/
theorem ccpCfgWrite_brings {u : State} {v : DWord} (brings : s.Brings p r)
    (does : (s.arrived p r (ccpOff e 0)).writeCcpCfg r e v = u) : Completes (.ccpCfgWrite p e v) s u :=
  .of_effect rfl ((State.access_brings brings _ _).trans does)

end

end Sys2Proof.Machine

open Sys2Proof Sys2Proof.Machine

/-- Settles O39: a detach and ERROR_RECOVERY leave the partner as `State.leavePartner_eng` says, VCONN turns off at its limit, and a write
of CCP_e_CFG acts by its requester. -/
theorem typeCPartnersLeave : Obligations.TypeCPartnersLeave := by
  unfold Obligations.TypeCPartnersLeave
  refine ⟨fun s e => ccDetach_attSrc, ?recovered, ?left, ?overcurrent, ?cfg, fun old v keeps => ⟨ccpCfgWritten_rp keeps old,
    ccpCfgWritten_en keeps old⟩, ?stranger⟩
  case recovered => exact fun s e state => .of_effect rfl (if_pos state)
  case left =>
    intro s e st
    obtain ⟨x, c, w, a, eng⟩ := s.leavePartner_eng e st
    rw [eng]
    exact ⟨rfl, rfl, rfl, rfl, rfl, rfl, s.leavePartner_gate e st⟩
  case overcurrent => exact fun s e on => .of_effect rfl (if_pos on)
  case cfg =>
    rintro s _ p r e v brings rfl may explicit
    exact ccpCfgWrite_brings brings (State.writeCcpCfg_explicit may explicit v)
  case stranger =>
    rintro s _ p r e v brings rfl stranger
    exact ccpCfgWrite_brings brings (State.writeCcpCfg_stranger stranger e v)

end

section
/-! Power Delivery messages received, acknowledged and retried (O40). -/

namespace Sys2Proof.Machine

section
variable {s : State} {e : Fin 17}

/-! A message on SOP reaches an attached engine (R320). -/

/-- R322: an engine that transmits nothing has nothing to discard. -/
theorem State.preempt_idle (idle : (s.eng e).txStage = .idle) (chunkAsk : Bool) : s.preempt e chunkAsk = s := by
  simp [State.preempt, idle]

/-- R320: an attached engine whose mode runs PD messages hears GoodCRC as an answer to its own message. -/
theorem State.pdReceive_goodCrc (attached : (s.eng e).attached = true) (on : s.pdOn e = true) {h : Half}
    (crc : isControl h ctlGoodCrc = true) (b : List Byte) : s.pdReceive e 0 h b = s.goodCrc e 0 (pdId h) := by
  simp [State.pdReceive, attached, on, crc]

/-- A message other than GoodCRC comes to an attached engine that transmits nothing, in a mode that runs PD messages (R320). -/
structure State.Hears (s : State) (e : Fin 17) (h : Half) : Prop where
  attached : (s.eng e).attached = true
  on : s.pdOn e = true
  idle : (s.eng e).txStage = .idle
  message : isControl h ctlGoodCrc = false

section
variable {h : Half}

/-- R320: a message on SOP with the MessageID of the last one is answered, and no more. -/
theorem State.pdReceive_duplicate (hears : s.Hears e h) (other : isControl h ctlSoftReset = false)
    (again : (s.eng e).lastId[0] = some (pdId h)) (b : List Byte) : s.pdReceive e 0 h b = s.emit (.pdGoodCrc e 0 (pdId h)) := by
  obtain ⟨attached, on, idle, message⟩ := hears
  simp [State.pdReceive, attached, on, message, State.preempt_idle idle, again, other, State.answerCrc]

/-- R320, R334: a new message on SOP is left without an answer where it needs a slot and none is free; else it is accepted. -/
theorem State.pdReceive_new (hears : s.Hears e h) (new : (s.eng e).lastId[0] ≠ some (pdId h)) (b : List Byte) :
    s.pdReceive e 0 h b =
      if (s.needsSlot e h b && !(s.eng e).slotFree) = true then s
      else if pdExt h = true then (s.acceptRx e 0 h).takePart e 0 h b
      else (s.acceptRx e 0 h).wholeMessage e 0 h (b.take (4 * pdCount h)) := by
  obtain ⟨attached, on, idle, message⟩ := hears
  simp [State.pdReceive, attached, on, message, State.preempt_idle idle, new]

end

/-! GoodCRC of the awaited MessageID (R320). -/

/-- R320: GoodCRC of the awaited MessageID of a message on SOP without further chunks ends it SENT and advances the counter. -/
theorem State.goodCrc_sent {m : TxMsg} {t : Nat} {id : BitVec 3} (tx : (s.eng e).tx = some m) (sop : m.kind = 0)
    (stage : (s.eng e).txStage = .goodCrc t 0) (last : m.hasChunk 1 = false) (awaited : (s.eng e).msgId[0] = id) :
    s.goodCrc e 0 id =
      ((s.modEng e (fun x => { x with msgId := x.msgId.set 0 (id + 1), pdSeen := true })).endTx e 1).onAcked e m := by
  have sent : s.goodCrc e 0 id =
      ((s.modEng e (fun x => { x with msgId := x.msgId.set 0 (x.msgId[0] + 1), pdSeen := true })).endTx e 1).onAcked e m := by
    simp [State.goodCrc, tx, stage, sop, last, awaited]
  exact sent.trans (congrArg (fun u : State => (u.endTx e 1).onAcked e m) (State.modEng_congr (by rw [awaited])))

/-! A transmission without GoodCRC, and one that waits (R320 to R322). -/

/-- R320: before its last retry a message without GoodCRC is sent again. -/
theorem State.crcTimeout_retry {m : TxMsg} {t c : Nat} (tx : (s.eng e).tx = some m) (stage : (s.eng e).txStage = .goodCrc t c)
    (retries : t < 2) : s.crcTimeout e = s.putOnLine e m c (t + 1) := by
  simp [State.crcTimeout, tx, stage, retries]

/-- R320: after its last retry a message on SOP ends NO_GOODCRC, its MessageID advanced. -/
theorem State.crcTimeout_last {m : TxMsg} {c : Nat} (tx : (s.eng e).tx = some m) (stage : (s.eng e).txStage = .goodCrc 2 c)
    (sop : m.kind = 0) :
    s.crcTimeout e = (s.modEng e (fun x => { x with msgId := x.msgId.set 0 (x.msgId[0] + 1) })).endTx e 2 := by
  simp [State.crcTimeout, tx, stage, sop]

/-- R322: a message that waits in a stage goes when that stage ends. -/
theorem State.sendWaiting_stage {m : TxMsg} {stage : TxStage} (tx : (s.eng e).tx = some m) (waits : (s.eng e).txStage = stage) :
    s.sendWaiting e stage = s.sendNow e m := by
  simp [State.sendWaiting, tx, waits]

/-- R321: an assembly whose next chunk does not come is dropped. -/
theorem State.chunkTimeout_idle (idle : (s.eng e).txStage = .idle) : s.chunkTimeout e = s.modEng e (fun x => { x with chunkRx := none }) := by
  simp [State.chunkTimeout, idle]

/-! A sink follows the source's Rp (R322). -/

/-- R322, Table 11.4: a downstream sink records the Rp that it reads, and SinkTxOK lets its waiting message go. -/
theorem State.rpChange_sink (state : (s.eng e).state = .attSnk) (downstream : e ≠ pu) (noReset : (s.eng e).hr = .none) (rp : Fin 4) :
    s.rpChange e rp =
      if rp = 3 then (s.modEng e (fun x => { x with rpSeen := rp.val })).sendWaiting e .sinkHold
      else s.modEng e (fun x => { x with rpSeen := rp.val }) := by
  have reads := State.modEng_congr (s := s) (e := e) (h := fun x => { x with rpSeen := rp.val })
    (g := fun x => { x with rpSeen := rp.val, hr := if x.hr = .sinkWait then .none else x.hr }) (by simp [noReset])
  simp [State.rpChange, state, downstream, reads]

/-! Firmware releases items (R334). -/

/-- R334: an ACK within what has been received releases the items up to it; with none waiting nothing follows. -/
theorem State.writeRx_releases {v : DWord} (within : idxDist (loHalf v) (s.eng e).rxAck ≤ idxDist (s.eng e).rxSeq (s.eng e).rxAck)
    (waiting : (s.eng e).waiting = []) (k : Fin 12) :
    s.writeRx (.keeper k) e v = s.modEng e (fun x => { x with rxAck := loHalf v }) := by
  simp [State.writeRx, Requester.isKeeper, within, State.placeWaiting, waiting]

/-- R334: an ACK beyond what has been received changes nothing. -/
theorem State.writeRx_beyond {v : DWord} (beyond : idxDist (s.eng e).rxSeq (s.eng e).rxAck < idxDist (loHalf v) (s.eng e).rxAck)
    (k : Fin 12) : s.writeRx (.keeper k) e v = s := by
  simp [State.writeRx, Requester.isKeeper, Nat.not_le_of_lt beyond]

/-- A write that a path brings to CCP_e_RX acts by the register's rule (R117). -/
theorem rxRelease_brings {p : Path} {r : Requester} {v : DWord} {u : State} (brings : s.Brings p r)
    (does : (s.arrived p r (ccpOff e 0x1C)).writeRx r e v = u) : Completes (.rxRelease p e v) s u :=
  .of_effect rfl ((State.access_brings brings _ _).trans does)

end

end Sys2Proof.Machine

open Sys2Proof Sys2Proof.Machine

/-- Settles O40: what an engine hears and what its timers end act as the lemma of its stage says, and firmware's ACK releases what has
been received. -/
theorem pdMessagesAreHandled : Obligations.PdMessagesAreHandled := by
  unfold Obligations.PdMessagesAreHandled
  refine ⟨?duplicate, ?noSlot, ?accepted, ?sent, ?retry, ?lastRetry, ?tSinkTx, ?chunks, ?rp, ?sinkTxOk, ?release, ?beyond⟩
  case duplicate =>
    exact fun s e h b attached on idle message other again =>
      .of_effect rfl (State.pdReceive_duplicate ⟨attached, on, idle, message⟩ other again b)
  case noSlot =>
    exact fun s e h b attached on idle message new needs none =>
      .of_effect rfl ((State.pdReceive_new ⟨attached, on, idle, message⟩ new b).trans (if_pos (by simp [needs, none])))
  case accepted =>
    intro s e h b attached on idle message new short _ free
    have taken := State.pdReceive_new ⟨attached, on, idle, message⟩ new b
    exact .of_effect rfl (by simpa [free, short] using taken)
  case sent =>
    exact fun s e h m t attached on crc tx sop stage last awaited =>
      .of_effect rfl ((State.pdReceive_goodCrc attached on crc []).trans (State.goodCrc_sent tx sop stage last awaited))
  case retry => exact fun s e m t c tx stage retries => .of_effect rfl (State.crcTimeout_retry tx stage retries)
  case lastRetry => exact fun s e m c tx stage sop => .of_effect rfl (State.crcTimeout_last tx stage sop)
  case tSinkTx => exact fun s e m tx waits => .of_effect rfl (State.sendWaiting_stage tx waits)
  case chunks => exact fun s e idle => .of_effect rfl (State.chunkTimeout_idle idle)
  case rp =>
    exact fun s e rp state downstream other noReset =>
      .of_effect rfl ((State.rpChange_sink state downstream noReset rp).trans (if_neg other))
  case sinkTxOk =>
    intro s e m state downstream noReset tx waits
    have follows := (State.rpChange_sink state downstream noReset 3).trans (if_pos rfl)
    exact .of_effect rfl (follows.trans (State.sendWaiting_stage (by simpa using tx) (by simpa using waits)))
  case release =>
    rintro s _ k e v brings rfl within waiting
    exact rxRelease_brings brings (State.writeRx_releases within waiting k)
  case beyond =>
    rintro s _ k e v brings rfl beyond
    exact rxRelease_brings brings (State.writeRx_beyond beyond k)

end

section
/-! Firmware's messages and resets (O41). -/

namespace Sys2Proof.Machine

/-! CCP_e_TXCTL (R335, R336). -/

/-- A write of CCP_e_TXCTL whose SEQ is new finds its engine free to transmit, in a mode that does not close it (R335, R336). -/
structure State.TakesTxctl (s : State) (e : Fin 17) (v : DWord) : Prop where
  notSafe : s.mode ≠ .safe
  notRelight : s.mode ≠ .relight
  notUpdate : s.mode ≠ .update
  enabled : (s.eng e).txEn = true
  free : (s.eng e).tx = none
  newSeq : hiHalf v ≠ (s.eng e).txSeq

/-- R335: the command that an engine has taken. -/
def State.txctlTaken (s : State) (e : Fin 17) (v : DWord) : State :=
  s.modEng e (fun x => { x with txctl := v &&& 0xFFFFF800, txSeq := hiHalf v, txResult := 0 })

section
variable {s : State} {p : Path} {r : Requester} {k : Fin 12} {e : Fin 17} {v : DWord}

/-- R335: a command that is taken sends the reset that its KIND names, or starts the slot's message. -/
theorem State.writeTxctl_taken (takes : s.TakesTxctl e v) (vbus : Option Nat) :
    s.writeTxctl (.keeper k) e v vbus =
      if fieldNat v 13 3 = 3 then (s.txctlTaken e v).transmitReset e true (bitOf v 11)
      else if fieldNat v 13 3 = 4 then (s.txctlTaken e v).transmitReset e false (bitOf v 11)
      else ((s.txctlTaken e v).sensed vbus).2.transmitSlot e (fieldNat v 13 3) (bitOf v 12) (bitOf v 11)
        ((s.txctlTaken e v).sensed vbus).1 := by
  obtain ⟨notSafe, notRelight, notUpdate, enabled, free, newSeq⟩ := takes
  simp [State.writeTxctl, Requester.isKeeper, enabled, free, newSeq, State.txctlTaken]

/-- R335: a requester that is no keeper is refused. -/
theorem State.writeTxctl_stranger (stranger : r.isKeeper = false) (e : Fin 17) (v : DWord) (vbus : Option Nat) :
    s.writeTxctl r e v vbus = s.refuse r 2 (ccpOff e 0x20) := by
  simp [State.writeTxctl, stranger]

section
variable {u : State} (brings : s.Brings p r)
include brings

/-- A write of a message's KIND that a path brings acts by the register's rule (R117, R335). -/
theorem pdTransmit_brings {vb : Nat} (notHard : fieldNat v 13 3 ≠ 3) (notCable : fieldNat v 13 3 ≠ 4)
    (does : (s.arrived p r (ccpOff e 0x20)).writeTxctl r e v (some vb) = u) : Completes (.pdTransmit p e v vb) s u :=
  .of_effect rfl ((if_neg (not_or.mpr ⟨notHard, notCable⟩)).trans ((State.access_brings brings _ _).trans does))

/-- A write of a Hard Reset's KIND that a path brings acts by the register's rule (R117, R335). -/
theorem pdSendHardReset_brings (hard : fieldNat v 13 3 = 3) (does : (s.arrived p r (ccpOff e 0x20)).writeTxctl r e v none = u) :
    Completes (.pdSendHardReset p e v) s u :=
  .of_effect rfl ((if_pos hard).trans ((State.access_brings brings _ _).trans does))

/-- A write of a Cable Reset's KIND that a path brings acts by the register's rule (R117, R335). -/
theorem pdSendCableReset_brings (cable : fieldNat v 13 3 = 4) (does : (s.arrived p r (ccpOff e 0x20)).writeTxctl r e v none = u) :
    Completes (.pdSendCableReset p e v) s u :=
  .of_effect rfl ((if_pos cable).trans ((State.access_brings brings _ _).trans does))

end

/-! A Cable Reset (R326). -/

/-- R326: firmware's Cable Reset goes out from a DFP with VCONN on, and ends SENT. -/
theorem State.transmitReset_cable_sent (attached : (s.eng e).attached = true) (on : s.pdOn e = true)
    (may : ((s.eng e).dfp && (s.eng e).vconnOn) = true) (last : Bool) :
    s.transmitReset e false last =
      (((s.emit (.pdCableReset e)).cableReset e).modEng e (fun x =>
        { x with tx := some { kind := 3, header := 0, payload := [], firmware := true, amsEnd := last } })).endTx e 1 := by
  simp [State.transmitReset, attached, on, may]

/-- R326: from any other engine it ends REFUSED (log 46). -/
theorem State.transmitReset_cable_refused (attached : (s.eng e).attached = true) (on : s.pdOn e = true)
    (mayNot : ((s.eng e).dfp && (s.eng e).vconnOn) = false) (last : Bool) :
    s.transmitReset e false last =
      (s.modEng e (fun x =>
        { x with tx := some { kind := 3, header := 0, payload := [], firmware := true, amsEnd := last } })).endTx e 4 := by
  simp [State.transmitReset, attached, on, mayNot]

end

end Sys2Proof.Machine

open Sys2Proof Sys2Proof.Machine

/-- Settles O41: a command of firmware is taken and acts by its KIND, and a Cable Reset acts as R326 says. That it forgets the last IDs of
SOP' and SOP'' is the model's choice (log 47), and so is REFUSED for an engine that may not send one (log 46). -/
theorem pdTransmitsForFirmware : Obligations.PdTransmitsForFirmware := by
  unfold Obligations.PdTransmitsForFirmware
  refine ⟨?taken, ?stranger, fun s e => rfl, ?received, fun s e last attached on may => State.transmitReset_cable_sent attached on may last,
    fun s e last attached on mayNot => State.transmitReset_cable_refused attached on mayNot last⟩
  case taken =>
    rintro s _ _ k e v vb brings rfl notSafe notRelight notUpdate enabled free newSeq rfl
    have taken := State.writeTxctl_taken (k := k) ⟨notSafe, notRelight, notUpdate, enabled, free, newSeq⟩
    refine ⟨?message, ?hard, ?cable⟩
    case message =>
      exact fun notHard notCable => pdTransmit_brings brings notHard notCable
        ((taken (some vb)).trans ((if_neg notHard).trans (if_neg notCable)))
    case hard => exact fun hard => pdSendHardReset_brings brings hard ((taken none).trans (if_pos hard))
    case cable =>
      exact fun cable => pdSendCableReset_brings brings cable ((taken none).trans ((if_neg (by omega)).trans (if_pos cable)))
  case stranger =>
    rintro s _ p r e v brings stranger rfl hard
    exact pdSendHardReset_brings brings hard (State.writeTxctl_stranger stranger e v none)
  case received => exact fun s e attached on => .of_effect rfl (if_pos (by simp [attached, on]))

end

section
/-! Hard Resets, and the limits of EPR mode and of PPS (O42). -/

namespace Sys2Proof.Machine

/-! A Hard Reset (R323 to R325). -/

/-- R323 to R325, R330: the engine as a Hard Reset leaves it: its negotiations are dropped and the sequence of its role runs. -/
def Engine.hardReset (x : Engine) : Engine :=
  { x.noPending with
    msgId := Vector.replicate 3 0, lastId := Vector.replicate 3 none, chunkRx := none, swap := none, asked := none
    swapping := none, txng := false, epr := false, eprExit := false, hr := if x.source then .psWait else .sinkWait }

/-- A transmission that ends leaves the power role (R335). -/
theorem State.endTx_source (s : State) (e : Fin 17) (result : Nat) : ((s.endTx e result).eng e).source = (s.eng e).source := by
  obtain ⟨t, g, n, q, eng⟩ := (s.endTx_eng e result).2
  rw [eng]

/-- A change that is counted changes the count alone (R338). -/
theorem State.ccChange_eng (s : State) (e : Fin 17) : (s.ccChange e).eng e = { s.eng e with chg := (s.eng e).chg.bump } :=
  State.modEng_eng_self _ _ _

/-- R324, R331, R338: an engine is reset and the change is counted, as is the end of EPR mode. -/
def State.resetCounted (s : State) (e : Fin 17) (epr : Bool) : State :=
  (if epr then (s.modEng e Engine.hardReset).ccChange e else s.modEng e Engine.hardReset).ccChange e

/-- The engine that has been reset, but for its count of changes. -/
theorem State.resetCounted_eng (s : State) (e : Fin 17) (epr : Bool) :
    ∃ c, (s.resetCounted e epr).eng e = { (s.eng e).hardReset with chg := c } := by
  unfold State.resetCounted
  cases epr with
  | false => exact ⟨_, by rw [if_neg Bool.false_ne_true, State.ccChange_eng, State.modEng_eng_self]⟩
  | true => exact ⟨_, by rw [if_pos rfl, State.ccChange_eng, State.ccChange_eng, State.modEng_eng_self]⟩

/-- R323 to R325: a Hard Reset ends the transmission and resets the engine, and PU as a sink records its implicit contract again. -/
theorem State.hardReset_eq (s : State) (e : Fin 17) :
    s.hardReset e =
      if (!(s.eng e).source && decide (e = pu)) = true then
        ((s.endTx e 5).resetCounted e (s.eng e).epr).modEng e Engine.implicitSink
      else (s.endTx e 5).resetCounted e (s.eng e).epr := rfl

/-- R323 to R325: a Hard Reset drops pending contract and EPR mode, sets the counters to 0, and starts the sequence of the power role. -/
theorem State.hardReset_drops (s : State) (e : Fin 17) :
    ((s.hardReset e).eng e).pend = none ∧ ((s.hardReset e).eng e).epr = false ∧
      ((s.hardReset e).eng e).msgId = Vector.replicate 3 0 ∧
      ((s.hardReset e).eng e).hr = if (s.eng e).source then .psWait else .sinkWait := by
  obtain ⟨c, eng⟩ := (s.endTx e 5).resetCounted_eng e (s.eng e).epr
  rw [State.hardReset_eq, ← s.endTx_source e 5]
  split
  case isTrue =>
    rw [State.modEng_eng_self, eng]
    exact ⟨rfl, rfl, rfl, rfl⟩
  case isFalse =>
    rw [eng]
    exact ⟨rfl, rfl, rfl, rfl⟩

section
variable {s : State} {e : Fin 17}

/-- R323: an attached engine whose mode runs PD messages resets at a Hard Reset, and its item follows. -/
theorem State.hardResetSeen_attached (attached : (s.eng e).attached = true) (on : s.pdOn e = true) :
    s.hardResetSeen e = (s.hardReset e).offerItem e 3 0 :=
  if_pos (by simp [attached, on])

/-! The source's sequence (R324). -/

/-- R324: after tPSHardReset, power and VCONN go off, and VBUS above vSafe0V is discharged. -/
theorem State.psExpiry_discharges (phase : (s.eng e).hr = .psWait) (vbus : (s.moor e).vsafe0v = false) :
    s.psExpiry e = (s.gateOff e).modEng e (fun x => { x with vconnOn := false, hr := .discharge }) := by
  simp [State.psExpiry, phase, vbus]

/-- R360: without a PORT_POWER that waits for vSafe0V none ends. -/
theorem State.finishPower_idle (idle : (s.moor e).cmd = []) : s.finishPower e = s := by
  simp [State.finishPower, idle]

/-- R324: at vSafe0V tSrcRecover begins. -/
theorem State.atVsafe0v_recovers (off : (s.moor e).gate = false) (phase : (s.eng e).hr = .discharge) (idle : (s.moor e).cmd = []) :
    s.atVsafe0v e = (s.modMoor e (fun m => { m with vsafe0v := true })).modEng e (fun x => { x with hr := .recover }) := by
  have recovers := State.modEng_congr (s := s.modMoor e (fun m => { m with vsafe0v := true })) (e := e)
    (g := fun x => { x with hr := if x.hr = .discharge then .recover else x.hr }) (h := fun x => { x with hr := .recover })
    (by simp [phase])
  simp [State.atVsafe0v, off, recovers, State.finishPower_idle, idle]

/-- R306: an engine that runs no swap stays as it is at vSafe0V. -/
theorem State.swapToSink_none (noSwap : (s.eng e).swapping = none) : s.swapToSink e = s := by
  simp [State.swapToSink, noSwap]

/-- R324: VBUS of a source in its Hard Reset falls to vSafe0V. -/
theorem vbusAtVsafe0v_recovers (off : (s.moor e).gate = false) (phase : (s.eng e).hr = .discharge)
    (noSwap : (s.eng e).swapping = none) (idle : (s.moor e).cmd = []) :
    Completes (.vbusAtVsafe0v e) s ((s.modMoor e (fun m => { m with vsafe0v := true })).modEng e (fun x => { x with hr := .recover })) := by
  refine .of_effect rfl ?_
  rw [if_neg (by simp [off]), State.atVsafe0v_recovers off phase idle, State.swapToSink_none (by simpa using noSwap)]

/-- R324: after tSrcRecover a permitted source attaches again with an implicit contract. -/
theorem State.recoverExpiry_permitted (phase : (s.eng e).hr = .recover) (permit : s.permit e = true) :
    s.recoverExpiry e = (((s.modEng e (fun x => { x with hr := .none })).gateOn e).implicitSource e).followVconn e := by
  simp [State.recoverExpiry, phase, permit]

/-- R324: a source without permission recovers from the error. -/
theorem State.recoverExpiry_refused (phase : (s.eng e).hr = .recover) (permit : s.permit e = false) :
    s.recoverExpiry e = s.leavePartner e .recovery := by
  simp [State.recoverExpiry, phase, permit]

/-! The limit after EPR mode (R331). -/

/-- R331: an EPR contract that stands at the limit is reset. -/
theorem State.eprLimit_reset (limit : (s.eng e).eprExit = true) (eprKind : (s.eng e).kind = 4 ∨ (s.eng e).kind = 5) :
    s.eprLimit e = s.sendHardReset e := by
  simp [State.eprLimit, limit, eprKind]

/-- R331: with a contract of another kind the limit ends. -/
theorem State.eprLimit_ends (limit : (s.eng e).eprExit = true) (sprKind : (s.eng e).kind < 4) :
    s.eprLimit e = s.modEng e (fun x => { x with eprExit := false }) := by
  have notEpr : ¬((s.eng e).kind = 4 ∨ (s.eng e).kind = 5) := by omega
  simp [State.eprLimit, limit, notEpr]

/-! The holding responder's PS_RDY (R336). -/

/-- R336: an engine with no message of its own under way sends one at once. -/
theorem State.sendOwn_free (free : (s.eng e).tx = none) (m : TxMsg) : s.sendOwn e m = s.sendNow e m := by
  simp [State.sendOwn, free]

/-- R336: the holding responder says PS_RDY to the Request that it accepted. -/
theorem holdingPsRdy_sends (due : (s.eng e).holdReady = true) (free : (s.eng e).tx = none) :
    Completes (.holdingPsRdy e) s ((s.modEng e (fun x => { x with holdReady := false })).sendNow e (controlMsg ctlPsRdy)) :=
  .of_effect rfl ((if_pos (by simp [due, free])).trans (State.sendOwn_free (by simpa using free) _))

end

end Sys2Proof.Machine

open Sys2Proof Sys2Proof.Machine

/-- Settles O42: a Hard Reset drops what `State.hardReset_drops` says, its timers act in their phases, and the limits send one. -/
theorem hardResetsAndLimits : Obligations.HardResetsAndLimits := by
  unfold Obligations.HardResetsAndLimits
  refine ⟨?received, State.hardReset_drops, ?discharge, fun s e => vbusAtVsafe0v_recovers, ?again, ?recovery, ?sink, ?keepAlive,
    ?eprContract, ?sprContract, ?pps, fun s e => holdingPsRdy_sends⟩
  case received => exact fun s e attached on => .of_effect rfl (State.hardResetSeen_attached attached on)
  case discharge => exact fun s e phase vbus => .of_effect rfl (State.psExpiry_discharges phase vbus)
  case again => exact fun s e phase permit => .of_effect rfl (State.recoverExpiry_permitted phase permit)
  case recovery => exact fun s e phase permit => .of_effect rfl (State.recoverExpiry_refused phase permit)
  case sink => exact fun s e phase state => .of_effect rfl (if_pos ⟨phase, state⟩)
  case keepAlive => exact fun s e epr => .of_effect rfl (if_pos epr)
  case eprContract => exact fun s e limit eprKind => .of_effect rfl (State.eprLimit_reset limit eprKind)
  case sprContract => exact fun s e limit sprKind => .of_effect rfl (State.eprLimit_ends limit sprKind)
  case pps => exact fun s e source kind => .of_effect rfl (if_pos (by simp [source, kind]))

end

section
/-! SEC_s_TARGET and the ramp that it starts (O44). -/

namespace Sys2Proof.Machine

/-! One sector, and the release of a quad's current loop (R350). -/

/-- Two changes that agree on a sector change it alike. -/
theorem State.modSector_congr {s : State} {q : Fin 4} {g h : Sector → Sector} (agree : g (s.sector q) = h (s.sector q)) :
    s.modSector q g = s.modSector q h := by
  simp only [State.modSector, agree]

/-- The release of a current loop changes paths alone. -/
@[simp] theorem State.ppsRelease_sector (s : State) (q k : Fin 4) : (s.ppsRelease q).sector k = s.sector k :=
  foldl_part (fun t => t.sector k) (fun _ _ => rfl) (portsOf q) s

/-- The release of a current loop and a change of a sector pass each other. -/
theorem State.ppsRelease_modSector (s : State) (q k : Fin 4) (g : Sector → Sector) :
    (s.modSector k g).ppsRelease q = (s.ppsRelease q).modSector k g := by
  unfold State.ppsRelease
  exact List.foldl_hom (fun t : State => t.modSector k g) (fun _ _ => rfl)

section
variable {s : State} {p : Path} {r : Requester} {q : Fin 4} {v : Nat}

/-- R353: a ramp starts from the level at which an enabled sector stands. -/
theorem State.startRamp_standing (en : (s.sector q).en = true) (stands : (s.sector q).moving = false) :
    s.startRamp q v = (s.ppsRelease q).modSector q (fun x =>
      { x with target := v, moving := true, atLevel := false, ppsCl := false }) := by
  have level : s.rampLevel q = (s.sector q).level := by simp [State.rampLevel, stands]
  simp only [State.startRamp, level, stands, en, if_true, Bool.false_eq_true, if_false]
  exact State.modSector_congr (by simp [en])

/-! A write of SEC_s_TARGET (R353). -/

/-- R353: outside SAFE, RELIGHT and UPDATE the primary manager's write and keeper firmware's is tested. -/
theorem State.writeTarget_tested (may : (s.isPrimary r || r.isKeeper) = true) (notSafe : s.mode ≠ .safe) (notRelight : s.mode ≠ .relight)
    (notUpdate : s.mode ≠ .update) (w : DWord) :
    s.writeTarget r q w =
      if s.targetCode q (fieldNat w 0 13) = 0 then (s.modSector q (fun x => { x with refuse := 0 })).startRamp q (fieldNat w 0 13)
      else s.modSector q (fun x => { x with refuse := s.targetCode q (fieldNat w 0 13) }) := by
  simp [State.writeTarget, may]

/-- R353: a requester that is neither is refused. -/
theorem State.writeTarget_stranger (stranger : (s.isPrimary r || r.isKeeper) = false) (w : DWord) :
    s.writeTarget r q w = s.refuse r 2 (targetOff q) := by
  simp [State.writeTarget, stranger]

/-- R353: an accepted write clears REFUSE and starts the ramp of a sector that stands at a level. -/
theorem State.acceptTarget_standing (en : (s.sector q).en = true) (stands : (s.sector q).moving = false) :
    (s.modSector q (fun x => { x with refuse := 0 })).startRamp q v =
      (s.ppsRelease q).modSector q (fun x =>
        { x with refuse := 0, target := v, moving := true, atLevel := false, ppsCl := false }) := by
  rw [State.startRamp_standing (by simpa using en) (by simpa using stands), State.ppsRelease_modSector, State.modSector_modSector]

/-- R353: the first test is that of the range and of the sector's VMAX. -/
theorem State.targetCode_range (outside : v < 500 ∨ 4900 < v ∨ 10 * (s.sector q).vmax < v) : s.targetCode q v = 1 :=
  if_pos outside

/-- A write that a path brings to SEC_s_TARGET acts by the register's rule (R117). -/
theorem secTargetWrite_brings {u : State} {w : DWord} (brings : s.Brings p r)
    (does : (s.arrived p r (targetOff q)).writeTarget r q w = u) : Completes (.secTargetWrite p q w) s u :=
  .of_effect rfl ((State.access_brings brings _ _).trans does)

end

end Sys2Proof.Machine

open Sys2Proof Sys2Proof.Machine

/-- Settles O44: a write is tested outside SAFE, RELIGHT and UPDATE, its code decides whether a ramp starts, and a stranger's is refused. -/
theorem targetsAreTested : Obligations.TargetsAreTested := by
  unfold Obligations.TargetsAreTested
  refine ⟨?fails, ?passes, ?stranger, fun s q v => State.targetCode_range⟩
  case fails =>
    rintro s _ p r q v brings rfl may notSafe notRelight notUpdate fails
    exact secTargetWrite_brings brings ((State.writeTarget_tested may notSafe notRelight notUpdate v).trans (if_neg fails))
  case passes =>
    rintro s _ p r q v brings rfl may notSafe notRelight notUpdate passes en stands
    have tested := State.writeTarget_tested may notSafe notRelight notUpdate (q := q) v
    exact secTargetWrite_brings brings (tested.trans ((if_pos passes).trans (State.acceptTarget_standing en stands)))
  case stranger =>
    rintro s _ p r q v brings rfl stranger
    exact secTargetWrite_brings brings (State.writeTarget_stranger stranger v)

end

section
/-! Sectors that rise, and what a sector fault turns off (O45). -/

namespace Sys2Proof.Machine

/-! Leaving a partner changes one path's gate and no sector (R313, R340). -/

/-- A gate that turns off changes the paths as they stand, whatever the rest of the state. -/
theorem State.gateOff_pwr_congr {s t : State} (same : t.pwr = s.pwr) (p : Fin 17) : (t.gateOff p).pwr = (s.gateOff p).pwr := by
  simp [State.gateOff, State.modMoor, State.moor, same]

/-- R313: of chapter 12's state an engine that leaves its partner turns its gate off, and that is all. -/
theorem State.leavePartner_pwr (s : State) (e : Fin 17) (st : TcState) : (s.leavePartner e st).pwr = (s.gateOff e).pwr := by
  have counted : (if (s.eng e).epr then s.ccChange e else s).pwr = s.pwr := by split <;> rfl
  have off := State.gateOff_pwr_congr ((State.endTx_eng _ e 2).1.trans counted) e
  unfold State.leavePartner
  dsimp only
  split
  case isTrue => exact (State.offerItem_eng _ e 5 _).1.trans off
  case isFalse => exact off

@[simp] theorem State.leavePartner_sector (s : State) (e : Fin 17) (st : TcState) (q : Fin 4) : (s.leavePartner e st).sector q = s.sector q :=
  (congrArg (fun (w : Power) => w.sec[q]) (s.leavePartner_pwr e st)).trans (State.modMoor_sector s e _ q)

/-- R313: the other paths are left alone. -/
theorem State.leavePartner_moor_ne {e p : Fin 17} (other : p ≠ e) (s : State) (st : TcState) : (s.leavePartner e st).moor p = s.moor p :=
  (congrArg (fun (w : Power) => w.path[p]) (s.leavePartner_pwr e st)).trans (State.modMoor_moor_ne s e _ p other)

/-! A trip (R348), and the trips of a quad (R354). -/

/-- R348: a trip is absorbed by a path that is off; another path leaves its partner, and its records change and not its gate. -/
theorem State.trip_cases (s : State) (p : Fin 17) (kind : Nat) :
    (s.moor p).gate = false ∧ s.trip p kind = s ∨
      ∃ g : Mooring → Mooring, (∀ m, (g m).gate = m.gate) ∧ s.trip p kind = (s.leavePartner p .recovery).modMoor p g := by
  cases gate : (s.moor p).gate with
  | false => exact .inl ⟨rfl, if_pos (by simp [gate])⟩
  | true =>
    refine .inr ⟨_, ?gateKept, if_neg (by simp [gate])⟩
    exact fun _ => rfl

@[simp] theorem State.trip_sector (s : State) (p : Fin 17) (kind : Nat) (q : Fin 4) : (s.trip p kind).sector q = s.sector q := by
  obtain ⟨-, absorbed⟩ | ⟨g, -, tripped⟩ := s.trip_cases p kind
  · rw [absorbed]
  · rw [tripped, State.modMoor_sector, State.leavePartner_sector]

/-- R348: the gate of a path that trips is off. -/
theorem State.trip_gate_self (s : State) (p : Fin 17) (kind : Nat) : ((s.trip p kind).moor p).gate = false := by
  obtain ⟨off, absorbed⟩ | ⟨g, keeps, tripped⟩ := s.trip_cases p kind
  · rw [absorbed, off]
  · rw [tripped, State.modMoor_moor_self, keeps, State.leavePartner_gate]

/-- R348: the trip of a path leaves every other path as it is. -/
theorem State.trip_moor_ne {p r : Fin 17} (other : r ≠ p) (s : State) (kind : Nat) : (s.trip p kind).moor r = s.moor r := by
  obtain ⟨-, absorbed⟩ | ⟨g, -, tripped⟩ := s.trip_cases p kind
  · rw [absorbed]
  · rw [tripped, State.modMoor_moor_ne _ _ _ _ other, State.leavePartner_moor_ne other]

/-- R348: a trip turns no gate on. -/
theorem State.trip_gate_off {s : State} {r : Fin 17} (off : (s.moor r).gate = false) (p : Fin 17) (kind : Nat) :
    ((s.trip p kind).moor r).gate = false := by
  by_cases same : r = p
  · rw [same, State.trip_gate_self]
  · rw [State.trip_moor_ne same, off]

/-- R354: the trips of some ports, one after another. -/
def State.tripPorts (s : State) (ports : List (Fin 16)) (kind : Nat) : State := ports.foldl (fun s n => s.trip (pathOf n) kind) s

@[simp] theorem State.tripPorts_sector (s : State) (ports : List (Fin 16)) (kind : Nat) (q : Fin 4) :
    (s.tripPorts ports kind).sector q = s.sector q :=
  foldl_part (fun t => t.sector q) (fun t n => t.trip_sector (pathOf n) kind q) ports s

/-- R354: a gate is off after trips in which its port has its turn, or before which it was off. -/
theorem State.tripPorts_gate (ports : List (Fin 16)) (kind : Nat) {n : Fin 16} :
    ∀ {s : State}, n ∈ ports ∨ (s.moor (pathOf n)).gate = false → ((s.tripPorts ports kind).moor (pathOf n)).gate = false := by
  induction ports with
  | nil => exact fun turn => turn.resolve_left List.not_mem_nil
  | cons a rest ih =>
    intro s turn
    refine ih (s := s.trip (pathOf a) kind) ?_
    obtain turn | off := turn
    · obtain rfl | later := List.mem_cons.mp turn
      · exact .inr (s.trip_gate_self (pathOf n) kind)
      · exact .inl later
    · exact .inr (State.trip_gate_off off (pathOf a) kind)

/-! A sector fault (R354). -/

/-- R354: a sector after a fault: EN low, TARGET at 5 V, the fault recorded, and the gap, or the latch where RUN exceeds RETRIES. -/
def Sector.faultedBy (x : Sector) (cause : Nat) (count : BitVec 16) : Sector :=
  { x.off with
    target := 500, oc := x.oc || decide (cause = 5) || decide (cause = 6), faultCause := cause, run := min (x.run + 1) 7
    faultCount := count, latched := decide (x.retries < x.run + 1), gap := !decide (x.retries < x.run + 1) }

/-- R354: every port of the quad trips, and then the sector is in fault. -/
theorem State.failSector_eq (s : State) (q : Fin 4) (cause : Nat) :
    s.failSector q cause =
      (s.tripPorts (portsOf q) 5).modSector q (fun x => x.faultedBy cause (s.bcn.count.setWidth 16)) := by
  unfold State.failSector
  refine State.modSector_congr (s := s.tripPorts (portsOf q) 5) ?_
  rw [State.tripPorts_sector]
  rfl

/-- R354: the sector that faults. -/
theorem State.failSector_sector (s : State) (q : Fin 4) (cause : Nat) :
    (s.failSector q cause).sector q = (s.sector q).faultedBy cause (s.bcn.count.setWidth 16) := by
  rw [State.failSector_eq, State.modSector_sector_self, State.tripPorts_sector]

/-- R354: every gate of the quad is off. -/
theorem State.failSector_gate {q : Fin 4} {n : Fin 16} (inQuad : n ∈ portsOf q) (s : State) (cause : Nat) :
    ((s.failSector q cause).moor (pathOf n)).gate = false := by
  rw [State.failSector_eq, State.modSector_moor]
  exact State.tripPorts_gate (portsOf q) 5 (.inl inQuad)

/-! The way up (R352, R353), and the current loop (R350). -/

section
variable {s : State} {q : Fin 4}

/-- R352: a sector whose conditions hold is enabled, and starts at 5 V. -/
theorem sectorEnable_wanted (wanted : s.sectorWanted q = true) (off : (s.sector q).en = false) :
    Completes (.sectorEnable q) s (s.modSector q (fun x =>
      { x with en := true, pg := false, moving := false, atLevel := false, ppsCl := false, target := 500, level := 500, oc := false })) :=
  .of_effect rfl (if_pos (by simp [wanted, off]))

/-- R352: one whose conditions do not hold stays as it is. -/
theorem sectorEnable_unwanted (unwanted : s.sectorWanted q = false) : Completes (.sectorEnable q) s s :=
  .of_effect rfl (if_neg (by simp [unwanted]))

/-- R353: an enabled sector whose ramp has ended reaches its level. -/
theorem sectorAtLevel_stands (en : (s.sector q).en = true) (stands : (s.sector q).moving = false) :
    Completes (.sectorAtLevel q) s (s.modSector q (fun x => { x with atLevel := true })) :=
  .of_effect rfl (if_pos (by simp [en, stands]))

/-- R350: the current loop acts on the port that holds the quad's PPS contract. -/
theorem ppsCurrentLimit_acts {n : Fin 16} (port : s.ppsPort q = some n) (en : (s.sector q).en = true)
    (stands : (s.sector q).moving = false) (above : Bool) :
    Completes (.ppsCurrentLimit q above) s (s.ppsLimit q n above) :=
  .of_effect rfl (by rw [port]; exact if_pos (by simp [en, stands]))

end

end Sys2Proof.Machine

open Sys2Proof Sys2Proof.Machine

/-- Settles O45: each event of a sector acts under its condition, and a fault leaves the sector as `State.failSector_sector` says and the
gates of its quad as `State.failSector_gate` says. -/
theorem sectorsRiseAndFault : Obligations.SectorsRiseAndFault := by
  unfold Obligations.SectorsRiseAndFault
  refine ⟨fun s q => ⟨sectorEnable_wanted, sectorEnable_unwanted, ?powerGood, ?rampEnd, sectorAtLevel_stands⟩, ?fault, ?sector,
    fun s q c n inQuad => s.failSector_gate inQuad c, fun s q => rfl, ?pps⟩
  case powerGood => exact fun en => .of_effect rfl (if_pos en)
  case rampEnd => exact fun moving => .of_effect rfl (if_pos moving)
  case fault => exact fun s q c may => .of_effect rfl (if_pos may)
  case sector =>
    intro s q c
    rw [State.failSector_sector]
    exact ⟨rfl, rfl, rfl, rfl⟩
  case pps => exact fun s q n port en stands => ppsCurrentLimit_acts port en stands false

end

section
/-! What every step does: it answers a next state, takes one command off the queue, and keeps the Holding Store's form (O56, O59, O60). -/

namespace Sys2Proof.Machine

/-- Each command is the meaning of its own, and each meaning ends in a next state. -/
theorem exec_next (c : Instr) (s : State) : ∃ t, exec c s = .next t := by
  cases c <;> exact ⟨_, rfl⟩

/-- Each command is the meaning of its own, whose `exec…_keeps` says what it keeps: the queue, and the canonical form. -/
theorem exec_keeps {q : List Instr} {b : Prop} (c : Instr) {s : State} (keeps : Keeps q b s) : OutKeeps q b (exec c s) := by
  cases c <;> simp only [exec] <;> simp [keeps]

/-- The same of the next state that a command answers. -/
theorem Keeps.exec {q : List Instr} {b : Prop} {c : Instr} {s t : State} (keeps : Keeps q b s) (runs : exec c s = .next t) :
    Keeps q b t := by
  have kept := exec_keeps c keeps
  rwa [runs] at kept

theorem step_of_cons {s : State} {c : Instr} {rest : List Instr} (queue : s.pending = c :: rest) :
    step s = exec c { s with pending := rest } := by
  simp [step, queue]

theorem step_of_nil {s : State} (queue : s.pending = []) : step s = .next s := by
  simp [step, queue]

/-- Every step answers a next state. -/
theorem safeStep (s : State) : SafeStep s := by
  cases queue : s.pending with
  | nil => exact ⟨s, step_of_nil queue⟩
  | cons c rest =>
    obtain ⟨t, runs⟩ := exec_next c { s with pending := rest }
    exact ⟨t, (step_of_cons queue).trans runs⟩

end Sys2Proof.Machine

open Sys2Proof Sys2Proof.Machine

/-- Settles O60: an idle step changes nothing, and a command keeps the form of the store that it finds. -/
theorem storeFormIsKept : Obligations.StoreFormIsKept := by
  unfold Obligations.StoreFormIsKept
  intro s t form steps
  cases queue : s.pending with
  | nil =>
    obtain rfl : s = t := Host.Outcome.next.inj ((step_of_nil queue).symm.trans steps)
    exact form
  | cons c rest =>
    have keeps : Keeps rest True { s with pending := rest } := ⟨rfl, fun _ => form⟩
    exact (keeps.exec ((step_of_cons queue).symm.trans steps)).2 trivial

/-- Settles O59: the step takes the front off, and no command changes the queue that it finds. -/
theorem queueIsFifo : Obligations.QueueIsFifo := by
  unfold Obligations.QueueIsFifo
  intro s t c rest queue steps
  have keeps : Keeps rest False { s with pending := rest } := ⟨rfl, False.elim⟩
  exact (keeps.exec ((step_of_cons queue).symm.trans steps)).1

/-- Settles O56. -/
theorem stepRunsTheFront : Obligations.StepRunsTheFront := by
  unfold Obligations.StepRunsTheFront
  exact ⟨fun _ _ _ => step_of_cons, fun _ => step_of_nil, exec_next, safeStep⟩

end

section
/-! What follows every command leaves alone (O57). -/

namespace Sys2Proof.Machine

/-- Of the register file `State.after` touches only what the requesters hold. -/
theorem State.after_reg (s0 s : State) : (s0.after s).reg = { s.reg with req := (s0.after s).reg.req } :=
  congrArg (fun x : Still => { x.reg with req := (s0.after s).reg.req }) (s0.after_still s)

/-- Of the Beacon it touches only the Lamps and the transactions that outlive their function. -/
theorem State.after_bcn (s0 s : State) :
    (s0.after s).bcn = { s.bcn with lists := (s0.after s).bcn.lists, orphans := (s0.after s).bcn.orphans } :=
  congrArg (fun x : Still => { x.bcn with lists := (s0.after s).bcn.lists, orphans := (s0.after s).bcn.orphans })
    (s0.after_still s)

/-- Of the mode controller it touches only the two flags that follow LG1 and LG2. -/
theorem State.after_md_flags (s0 s : State) :
    (s0.after s).md = { s.md with lgArmed := (s0.after s).md.lgArmed, sag := (s0.after s).md.sag } := by
  rw [State.after_md]
  rfl

end Sys2Proof.Machine

open Sys2Proof Sys2Proof.Machine

/-- Settles O57: each part by what `State.after_still` says of it. -/
theorem commandsFrame : Obligations.CommandsFrame := by
  unfold Obligations.CommandsFrame
  exact fun s0 s => ⟨s0.after_sup s, s0.after_boot s, s0.after_upd s, s0.after_pins s, s0.after_clk s, s0.after_reg s,
    s0.after_bcn s, s0.after_kpr s, s0.after_smbBusy s, s0.after_pending s, s0.after_mode s, s0.after_md_flags s⟩

end

section
/-! Register and immediate instructions of a keeper (O30). -/

namespace Sys2Proof.Machine

/-! What a comparison writes, and the low bits of an immediate. -/

theorem flagHalf_ult (a b : Half) : flagHalf (a.ult b) = if a.toNat < b.toNat then 1 else 0 := by
  simp [flagHalf, BitVec.ult]

theorem flagHalf_slt (a b : Half) : flagHalf (a.slt b) = if a.toInt < b.toInt then 1 else 0 := by
  simp [flagHalf, BitVec.slt]

/-- A shift by an immediate is by bits [3:0] of the instruction. -/
theorem fieldNat_kImm (w : DWord) : fieldNat (kImm w) 0 4 = fieldNat w 0 4 := by
  simp only [fieldNat, kImm, loHalf, BitVec.toNat_setWidth]
  omega

/-! An instruction that its keeper fetches, by what it ends in (R427, R433). -/

section
variable {c : Instr} {s s1 : State} {k : Fin 12} {w : DWord} {pick : DWord → Bool} {act : State → DWord → KEnd}

/-- An instruction completes as what it ends in says. -/
theorem Completes.of_end {e : KEnd} (runs : exec c s = .next (s.after (s.runOp k pick act))) (fetches : s.Fetches k w s1)
    (named : pick w = true) (does : act s1 w = e) {u : State} (leaves : s1.kfinish k e = u) : Completes c s u :=
  .of_effect runs ((State.runOp_fetches fetches named act).trans ((congrArg (s1.kfinish k) does).trans leaves))

theorem Completes.of_next {u : State} (runs : exec c s = .next (s.after (s.runOp k pick act))) (fetches : s.Fetches k w s1)
    (named : pick w = true) (does : act s1 w = .next u) : Completes c s (u.kstep k) :=
  .of_end runs fetches named does rfl

theorem Completes.of_jump {u : State} {pc : BitVec 24} (runs : exec c s = .next (s.after (s.runOp k pick act)))
    (fetches : s.Fetches k w s1) (named : pick w = true) (does : act s1 w = .jump u pc) : Completes c s (u.kgoto k pc) :=
  .of_end runs fetches named does rfl

theorem Completes.of_trap {u : State} {cause addr : Nat} (runs : exec c s = .next (s.after (s.runOp k pick act)))
    (fetches : s.Fetches k w s1) (named : pick w = true) (does : act s1 w = .trap cause addr u) :
    Completes c s (u.takeTrap k cause addr) :=
  .of_end runs fetches named does rfl

theorem Completes.of_ended {u : State} (runs : exec c s = .next (s.after (s.runOp k pick act))) (fetches : s.Fetches k w s1)
    (named : pick w = true) (does : act s1 w = .ended u) : Completes c s u :=
  .of_end runs fetches named does rfl

/-- An instruction that writes a register goes on to the next one. -/
theorem Completes.of_kset {u : State} {r : Nat} {v : Half} (runs : exec c s = .next (s.after (s.runOp k pick act)))
    (fetches : s.Fetches k w s1) (named : pick w = true) (does : act s1 w = u.kset k r v) : Completes c s (u.kwrite k r v) :=
  .of_effect (Completes.of_next runs fetches named does) (u.finish_kset k r v)

end

/-- A register instruction of legal form writes its function of two registers (R433). -/
theorem State.kAlu_legal {s : State} {w : DWord} (reserved : fieldNat w 0 6 = 0) (ra : kA w < 0x18) (rb : kB w < 0x18)
    (rc : kC w < 0x18) (k : Fin 12) (f : Half → Half → Half) :
    s.kAlu k w f = s.kset k (kA w) (f ((s.keeper k).reg (kB w)) ((s.keeper k).reg (kC w))) := by
  simp [State.kAlu, reserved, ra, rb, rc]

/-- An immediate instruction of legal form writes its function of a register and its immediate (R433). -/
theorem State.kImmOp_legal {s : State} {w : DWord} {ok : Bool} (form : ok = true) (ra : kA w < 0x18) (rb : kB w < 0x18)
    (k : Fin 12) (f : Half → Half → Half) :
    s.kImmOp k w ok f = s.kset k (kA w) (f ((s.keeper k).reg (kB w)) (kImm w)) := by
  simp [State.kImmOp, form, ra, rb]

/-- R427: G0 reads zero and discards what is written. -/
theorem Keeper.setReg_zero (x : Keeper) (v : Half) : (x.setReg 0 v).reg 0 = 0 ∧ x.setReg 0 v = x := ⟨rfl, rfl⟩

end Sys2Proof.Machine

open Sys2Proof Sys2Proof.Machine

/-- Settles O30: a fetched instruction of legal form writes its own function of its operands. -/
theorem keeperArithmetic : Obligations.KeeperArithmetic := by
  unfold Obligations.KeeperArithmetic
  refine ⟨?register, ?immediate, Keeper.setReg_zero⟩
  case register =>
    rintro s s1 k w a b fetches op reserved ra rb rc rfl rfl
    have alu {c : Instr} {fn : Nat} {f : Half → Half → Half}
        (runs : exec c s = .next (s.after (s.runOp k (isAlu fn) (fun s w => s.kAlu k w f)))) (function : kFn w = fn) :
        Completes c s (s1.kwrite k (kA w) (f ((s1.keeper k).reg (kB w)) ((s1.keeper k).reg (kC w)))) :=
      .of_kset runs fetches (by simp [isAlu, op, function]) (State.kAlu_legal reserved ra rb rc k f)
    simp only [← flagHalf_ult, ← flagHalf_slt]
    exact ⟨alu (f := (· + ·)) rfl, alu (f := (· - ·)) rfl, alu (f := (· &&& ·)) rfl, alu (f := (· ||| ·)) rfl,
      alu (f := (· ^^^ ·)) rfl, alu (f := fun a b => a <<< fieldNat b 0 4) rfl, alu (f := fun a b => a >>> fieldNat b 0 4) rfl,
      alu (f := fun a b => a.sshiftRight (fieldNat b 0 4)) rfl, alu (f := (· * ·)) rfl,
      alu (f := fun a b => BitVec.ofNat 16 (a.toNat * b.toNat / 0x10000)) rfl, alu (f := fun a b => flagHalf (a.ult b)) rfl,
      alu (f := fun a b => flagHalf (a.slt b)) rfl⟩
  case immediate =>
    rintro s s1 k w a fetches ra rb rfl
    have imm {c : Instr} {op : Nat} {ok : DWord → Bool} {f : Half → Half → Half}
        (runs : exec c s = .next (s.after (s.runOp k (isOp op) (fun s w => s.kImmOp k w (ok w) f)))) (code : kOp w = op)
        (form : ok w = true) : Completes c s (s1.kwrite k (kA w) (f ((s1.keeper k).reg (kB w)) (kImm w))) :=
      .of_kset runs fetches (by simp [isOp, code]) (State.kImmOp_legal form ra rb k f)
    simp only [← flagHalf_ult, ← flagHalf_slt, ← fieldNat_kImm]
    exact ⟨fun code => imm (f := (· + ·)) rfl code rfl, fun code => imm (f := (· &&& ·)) rfl code rfl,
      fun code => imm (f := (· ||| ·)) rfl code rfl, fun code => imm (f := (· ^^^ ·)) rfl code rfl,
      fun code form => imm (f := fun a i => a <<< fieldNat i 0 4) rfl code (beq_iff_eq.mpr form),
      fun code form => imm (f := fun a i => a >>> fieldNat i 0 4) rfl code (beq_iff_eq.mpr form),
      fun code form => imm (f := fun a i => a.sshiftRight (fieldNat i 0 4)) rfl code (beq_iff_eq.mpr form),
      fun code form => imm (f := fun _ i => i) rfl code (beq_iff_eq.mpr form),
      fun code => imm (f := fun a i => flagHalf (a.ult i)) rfl code rfl,
      fun code => imm (f := fun a i => flagHalf (a.slt i)) rfl code rfl⟩

end

section
/-! Branches, calls and returns of a keeper (O32). -/

namespace Sys2Proof.Machine

/-- A keeper with the next window open, linked to the following instruction (R436). -/
def Keeper.openWindow (x : Keeper) : Keeper :=
  let n : Fin 8 := x.active + 1
  { x with active := n, held := x.held + 1, win := x.win.set n { x.win[n] with link := x.pc + 2 } }

section
variable {c : Instr} {s s1 : State} {k : Fin 12} {w : DWord} {pick : DWord → Bool} {act : State → DWord → KEnd}

/-! What branches and jumps of legal form end in (R433). -/

theorem State.kBranch_legal (ra : kA w < 0x18) (rb : kB w < 0x18) (f : Half → Half → Bool) :
    s.kBranch k w f =
      if f ((s.keeper k).reg (kA w)) ((s.keeper k).reg (kB w)) then
        .jump s ((s.keeper k).pc + 2 * (kImm w).signExtend 24)
      else .next s :=
  if_neg (by omega)

theorem State.kJmp_legal (reserved : fieldNat w 24 2 = 0) : s.kJmp w = .jump s (w.setWidth 24) := if_neg (by simp [reserved])

theorem jrOk_legal (reserved : fieldNat w 0 16 = 0) (rb : kB w < 0x18) : jrOk w = true := by simp [jrOk, reserved, rb]

theorem State.kJr_legal (reserved : fieldNat w 0 16 = 0) (rb : kB w < 0x18) :
    s.kJr k w = .jump s ((s.keeper k).regTarget (kB w)) := if_pos (jrOk_legal reserved rb)

/-! What calls and returns end in (R436, R438). -/

/-- With fewer than eight windows held a call opens the next. -/
theorem State.kCall_opens (outside : (s.keeper k).trapped = false) (room : (s.keeper k).held < 8) (target : BitVec 24) :
    s.kCall k target = .jump (s.modKeeper k Keeper.openWindow) target :=
  (if_neg (by simp [outside])).trans (if_neg (by omega))

/-- With eight windows held a call overflows. -/
theorem State.kCall_overflows (outside : (s.keeper k).trapped = false) (full : 8 ≤ (s.keeper k).held) (target : BitVec 24) :
    s.kCall k target = .trap 0x04 0 s := by
  simp [State.kCall, outside, full]

/-- A return with a window below gives the active one back. -/
theorem State.kBackw_returns (reserved : fieldNat w 0 26 = 0) (outside : (s.keeper k).trapped = false) (below : 1 < (s.keeper k).held) :
    s.kBackw k w =
      .jump (s.modKeeper k (fun x => { x with active := x.active - 1, held := x.held - 1 }))
        ((s.keeper k).win[(s.keeper k).active]).link := by
  simp [State.kBackw, reserved, outside, below]

/-- A return with nothing to return to traps. -/
theorem State.kBackw_empty (reserved : fieldNat w 0 26 = 0) (outside : (s.keeper k).trapped = false) (last : (s.keeper k).held ≤ 1)
    (none_ : (s.keeper k).parked = 0) : s.kBackw k w = .trap 0x06 0 s := by
  simp [State.kBackw, reserved, outside, last, none_]

/-- R437: a window trap outside the trap window goes to the handler. -/
theorem State.takeTrap_overflow (outside : (s.keeper k).trapped = false) (addr : Nat) :
    s.takeTrap k 0x04 addr = s.modKeeper k (fun x => x.enterHandler 0x04) :=
  if_pos (by simp [outside])

/-- R436: a call completes in the next window, linked to the following instruction, at its target. -/
theorem call_completes {target : BitVec 24} (runs : exec c s = .next (s.after (s.runOp k pick act))) (fetches : s.Fetches k w s1)
    (named : pick w = true) (outside : (s1.keeper k).trapped = false) (room : (s1.keeper k).held < 8)
    (calls : act s1 w = s1.kCall k target) :
    ∃ u : State, exec c s = .next (s.after u) ∧ (u.keeper k).active = (s1.keeper k).active + 1 ∧
      (u.keeper k).held = (s1.keeper k).held + 1 ∧ ((u.keeper k).win[(u.keeper k).active]).link = (s1.keeper k).pc + 2 ∧
      (u.keeper k).pc = target ∧ u.hst = s1.hst := by
  refine ⟨_, Completes.of_jump runs fetches named (calls.trans (State.kCall_opens outside room target)), ?_⟩
  simp [State.kgoto, Keeper.openWindow]

end

end Sys2Proof.Machine

open Sys2Proof Sys2Proof.Machine

/-- Settles O32: a fetched branch, call or return of legal form ends in the jump or the trap of its case. -/
theorem keeperControlFlow : Obligations.KeeperControlFlow := by
  unfold Obligations.KeeperControlFlow
  refine ⟨?branches, ?jmp, ?jr, ?calls, ?backw, ?overflow, ?empty⟩
  case branches =>
    rintro s s1 k w a b go fetches ra rb rfl rfl rfl
    have branch {c : Instr} {op : Nat} {f : Half → Half → Bool} {u : State}
        (runs : exec c s = .next (s.after (s.runOp k (isOp op) (fun s w => s.kBranch k w f)))) (code : kOp w = op)
        (goes : (if f ((s1.keeper k).reg (kA w)) ((s1.keeper k).reg (kB w)) then
          s1.kgoto k ((s1.keeper k).pc + 2 * (kImm w).signExtend 24) else s1.kstep k) = u) : Completes c s u := by
      exact .of_end runs fetches (by simp [isOp, code]) (State.kBranch_legal ra rb f) ((apply_ite _ _ _ _).trans goes)
    refine ⟨fun code => branch (f := (· == ·)) rfl code ?_, fun code => branch (f := (· != ·)) rfl code ?_,
      fun code => branch (f := fun a b => a.ult b) rfl code ?_, fun code => branch (f := fun a b => !a.ult b) rfl code ?_,
      fun code => branch (f := fun a b => a.slt b) rfl code ?_, fun code => branch (f := fun a b => !a.slt b) rfl code ?_⟩
    all_goals simp only [BitVec.ult, BitVec.slt, beq_iff_eq, bne_iff_ne, ne_eq, Bool.not_eq_true', decide_eq_true_eq,
      decide_eq_false_iff_not, ite_not]
  case jmp =>
    exact fun s s1 k w fetches code reserved =>
      .of_jump rfl fetches (by simp [isOp, code]) (State.kJmp_legal reserved)
  case jr =>
    exact fun s s1 k w fetches code reserved rb =>
      .of_jump rfl fetches (by simp [isOp, code]) (State.kJr_legal reserved rb)
  case calls =>
    intro s s1 k w fetches outside room
    refine ⟨fun code reserved => ?direct, fun code reserved rb => ?register⟩
    case direct =>
      have calls : (if fieldNat w 24 2 ≠ 0 then illegal s1 else s1.kCall k (jumpTarget w)) = s1.kCall k (jumpTarget w) :=
        if_neg (by simp [reserved])
      exact call_completes rfl fetches (by simp [isOp, code]) outside room calls
    case register => exact call_completes rfl fetches (by simp [isOp, code]) outside room (if_pos (jrOk_legal reserved rb))
  case backw =>
    intro s s1 k w fetches outside code reserved below
    refine ⟨_, Completes.of_jump rfl fetches (by simp [isOp, code]) (State.kBackw_returns reserved outside below), ?_⟩
    simp [State.kgoto]
  case overflow =>
    intro s s1 k w fetches outside code reserved full
    rw [← State.takeTrap_overflow outside 0]
    exact .of_trap rfl fetches (by simp [isOp, code]) ((if_neg (by simp [reserved])).trans (State.kCall_overflows outside full _))
  case empty =>
    intro s s1 k w fetches outside code reserved last none_
    exact .of_trap rfl fetches (by simp [isOp, code]) (State.kBackw_empty reserved outside last none_)

end

section
/-! The trap window's own instructions and the special registers (O33). -/

namespace Sys2Proof.Machine

/-! The store buffer drained, and stores that act at once (R444, R446). -/

/-- Words written to the Holding Store one after another. -/
def HoldingStore.stores (h : HoldingStore) (l : List (Nat × Half)) : HoldingStore :=
  l.foldl (fun h x => h.writeWords x.1 [(x.2, false)]) h

/-- The same in a state. -/
def State.stores (s : State) (l : List (Nat × Half)) : State := { s with hst := s.hst.stores l }

@[simp] theorem State.stores_keeper (s : State) (l : List (Nat × Half)) (k : Fin 12) : (s.stores l).keeper k = s.keeper k := rfl

theorem foldl_stores (l : List (Nat × Half)) (s : State) :
    l.foldl (fun s x => { s with hst := s.hst.writeWords x.1 [(x.2, false)] }) s = s.stores l := by
  induction l generalizing s with
  | nil => rfl
  | cons x rest ih => exact ih _

/-- A drain writes the buffer to the Holding Store and empties it. -/
theorem State.drainStores_eq (s : State) (k : Fin 12) :
    s.drainStores k = (s.stores (s.keeper k).storeBuf).modKeeper k (fun x => { x with storeBuf := [] }) :=
  congrArg (fun t : State => t.modKeeper k (fun x => { x with storeBuf := [] })) (foldl_stores _ s)

@[simp] theorem State.drainStores_mode (s : State) (k : Fin 12) : (s.drainStores k).mode = s.mode := by
  rw [State.drainStores_eq]
  rfl

@[simp] theorem State.drainStores_keeper (s : State) (k : Fin 12) :
    (s.drainStores k).keeper k = { s.keeper k with storeBuf := [] } := by
  rw [State.drainStores_eq, State.modKeeper_keeper_self]
  rfl

/-- Table 15.3 places an address by the mode alone. -/
theorem State.placeOf_congr {s t : State} (mode : t.mode = s.mode) (a : Nat) : t.placeOf a = s.placeOf a := by
  have wick : t.wick = s.wick := by simp [State.wick, mode]
  simp only [State.placeOf, wick]

@[simp] theorem State.drainStores_placeOf (s : State) (k : Fin 12) (a : Nat) : (s.drainStores k).placeOf a = s.placeOf a :=
  State.placeOf_congr (s.drainStores_mode k) a

/-- A store outside the device registers and the DMA slots reaches the Holding Store. -/
theorem State.storeNow_store {s : State} {a : Nat} (noReg : s.placeOf a ≠ .reg) (noSlot : s.placeOf a ≠ .slot) (k : Fin 12) (v : Half) :
    s.storeNow k a v = ({ s with hst := s.hst.writeWords a [(v, false)] }, none) := by
  unfold State.storeNow
  split
  case h_1 reg => exact absurd reg noReg
  case h_2 slot => exact absurd slot noSlot
  case h_3 => rfl

/-- Several of them reach it in order. -/
theorem State.kstores_store {l : List (Nat × Half)} (k : Fin 12) :
    ∀ {s : State}, (∀ x ∈ l, s.placeOf x.1 ≠ .reg ∧ s.placeOf x.1 ≠ .slot) →
      s.kstores k l = (s.stores l, none) := by
  induction l with
  | nil => exact fun _ => rfl
  | cons x rest ih =>
    intro s plain
    obtain ⟨noReg, noSlot⟩ := plain x List.mem_cons_self
    have stored := State.storeNow_store noReg noSlot k x.2
    have later := ih (s := { s with hst := s.hst.writeWords x.1 [(x.2, false)] }) (fun y m => plain y (List.mem_cons_of_mem _ m))
    simp only [State.kstores, stored, later]
    rfl

section
variable {s : State} {k : Fin 12} {w : DWord}

/-- Two changes that agree on a keeper change it alike. -/
theorem State.modKeeper_congr {g h : Keeper → Keeper} (agree : g (s.keeper k) = h (s.keeper k)) :
    s.modKeeper k g = s.modKeeper k h := by
  simp only [State.modKeeper, agree]

/-! The trap window's instructions (R437, R438). -/

theorem State.kResume_inside (inside : (s.keeper k).trapped = true) (reserved : fieldNat w 0 26 = 0) :
    s.kResume k w = .jump (s.modKeeper k (fun x => { x with trapped := false })) (s.keeper k).trapPc := by
  simp [State.kResume, inside, reserved]

theorem Keeper.formatXOk_legal {x : Keeper} (inside : x.trapped = true) (mid : fieldNat w 12 4 = 0) (low : fieldNat w 0 8 = 0)
    (ra : kA w < 0x18) : x.formatXOk w = true := by
  simp [Keeper.formatXOk, inside, mid, low, ra]

theorem State.kWget_reads (form : (s.keeper k).formatXOk w = true) {v : Half}
    (reads : (s.keeper k).winReg ((s.keeper k).named (fieldNat w 8 3) (bitOf w 11)) (kB w) = some v) :
    s.kWget k w = s.kset k (kA w) v := by
  simp [State.kWget, form, reads]

theorem State.kWput_writes (form : (s.keeper k).formatXOk w = true) {y : Keeper}
    (writes : (s.keeper k).setWinReg ((s.keeper k).named (fieldNat w 8 3) (bitOf w 11)) (kB w) ((s.keeper k).reg (kA w)) = some y) :
    s.kWput k w = .next (s.modKeeper k (fun _ => y)) := by
  simp [State.kWput, form, writes]

theorem Keeper.formatWOk_legal {x : Keeper} (inside : x.trapped = true) (rb : kB w < 0x18) : x.formatWOk w = true := by
  simp [Keeper.formatWOk, inside, rb]

/-- The words of a frame as `parkw` stores them (Table 15.7). -/
def Keeper.parkedFrame (x : Keeper) (w : DWord) : List (Nat × Half) := (addrsFrom (x.frameAddr w) 14).zip (x.win[x.frameWin w]).frame

/-- R437: a window whose fourteen addresses lie in the Holding Store is parked there, behind the keeper's earlier stores. -/
theorem State.kParkw_parks (form : (s.keeper k).formatWOk w = true)
    (places : ∀ a ∈ addrsFrom ((s.keeper k).frameAddr w) 14, (s.placeOf a).store = true ∧ s.placeOf a ≠ .reg ∧ s.placeOf a ≠ .slot) :
    s.kParkw k w = .next ((s.drainStores k).stores ((s.keeper k).parkedFrame w)) := by
  have permitted : (addrsFrom ((s.keeper k).frameAddr w) 14).find? (fun a => !(s.placeOf a).store) = none :=
    List.find?_eq_none.mpr (fun a m => by simp [(places a m).1])
  have plain : ∀ x ∈ (s.keeper k).parkedFrame w, (s.drainStores k).placeOf x.1 ≠ .reg ∧ (s.drainStores k).placeOf x.1 ≠ .slot :=
    fun x m => by simpa using (places x.1 (List.of_mem_zip m).1).2
  have stored := State.kstores_store k plain
  have run : (((s.drainStores k).stores ((s.keeper k).parkedFrame w)).keeper k).run = (s.keeper k).run :=
    by simp
  simp only [Keeper.parkedFrame] at stored run
  simp only [State.kParkw, form, permitted, stored, Bool.not_true, Bool.false_eq_true, if_false]
  exact if_pos run

/-- R437: a window is loaded from fourteen words that may all be loaded. -/
theorem State.kFetchw_loads (form : (s.keeper k).formatWOk w = true)
    (places : ∀ a ∈ addrsFrom ((s.keeper k).frameAddr w) 14, (s.placeOf a).load = true) {ws : List Half} {u : State}
    (loads : (s.drainStores k).kloads k (addrsFrom ((s.keeper k).frameAddr w) 14) = ((ws, none), u)) :
    s.kFetchw k w = .next (u.modKeeper k (fun x => { x with win := x.win.set (x.frameWin w) (frameWindow ws) })) := by
  have permitted : (addrsFrom ((s.keeper k).frameAddr w) 14).find? (fun a => !(s.placeOf a).load) = none :=
    List.find?_eq_none.mpr (fun a m => by simp [places a m])
  unfold State.kFetchw
  dsimp only
  rw [form, permitted, loads]
  rfl

/-! Special registers (R429). -/

theorem State.kMovfs_reads (form : formatSOk w = true) {v : Half} {u : State}
    (reads : s.readSpecial k (fieldNat w 8 8) = some (v, u)) : s.kMovfs k w = u.kset k (kA w) v := by
  simp [State.kMovfs, form, reads]

theorem State.kMovts_writes (form : formatSOk w = true) {y : Keeper}
    (writes : (s.keeper k).writeSpecial (fieldNat w 8 8) ((s.keeper k).reg (kA w)) = some y) :
    s.kMovts k w = .next (s.modKeeper k (fun _ => y)) := by
  simp [State.kMovts, form, writes]

/-- R429: WINSTAT is written in the trap window only, with HELD from 1 to 8. -/
theorem Keeper.writeSpecial_winstat (x : Keeper) (v : Half) :
    (x.writeSpecial 0x08 v).isSome = (x.trapped && decide (1 ≤ fieldNat v 4 4) && decide (fieldNat v 4 4 ≤ 8)) := by
  simp only [Keeper.writeSpecial]
  split
  case isTrue held => simp [held]
  case isFalse other => simpa using other

end

end Sys2Proof.Machine

open Sys2Proof Sys2Proof.Machine

/-- Settles O33: each fetched instruction of legal form does its part, with the loads and stores of a frame in order. -/
theorem keeperSystemInstructions : Obligations.KeeperSystemInstructions := by
  unfold Obligations.KeeperSystemInstructions
  refine ⟨?trapWindow, ?movfs, ?movts, fun x v => ⟨x.writeSpecial_winstat v, rfl, rfl, by simp [Keeper.writeSpecial]⟩⟩
  case trapWindow =>
    intro s s1 k w fetches inside
    refine ⟨?resume, ?wget, ?wput, ?parkw, ?fetchw⟩
    case resume =>
      intro code reserved
      have resumes : (s1.modKeeper k (fun x => { x with trapped := false })).kgoto k (s1.keeper k).trapPc =
          s1.modKeeper k (fun x => { x with trapped := false, pc := x.trapPc }) :=
        (State.modKeeper_modKeeper _ _ _ _).trans (State.modKeeper_congr rfl)
      exact .of_effect (Completes.of_jump rfl fetches (by simp [isOp, code]) (State.kResume_inside inside reserved)) resumes
    case wget =>
      exact fun code mid low ra v reads =>
        .of_kset rfl fetches (by simp [isOp, code]) (State.kWget_reads (Keeper.formatXOk_legal inside mid low ra) reads)
    case wput =>
      exact fun code mid low ra y writes =>
        .of_next rfl fetches (by simp [isOp, code]) (State.kWput_writes (Keeper.formatXOk_legal inside mid low ra) writes)
    case parkw =>
      exact fun code rb places =>
        ⟨_, Completes.of_next rfl fetches (by simp [isOp, code]) (State.kParkw_parks (Keeper.formatWOk_legal inside rb) places), rfl⟩
    case fetchw =>
      exact fun code rb places ws u loads =>
        .of_next rfl fetches (by simp [isOp, code]) (State.kFetchw_loads (Keeper.formatWOk_legal inside rb) places loads)
  case movfs =>
    exact fun s s1 u k w v fetches code form reads => .of_kset rfl fetches (by simp [isOp, code]) (State.kMovfs_reads form reads)
  case movts =>
    exact fun s s1 k w y fetches code form writes => .of_next rfl fetches (by simp [isOp, code]) (State.kMovts_writes form writes)

end

section
/-! Keeper loads and stores, posts, fences and DMA (O34). -/

namespace Sys2Proof.Machine

section
variable {s : State} {k : Fin 12} {w : DWord} {a : Nat} {v : Half}

/-! Loads (R430 to R432). -/

theorem isSegOp_of {op : Nat} (least : op ≤ kOp w) (below : kOp w < op + 4) : isSegOp op w = true := by
  simp [isSegOp, least, below]

/-- The address of a load or a store (R432). -/
def Keeper.dataAddr (x : Keeper) (w : DWord) : Nat := x.effective (segOf w) (kB w) ((kImm w).signExtend 32)

theorem State.kLd_forbidden (ra : kA w < 0x18) (rb : kB w < 0x18) (unmapped : (s.placeOf ((s.keeper k).dataAddr w)).load = false) :
    s.kLd k w = .trap 0x07 ((s.keeper k).dataAddr w) s :=
  (if_neg (by omega)).trans (if_pos unmapped)

theorem State.kLd_poisoned (ra : kA w < 0x18) (rb : kB w < 0x18) (mapped : (s.placeOf ((s.keeper k).dataAddr w)).load = true)
    (bad : (s.kload k ((s.keeper k).dataAddr w)).1.2 = true) :
    s.kLd k w = .trap 0x08 ((s.keeper k).dataAddr w) (s.kload k ((s.keeper k).dataAddr w)).2 :=
  (if_neg (by omega)).trans ((if_neg (ne_false_of_eq_true mapped)).trans (if_pos bad))

theorem State.kLd_loads (ra : kA w < 0x18) (rb : kB w < 0x18) (mapped : (s.placeOf ((s.keeper k).dataAddr w)).load = true)
    (good : (s.kload k ((s.keeper k).dataAddr w)).1.2 = false) :
    s.kLd k w = (s.kload k ((s.keeper k).dataAddr w)).2.kset k (kA w) (s.kload k ((s.keeper k).dataAddr w)).1.1 :=
  (if_neg (by omega)).trans ((if_neg (ne_false_of_eq_true mapped)).trans (if_neg (ne_true_of_eq_false good)))

/-! Stores (R430 to R432, R444, R448). -/

theorem State.kSt_legal (ra : kA w < 0x18) (rb : kB w < 0x18) :
    s.kSt k w = s.kstore k ((s.keeper k).dataAddr w) ((s.keeper k).reg (kA w)) := if_neg (by omega)

theorem State.kstore_forbidden (closed : (s.placeOf a).store = false) : s.kstore k a v = .trap 0x07 a s := if_pos closed

/-- A store of the Holding Store waits in the buffer while there is room. -/
theorem State.kstore_buffered (permitted : (s.placeOf a).store = true) (noReg : s.placeOf a ≠ .reg) (noSlot : s.placeOf a ≠ .slot)
    (room : (s.keeper k).storeBuf.length < 4) :
    s.kstore k a v = .next (s.modKeeper k (fun x => { x with storeBuf := x.storeBuf ++ [(a, v)] })) :=
  (if_neg (ne_false_of_eq_true permitted)).trans ((if_neg (by simp [noReg, noSlot])).trans (if_neg (by omega)))

/-- A store that acts at once, without a trap and with the keeper still running what it ran, goes on. -/
theorem State.kstore_now {u : State} (here : s.placeOf a = .reg ∨ s.placeOf a = .slot)
    (acts : (s.drainStores k).storeNow k a v = (u, none)) (runs : (u.keeper k).run = (s.keeper k).run) :
    s.kstore k a v = .next u := by
  have permitted : (s.placeOf a).store = true := by rcases here with reg | slot <;> simp [Place.store, *]
  simp [State.kstore, permitted, here, acts, runs]

/-- One that traps is not carried out. -/
theorem State.kstore_traps {u : State} {cause : Nat} (here : s.placeOf a = .reg ∨ s.placeOf a = .slot)
    (acts : (s.drainStores k).storeNow k a v = (u, some cause)) : s.kstore k a v = .trap cause a u := by
  have permitted : (s.placeOf a).store = true := by rcases here with reg | slot <;> simp [Place.store, *]
  simp [State.kstore, permitted, here, acts]

theorem State.storeNow_reg {u : State} (reg : s.placeOf a = .reg) (stored : s.storeReg k a v = (u, false)) :
    s.storeNow k a v = (u, none) := by
  simp [State.storeNow, reg, stored]

theorem State.storeNow_slot_idle (slot : s.placeOf a = .slot) (word : a % 8 < 6) {n : Fin 4} (named : n.val = (a - 0xC00000) / 8 % 4)
    (idle : ((s.keeper k).dma[n]).busy = false) :
    s.storeNow k a v = (s.modSlot k n (fun d => { d with words := d.words.set (a % 8) v, bad := d.bad.set (a % 8) false }), none) := by
  obtain ⟨m, bound⟩ := n
  obtain rfl : m = (a - 0xC00000) / 8 % 4 := named
  simp only [Fin.getElem_fin] at idle
  simp [State.storeNow, slot, word, idle]

theorem State.storeNow_slot_busy (slot : s.placeOf a = .slot) (word : a % 8 < 6) {n : Fin 4} (named : n.val = (a - 0xC00000) / 8 % 4)
    (busy : ((s.keeper k).dma[n]).busy = true) : s.storeNow k a v = (s, some 0x0A) := by
  obtain ⟨m, bound⟩ := n
  obtain rfl : m = (a - 0xC00000) / 8 % 4 := named
  simp only [Fin.getElem_fin] at busy
  simp [State.storeNow, slot, word, busy]

/-- R444: the newest store to a word is the one that a load of it gets. -/
theorem Keeper.forwarded_newest (x : Keeper) (a : Nat) (v : Half) :
    ({ x with storeBuf := x.storeBuf ++ [(a, v)] } : Keeper).forwarded a = some v := by
  simp [Keeper.forwarded]

/-! Posts, fences and the ends of items (R442, R443, R446, R450). -/

/-- R443: a post of words that may all be loaded, for an owner whose grant stands, goes to the ring of the item's owner. -/
theorem State.kPost_posts (ra : kA w < 0x18) (rb : kB w < 0x18) {i : Nat} {x : Item} {ws : List Half} {u : State}
    (runs : (s.keeper k).run = .item i) (item : s.item i = some x)
    (mapped : ∀ a ∈ addrsFrom ((s.keeper k).dataAddr w) 8, (s.placeOf a).load = true)
    (loads : (s.drainStores k).kloads k (addrsFrom ((s.keeper k).dataAddr w) 8) = ((ws, none), u))
    (granted : u.granted k x.owner = true) :
    s.kPost k w =
      (u.postFor x.owner x.evt (postEntry i k x ws)).2.kset k (kA w) (u.postFor x.owner x.evt (postEntry i k x ws)).1 := by
  have permitted : (addrsFrom ((s.keeper k).dataAddr w) 8).find? (fun a => !(s.placeOf a).load) = none :=
    List.find?_eq_none.mpr (fun a m => by simp [mapped a m])
  have legal : ¬ (0x18 ≤ kA w ∨ 0x18 ≤ kB w) := by omega
  simp only [Keeper.dataAddr] at permitted loads
  unfold State.kPost
  rw [if_neg legal]
  split
  case h_2 other => exact absurd runs (other i)
  case h_1 j run =>
    obtain rfl : i = j := by simpa using runs.symm.trans run
    rw [item]
    extract_lets s0 as_
    rw [show as_.find? _ = none from permitted, show s0.kloads k as_ = _ from loads]
    exact if_neg (by simp [granted])

theorem State.kFence_drains (reserved : fieldNat w 0 26 = 0)
    (issued : (s.keeper k).dma.toList.any (fun d => d.busy && d.toHost && !d.issued) = false) :
    s.kFence k w = .next (s.drainStores k) :=
  (if_neg (by simp [reserved])).trans (if_neg (ne_true_of_eq_false issued))

theorem State.kDwait_idle (reserved : fieldNat w 2 19 = 0) (ra : kA w < 0x18) {n : Fin 4} (named : fieldNat w 0 2 = n.val)
    (idle : ((s.keeper k).dma[n]).busy = false) : s.kDwait k w = s.kset k (kA w) ((s.keeper k).dma[n]).word6 := by
  obtain ⟨m, bound⟩ := n
  obtain rfl : fieldNat w 0 2 = m := named
  exact (if_neg (by omega)).trans (if_neg (ne_true_of_eq_false idle))

theorem State.kDone_ends {i : Nat} (reserved : fieldNat w 0 26 = 0) (runs : (s.keeper k).run = .item i)
    (idle : (s.keeper k).dma.toList.all DmaSlot.idle = true) : s.kDone k w = .ended (s.endOnKeeper k .success) := by
  simp [State.kDone, reserved, runs, idle]

/-- A slot that a request has just taken (R449). -/
def DmaSlot.taken (d : DmaSlot) : DmaSlot := { d with busy := true, issued := false, sub := 0, status := 0 }

/-- R449: a request that passes the checks goes out through a window that permits it, behind the keeper's stores. -/
theorem State.kDma_issues (reserved : fieldNat w 2 24 = 0) {n : Fin 4} {f : Func} {s2 : State} (named : fieldNat w 0 2 = n.val)
    (drained : s2 = s.drainStores k) (idle : ((s2.keeper k).dma[n]).busy = false) (form : s2.slotOk (s2.keeper k).dma[n] = true)
    (reaches : s2.slotFuncOf (s2.keeper k).dma[n] = some f)
    (window : bitOf (s2.lnk.win[((s2.keeper k).dma[n]).win]).ctl k.val = true) (granted : s2.granted k f = true)
    (goes : (s2.modSlot k n DmaSlot.taken).dmaGoes f = true) :
    s.kDma k w = .next ((s2.modSlot k n DmaSlot.taken).issueSlot k n f) := by
  obtain ⟨m, bound⟩ := n
  obtain rfl : fieldNat w 0 2 = m := named
  subst drained
  have legal : ¬ fieldNat w 2 24 ≠ 0 := by simp [reserved]
  simp only [State.kDma, legal, idle, form, reaches, window, granted, if_false, Bool.not_true, Bool.or_false, Bool.false_eq_true]
  exact congrArg KEnd.next (if_pos goes)

/-- R444: a drain makes the oldest store visible. -/
theorem storeBufferDrain_oldest {rest : List (Nat × Half)} (buffer : (s.keeper k).storeBuf = (a, v) :: rest) :
    Completes (.storeBufferDrain k) s
      ((({ s with hst := s.hst.writeWords a [(v, false)] } : State)).modKeeper k (fun x => { x with storeBuf := rest })) :=
  .of_effect rfl (by rw [buffer])

end

end Sys2Proof.Machine

open Sys2Proof Sys2Proof.Machine

/-- Settles O34: each fetched instruction of legal form ends as its rule says, by where Table 15.3 places its addresses. -/
theorem keeperMemoryAndItems : Obligations.KeeperMemoryAndItems := by
  unfold Obligations.KeeperMemoryAndItems
  refine ⟨?loads, ?stores, fun s k a v rest => storeBufferDrain_oldest, Keeper.forwarded_newest, ?post, ?fence, ?dwait, ?done, ?dma,
    ?complete⟩
  case loads =>
    rintro s s1 k w a fetches least below ra rb rfl
    have named := isSegOp_of least below
    exact ⟨fun mapped good => .of_kset rfl fetches named (State.kLd_loads ra rb mapped good),
      fun mapped bad => .of_trap rfl fetches named (State.kLd_poisoned ra rb mapped bad),
      fun unmapped => .of_trap rfl fetches named (State.kLd_forbidden ra rb unmapped)⟩
  case stores =>
    rintro s s1 k w a fetches least below ra rb rfl
    have named := isSegOp_of least below
    have legal : s1.kSt k w = _ := State.kSt_legal ra rb
    refine ⟨fun permitted noReg noSlot room => ?buffered, fun n word slot here idle => ?idle, fun n word slot here busy => ?busy,
      fun u reg stored runs => ?reg, fun closed => ?forbidden⟩
    case buffered => exact .of_next rfl fetches named (legal.trans (State.kstore_buffered permitted noReg noSlot room))
    case idle =>
      have acts := State.storeNow_slot_idle (v := (s1.keeper k).reg (kA w)) ((s1.drainStores_placeOf k _).trans slot) word here idle
      exact .of_next rfl fetches named (legal.trans (State.kstore_now (.inr slot) acts (by simp [State.modSlot])))
    case busy =>
      have acts := State.storeNow_slot_busy (v := (s1.keeper k).reg (kA w)) ((s1.drainStores_placeOf k _).trans slot) word here busy
      exact .of_trap rfl fetches named (legal.trans (State.kstore_traps (.inr slot) acts))
    case reg =>
      have acts := State.storeNow_reg ((s1.drainStores_placeOf k _).trans reg) stored
      exact .of_next rfl fetches named (legal.trans (State.kstore_now (.inl reg) acts runs))
    case forbidden => exact .of_trap rfl fetches named (legal.trans (State.kstore_forbidden closed))
  case post =>
    rintro s s1 u k w i x as_ ws fetches least below ra rb runs item rfl mapped loads granted
    exact .of_kset rfl fetches (isSegOp_of least below) (State.kPost_posts ra rb runs item mapped loads granted)
  case fence =>
    exact fun s s1 k w fetches code reserved issued =>
      .of_next rfl fetches (by simp [isOp, code]) (State.kFence_drains reserved issued)
  case dwait =>
    exact fun s s1 k w n fetches code reserved ra here idle =>
      .of_kset rfl fetches (by simp [isOp, code]) (State.kDwait_idle reserved ra here idle)
  case done =>
    exact fun s s1 k w i fetches code reserved runs idle =>
      .of_ended rfl fetches (by simp [isOp, code]) (State.kDone_ends reserved runs idle)
  case dma =>
    exact fun s s1 s2 k w n f fetches code reserved here drained idle form reaches window granted goes =>
      .of_next rfl fetches (by simp [isOp, code]) (State.kDma_issues reserved here drained idle form reaches window granted goes)
  case complete => exact fun s k n e busy issued => .of_effect rfl (if_pos (by simp only [busy, issued, Bool.and_self]))

end

section
/-! Counters and work items by command (O28). -/

namespace Sys2Proof.Machine

/-- R407: a counter that is freed is UNUSED. -/
theorem State.counterFree_ctr {s : State} (form : keysRise (s.tnd.counters.map Prod.fst) = true) (c : Nat) :
    (s.counterFree c).ctr c = none :=
  (assocGet_assocErase s.tnd.counters c c form).trans (if_pos rfl)

section
variable {s s1 : State} {f : Func} {ty : Nat} {i : Half} {e : Entry} {c : Instr} {pick : Entry → Bool}
  {act : State → Entry → CmdEnd}

/-- R211: a command that passes its checks completes as its own rules end it. -/
theorem Completes.of_issued {ends : CmdEnd} (runs : exec c s = .next (s.after (s.runCommand f ty pick act)))
    (issues : s.Issues f ty i e s1) (named : pick e = true) (does : act s1 e = ends) : Completes c s (State.cmdEnd f i e ends) :=
  .of_effect runs ((State.runCommand_issues issues named act).trans (congrArg (State.cmdEnd f i e) does))

/-- One that ends at once completes with its status and results. -/
theorem Completes.of_done {u : State} {st : Status} {r0 r1 : DWord} (runs : exec c s = .next (s.after (s.runCommand f ty pick act)))
    (issues : s.Issues f ty i e s1) (named : pick e = true) (does : act s1 e = .done u st r0 r1) :
    Completes c s (u.completeCmd f i e st r0 r1) :=
  .of_effect (Completes.of_issued runs issues named does) rfl

theorem counterAction_of {a : Nat} (action : fieldNat e[0] 28 4 = a) : counterAction a e = true := beq_iff_eq.mpr action

/-- R421: the action of a TND_COUNTER in form is its function's who may decrement the counter. -/
theorem State.counterCmd_acts (form : counterParamsOk e = true) (may : s.mayDecrement f (ctrParam e) = true)
    (act : State → Nat → CmdEnd) : s.counterCmd f e act = act s (ctrParam e) := by
  simp [State.counterCmd, form, may]

theorem State.counterCmd_notOwner (form : counterParamsOk e = true) (stranger : s.mayDecrement f (ctrParam e) = false)
    (act : State → Nat → CmdEnd) : s.counterCmd f e act = .done s .notOwner 0 0 := by
  simp [State.counterCmd, form, stranger]

theorem State.tndPost_posts (posts : (s.postItem f (descriptorOf e)).1.status = .success) :
    s.tndPost f e =
      .done (s.postItem f (descriptorOf e)).2 .success (putField (s.postItem f (descriptorOf e)).1.item 0 12)
        (putField (s.postItem f (descriptorOf e)).1.outcome 0 8) := by
  unfold State.tndPost
  generalize s.postItem f (descriptorOf e) = r at posts ⊢
  simp only [posts]

/-- R421: the issuer's item that carries the tag and does not run is freed. -/
theorem State.tndCancel_frees (reserved : fieldNat e[0] 12 20 = 0) (params : paramsZero e [2, 3, 4, 5] = true) {x : Item}
    (item : s.item (fieldNat e[0] 0 12) = some x) (owns : x.owner = f) (tag : x.tag = e[1]) (waits : x.state ≠ .running) :
    s.tndCancel f e = .done (s.freeItem (fieldNat e[0] 0 12)) .success 0 0 := by
  simp [State.tndCancel, reserved, params, item, owns, tag, waits]

theorem State.tndCancel_notOwner (reserved : fieldNat e[0] 12 20 = 0) (params : paramsZero e [2, 3, 4, 5] = true) {x : Item}
    (item : s.item (fieldNat e[0] 0 12) = some x) (other : x.owner ≠ f) (tenant : s.isPrimaryFn f = false) :
    s.tndCancel f e = .done s .notOwner 0 0 := by
  simp [State.tndCancel, reserved, params, item, other, tenant]

end

end Sys2Proof.Machine

open Sys2Proof Sys2Proof.Machine

/-- Settles O28: each command that its function issues ends as its own rules say. -/
theorem countersAndItemsAreCommanded : Obligations.CountersAndItemsAreCommanded := by
  unfold Obligations.CountersAndItemsAreCommanded
  refine ⟨?load, ?dec, ?free, fun s c form => State.counterFree_ctr form c, ?read, ?stranger, ?post, ?cancel, ?notOwner⟩
  case load =>
    exact fun s s1 f i e issues action form may unlinked =>
      .of_issued rfl issues (counterAction_of action) ((State.counterCmd_acts form may _).trans (if_neg (ne_true_of_eq_false unlinked)))
  case dec =>
    exact fun s s1 f i e issues action form may =>
      .of_issued rfl issues (counterAction_of action) (State.counterCmd_acts form may _)
  case free =>
    exact fun s s1 f i e issues action form may unlinked =>
      .of_issued rfl issues (counterAction_of action) ((State.counterCmd_acts form may _).trans (if_neg (ne_true_of_eq_false unlinked)))
  case read =>
    exact fun s s1 f i e issues action form may =>
      .of_issued rfl issues (counterAction_of action) (State.counterCmd_acts form may _)
  case stranger =>
    exact fun s s1 f i e issues action form stranger =>
      .of_done rfl issues (counterAction_of action) (State.counterCmd_notOwner form stranger _)
  case post => exact fun s s1 f i e issues posts => .of_done rfl issues rfl (State.tndPost_posts posts)
  case cancel =>
    exact fun s s1 f i e x issues reserved params item owns tag waits =>
      .of_done rfl issues rfl (State.tndCancel_frees reserved params item owns tag waits)
  case notOwner =>
    exact fun s s1 f i e x issues reserved params item other tenant =>
      .of_done rfl issues rfl (State.tndCancel_notOwner reserved params item other tenant)

end

section
/-! A Logbook's enable (O19). -/

namespace Sys2Proof.Machine

/-- A write at LOG_k_CTL is the primary manager's, by that register's rule (R488, R492). -/
theorem State.writeLog_ctl (s : State) (r : Requester) (b : Fin 15) (v : DWord) :
    s.writeLog r (logCtlOff b) v = s.primaryWrite r (logCtlOff b) (fun s => s.writeLogCtl r (logCtlOff b) b v) := by
  have inBlock : 0xD0040 ≤ logCtlOff b ∧ logCtlOff b < 0xD0400 := by
    unfold logCtlOff
    omega
  have place : (logCtlOff b - 0xD0040) % 0x40 = 0 := by
    unfold logCtlOff
    omega
  have index : (logCtlOff b - 0xD0040) / 0x40 = b.val := by
    unfold logCtlOff
    omega
  simp only [State.writeLog, dif_pos inBlock, place, index]

section
variable {s : State} {p : Path} {r : Requester} {b : Fin 15} {v : DWord}

/-- A primary manager's write of LOG_k_CTL that a path brings (R117). -/
theorem State.access_logCtl (brings : s.Brings p r) (primary : (s.arrived p r (logCtlOff b)).isPrimary r = true) :
    s.access p (logCtlOff b) (fun r s => s.writeLog r (logCtlOff b) v) =
      (s.arrived p r (logCtlOff b)).writeLogCtl r (logCtlOff b) b v :=
  (State.access_brings brings _ _).trans ((State.writeLog_ctl _ _ _ _).trans (if_pos primary))

/-- R488: EN = 1 starts logging where the set-up is in range and the Buoy has a home. -/
theorem State.writeLogCtl_starts (en : bitOf v 31 = true) (idle : (s.log b).logging = false) (range : (s.log b).inRange = true)
    (home : (s.buoy b).home.isSome = true) (off : Nat) :
    s.writeLogCtl r off b v =
      s.modLog b (fun x => { x with en := true, logging := true, mapB := false, dirty := [], ending := false }) := by
  simp [State.writeLogCtl, en, idle, range, home]

theorem State.writeLogCtl_refused (en : bitOf v 31 = true) (logs : (s.log b).logging = true) (off : Nat) :
    s.writeLogCtl r off b v = s.refuse r 2 off := by
  simp [State.writeLogCtl, en, logs]

/-- R492: EN = 0 ends what runs. -/
theorem State.writeLogCtl_ends (en : bitOf v 31 = false) (off : Nat) :
    s.writeLogCtl r off b v = s.modLog b (fun x => { x with en := false, fault := false, ending := x.logging }) :=
  if_neg (ne_true_of_eq_false en)

end

end Sys2Proof.Machine

open Sys2Proof Sys2Proof.Machine

/-- Settles O19: the primary manager's write reaches the register's rule, and each bit of EN takes its branch there. -/
theorem logbookStartsAndEnds : Obligations.LogbookStartsAndEnds := by
  unfold Obligations.LogbookStartsAndEnds
  refine ⟨?starts, ?refused, ?ends⟩
  case starts =>
    rintro s _ p r b v brings rfl primary en idle range home
    exact .of_effect rfl
      ((if_pos en).trans ((State.access_logCtl brings primary).trans (State.writeLogCtl_starts en idle range home _)))
  case refused =>
    rintro s _ p r b v brings rfl primary en logs
    exact .of_effect rfl ((if_pos en).trans ((State.access_logCtl brings primary).trans (State.writeLogCtl_refused en logs _)))
  case ends =>
    rintro s _ p r b v brings rfl primary en
    exact .of_effect rfl
      ((if_neg (ne_true_of_eq_false en)).trans ((State.access_logCtl brings primary).trans (State.writeLogCtl_ends en _)))

end

section
/-! Buoys freeze and thaw (O52). -/

namespace Sys2Proof.Machine

/-! The freeze's end (R483). -/

theorem buoyFrozen_ends {s : State} {b : Fin 15} {g : Func} (may : s.mayBeFrozen b = true) (froze : (s.migr b).cmd = some g) :
    Completes (.buoyFrozen b) s
      ((s.modMigr b (fun m => { m with phase := .frozen, cmd := none })).finishCmd g .success s.bcn.count 0) :=
  .of_effect rfl (by simp [State.freezeEnds, may, froze])

theorem buoyFrozen_waits {s : State} {b : Fin 15} (busy : s.mayBeFrozen b = false) : Completes (.buoyFrozen b) s s :=
  .of_effect rfl (if_pos (by simp [busy]))

section
variable {s : State} {f : Func} {e : Entry} {b : Fin 15}

/-! What BUOY_FREEZE and BUOY_THAW end in (R482, R485, R504). -/

/-- R502: a thaw may start once its Buoy can master. -/
theorem State.thawMay_masters (named : migPlain e = some b) (masters : s.canMaster (.buoy b) = true) : s.thawMay e = true := by
  simp [State.thawMay, named, masters]

theorem State.buoyFreeze_starts (named : migPlain e = some b) (primary : s.isPrimaryFn f = true)
    (home : (s.buoy b).home.isSome = true) (runs : (s.migr b).phase = .running) :
    s.buoyFreeze f e =
      .started (((s.modMigr b (fun _ => { phase := .freezing, cmd := some f })).forgetRequester (.buoy b)).postFnEvent
        (.buoy b) 0x09 s.bcn.count 0 0) := by
  have held : (s.buoy b).home.isNone = false := by simpa using home
  simp [State.buoyFreeze, named, primary, held, runs]

theorem State.buoyFreeze_homeless (named : migPlain e = some b) (primary : s.isPrimaryFn f = true)
    (home : (s.buoy b).home = none) : s.buoyFreeze f e = .done s .success 0 1 := by
  simp [State.buoyFreeze, named, primary, home, State.migOutcome]

theorem State.buoyThaw_thaws (named : migPlain e = some b) (primary : s.isPrimaryFn f = true)
    (home : (s.buoy b).home.isSome = true) (frozen : (s.migr b).phase = .frozen) :
    s.buoyThaw f e = .done (s.thaw b) .success (s.frozenFor b) (putField (s.missedCount b) 16 16) := by
  have held : (s.buoy b).home.isNone = false := by simpa using home
  simp [State.buoyThaw, named, primary, held, frozen]

theorem State.buoyThaw_notOwner (named : migPlain e = some b) (tenant : s.isPrimaryFn f = false) :
    s.buoyThaw f e = .done s .notOwner 0 0 := by
  simp [State.buoyThaw, named, tenant]

end

end Sys2Proof.Machine

open Sys2Proof Sys2Proof.Machine

/-- Settles O52: with no other migration command in progress each command ends as its own rules say. -/
theorem buoysFreezeAndThaw : Obligations.BuoysFreezeAndThaw := by
  unfold Obligations.BuoysFreezeAndThaw
  refine ⟨?freeze, fun s b g => buoyFrozen_ends, fun s b => buoyFrozen_waits, ?thaw, ?notOwner, ?homeless⟩
  case freeze =>
    exact fun s s1 f i e b issues free named primary home runs =>
      .of_issued rfl issues (by simp [free]) (State.buoyFreeze_starts named primary home runs)
  case thaw =>
    exact fun s s1 f i e b issues free named masters primary home frozen =>
      .of_done rfl issues (by simp [free, State.thawMay_masters named masters]) (State.buoyThaw_thaws named primary home frozen)
  case notOwner =>
    exact fun s s1 f i e b issues free named masters tenant =>
      .of_done rfl issues (by simp [free, State.thawMay_masters named masters]) (State.buoyThaw_notOwner named tenant)
  case homeless =>
    exact fun s s1 f i e b issues free named primary home =>
      .of_done rfl issues (by simp [free]) (State.buoyFreeze_homeless named primary home)

end

section
/-! Frozen Buoys are saved, restored and re-homed, and Logbooks swap (O53). -/

namespace Sys2Proof.Machine

/-- Words of which none failed parity. -/
def goodWords (ws : List Half) : List (Half × Bool) := ws.map (fun w => (w, false))

theorem goodWords_zipIdx (ws : List Half) :
    ws.zipIdx.map (fun w => (w.1, (none : Option (Fin 4512)).any (fun i => decide (i.val = w.2)))) = goodWords ws :=
  calc
    _ = (ws.zipIdx.map Prod.fst).map (fun w => (w, false)) := List.map_map.symm
    _ = goodWords ws := by rw [List.zipIdx_map_fst]; rfl

theorem goodWords_any (ws : List Half) : (goodWords ws).any Prod.snd = false := by simp [goodWords]

theorem goodWords_fst (ws : List Half) : (goodWords ws).map Prod.fst = ws := by simp [goodWords, Function.comp_def]

section
variable {s : State} {f : Func} {e : Entry} {b : Fin 15}

/-! Saves (R496, R504). -/

/-- R159: what stays in the slot waits for no mastering. -/
theorem State.migMay_slot (named : migAddr f e = some (b, none)) : s.migMay f e = true := by simp [State.migMay, named]

theorem State.migMay_masters {o : Option QWord} (named : migAddr f e = some (b, o)) (masters : s.canMaster f = true) :
    s.migMay f e = true := by
  cases o <;> simp [State.migMay, named, masters]

/-- R496: the image of a frozen Buoy goes to its slot, and the command reports its CRC. -/
theorem State.buoySave_saves (named : migAddr f e = some (b, none)) (primary : s.isPrimaryFn f = true)
    (home : (s.buoy b).home.isSome = true) (frozen : (s.migr b).phase = .frozen)
    (pushed : (s.fn (.buoy b)).pushedCopies.length ≤ 128) (held : (s.fn (.buoy b)).heldEvents.length ≤ 32) :
    s.buoySave f none e =
      .done { s with hst := s.hst.writeWords (imageBase b) (goodWords (s.imageOf b)) } .success (recDWord (s.imageOf b) 14)
        (putField (s.fn (.buoy b)).pushedCopies.length 16 16 ||| putField (s.fn (.buoy b)).heldEvents.length 8 8) := by
  have homed : (s.buoy b).home.isNone = false := by simpa using home
  have few : ¬ (128 < (s.fn (.buoy b)).pushedCopies.length ∨ 32 < (s.fn (.buoy b)).heldEvents.length) := by omega
  rw [← goodWords_zipIdx]
  unfold State.buoySave
  rw [named]
  exact (if_neg (by simp [primary])).trans ((if_neg (ne_true_of_eq_false homed)).trans ((if_neg (by simp [frozen])).trans
    ((if_neg few).trans (if_neg (by simp)))))

theorem State.buoySave_notFrozen {o : Option QWord} (named : migAddr f e = some (b, o)) (primary : s.isPrimaryFn f = true)
    (home : (s.buoy b).home.isSome = true) (runs : (s.migr b).phase ≠ .frozen) (bad : Option (Fin 4512)) :
    s.buoySave f bad e = .done s .success 0 3 := by
  have homed : (s.buoy b).home.isNone = false := by simpa using home
  unfold State.buoySave
  rw [named]
  exact (if_neg (by simp [primary])).trans ((if_neg (ne_true_of_eq_false homed)).trans (if_pos runs))

/-! Restores (R498, R504). -/

theorem State.buoyRestore_slot (named : migAddr f e = some (b, none)) (primary : s.isPrimaryFn f = true)
    (home : (s.buoy b).home.isSome = true) (frozen : (s.migr b).phase = .frozen) (items : List FetchItem) :
    s.buoyRestore f items e = s.restoreSlot b false false := by
  have homed : (s.buoy b).home.isNone = false := by simpa using home
  unfold State.buoyRestore
  rw [named]
  exact (if_neg (by simp [primary])).trans ((if_neg (ne_true_of_eq_false homed)).trans (if_neg (by simp [frozen])))

/-- R504: the form and the CRC of a slot that reads good are checked before its image replaces anything. -/
theorem State.restoreSlot_checks {ws : List Half} {h : HoldingStore}
    (reads : s.hst.readWords 0x1C (imageBase b) imageWords = (goodWords ws, h)) :
    s.restoreSlot b false false =
      if imageOk ws = false then ({ s with hst := h } : State).migOutcome 5
      else if imageCrc ws ≠ recDWord ws 14 then ({ s with hst := h } : State).migOutcome 6
      else ({ s with hst := h } : State).restoreImage b ws := by
  simp [State.restoreSlot, reads, goodWords_any, goodWords_fst]

/-! Re-homing (R501, R504). -/

/-- What follows a new home: the SLOT events, and a function that starts over on the other link. -/
def State.moved (s : State) (b : Fin 15) : State :=
  ((((s.slotEvents b).modReq (Requester.buoy b) (fun q => { q with slot := none })).modFn (.buoy b)
    (fun x => { x with rings := x.rings.map Ring.dropRead })).modMigr b (fun m => { m with rehomed := true }))

theorem State.buoyRehome_moves {l : Link} (named : migPlain e = some b) (primary : s.isPrimaryFn f = true)
    (home : (s.buoy b).home = some l) (slot : s.slotExists l.other b = true) (fit : s.linkFit l.other = true)
    (frozen : (s.migr b).phase = .frozen) (idle : (s.log b).logging = false) :
    s.buoyRehome f e =
      .done ((s.modBuoy b (fun x => { x with home := some l.other })).moved b) .success (BitVec.ofNat 32 l.other.idx.val) 0 := by
  simp only [State.buoyRehome, named, primary, home, slot, fit, frozen, idle]
  rfl

theorem State.moved_buoy (s : State) (b : Fin 15) : (s.moved b).buoy b = s.buoy b := by
  simp [State.moved, (s.slotEvents_leaves b b).2]

theorem State.moved_migr (s : State) (b : Fin 15) : ((s.moved b).migr b).rehomed = true := by
  simp [State.moved]

/-! LOG_SWAP (R491, R504). -/

theorem State.logSwap_swaps (named : migPlain e = some b) (primary : s.isPrimaryFn f = true)
    (home : (s.buoy b).home.isSome = true) (logs : (s.log b).logging = true) :
    s.logSwap f e = .started (s.modLog b (fun x => { x with mapB := !x.mapB, swapCmd := some f })) := by
  have homed : (s.buoy b).home.isNone = false := by simpa using home
  simp [State.logSwap, named, primary, homed, logs]

theorem State.logSwap_idle (named : migPlain e = some b) (primary : s.isPrimaryFn f = true)
    (home : (s.buoy b).home.isSome = true) (idle : (s.log b).logging = false) : s.logSwap f e = .done s .success 0 8 := by
  have homed : (s.buoy b).home.isNone = false := by simpa using home
  simp [State.logSwap, named, primary, homed, idle, State.migOutcome]

end

end Sys2Proof.Machine

open Sys2Proof Sys2Proof.Machine

/-- Settles O53: with no other migration command in progress each command ends as its own rules say. -/
theorem buoysAreSavedAndMoved : Obligations.BuoysAreSavedAndMoved := by
  unfold Obligations.BuoysAreSavedAndMoved
  refine ⟨?save, ?notFrozen, ?restore, fun s b ws h => State.restoreSlot_checks, ?rehome, ?swap⟩
  case save =>
    exact fun s s1 f i e b issues free named primary home frozen pushed held =>
      .of_done rfl issues (by simp [free, State.migMay_slot named]) (State.buoySave_saves named primary home frozen pushed held)
  case notFrozen =>
    exact fun s s1 f i e b o issues free named masters primary home runs =>
      .of_done rfl issues (by simp [free, State.migMay_masters named masters]) (State.buoySave_notFrozen named primary home runs _)
  case restore =>
    exact fun s s1 f i e b issues free named primary home frozen =>
      .of_issued rfl issues (by simp [free, State.migMay_slot named]) (State.buoyRestore_slot named primary home frozen _)
  case rehome =>
    intro s s1 f i e b l issues free named primary home slot fit frozen idle
    refine ⟨_, .of_done rfl issues (by simp [free]) (State.buoyRehome_moves named primary home slot fit frozen idle), ?home,
      State.moved_migr _ _⟩
    rw [State.moved_buoy, State.modBuoy_buoy_self]
  case swap =>
    exact fun s s1 f i e b issues free named primary home =>
      ⟨fun logs => .of_issued rfl issues (by simp [free]) (State.logSwap_swaps named primary home logs),
        fun idle => .of_done rfl issues (by simp [free]) (State.logSwap_idle named primary home idle)⟩

end

section
/-! Tokens and SETUP packets (O48). -/

namespace Sys2Proof.Machine

/-! Answers to tokens (R375, R377, R378, R379). -/

section
variable {s : State} {e : Fin 16}

theorem State.engineEp_off (off : s.ibpRuns = false) (e : Fin 16) : s.engineEp e = false := by simp [State.engineEp, off]

/-- R379: a direction answers STALL where it is disabled, and EP0 never is. -/
theorem enabled_iff {en : Bool} : (!en && decide (e ≠ 0)) = false ↔ en = true ∨ e = 0 := by cases en <;> simp

theorem State.lanIn_disabled (live : s.lan.live = true) (off : s.ibpRuns = false) (ne : e ≠ 0) (closed : (s.lanEp (epIn e)).en = false)
    (acked : Bool) : s.lanIn e acked = s.emit (.lanStall e) := by
  simp [State.lanIn, live, State.engineEp_off off, ne, closed]

theorem State.lanOut_disabled (live : s.lan.live = true) (off : s.ibpRuns = false) (ne : e ≠ 0)
    (closed : (s.lanEp (epOut e)).en = false) {bytes : List (Byte × Bool)} (fits : bytes.length ≤ s.lan.maxp (epOut e)) (toggle : Bool) :
    s.lanOut e toggle bytes = s.emit (.lanStall e) := by
  have notOver : ¬ s.lan.maxp (epOut e) < bytes.length := by omega
  simp [State.lanOut, live, State.engineEp_off off, ne, closed, notOver]

theorem State.lanPing_disabled (live : s.lan.live = true) (off : s.ibpRuns = false) (ne : e ≠ 0) (high : s.lan.high = true)
    (closed : (s.lanEp (epOut e)).en = false) : s.lanPing e = s.emit (.lanStall e) := by
  simp [State.lanPing, live, State.engineEp_off off, ne, closed, high]

/-- An enabled IN direction that is not halted answers by its next buffer. -/
theorem State.lanIn_enabled (live : s.lan.live = true) (off : s.ibpRuns = false) (opened : (s.lanEp (epIn e)).en = true ∨ e = 0)
    (runs : (s.lanEp (epIn e)).halted = false) (acked : Bool) :
    s.lanIn e acked =
      if ((s.lanEp (epIn e)).buf (s.lanEp (epIn e)).next).armed then s.bufferIn e acked else s.emit (.lanNak e) := by
  simp only [State.lanIn, live, State.engineEp_off off, enabled_iff.mpr opened, runs, off, Bool.not_true, Bool.or_self,
    Bool.false_and, Bool.false_eq_true, if_false]

/-- So does an enabled OUT direction, for a packet that its size admits; a repeated toggle is acknowledged and dropped. -/
theorem State.lanOut_enabled (live : s.lan.live = true) (off : s.ibpRuns = false) (opened : (s.lanEp (epOut e)).en = true ∨ e = 0)
    (runs : (s.lanEp (epOut e)).halted = false) {bytes : List (Byte × Bool)} (fits : bytes.length ≤ s.lan.maxp (epOut e))
    (toggle : Bool) :
    s.lanOut e toggle bytes =
      if !((s.lanEp (epOut e)).buf (s.lanEp (epOut e)).next).armed then s.emit (.lanNak e)
      else if toggle ≠ (s.lanEp (epOut e)).toggle then s.emit (.lanAck e)
      else s.bufferOut e bytes := by
  have notOver : ¬ s.lan.maxp (epOut e) < bytes.length := by omega
  simp only [State.lanOut, live, State.engineEp_off off, enabled_iff.mpr opened, runs, off, notOver, decide_false, Bool.not_true,
    Bool.or_self, Bool.false_and, Bool.false_eq_true, if_false]

/-- R378: a PING is answered by whether the buffer is armed. -/
theorem State.lanPing_enabled (live : s.lan.live = true) (off : s.ibpRuns = false) (high : s.lan.high = true)
    (opened : (s.lanEp (epOut e)).en = true ∨ e = 0) (runs : (s.lanEp (epOut e)).halted = false) :
    s.lanPing e = s.emit (if ((s.lanEp (epOut e)).buf (s.lanEp (epOut e)).next).armed then .lanAck e else .lanNak e) := by
  simp only [State.lanPing, live, high, State.engineEp_off off, enabled_iff.mpr opened, runs, off, Bool.not_true, Bool.or_self,
    Bool.false_and, Bool.false_eq_true, if_false]
  exact (apply_ite s.emit _ _ _).symm

end

/-! The end of a buffer (R377, R380): what it tells the Tender touches nothing of the Lantern but its engine and its wake request. -/

theorem State.decrementEngine_lan_eq (s : State) (c : Nat) (tag : DWord) :
    (s.decrementEngine c tag).lan =
      { s.lan with ibp := (s.decrementEngine c tag).lan.ibp, wakeReq := (s.decrementEngine c tag).lan.wakeReq } :=
  congrArg (fun y : Lantern =>
    { y with ibp := (s.decrementEngine c tag).lan.ibp, wakeReq := (s.decrementEngine c tag).lan.wakeReq }) (s.decrementEngine_lan c tag)

/-- The Lantern but for its endpoints, its engine and its wake request. -/
def Lantern.apart (x : Lantern) : Lantern := { x with ep := Vector.replicate 32 {}, ibp := {}, wakeReq := false }

/-- An endpoint direction whose buffer has ended. -/
def LanEp.ended (x : LanEp) (second : Bool) (b : LanBuf) : LanEp :=
  { x.setBuf second { b with armed := false, done := true, used := false, zlpDue := false } with
    next := if x.dbl then !second else false, doneSeq := x.doneSeq + 1 }

theorem LanEp.ended_buf (x : LanEp) (k m : Bool) (b : LanBuf) :
    (x.ended k b).buf m = if m = k then { b with armed := false, done := true, used := false, zlpDue := false } else x.buf m := by
  cases k <;> cases m <;> rfl

theorem State.completeBuf_lan (s : State) (i : Fin 32) (k : Bool) (b : LanBuf) :
    ∃ v w, (s.completeBuf i k b).lan = { (s.modEp i (fun x => x.ended k b)).lan with ibp := v, wakeReq := w } := by
  unfold State.completeBuf
  dsimp only
  split
  case isTrue => exact ⟨_, _, State.decrementEngine_lan_eq _ _ _⟩
  case isFalse => exact ⟨_, _, rfl⟩

theorem State.completeBuf_lanEp (s : State) (i j : Fin 32) (k : Bool) (b : LanBuf) :
    (s.completeBuf i k b).lanEp j = if j = i then (s.lanEp i).ended k b else s.lanEp j := by
  obtain ⟨v, w, lan⟩ := s.completeBuf_lan i k b
  have ep : (s.completeBuf i k b).lanEp j = (s.modEp i (fun x => x.ended k b)).lanEp j :=
    (congrArg (fun x : Lantern => x.ep[j]) lan :)
  rw [ep]
  split
  case isTrue same => rw [same, State.modEp_lanEp_self]
  case isFalse other => exact State.modEp_lanEp_ne _ _ _ _ other

theorem State.completeBuf_apart (s : State) (i : Fin 32) (k : Bool) (b : LanBuf) : (s.completeBuf i k b).lan.apart = s.lan.apart := by
  obtain ⟨v, w, lan⟩ := s.completeBuf_lan i k b
  rw [lan]
  rfl

/-- A buffer that ABORT ends is unarmed. -/
theorem State.abortBuf_unarmed (s : State) (i : Fin 32) (k : Bool) : (((s.abortBuf i k).lanEp i).buf k).armed = false := by
  unfold State.abortBuf
  dsimp only
  split
  case isTrue => simp [State.completeBuf_lanEp, LanEp.ended_buf]
  case isFalse unarmed => simpa using unarmed

/-- It arms no other. -/
theorem State.abortBuf_arms_none {s : State} {j : Fin 32} {m : Bool} (unarmed : ((s.lanEp j).buf m).armed = false) (i : Fin 32)
    (k : Bool) : (((s.abortBuf i k).lanEp j).buf m).armed = false := by
  unfold State.abortBuf
  dsimp only
  split
  case isTrue =>
    rw [State.completeBuf_lanEp]
    split
    case isTrue same =>
      rw [LanEp.ended_buf]
      split
      case isTrue => rfl
      case isFalse => rw [← same, unarmed]
    case isFalse => exact unarmed
  case isFalse => exact unarmed

theorem State.abortEp_unarmed (s : State) (i : Fin 32) (m : Bool) : (((s.abortEp i).lanEp i).buf m).armed = false := by
  unfold State.abortEp
  dsimp only
  by_cases isNext : m = (s.lanEp i).next
  · exact State.abortBuf_arms_none (isNext ▸ s.abortBuf_unarmed i _) i _
  · obtain rfl : m = !(s.lanEp i).next := Bool.eq_not_of_ne isNext
    exact State.abortBuf_unarmed _ i _

theorem State.abortEp_arms_none {s : State} {j : Fin 32} {m : Bool} (unarmed : ((s.lanEp j).buf m).armed = false) (i : Fin 32) :
    (((s.abortEp i).lanEp j).buf m).armed = false :=
  State.abortBuf_arms_none (State.abortBuf_arms_none unarmed i _) i _

theorem State.abortBuf_apart (s : State) (i : Fin 32) (k : Bool) : (s.abortBuf i k).lan.apart = s.lan.apart := by
  unfold State.abortBuf
  dsimp only
  split
  case isTrue => exact State.completeBuf_apart _ _ _ _
  case isFalse => rfl

theorem State.abortEp_apart (s : State) (i : Fin 32) : (s.abortEp i).lan.apart = s.lan.apart :=
  (State.abortBuf_apart _ _ _).trans (State.abortBuf_apart _ _ _)

/-! A SETUP packet (R380), in its three parts. -/

/-- EP0's armed buffers end. -/
def State.setupEnds (s : State) : State := ((s.emit (.lanAck 0)).abortEp (epOut 0)).abortEp (epIn 0)

/-- A direction of EP0 whose halt clears. -/
def LanEp.fresh (x : LanEp) : LanEp := { x with halted := false, toggle := true }

/-- The packet is held and counted. -/
def State.setupHeld (s : State) (b : Vector Byte 8) : State :=
  ((s.setupEnds.modEp (epOut 0) LanEp.fresh).modEp (epIn 0) LanEp.fresh).modLan (fun x =>
    { x with
      setupLo := dwordOfBytes (b.toList.take 4), setupHi := dwordOfBytes (b.toList.drop 4), setup := x.setup.bump
      request := requestOf b })

/-- LAN_SETUP_CTR is told. -/
def State.setupTold (s : State) : State :=
  if s.lan.setupCtrEn then s.decrementEngine s.lan.setupCtr (putField 0xE3 24 8 ||| s.lan.setup.cnt.setWidth 32) else s

theorem State.setupTold_lan (s : State) : ∃ v w, s.setupTold.lan = { s.lan with ibp := v, wakeReq := w } := by
  unfold State.setupTold
  split
  case isTrue => exact ⟨_, _, State.decrementEngine_lan_eq _ _ _⟩
  case isFalse => exact ⟨_, _, rfl⟩

theorem State.setupTold_still (s : State) : s.setupTold.still = s.still := by
  unfold State.setupTold
  split
  case isTrue => exact State.decrementEngine_still _ _ _
  case isFalse => rfl

theorem State.setupHeld_still (s : State) (b : Vector Byte 8) : (s.setupHeld b).still = s.still := by
  simp only [State.setupHeld, State.setupEnds, State.modEp, State.abortEp, State.modLan_still, State.abortBuf_still, State.emit_still]

/-- Whether the engine runs follows the mode, the straps and the boot (R387). -/
theorem State.ibpRuns_congr {s t : State} (same : t.still = s.still) : t.ibpRuns = s.ibpRuns := by
  have md : t.md = s.md := congrArg Still.md same
  have pins : t.pins = s.pins := congrArg Still.pins same
  have boot : t.boot = s.boot := congrArg Still.boot same
  simp only [State.ibpRuns, State.mode, State.strap1, md, pins, boot]

/-- While the engine does not run, a SETUP packet is held for firmware. -/
theorem State.lanSetup_eq {s : State} (off : s.ibpRuns = false) (b : Vector Byte 8) : s.lanSetup b = (s.setupHeld b).setupTold := by
  have same := (State.setupTold_still _).trans (s.setupHeld_still b)
  exact if_neg (ne_true_of_eq_false ((State.ibpRuns_congr same).trans off))

theorem State.setupHeld_out (s : State) (b : Vector Byte 8) : (s.setupHeld b).lan.ep[0] = (s.setupEnds.lanEp (epOut 0)).fresh :=
  (State.modEp_lanEp_ne _ _ _ (epOut 0) (by decide)).trans (State.modEp_lanEp_self _ _ _)

theorem State.setupHeld_in (s : State) (b : Vector Byte 8) : (s.setupHeld b).lan.ep[1] = (s.setupEnds.lanEp (epIn 0)).fresh :=
  (State.modEp_lanEp_self _ (epIn 0) _).trans (congrArg LanEp.fresh (State.modEp_lanEp_ne _ _ _ (epIn 0) (by decide)))

theorem State.setupHeld_setup (s : State) (b : Vector Byte 8) : (s.setupHeld b).lan.setup = s.lan.setup.bump := by
  have counted : s.setupEnds.lan.apart = s.lan.apart := (State.abortEp_apart _ _).trans (State.abortEp_apart _ _)
  have setup : s.setupEnds.lan.setup = s.lan.setup := (congrArg Lantern.setup counted :)
  simp only [State.setupHeld, State.modLan_lan, State.modEp, setup]

/-- R380: what a SETUP packet leaves of EP0. -/
theorem State.lanSetup_lan {s : State} (off : s.ibpRuns = false) (b : Vector Byte 8) :
    (s.lanSetup b).lan.setupLo = dwordOfBytes (b.toList.take 4) ∧ (s.lanSetup b).lan.setupHi = dwordOfBytes (b.toList.drop 4) ∧
      (s.lanSetup b).lan.setup = s.lan.setup.bump ∧ (s.lanSetup b).lan.ep[0].halted = false ∧
      (s.lanSetup b).lan.ep[1].halted = false ∧ (s.lanSetup b).lan.ep[0].buf0.armed = false ∧
      (s.lanSetup b).lan.ep[1].buf0.armed = false := by
  obtain ⟨v, w, told⟩ := (s.setupHeld b).setupTold_lan
  have outEnds : (s.setupEnds.lanEp (epOut 0)).buf0.armed = false :=
    State.abortEp_arms_none (m := false) (State.abortEp_unarmed _ _ false) (epIn 0)
  have inEnds : (s.setupEnds.lanEp (epIn 0)).buf0.armed = false := State.abortEp_unarmed _ (epIn 0) false
  rw [State.lanSetup_eq off, told]
  dsimp only
  rw [State.setupHeld_out, State.setupHeld_in]
  exact ⟨rfl, rfl, s.setupHeld_setup b, rfl, rfl, outEnds, inEnds⟩

/-! LAN_ADDR (R372). -/

/-- R387: firmware writes a register of its own while the engine does not serve EP0. -/
theorem State.lanGuard_firmware {s : State} {r : Requester} {engines : Bool} (firmware : r.firmware = true)
    (own : (engines && s.ibpRuns) = false) (off : Nat) (act : State → State) : s.lanGuard r off engines act = act s :=
  if_neg (by simp [firmware, own])

/-- The status stage of SET_ADDRESS takes the address that firmware wrote. -/
theorem State.statusDone_address {s : State} {a n : Nat} (off : s.ibpRuns = false) (request : s.lan.request = .setAddress n)
    (written : s.lan.addrPend = some a) : s.statusDone.lan.addr = a ∧ s.statusDone.lan.addrPend = none := by
  simp [State.statusDone, off, request, written, Lantern.takeAddress]

end Sys2Proof.Machine

open Sys2Proof Sys2Proof.Machine

/-- Settles O48: tokens by the state of their direction and its next buffer, a SETUP packet by its three parts. -/
theorem tokensAreAnswered : Obligations.TokensAreAnswered := by
  unfold Obligations.TokensAreAnswered
  refine ⟨?tokens, ?setup, ?packet, ?address, ?status⟩
  case tokens =>
    intro s e live off
    refine ⟨?inDisabled, ?outDisabled, ?pingDisabled, ?inEnabled, ?outEnabled, ?pingEnabled⟩
    case inDisabled => exact fun acked ne closed => .of_effect rfl (State.lanIn_disabled live off ne closed acked)
    case outDisabled => exact fun t b ne closed fits => .of_effect rfl (State.lanOut_disabled live off ne closed fits t)
    case pingDisabled => exact fun ne high closed => .of_effect rfl (State.lanPing_disabled live off ne high closed)
    case inEnabled =>
      intro acked opened runs
      have answer := State.lanIn_enabled live off opened runs acked
      exact ⟨fun unarmed => .of_effect rfl (answer.trans (if_neg (ne_true_of_eq_false unarmed))),
        fun armed => .of_effect rfl (answer.trans (if_pos armed))⟩
    case outEnabled =>
      intro t b opened runs fits
      have answer := State.lanOut_enabled live off opened runs fits t
      exact ⟨fun unarmed => .of_effect rfl (answer.trans (if_pos (by simp [unarmed]))),
        fun armed same => .of_effect rfl (answer.trans ((if_neg (by simp [armed])).trans (if_neg (by simp [same]))))⟩
    case pingEnabled => exact fun high opened runs => .of_effect rfl (State.lanPing_enabled live off high opened runs)
  case setup => exact fun s b live => .of_effect rfl (if_pos live)
  case packet => exact fun s b off => State.lanSetup_lan off b
  case address =>
    rintro s _ p r v brings rfl firmware off
    exact .of_effect rfl ((State.access_brings brings _ _).trans (State.lanGuard_firmware firmware (by simp [off]) _ _))
  case status => exact fun s a n off request written => State.statusDone_address off request written

end

section
/-! Suspend, L1, resume and frames (O49). -/

namespace Sys2Proof.Machine

/-- A field that is put lies below the bits beyond it. -/
theorem putField_low_extractLsb' {v n lo m : Nat} (below : n ≤ lo) (word : lo ≤ 32) : (putField v 0 n).extractLsb' lo m = 0#m := by
  apply BitVec.eq_of_toNat_eq
  have small : v % 2 ^ n < 2 ^ lo := (Nat.mod_lt _ (by positivity)).trans_le (Nat.pow_le_pow_right (by decide) below)
  have fits : v % 2 ^ n < 2 ^ 32 := small.trans_le (Nat.pow_le_pow_right (by decide) word)
  simp only [putField, BitVec.extractLsb'_toNat, BitVec.toNat_ofNat, pow_zero, mul_one, Nat.mod_eq_of_lt fits,
    Nat.shiftRight_eq_div_pow, Nat.div_eq_of_lt small, Nat.zero_mod]

/-- A field that is put is read back. -/
theorem fieldNat_putField_high (v : Nat) : fieldNat (putField v 16 16) 16 16 = v % 65536 := by
  simp only [fieldNat, putField, BitVec.toNat_ofNat]
  omega

/-- R386: LAN_SOF_STAMP holds the low half of COUNT in its upper half. -/
theorem sofStamp_count (count offset : Nat) (runs : Bool) :
    fieldNat (putField count 16 16 ||| putBit runs 15 ||| putField offset 0 14) 16 16 = count % 65536 := by
  have bit : (putBit runs 15).extractLsb' 16 16 = 0#16 := by cases runs <;> decide
  rw [fieldNat_or (putField_low_extractLsb' (by decide) (by decide)), fieldNat_or bit, fieldNat_putField_high]

/-- An accepted LPM token takes the bus to L1 (R384, Table 13.5). -/
theorem State.lanLpm_accepted {s : State} {link besl : Fin 16} (live : s.lan.live = true) (permits : s.lan.lpmEnTaken = true)
    (l1 : link = 1) (long : s.lan.beslTaken ≤ besl.val) (whole : s.lan.partlyUsed = false) (rwe : Bool) :
    s.lanLpm link besl rwe =
      (s.modLan (fun x => { x with lpmResp := 1, lpmRwe := rwe, lpmBesl := besl.val, state := .l1 })).emit (.lanAck 0) := by
  have notShort : ¬ besl.val < s.lan.beslTaken := by omega
  simp [State.lanLpm, live, permits, l1, notShort, whole]

/-- One that LPM_EN or its link state does not permit is stalled. -/
theorem State.lanLpm_refused {s : State} {link : Fin 16} (live : s.lan.live = true) (no : s.lan.lpmEnTaken = false ∨ link ≠ 1)
    (besl : Fin 16) (rwe : Bool) :
    s.lanLpm link besl rwe =
      (s.modLan (fun x => { x with lpmResp := 3, lpmRwe := rwe, lpmBesl := besl.val })).emit (.lanStall 0) := by
  rcases no with disabled | other
  · simp [State.lanLpm, live, disabled]
  · simp [State.lanLpm, live, other]

end Sys2Proof.Machine

open Sys2Proof Sys2Proof.Machine

/-- Settles O49: each bus event by the branch of its command. -/
theorem lanternFollowsTheBus : Obligations.LanternFollowsTheBus := by
  unfold Obligations.LanternFollowsTheBus
  refine ⟨?suspend, ?resume, ?accepted, ?refused, ?wake, ?wakeEnd, ?frame, ?missing⟩
  case suspend => exact fun s live => .of_effect rfl (if_pos (by simp [live]))
  case resume =>
    intro s suspended
    refine .of_effect rfl ?_
    rw [suspended]
  case accepted =>
    exact fun s link besl rwe live permits l1 long whole => .of_effect rfl (State.lanLpm_accepted live permits l1 long whole rwe)
  case refused => exact fun s link besl rwe live no => .of_effect rfl (State.lanLpm_refused live no besl rwe)
  case wake =>
    rintro s _ p r v idle brings rfl firmware asked may
    exact .of_effect rfl ((State.access_brings brings _ _).trans
      ((State.lanGuard_firmware firmware rfl _ _).trans (if_pos (by rw [asked, may]; rfl))))
  case wakeEnd => exact fun s => .of_effect rfl rfl
  case frame =>
    intro s frame offset live
    refine ⟨s.lanSof frame offset, .of_effect rfl rfl, ?_⟩
    have eq : s.lanSof frame offset = _ := if_neg (by simp [live])
    rw [eq]
    refine ⟨rfl, rfl, sofStamp_count _ _ _, ?_, ?_⟩
    · exact fun valid same => if_neg (by simp [same])
    · exact fun valid other => if_pos (by simp [valid, other])
  case missing => exact fun s up addressed valid => .of_effect rfl (if_pos (by simp [up, addressed, valid]))

end

section
/-! Enabling an endpoint direction while the Ibley engine runs (O47). -/

namespace Sys2Proof.Machine

/-- BRIDGE with the bridge strap, so that the Ibley engine runs, and firmware runs on keeper 0. -/
def bridgeFirmware : State :=
  { State.reset with
    md := { mode := .bridge }
    pins := { State.reset.pins with strap := 2 }
    kpr := { k := (Vector.replicate 12 {}).set 0 { run := .item 0 } }
    tnd := { State.reset.tnd with
      items := [(0, { dwords := Vector.replicate 6 0, owner := .mfA, state := .running, keeper := some 0 })] } }

theorem bridgeFirmware_brings : bridgeFirmware.Brings (.keeper 0) (.keeper 0) := State.brings_keeper (by decide +kernel)

/-- R387: firmware's write that sets EN is refused while the engine runs. -/
theorem State.writeEpCfg_engine {s : State} {v : DWord} (runs : s.ibpRuns = true) (sets : bitOf v 31 = true) (r : Requester) (i : Fin 32) :
    s.writeEpCfg r i v = s.refuse r 2 (epOff i 0) :=
  if_pos (by simp [runs, sets])

/-- A refusal to a keeper is counted. -/
theorem State.refuse_keeper_count (s : State) (k : Fin 12) (reason off : Nat) :
    (s.refuse (.keeper k) reason off).reg.refuse = s.reg.refuse.bump := rfl

/-- A command has one completion, so two that are claimed count the same refusals. -/
theorem Completes.refusals_eq {c : Instr} {s u v : State} (one : Completes c s u) (other : Completes c s v) :
    u.reg.refuse = v.reg.refuse := by
  have same : s.after u = s.after v := Host.Outcome.next.inj (one.symm.trans other)
  rw [← State.after_refuse s u, same, State.after_refuse]

/-- The write that would enable EP15 IN is refused, and counted. -/
theorem bridgeFirmware_epEnable :
    Completes (.epEnable (.keeper 0) 31 0x80000000) bridgeFirmware
      ((bridgeFirmware.arrived (.keeper 0) (.keeper 0) (epOff 31 0)).refuse (.keeper 0) 2 (epOff 31 0)) :=
  .of_effect rfl ((State.access_brings bridgeFirmware_brings _ _).trans
    (State.writeEpCfg_engine (by decide +kernel) (by decide) _ _))

end Sys2Proof.Machine

open Sys2Proof Sys2Proof.Machine

/-- Refutes O47: while the Ibley engine runs, firmware's write that sets EN of EP15 IN is refused (R387), and not carried out. -/
theorem not_lanternConnects : ¬ Obligations.LanternConnects := by
  unfold Obligations.LanternConnects
  rintro ⟨-, -, -, -, -, -, enable, -⟩
  have enabled := enable bridgeFirmware _ (.keeper 0) (.keeper 0) 31 0x80000000 bridgeFirmware_brings rfl rfl (by decide) (by decide)
    (by decide +kernel) (by decide +kernel)
  have uncounted := bridgeFirmware_epEnable.refusals_eq enabled
  rw [State.refuse_keeper_count] at uncounted
  exact absurd uncounted (by decide +kernel)

end
